-- ==== Sys2Proof/Word.lean ====
section
/-! DEFINITION. The word types of the AB1664: bytes, 64-bit words, 64 B lines and 72 B coded lines (R8, R305). -/

namespace Sys2Proof

/-- One byte on a link, in a buffer or in DRAM. -/
abbrev Byte := BitVec 8

/-- A 64-bit word: the operand of an atomic, a counter half, a completion result. -/
abbrev Word := BitVec 64

/-- A 64 B line. Bit 0 is the least significant bit of byte 0 (R8). -/
abbrev Line := BitVec 512

/-- A coded line of 72 B: the 64 line bytes, then the 8 check bytes (R306). -/
abbrev CodedLine := BitVec 576

end Sys2Proof
end

