-- ==== Sys2Proof/Syntax.lean ====
section
/-! DEFINITION. The commands of the block: one constructor of `Instr` for each row of the spec's table of operations
and events, with the row's operands. Quantities that the part measures (an error count, a sensor reading, the taps a
trim probe passes, a signature) are operands of the event that delivers them. -/

namespace Sys2Proof

/-- The gauges of R67, in ascending order of rate. -/
inductive Gauge where
  | g10 | g25 | g53 | g106
deriving DecidableEq, Repr

/-- A direction of a port, seen from the stack: `rx` is partner to stack. -/
inductive Dir where
  | rx | tx
deriving DecidableEq, Repr

/-- Why a receive lane loses lock (R92): its CDR; the sync headers of the blocks it received (R76), bit 0 the bit received
first; or its FEC-corrected symbols in 400 ns. -/
inductive LossCause where
  | cdr
  | headers (blocks : List (BitVec 2))
  | corrected (symbols : Nat)
deriving DecidableEq, Repr

/-- A lane that loses lock, and why (R92). -/
structure LostLane where
  lane : Fin 16
  cause : LossCause
deriving DecidableEq, Repr

/-- What the receivers find swapped as a lane locks: the lane's pair, and the FCK pair (R66). -/
structure Swaps where
  lane : Bool
  fck : Bool
deriving DecidableEq, Repr

/-- A TS_EQ set received on a lane, and what the lane's receiver then asks for, as coef_req packs it (R80, R90). -/
structure EqSet where
  os : BitVec 128
  ask : BitVec 6
deriving DecidableEq, Repr

/-- A line whose burst came back uncorrectable, and the bits that the transfer itself had turned (R175). -/
structure BadBurst where
  line : Fin 32
  turned : CodedLine
deriving DecidableEq, Repr

/-- What a register transfer of R448 carries behind its register code: the bytes of a write, or the count that a read
takes. -/
inductive RegisterData where
  | write (bytes : List Byte)
  | read (count : Nat)
deriving DecidableEq, Repr

/-- A conversion of a diode sensor: its raw reading in units of 0.125 °C, none for an open diode, and the event pulses
that reached each crossing of R417 within one of its round trips since the last conversion, as the number of the
crossing's destination in R496 and the pulses. -/
structure SensorReading where
  raw : Option Int
  pulses : List (Nat × Nat)
deriving DecidableEq, Repr

/-- The vertical paths of R369. -/
inductive Path where
  | column | skein | command
deriving DecidableEq, Repr

/-- The blocks that can fence (R19). -/
inductive BlockId where
  | port (n : Fin 4)
  | channel (n : Fin 32)
  | pointer (n : Fin 4)
  | bobbin (n : Fin 4)
  | counter (n : Fin 4)
  | crypto (n : Fin 4)
  | kennel (n : Fin 8)
  | copy
deriving DecidableEq, Repr

/-- The rails of R562, numbered as the rule numbers them. -/
inductive Rail where
  | vddCore | vddSram | vddSd | vddSdh | vddIo | vddDram | vpp | vfuse
deriving DecidableEq, Repr

/-- The phase-locked loops whose loss of lock R433 reports. -/
inductive Pll where
  | quarter (q : Fin 4)
  | hub
  | management
deriving DecidableEq, Repr

/-- What a quiesce point is taken on: a partition under R42, or a table under R193. -/
inductive QuiesceTarget where
  | partition (pd : Fin 64)
  | table (td : Fin 16)
deriving DecidableEq, Repr

/-- The fields of a request header of R30, less the opcode, which the command names. -/
structure Hdr where
  tag : BitVec 14
  partition : BitVec 6
  cls : BitVec 3
  deadline : BitVec 11
  lengthCode : BitVec 4
  address : BitVec 36
  aux : BitVec 48
deriving DecidableEq, Repr

/-- A request: its header and the bytes of its payload slots (R31). -/
structure Req where
  hdr : Hdr
  payload : List Byte
deriving DecidableEq, Repr

/-- A Krejo command frame as its mailbox holds it (R441), less the opcode, which the command names. `argLength` is
the field as written; `args` are the bytes that follow the header. -/
structure Frame where
  seq : BitVec 16
  argLength : BitVec 16
  notify : Bool
  reserved : BitVec 79
  args : List Byte
deriving DecidableEq, Repr

/-- What the probes of a trim find for one tap value (R526): the taps at which every wire of its path passes, among
the wires that pass anywhere, and the wire whose own window is narrowest. -/
structure TapProbe where
  pass : BitVec 64
  path : Path
  narrowWire : Nat
deriving DecidableEq, Repr

/-- What a whole trim finds: the three probes, the wires with no passing tap, and whether no tap passes on at least
90% of some path's wires (R368). -/
structure TrimProbe where
  cclk : TapProbe
  skclk : TapProbe
  rx : TapProbe
  dead : List (Path × Nat)
  below90 : Bool
deriving DecidableEq, Repr

/-- What a fuse word reads after its pulses, at the low and the high reference (R510), for the word at which a burn
fails its verification. -/
structure BurnStop where
  word : Nat
  low : BitVec 32
  high : BitVec 32
deriving DecidableEq, Repr

/-- The eye that a lane re-tune measured on one lane (R528). -/
structure LaneEye where
  lane : Fin 16
  widthMui : Nat
  heightMv : Nat
deriving DecidableEq, Repr

/-- What an ending task or activity measured (R445). `plain` carries nothing. -/
inductive Measure where
  | plain
  /-- R522: the run-complete flag, the applied count and the MISR contents; `late` when it outlasted 1.2 times its hold. -/
  | bist (complete : Bool) (applied : Nat) (signature : BitVec 64) (late : Bool)
  /-- R525: failing words found, and how many of them redundancy took. -/
  | mbist (failing repaired : Nat)
  /-- R528: the eyes of the lanes of the mask. -/
  | retune (eyes : List LaneEye)
  /-- R510: the word at which a burn, lock or reburn failed, if any. -/
  | burn (stop : Option BurnStop)
  /-- R526: what the trim of a `VTRIM` or a `WIRE_REPAIR` found. -/
  | trim (probe : TrimProbe)
deriving DecidableEq, Repr

/-- The registers and arrays whose SRAM word the walk of R326 can find uncorrectable. -/
inductive SramOwner where
  | block (b : BlockId)
  /-- A write-queue word of a channel controller (R21). -/
  | writeQueue (c : Fin 32)
  /-- A held Kennel line, by slice, set and way (R267, R350). -/
  | kennelWay (slice : Fin 8) (set : Fin 4096) (way : Fin 16)
  /-- A queue descriptor (R242). -/
  | queueDescriptor (q : BitVec 18)
  /-- A root-directory entry (R214). -/
  | directory (index : Fin 262144)
  /-- An anchor entry of a data granule of a SEALED partition (R347). -/
  | anchor (pd : Fin 64) (granule : Fin 1024) (entry : Fin 32)
  /-- A word of the hub's granule map (R19, R154). -/
  | granuleMap (granule : Fin 1024)
  /-- A word of a Bobbin slice's free-cell cache of one partition (R231). -/
  | freeCache (slice : Fin 4) (pd : Fin 64)
  /-- A stash set of a table (R201). -/
  | stash (td : Fin 16) (set : Nat)
  /-- Management SRAM. -/
  | management
deriving DecidableEq, Repr

/-- What the walk of R326 finds in one word. -/
inductive SramFinding where
  | clean | corrected | uncorrectable
deriving DecidableEq, Repr

/-- The records of the configuration store (R436), each of which R437 can lose. -/
inductive ConfigRecord where
  | partition (pd : Fin 64)
  | table (td : Fin 16)
  | binding (pd : Fin 64)
  | feature
  /-- The persistent parameters of R438. -/
  | parameters
deriving DecidableEq, Repr

/-- The persistent counters of R436, each with its safe value under R439. -/
inductive MramCounter where
  | salt (p : Fin 4)
  | bond (i : Fin 20)
  | minPatchVersion
  | rekeyPointer (pd : Fin 64)
  | coldStartCount
  | warmResetCount
  | tripCount
  | railFaultCount
  | coreResetCount
  | epoch
  | logCount
  | ackIndex
  | activeBank
deriving DecidableEq, Repr

/-- What a start-up phase found of the physical part (R428, R429). -/
structure StartReport where
  refclk : Bool := true
  hubPll : Bool := true
  managementPll : Bool := true
  romOk : Bool := true
  lockstepOk : Bool := true
  /-- SRAM of the hub, the anchor table, the granule map or the management subsystem failed after repair. -/
  hubSramBad : Bool := false
  /-- Blocks whose SRAM failed its test after repair. -/
  sramBad : List BlockId := []
  /-- Kennel ways that failed it, as slice, set and way. -/
  waysBad : List (Fin 8 × Fin 4096 × Fin 16) := []
  quarterPll : BitVec 4 := 0xF
  /-- Channels that failed their trim or echo test in phase 4, or fenced during the fill in phase 5. -/
  channelsBad : List (Fin 32) := []
  /-- What the first trims found, by channel; a channel that is not listed keeps its tap values. -/
  trims : List (Fin 32 × TrimProbe) := []
  /-- Records that copy A and copy B of the configuration store hold with a failed CRC. -/
  configBadA : List ConfigRecord := []
  configBadB : List ConfigRecord := []
  /-- The copies of the repair log whose CRC fails. -/
  repairBadA : Bool := false
  repairBadB : Bool := false
  mramErrors : List MramCounter := []
  /-- log_counts of records whose word in the log ring is uncorrectable, and patch banks with such a word. -/
  logBad : List Nat := []
  bankBadA : Bool := false
  bankBadB : Bool := false
  /-- Records whose words in MRAM no longer take a write (R437). -/
  stuck : List ConfigRecord := []
  /-- How long the phase took. -/
  elapsedNs : Nat := 0
deriving DecidableEq, Repr

/-- The commands and events of the table of operations, one constructor a row. -/
inductive Instr where
  -- QTL requests
  | nop (p : Fin 4) (r : Req)
  | fenceComplete (p : Fin 4) (tag : BitVec 14)
  | read (p : Fin 4) (r : Req)
  | write (p : Fin 4) (r : Req)
  | writeMask (p : Fin 4) (r : Req)
  | atomAdd (p : Fin 4) (r : Req)
  | atomFadd (p : Fin 4) (r : Req)
  | atomSwap (p : Fin 4) (r : Req)
  | atomCas (p : Fin 4) (r : Req)
  | atomPadd128 (p : Fin 4) (r : Req)
  | lookupExact (p : Fin 4) (r : Req)
  | lookupPrefix (p : Fin 4) (r : Req)
  | tableUpdate (p : Fin 4) (r : Req)
  | ctrUpdate (p : Fin 4) (r : Req)
  | polUpdate (p : Fin 4) (r : Req)
  | ctrRead (p : Fin 4) (r : Req)
  | enqueue (p : Fin 4) (r : Req)
  | packetLink (q : BitVec 18)
  | dequeue (p : Fin 4) (r : Req)
  | streamStart (q : BitVec 18)
  | dequeueHandover (q : BitVec 18)
  | queueQuery (p : Fin 4) (r : Req)
  | skeinCopy (p : Fin 4) (r : Req)
  | rowFill (p : Fin 4) (r : Req)
  | mailbox (p : Fin 4) (r : Req)
  | statusRead (p : Fin 4) (r : Req)
  | reservedOpcode (p : Fin 4) (opcode : BitVec 6) (r : Req)
  -- quiesce points, fences, isolation
  | quiescePoint (t : QuiesceTarget)
  | quiesceTimeout (t : QuiesceTarget)
  | blockFence (b : BlockId) (sramFailed : Bool)
  | fenceTimeout (b : BlockId)
  | autoBlockReset (b : BlockId) (echo : List Nat)
  | quarterIsolation (q : Fin 4) (cause : BitVec 4) (code : BitVec 16)
  | quarterIsolated (q : Fin 4)
  | isolationTimeout (q : Fin 4)
  | quarterResetDone (q : Fin 4)
  -- training
  | receiverDetect (p : Fin 4) (activity : BitVec 16)
  | acquireTimeout (p : Fin 4)
  | alignTimeout (p : Fin 4)
  | capsTimeout (p : Fin 4)
  | eqTimeout (p : Fin 4)
  | checkTimeout (p : Fin 4)
  | switchTimeout (p : Fin 4)
  | newGaugeLock (p : Fin 4)
  | checkWindowEnd (p : Fin 4) (errors : List Nat)
  | fallbackCheckEnd (p : Fin 4) (errors : List Nat)
  | ts1 (p : Fin 4) (lane : Fin 16) (inverted : Swaps) (os : BitVec 128)
  | ts2 (p : Fin 4) (lane : Fin 16) (os : BitVec 128)
  | tsEq (p : Fin 4) (lane : Fin 16) (os : EqSet)
  | tsCheck (p : Fin 4) (lane : Fin 16) (os : BitVec 128)
  | gaugeSwitch (p : Fin 4) (lane : Fin 16) (os : BitVec 128)
  | idleEnter (p : Fin 4) (lane : Fin 16) (os : BitVec 128)
  | idleExit (p : Fin 4) (lane : Fin 16) (os : BitVec 128)
  | fckDown (p : Fin 4) (lane : Fin 16) (os : BitVec 128)
  | loopReq (p : Fin 4) (lane : Fin 16) (os : BitVec 128)
  | align (p : Fin 4) (lane : Fin 16) (os : BitVec 128)
  | electricalIdleEntry (p : Fin 4)
  | heartbeatStatus (p : Fin 4)
  | laneLost (p : Fin 4) (d : Dir) (lane : LostLane)
  | widthChange (p : Fin 4) (msg : BitVec 128)
  | widthChangeRepeat (p : Fin 4)
  | groupRetrain (p : Fin 4) (d : Dir) (group : Fin 4) (errors : List Nat)
  | laneReadded (p : Fin 4) (d : Dir) (group : Fin 4)
  | fckLost (p : Fin 4)
  | fckRestored (p : Fin 4)
  | lanesLostAll (p : Fin 4)
  | recoveryTimeout (p : Fin 4)
  -- link
  | nullFlit (p : Fin 4) (flit : List Byte)
  | dataFlit (p : Fin 4) (flit : List Byte)
  | tagFlit (p : Fin 4) (flit : List Byte)
  | status (p : Fin 4) (msg : BitVec 128)
  | nak (p : Fin 4) (msg : BitVec 128)
  | ackDue (p : Fin 4)
  | replayTimer (p : Fin 4)
  | heartbeatTimeout (p : Fin 4)
  | hello (p : Fin 4) (msg : BitVec 512)
  | helloTimeout (p : Fin 4)
  | bindLockoutEnd (p : Fin 4)
  | detach (p : Fin 4)
  | detachAck (p : Fin 4)
  | eventOverflow (p : Fin 4)
  -- channel controllers
  | act (c : Fin 32) (bank : Fin 16) (row : Fin 65600)
  | pre (c : Fin 32) (bank : Fin 16)
  | refpb (c : Fin 32) (bank : Fin 16)
  | columnRead (c : Fin 32) (bank : Fin 16) (line : Fin 32)
  | columnWrite (c : Fin 32) (bank : Fin 16) (line : Fin 32)
  | skrd (c : Fin 32) (bank : Fin 16)
  | skwr (c : Fin 32) (bank : Fin 16) (image : List Line)
  | nopWord (c : Fin 32)
  | refreshTimer (c : Fin 32) (bank : Fin 16)
  | budgetWindow (c : Fin 32)
  | fallbackExit (c : Fin 32)
  | agePromotion (c : Fin 32)
  | writeQueueEntry (c : Fin 32)
  | caParity (c : Fin 32)
  | readRetry (c : Fin 32) (bank : Fin 16) (row : Fin 65600) (burst : BadBurst)
  | powerDownEntry (c : Fin 32)
  | selfRefreshEntry (c : Fin 32)
  | selfRefreshExit (c : Fin 32)
  -- counters, Collie
  | counterFlush (pd : Fin 64) (line : BitVec 30)
  | policerSweep (pd : Fin 64) (late : Bool)
  | heldRelease (p : Fin 4)
  | gatePromote (p : Fin 4) (tag : BitVec 14)
  | requestBusy (p : Fin 4) (tag : BitVec 14)
  | partnerPanicStuck (p : Fin 4)
  | missWindow
  | guaranteeRestored
  -- integrity, sealing movers
  | spotCheck (c : Fin 32)
  | patrolRead (c : Fin 32)
  | scrubLate (c : Fin 32)
  | sramWalk (owner : SramOwner) (finding : SramFinding)
  | granuleRefill
  | rekeyStep (pd : Fin 64)
  | keyLockoutEnd
  -- vertical interface, repair, wear
  | verticalTrim (c : Fin 32) (probe : TrimProbe)
  | trimRetry (c : Fin 32) (probe : TrimProbe)
  | shiftRepair (c : Fin 32) (path : Path) (wire : Nat) (probe : TrimProbe)
  | channelRetiring (c : Fin 32)
  | migrationCopy
  | slabSwitchover
  | postPackageRepair (c : Fin 32) (bank : Fin 16) (row : Fin 65600)
  | layerKeeper (c : Fin 32)
  | bondSample
  | bondStore
  -- heat
  | sensorSample (k : Fin 17) (reading : SensorReading)
  | throttleRecompute
  | governorWindow (powerDw fixedDw : Nat) (quarterDw : List Nat)
  | flowTest
  | coolantFlowOk
  | oclkTrim
  -- clocks, resets, start-up
  | refclkLost
  | refclkRestored
  | pllUnlock (pll : Pll)
  | powerOnReset
  | rstL (high : Bool) (strap : BitVec 2)
  | wrstL (high : Bool)
  | startupPhase (report : StartReport)
  | refclkWaitTimeout
  | lockstepReset
  | watchdogReset
  | coreRebootDone
  | patchProbation
  | eventSuppressed
  | commandDone (ticket : BitVec 16) (m : Measure)
  | maintStart
  -- Krejo commands
  | identify (mb : Fin 6) (f : Frame)
  | deviceStatus (mb : Fin 6) (f : Frame)
  | taskStatus (mb : Fin 6) (f : Frame)
  | logRead (mb : Fin 6) (f : Frame)
  | alertAck (mb : Fin 6) (f : Frame)
  | sensorRead (mb : Fin 6) (f : Frame)
  | paramRead (mb : Fin 6) (f : Frame)
  | paramWrite (mb : Fin 6) (f : Frame)
  | paramPersist (mb : Fin 6) (f : Frame)
  | partitionCreate (mb : Fin 6) (f : Frame)
  | partitionResize (mb : Fin 6) (f : Frame)
  | partitionDelete (mb : Fin 6) (f : Frame)
  | partitionModify (mb : Fin 6) (f : Frame)
  | partitionRights (mb : Fin 6) (f : Frame)
  | partitionRekey (mb : Fin 6) (f : Frame)
  | keyLoad (mb : Fin 6) (f : Frame)
  | keyClear (mb : Fin 6) (f : Frame)
  | tableCreate (mb : Fin 6) (f : Frame)
  | tableDelete (mb : Fin 6) (f : Frame)
  | tableSlotRelease (mb : Fin 6) (f : Frame)
  | queueCreate (mb : Fin 6) (f : Frame)
  | queueModify (mb : Fin 6) (f : Frame)
  | queueDelete (mb : Fin 6) (f : Frame)
  | queueReset (mb : Fin 6) (f : Frame)
  | bufferReset (mb : Fin 6) (f : Frame)
  | collieSet (mb : Fin 6) (f : Frame)
  | portTrain (mb : Fin 6) (f : Frame)
  | portTest (mb : Fin 6) (f : Frame)
  | laneGroupRestore (mb : Fin 6) (f : Frame)
  | laneRetune (mb : Fin 6) (f : Frame)
  | vtrim (mb : Fin 6) (f : Frame)
  | wireRepair (mb : Fin 6) (f : Frame)
  | rowRepair (mb : Fin 6) (f : Frame)
  | channelRetire (mb : Fin 6) (f : Frame)
  | channelHold (mb : Fin 6) (f : Frame)
  | sensorRestore (mb : Fin 6) (f : Frame)
  | deviceReset (mb : Fin 6) (f : Frame)
  | quarterReset (mb : Fin 6) (f : Frame)
  | blockReset (mb : Fin 6) (f : Frame)
  | bistRun (mb : Fin 6) (f : Frame)
  | mbistRun (mb : Fin 6) (f : Frame)
  | calReport (mb : Fin 6) (f : Frame)
  | maintStatus (mb : Fin 6) (f : Frame)
  | maintCancel (mb : Fin 6) (f : Frame)
  | patchLoad (mb : Fin 6) (f : Frame)
  | patchActivate (mb : Fin 6) (f : Frame)
  | featureEnable (mb : Fin 6) (f : Frame)
  | configExport (mb : Fin 6) (f : Frame)
  | configImport (mb : Fin 6) (f : Frame)
  | fuseRead (mb : Fin 6) (f : Frame)
  | fuseShadowSet (mb : Fin 6) (f : Frame)
  | fuseBurn (mb : Fin 6) (f : Frame)
  | fuseLock (mb : Fin 6) (f : Frame)
  | fuseReburn (mb : Fin 6) (f : Frame)
  | memRead (mb : Fin 6) (f : Frame)
  | memWrite (mb : Fin 6) (f : Frame)
  | windowRead (mb : Fin 6) (f : Frame)
  | windowWrite (mb : Fin 6) (f : Frame)
  -- sideband
  | mbData (jtag : Bool) (pecOk : Bool) (write : Bool) (count : Nat) (bytes : List Byte)
  | registerWrite (jtag : Bool) (pecOk : Bool) (code : BitVec 8) (data : RegisterData)
  | entdaa (address : BitVec 7)
  | setdasa (static address : BitVec 7)
  | setnewda (address : BitVec 7)
  | rstdaa
  | enec (events : BitVec 8)
  | disec (events : BitVec 8)
  | getpid
  | getbcr
  | getdcr
  | getstatus
  | getmwl
  | getmrl
  | setmwl (length : BitVec 16)
  | setmrl (length : BitVec 16)
  -- JTAG
  | bypass (tdi : Bool)
  | idcode
  | samplePreload (cells : BitVec 12)
  | extest (cells : BitVec 12)
  | clamp (tdi : Bool)
  | highz (tdi : Bool)
  | mbox (dr : BitVec 48)
  | wspSelect (tdi : Bool)
  | dieSelect (tdi : Bool)
  -- rails and the rows added last to the table
  | railFault (rail : Rail) (millivolts : Nat)
  | vfusePresent (millivolts : Nat)
  | mbDoorbell (jtag : Bool) (pecOk : Bool) (value : Byte)
  | railReturn (rail : Rail)
  | warmRestartReady
  | blockResume (b : BlockId)
  | detachCleanupDone (p : Fin 4)
  | configSnapshotExpiry
  | fallbackEntry (c : Fin 32)
  | trstL (asserted : Bool)
  | holdoverReturnLock
deriving DecidableEq, Repr

end Sys2Proof
end

