-- ==== Sys2Proof/WellFormed.lean ====
section
/-! DEFINITION. Well-formed commands: the operands that a command's own row can carry. Fields with a width of their own
are typed; what is checked here are lengths and the numbers that no type bounds. A command that is not well formed has a
meaning too (missing bytes read zero), but no sender can put it on the hardware. -/

namespace Sys2Proof

/-- Payload bytes fill whole slots of 16 B, at most the 1,024 slots of the largest request (R31, R36). -/
def reqWf (r : Req) : Bool := decide (r.payload.length % 16 = 0) && decide (r.payload.length ≤ 16384)

/-- The bytes behind a command header fit the request buffer (R440, R441). -/
def frameWf (f : Frame) : Bool := decide (f.args.length ≤ 4080)

/-- A flit is 256 B (R109). -/
def flitWf (flit : List Byte) : Bool := decide (flit.length = 256)

/-- Opcodes that R32 defines; every other value is reserved (R33). -/
def definedOpcode (op : BitVec 6) : Bool :=
  [0x00, 0x01, 0x02, 0x03, 0x08, 0x09, 0x0A, 0x0B, 0x0C, 0x10, 0x11, 0x12, 0x18, 0x19, 0x1A, 0x20, 0x21, 0x22, 0x28,
    0x29, 0x30, 0x31].contains op.toNat

/-- A sideband transfer of 1 to 256 bytes, with its bytes when it writes (R448). -/
def transferWf (write : Bool) (count : Nat) (bytes : List Byte) : Bool :=
  decide (1 ≤ count) && decide (count ≤ 256) && (!write || decide (bytes.length = count))

/-- One error count for each of `n` lanes (R84). -/
def countsWf (n : Nat) (errors : List Nat) : Bool := decide (errors.length = n)

/-- A receiver asks for a preset first, and then for steps or for a hold on each tap (R90). -/
def askWf (ask : BitVec 6) : Bool :=
  decide (ask.extractLsb' 0 2 ≠ 3) && decide (ask.extractLsb' 2 2 ≠ 3) && decide (ask.extractLsb' 4 2 ≠ 3)

/-- The sync headers of at least 16 blocks, where block lock is the cause (R76). -/
def causeWf : LossCause → Bool
  | .headers hs => decide (16 ≤ hs.length)
  | _ => true

/-- A register transfer carries 1 to 256 bytes (R448). -/
def registerLength : RegisterData → Bool
  | .write bs => decide (1 ≤ bs.length) && decide (bs.length ≤ 256)
  | .read n => decide (1 ≤ n) && decide (n ≤ 256)

/-- Crossings are named by the blocks of R496. -/
def pulsesWf (pulses : List (Nat × Nat)) : Bool := pulses.all fun e => decide (e.1 < 63)

/-- The lengths and ranges of a command's operands. -/
def wellFormed : Instr → Bool
  | .nop _ r | .read _ r | .write _ r | .writeMask _ r | .atomAdd _ r | .atomFadd _ r | .atomSwap _ r | .atomCas _ r
  | .atomPadd128 _ r | .lookupExact _ r | .lookupPrefix _ r | .tableUpdate _ r | .ctrUpdate _ r | .polUpdate _ r
  | .ctrRead _ r | .enqueue _ r | .dequeue _ r | .queueQuery _ r | .skeinCopy _ r | .rowFill _ r | .mailbox _ r
  | .statusRead _ r => reqWf r
  | .reservedOpcode _ op r => !definedOpcode op && reqWf r
  | .checkWindowEnd _ errors | .fallbackCheckEnd _ errors => countsWf 16 errors
  | .groupRetrain _ _ _ errors => countsWf 4 errors
  | .nullFlit _ f | .dataFlit _ f | .tagFlit _ f => flitWf f
  | .tsEq _ _ os => askWf os.ask
  | .laneLost _ _ lane => causeWf lane.cause
  | .skwr _ _ image => decide (image.length = 32)
  | .governorWindow _ _ quarters => decide (quarters.length = 4)
  | .identify _ f | .deviceStatus _ f | .taskStatus _ f | .logRead _ f | .alertAck _ f | .sensorRead _ f
  | .paramRead _ f | .paramWrite _ f | .paramPersist _ f | .partitionCreate _ f | .partitionResize _ f
  | .partitionDelete _ f | .partitionModify _ f | .partitionRights _ f | .partitionRekey _ f | .keyLoad _ f
  | .keyClear _ f | .tableCreate _ f | .tableDelete _ f | .tableSlotRelease _ f | .queueCreate _ f | .queueModify _ f
  | .queueDelete _ f | .queueReset _ f | .bufferReset _ f | .collieSet _ f | .portTrain _ f | .portTest _ f
  | .laneGroupRestore _ f | .laneRetune _ f | .vtrim _ f | .wireRepair _ f | .rowRepair _ f | .channelRetire _ f
  | .channelHold _ f | .sensorRestore _ f | .deviceReset _ f | .quarterReset _ f | .blockReset _ f | .bistRun _ f
  | .mbistRun _ f | .calReport _ f | .maintStatus _ f | .maintCancel _ f | .patchLoad _ f | .patchActivate _ f
  | .featureEnable _ f | .configExport _ f | .configImport _ f | .fuseRead _ f | .fuseShadowSet _ f | .fuseBurn _ f
  | .fuseLock _ f | .fuseReburn _ f | .memRead _ f | .memWrite _ f | .windowRead _ f | .windowWrite _ f => frameWf f
  | .mbData _ _ w n bs => transferWf w n bs
  | .registerWrite _ _ _ d => registerLength d
  | .sensorSample _ r => pulsesWf r.pulses
  | .fenceComplete _ _ | .packetLink _ | .streamStart _ | .dequeueHandover _ | .quiescePoint _ | .quiesceTimeout _
  | .blockFence _ _ | .fenceTimeout _ | .autoBlockReset _ _ | .quarterIsolation _ _ _ | .quarterIsolated _
  | .isolationTimeout _ | .quarterResetDone _ | .receiverDetect _ _ | .acquireTimeout _ | .alignTimeout _
  | .capsTimeout _ | .eqTimeout _ | .checkTimeout _ | .switchTimeout _ | .newGaugeLock _ | .ts1 _ _ _ _ | .ts2 _ _ _
  | .tsCheck _ _ _ | .gaugeSwitch _ _ _ | .idleEnter _ _ _ | .idleExit _ _ _ | .fckDown _ _ _
  | .loopReq _ _ _ | .align _ _ _ | .electricalIdleEntry _ | .heartbeatStatus _ | .widthChange _ _
  | .widthChangeRepeat _ | .laneReadded _ _ _ | .fckLost _ | .fckRestored _ | .lanesLostAll _ | .recoveryTimeout _
  | .status _ _ | .nak _ _ | .ackDue _ | .replayTimer _ | .heartbeatTimeout _ | .hello _ _ | .helloTimeout _
  | .bindLockoutEnd _ | .detach _ | .detachAck _ | .eventOverflow _ | .act _ _ _ | .pre _ _ | .refpb _ _
  | .columnRead _ _ _ | .columnWrite _ _ _ | .skrd _ _ | .nopWord _ | .refreshTimer _ _ | .budgetWindow _
  | .fallbackExit _ | .agePromotion _ | .writeQueueEntry _ | .caParity _ | .readRetry _ _ _ _ | .powerDownEntry _
  | .selfRefreshEntry _ | .selfRefreshExit _ | .counterFlush _ _ | .policerSweep _ _ | .heldRelease _
  | .gatePromote _ _ | .requestBusy _ _ | .partnerPanicStuck _ | .missWindow | .guaranteeRestored | .spotCheck _
  | .patrolRead _ | .scrubLate _ | .sramWalk _ _ | .granuleRefill | .rekeyStep _ | .keyLockoutEnd | .verticalTrim _ _
  | .trimRetry _ _ | .shiftRepair _ _ _ _ | .channelRetiring _ | .migrationCopy | .slabSwitchover
  | .postPackageRepair _ _ _ | .layerKeeper _ | .bondSample | .bondStore | .throttleRecompute
  | .flowTest | .coolantFlowOk | .oclkTrim | .refclkLost | .refclkRestored | .pllUnlock _ | .powerOnReset | .rstL _ _
  | .wrstL _ | .startupPhase _ | .refclkWaitTimeout | .lockstepReset | .watchdogReset | .coreRebootDone
  | .patchProbation | .eventSuppressed | .commandDone _ _ | .maintStart | .entdaa _ | .setdasa _ _ | .setnewda _
  | .rstdaa | .enec _ | .disec _ | .getpid | .getbcr | .getdcr | .getstatus | .getmwl | .getmrl | .setmwl _ | .setmrl _
  | .bypass _ | .idcode | .samplePreload _ | .extest _ | .clamp _ | .highz _ | .mbox _ | .wspSelect _ | .dieSelect _
  | .railFault _ _ | .vfusePresent _ | .mbDoorbell _ _ _ | .railReturn _ | .warmRestartReady | .blockResume _
  | .detachCleanupDone _ | .configSnapshotExpiry | .fallbackEntry _ | .trstL _ | .holdoverReturnLock => true

end Sys2Proof
end

