-- ==== Sys2Proof/Machine/State.lean ====
section
/-! DEFINITION. The state of the block: everything the spec gives the AB1664, as plain data. Every structure's field
defaults are the field's value in `State.reset`; a value the spec does not state is named in the assumption log. -/

namespace Sys2Proof.Machine

open Sys2Proof

/-- A byte-addressed store in canonical form: addresses strictly rising, no listed byte equal to what an unlisted
address reads as (zero; R315 for DRAM and SRAM). -/
abbrev Memory := List Host.Cell

/-- A sparse table keyed by a number, in the same canonical form as a memory: keys strictly rising, no listed value
equal to the table's default. -/
abbrev Sparse (α : Type) := List (Nat × α)

/-- A parameter whose writes come into force some time after them (R220, R229): the value before all of them, the
writes that the last one followed within that time, with their moments, oldest first, and the last one. -/
structure Staged (α : Type) where
  old : α
  earlier : List (Nat × α) := []
  new : α
  since : Nat
deriving DecidableEq, Repr

/-- Completion statuses of R49. -/
inductive QStatus where
  | ok | dataError | unwritten | integrity | denied | range | length | full | dropped | empty | busy | orphaned
  | unsupported | aborted
deriving DecidableEq, Repr

/-- Mailbox statuses of R442. -/
inductive KStatus where
  | ok | accepted | queued | badOpcode | badLength | badParam | denied | oversubscribed | tempRange | locked | failed
  | aborted
deriving DecidableEq, Repr

/-- Why a step stops with a fault. -/
inductive Fault where
  /-- Raised by a sideband, reset-pin or TAP command while VDD_IO is faulted: R549 calls those pins undefined until
  the rail returns. Safe: the model stops where the part may do anything. -/
  | ioPinsUndefined
deriving DecidableEq, Repr

/-- Why a step refuses a command. -/
inductive Refusal where
  /-- Raised by an arm of `exec` whose command has no meaning yet. Safe. -/
  | notModelled (mnemonic : String)
deriving DecidableEq, Repr

/-! ### Records and messages -/

/-- An event record of R452, its items packed from payload bit 0 (record bit 160). -/
structure EventRec where
  code : Nat
  level : Nat
  severity : Nat
  overrun : Bool
  cont : Bool
  instKind : Nat
  instNum : Nat
  timestamp : Nat
  epoch : Nat
  payload : BitVec 96
deriving DecidableEq, Repr

/-- A completion of R45; `data` are its data_length bytes. -/
structure Completion where
  opcode : BitVec 6
  tag : BitVec 14
  status : QStatus
  last : Bool
  dupTag : Bool
  kennel : Bool
  late : Bool
  result : Word
  data : List Byte
deriving DecidableEq, Repr

/-- A flit as the link layer keeps it: its type, its sequence number (extended count for a sequenced flit), its slot
count, and its slots: the valid ones, or all fifteen where they are ciphertext (R109 to R111, R147). -/
structure Flit where
  ftype : Nat
  seq : Nat
  count : Nat
  slots : List (BitVec 128)
deriving DecidableEq, Repr

/-- What the stack puts on the transmit lanes of a port, oldest first. -/
inductive Sent where
  /-- A flit with the ack, credit and panic fields it carried, and its 256 bytes with CRC and check bytes (R109 to
  R112). -/
  | flit (f : Flit) (ack : BitVec 9) (credit : BitVec 6) (panic : Bool) (image : List Byte)
  /-- An ordered set sent so many times on each lane listed, with that lane's copy (R80). -/
  | sets (copies : List (Nat × BitVec 128)) (times : Nat)
  /-- Electrical idle (R91). -/
  | squelch
  /-- The 64 ns of the maximum-transition pattern that begin an exit burst (R91). -/
  | exitBurst
deriving DecidableEq, Repr

/-- What a transmitter drives on one lane, oldest first: blocks with their sync header (bit 0 first), their body after
scrambling and the symbols on the pair (R76, R77), the exit burst's pattern, and electrical idle. -/
inductive LaneOut where
  | block (header : BitVec 2) (body : Nat) (symbols : List Nat)
  | burst
  | idle
deriving DecidableEq, Repr

/-- What a transmitter repeats on one lane between commands (R81, R83, R84, R96, R102, R103). -/
inductive LaneTx where
  | idle
  | sets (os : BitVec 128)
  /-- 0 PRBS7, 1 PRBS15, 2 PRBS31; `pam4` where its bits go out in pairs as Gray-coded levels. -/
  | prbs (pattern : Nat) (inverted pam4 : Bool)
  | flits
  /-- What the lane receives is sent back. -/
  | looped
deriving DecidableEq, Repr

/-- Who a memory access is made for, numbered as R454 numbers requesters. -/
inductive Requester where
  | port (p : Fin 4)
  | mgmt | dbg | mig | scr | rky | int
deriving DecidableEq, Repr

/-- What a request carries past ingress: where its completion goes and how its deadline runs (R53, R160, R288). -/
structure Job where
  port : Fin 4
  opcode : BitVec 6
  tag : BitVec 14
  cls : Nat
  /-- In units of 16 ns, after R288; 0 is none. -/
  deadline : Nat
  /-- Hub time of the unpacking of its header. -/
  arrived : Nat
  /-- The charge of R280 in bytes. -/
  charge : Nat
  /-- The model's number of the request in the order the hub presents requests (R158). -/
  order : Nat
  /-- Of an exact lookup that has read row b1 and found no match: the table's commit_seq then, and whether the row held a
  bad line (R198, R212). -/
  began : Option (BitVec 32 × Bool)
deriving DecidableEq, Repr

/-- Why a request is held at its port (R285). -/
inductive HoldReason where
  | ceiling | gate | fence | quiesce | queueFull | order
  /-- The port is in SWITCH or RECOVERY (R99). -/
  | link
deriving DecidableEq, Repr

/-- A request held at its port, with the deadline and charge that ingress gave it (R280, R283, R288). `passGate` is set
once R282 lets it pass regardless of the gate. -/
structure Held where
  opcode : BitVec 6
  req : Req
  job : Job
  reason : HoldReason
  passGate : Bool
deriving DecidableEq, Repr

/-- A place in the DRAM layers: R156's result after relocation (R375) and row remap (R380). -/
structure Place where
  channel : Fin 32
  bank : Fin 16
  row : Nat
  line : Fin 32
deriving DecidableEq, Repr

/-! ### Lanes, link and port -/

/-- The FIR taps of one transmitter in steps of 1/64 (R88). -/
structure Taps where
  cm2 : Int := 0
  cm1 : Int := 0
  cp1 : Int := 0
deriving DecidableEq, Repr

/-- One data lane of a port. -/
structure Lane where
  /-- P:1040. -/
  osDiscard : Nat := 0
  /-- P:1041. -/
  prbsErrors : Nat := 0
  /-- The receiver found its pair swapped (R66). -/
  swapped : Bool := false
  locked : Bool := false
  /-- Partner lane that arrives here, from TS1 (R66). -/
  partnerLane : Nat := 0
  /-- Consecutive valid ordered sets of one kind and step, up to 8, and that kind and step (R80). -/
  sets : Nat := 0
  setKind : Nat := 0
  setStep : BitVec 16 := 0
  /-- The partner's ack for the current kind. -/
  acked : Bool := false
  /-- The last check of the receive lane, and of the transmit lane as TS_CHECK reports it (R84). -/
  rxPass : Bool := false
  txPass : Bool := false
  errCount : Nat := 0
  /-- The transmitter's coefficients (R88) and its limit bits. -/
  taps : Taps := {}
  limit : BitVec 3 := 0
  /-- The preset this lane's receiver asked for last. -/
  askedPreset : Nat := 0
  /-- The coefficient requests of this lane's receiver, as coef_req packs them (R80, R90). -/
  ask : BitVec 6 := 0
  /-- The partner's request that this lane's transmitter carried out last, as preset and coef_req, and the ack of the
  set that brought it, which the lane's own sets echo while it stands (R90). -/
  standing : BitVec 9 := 0
  echo : Bool := false
  /-- Coefficients adapted at each gauge, and the presets this lane's receiver asked for there, reused under R90 and
  R564; index by gauge number. -/
  stored : List (Option Taps) := [none, none, none, none]
  storedPresets : List (Option Nat) := [none, none, none, none]
  /-- What the transmitter repeats, its scrambler and precoder (R77), and what it has driven in ACTIVE. -/
  tx : LaneTx := .idle
  scrambler : BitVec 58 := 0
  precoder : Nat := 0
  sent : List LaneOut := []
  /-- P:B400 to P:B403. -/
  ltuneCount : Nat := 0
  ltuneLast : Nat := 0
  ltuneEyeMui : Nat := 0
  ltuneEyeMv : Nat := 0
deriving DecidableEq, Repr

/-- The training states of R83; RECOVERY is a climb of its own through them. -/
inductive PortState where
  | detect | acquire | align | caps | eq | check | switch | active | test | disabled
deriving DecidableEq, Repr

/-- What a port is climbing for, which sets what the end of a step does (R85, R98, R564). -/
inductive Climb where
  /-- The step-up of R85. -/
  | up
  /-- The switch back of R85 to the gauge on which the port settles. -/
  | back
  /-- RECOVERY's retraining with stored presets (R564). -/
  | recover
  /-- The fallback of R98. -/
  | fallback
deriving DecidableEq, Repr

/-- Partner states of P:1071. -/
inductive PartnerState where
  | down | linked | attached | detaching
deriving DecidableEq, Repr

/-- A running test of a port (R102 to R104). -/
structure PortTest where
  loop : Nat
  pattern : Nat
  inverted : Bool
  lanes : BitVec 16
  durationMs : Nat
  /-- The command's force flag. -/
  force : Bool
deriving DecidableEq, Repr

/-- One of the eight port-classes of a port (R278, R281, R301). Admitted values are what `COLLIE_SET` admitted, the
others are in force after trims. -/
structure PortClass where
  floor : Nat := 0
  floorBurst : Nat := 16384
  ceiling : Nat := 0
  ceilingBurst : Nat := 16384
  target : Nat := 0
  scope : Nat := 0
  kennelPd : Nat := 0
  kennelLines : Nat := 0
  floorAdmitted : Nat := 0
  targetAdmitted : Nat := 0
  kennelAdmitted : Nat := 0
  /-- Buckets in units of 2^-16 charge byte, and the tick of their last refill. -/
  floorTokens : Int := 1073741824
  ceilTokens : Int := 1073741824
  refilled : Nat := 0
  floorMiss : Nat := 0
  targetMiss : Nat := 0
  kennelMiss : Nat := 0
  /-- Accounting of the current miss window: charge completed, whether the class had a request in the stack all
  through it, and whether its ceiling held one. -/
  windowCharge : Nat := 0
  windowBusy : Bool := false
  windowCeiling : Bool := false
  /-- Misses since the last GUARANTEE_MISSED, in the order of P:640A to P:640C. -/
  sinceFloor : Nat := 0
  sinceTarget : Nat := 0
  sinceKennel : Nat := 0
  /-- Since when the ledger has had room for the trimmed floor, target and Kennel share (R298). -/
  floorRoomAt : Option Nat := none
  targetRoomAt : Option Nat := none
  shareRoomAt : Option Nat := none
deriving DecidableEq, Repr

/-- The attachment of a port (R133, R138). -/
structure Partner where
  identity : Word := 0
  key : BitVec 128 := 0
  role : Nat := 0
  grouped : Bool := false
  events : Bool := false
  credits : Nat := 0
deriving DecidableEq, Repr

/-- The parameters of R106 as a port's training took them, with the gauge mask and fck_cap that they give its sets. -/
structure Latched where
  gaugeMax : Nat := 3
  widthMin : Nat := 4
  fckEnable : Bool := true
  presetMask : BitVec 8 := 0xFF
  gaugeMask : BitVec 4 := 1
  fckCap : Bool := false
deriving DecidableEq, Repr

/-- Parameters of a port's lanes and training (R105), and the training machine. -/
structure Phy where
  enable : Bool := true
  gaugeMax : Nat := 3
  widthMin : Nat := 4
  readdStableMs : Nat := 1000
  fckEnable : Bool := true
  idleEntryNs : Nat := 2000
  presetMask : BitVec 8 := 0xFF
  precodeRequest : Bool := false
  autoFckRestore : Bool := false
  recoveryTimeoutMs : Nat := 150
  flapLimit : Nat := 3
  latched : Latched := {}
  state : PortState := .detect
  /-- Hub time at which the state was entered. -/
  since : Nat := 0
  gauge : Gauge := .g10
  /-- The gauge a SWITCH goes to, and the one it came from. -/
  target : Gauge := .g10
  previous : Gauge := .g10
  climb : Climb := .up
  /-- The climb's ceiling: the highest gauge it may reach. -/
  highest : Gauge := .g10
  rxMask : BitVec 4 := 0
  txMask : BitVec 4 := 0
  /-- Best gauge and group mask so far in R85. -/
  bestGauge : Gauge := .g10
  bestMask : BitVec 4 := 0
  retried : Bool := false
  /-- The SWITCH returns to the gauge before one that failed (R83). -/
  returning : Bool := false
  /-- CHECK is the fallback CHECK of R98. -/
  quick : Bool := false
  /-- The window of CHECK is over and its counts are judged. -/
  judged : Bool := false
  /-- Hub time at which RECOVERY was entered. -/
  recoverSince : Nat := 0
  stepId : BitVec 16 := 0
  reversed : Bool := false
  /-- The receiver found the FCK pair swapped (R66). -/
  fckSwapped : Bool := false
  acquireTimeouts : Nat := 0
  trainFailedRaised : Bool := false
  /-- From TS2. -/
  partnerGauges : BitVec 4 := 1
  partnerFck : Bool := false
  partnerPrecode : Bool := false
  partnerReversal : Bool := false
  /-- Gauge and masks in use when all lanes were lost (RECOVERY). -/
  lossGauge : Gauge := .g10
  lossRx : BitVec 4 := 0
  lossTx : BitVec 4 := 0
  /-- Groups retired under R97, and hub times of losses by group. -/
  retired : BitVec 4 := 0
  losses : List (Nat × Nat) := []
  /-- Groups that passed their background CHECK and hold lock (R96). -/
  stable : BitVec 4 := 0
  /-- When the stable timers began, by group (R95, R96). -/
  stableSince : List Nat := [0, 0, 0, 0]
  fckLost : Bool := false
  rxIdle : Bool := false
  txIdle : Bool := false
  test : Option PortTest := none
  loop : Option Nat := none
deriving DecidableEq, Repr

/-- The link layer of a port (R109 to R149). -/
structure LinkState where
  /-- A link session is open (R118). -/
  session : Bool := false
  helloTimeoutMs : Nat := 100
  eventMinSeverity : Nat := 1
  sealWanted : Bool := false
  sealSlot : Nat := 0
  replayTimerNs : Nat := 2000
  bindLockoutS : Nat := 60
  fecCorrected : Nat := 0
  crcBad : Nat := 0
  replayCount : Nat := 0
  sealFailCount : Nat := 0
  /-- Sealing, its key slot and the salts of this session (R147, R149). -/
  sealOn : Bool := false
  keySlot : Nat := 0
  partnerSealOn : Bool := false
  txSalt : BitVec 32 := 0x80000000
  rxSalt : BitVec 32 := 0
  /-- Extended counts: the next sequenced flit to send, the next to accept, and the next not yet acknowledged. -/
  txNext : Nat := 0
  rxNext : Nat := 0
  ackedNext : Nat := 0
  /-- Sent and not acknowledged, oldest first; at most 256 (R121). -/
  replay : List Flit := []
  /-- Slots waiting to be packed: completions first come first served, then MGMT messages. -/
  txData : List (BitVec 128) := []
  txMgmt : List (List (BitVec 128)) := []
  replays : Nat := 0
  nakAt : Option Nat := none
  ackOwed : Bool := false
  /-- Slots of the receive buffer freed in this session (R124), and slots received. -/
  slotsFreed : Nat := 0
  slotsTaken : Nat := 0
  /-- The partner's buffer (R123). -/
  partnerGranted : Nat := 0
  partnerUnits : Nat := 0
  lastCredit : BitVec 6 := 0
  slotsSent : Nat := 0
  /-- Slots of a request not yet whole; and of an ENQUEUE whose header has gone on, its tag, or none where the payload is
  only discarded, with the payload slots still to arrive (R232). -/
  rxSlots : List (BitVec 128) := []
  rxFilling : Option (Option (BitVec 14) × Nat) := none
  /-- Sealed flits that await their tag (R148), and whether this group's tag has failed once. -/
  rxGroup : List Flit := []
  tagFailed : Bool := false
  txGroup : List Flit := []
  /-- The frame, the flit position of the next flit in it (R115), the block-times since the last ALIGN (R79), and the
  bytes of an open width-12 group (R78). -/
  frame : BitVec 8 := 0
  position : Nat := 0
  blocks : Nat := 0
  group : List Byte := []
  partnerFrame : BitVec 8 := 0
  /-- A WIDTH_CHANGE of ours in progress, as mask and widen: a narrowing not yet met by a good flit, or a widening that
  falls due at the partner's frame `switchFrame` (R130). -/
  widthAsked : Option (BitVec 4 × Bool) := none
  switchFrame : BitVec 8 := 0
  /-- A widening of our transmit direction that falls due at a frame. -/
  widenAt : Option (BitVec 4 × BitVec 8) := none
  partnerPanic : Bool := false
  panicSince : Nat := 0
  panicIgnored : Bool := false
  /-- The authentication failure of R148 holds until `PORT_TRAIN`. -/
  authFailed : Bool := false
  lastGood : Nat := 0
  wire : List Sent := []
deriving DecidableEq, Repr

/-- A write of several lines whose lines are entering write queues (R58, R59). -/
structure OpenWrite where
  job : Job
  remaining : Nat
  status : QStatus
  /-- The status is a DATA_ERROR of R22 (R299). -/
  isolated : Bool
deriving DecidableEq, Repr

/-- A NOP with fence = 1 and the tags that it still waits for (R61). -/
structure Fence where
  job : Job
  waits : List (BitVec 14)
deriving DecidableEq, Repr

/-- One host port. -/
structure Port where
  phy : Phy := {}
  lanes : Vector Lane 16 := Vector.replicate 16 {}
  link : LinkState := {}
  partnerState : PartnerState := .down
  linkedAt : Nat := 0
  partner : Partner := {}
  /-- The identity that a cleanup still settles, and a HELLO that waits for its end (R141). -/
  waitingHello : Option (BitVec 512) := none
  /-- A graceful DETACH is draining (R140). -/
  draining : Bool := false
  mismatches : List Nat := []
  lockedUntil : Option Nat := none
  /-- Event records not yet delivered, oldest first, and how many were dropped (R146). -/
  records : List EventRec := []
  recordsDropped : Nat := 0
  /-- Tags of requests in the stack, with their class (R50). -/
  outstanding : List (BitVec 14 × Nat) := []
  /-- Completions handed to the flit packer and not wholly sent: the tag that the last of them frees, and slots left. -/
  sending : List (Option (BitVec 14) × Nat) := []
  held : List Held := []
  openWrites : List OpenWrite := []
  fences : List Fence := []
  completions : List Completion := []
  aborted : Nat := 0
  dupTags : Nat := 0
  holdLimitUs : Nat := 5000
  panicHigh : Nat := 2048
  panicLow : Nat := 1024
  panicMax : Nat := 1000
  busyCount : Nat := 0
  devicePanic : Bool := false
  classes : Vector PortClass 8 := Vector.replicate 8 {}
deriving DecidableEq, Repr

/-! ### Channels -/

/-- A bank of a channel. Times are in CCLK, which is the hub time in ns; none means long ago. -/
structure Bank where
  openRow : Option Nat := none
  /-- Refresh debt (R169). -/
  debt : Nat := 0
  /-- Next row pair group of the refresh row pointer, in units of 8 rows. -/
  refRow : Nat := 0
  hitStreak : Nat := 0
  actAt : Option Nat := none
  preAt : Option Nat := none
  refAt : Option Nat := none
  readAt : Option Nat := none
  writeEnd : Option Nat := none
  colAt : Option Nat := none
  /-- Row-remap latches: row to spare index (R380), and spares spent. -/
  remap : Sparse Nat := []
  sparesUsed : Nat := 0
  pprExhausted : Bool := false
  /-- Consecutive patrol passes that found a row bad (R323). -/
  badRows : Sparse Nat := []
deriving DecidableEq, Repr

/-- A write-queue entry (R165). `issued` counts the commands issued since its WRITE (R167). -/
structure WqEntry where
  bank : Fin 16
  row : Nat
  line : Fin 32
  data : Line
  issued : Option Nat
  /-- The entry holds the poison pattern rather than data (R308). -/
  poison : Bool
deriving DecidableEq, Repr

/-- A write at the controller's input that waits for room (R21, R179): the line of its partition and its data. -/
structure WaitingWrite where
  job : Job
  pd : Fin 64
  address : Nat
  data : Line
deriving DecidableEq, Repr

/-- A request queued in a controller (R158). -/
structure QueuedReq where
  opcode : BitVec 6
  req : Req
  job : Job
  promoted : Bool
deriving DecidableEq, Repr

/-- A spot-queue entry (R312). -/
structure Spot where
  bank : Fin 16
  row : Nat
  line : Fin 32
  bad : Bool
  /-- Hub time at which it was queued. -/
  since : Nat
deriving DecidableEq, Repr

/-- A command word in the retry buffer (R173): which bank and what it was. -/
inductive CmdWord where
  | act (bank row : Nat)
  | pre (bank : Nat)
  | refpb (bank : Nat)
  | read (bank line : Nat)
  | write (bank line : Nat)
  | skrd (bank : Nat)
  | skwr (bank : Nat)
  | nop
  /-- The command that sets a bond position's multiplexer at the layer (R370). -/
  | shift (path : Path) (position : Nat)
deriving DecidableEq, Repr

/-- Channel states of P:2000. -/
inductive ChState where
  | active | powerDown | selfRefresh | fenced | trim | retired
deriving DecidableEq, Repr

/-- Retirement states of P:8105. -/
inductive RetireState where
  | inService | queued | migrating | retired
deriving DecidableEq, Repr

/-- The vertical interface of a channel (R365 to R374). -/
structure Vertical where
  cclkTap : Nat := 32
  skclkTap : Nat := 32
  rxTap : Nat := 32
  lastTrimTemp : Int := 320
  vtrimCount : Nat := 0
  vtrimLast : Nat := 0
  vtrimEye : Nat := 0
  /-- Trims in a row with no tap passing 90% of a path's wires (R368). -/
  trimFails : Nat := 0
  /-- Failed physical positions, in the numbering of R502. -/
  colFailed : List Nat := []
  caFailed : List Nat := []
  skFailed : List Nat := []
  /-- Erased logical wires (R372). -/
  colErased : List Nat := []
  skErased : List Nat := []
  /-- Suspect wires not yet repaired, and corrected rows by wire with their times (R322). -/
  suspects : List (Path × Nat) := []
  hits : List (Path × Nat × Nat × Nat) := []
deriving DecidableEq, Repr

/-- One channel controller and its layer's half. -/
structure Channel where
  state : ChState := .active
  heldByCommand : Bool := false
  ageLimitNs : Nat := 2000
  slackThresholdNs : Nat := 200
  hitStreakMax : Nat := 16
  wqHigh : Nat := 48
  wqLow : Nat := 16
  pdIdleUs : Nat := 50
  srIdleMs : Nat := 5
  hot : Bool := false
  debtPeak : Nat := 0
  forcedRefreshCount : Nat := 0
  caParityCount : Nat := 0
  readRetryCount : Nat := 0
  fallbackEntries : Nat := 0
  promotedCount : Nat := 0
  wqForwardCount : Nat := 0
  ceCount : Nat := 0
  erasureFixCount : Nat := 0
  ueCount : Nat := 0
  poisonReadCount : Nat := 0
  poisonWrittenCount : Nat := 0
  scrubRows : Nat := 0
  spotDropped : Nat := 0
  banks : Vector Bank 16 := Vector.replicate 16 {}
  /-- Last four activations or refreshes of the channel, newest first (tFAW). -/
  acts : List Nat := []
  lastAct : Option (Nat × Fin 16) := none
  lastCol : Option (Nat × Fin 16) := none
  lastRef : Option (Nat × Fin 16) := none
  lastReadEnd : Option Nat := none
  lastWriteEnd : Option Nat := none
  lastSkein : Option Nat := none
  wakeAt : Option Nat := none
  /-- The burst last returned on the column wires and the line it was read from, and the base die's copy of the row last
  moved by SKRD: corrected lines, none for a line marked bad (R186). -/
  columnData : CodedLine := 0
  lastLine : Option (Fin 16 × Nat × Fin 32) := none
  skeinData : List (Option Line) := []
  writeQueue : List WqEntry := []
  draining : Bool := false
  waiting : List WaitingWrite := []
  requests : List QueuedReq := []
  fallback : Bool := false
  /-- The last CCLK in which a trigger of R161 held. -/
  fallbackAt : Nat := 0
  /-- Budgets of R164 in hundredths of a command, and the last window of 64 CCLK that added to them. -/
  windowAt : Nat := 0
  actBudget : Nat := 1600
  colBudget : Nat := 6400
  /-- The thermal factor of R397 in percent, and the issue scale of R294 in force. -/
  thermalPct : Nat := 100
  scalePct : Nat := 100
  /-- Clean command words in a row since the last parity alert (R173). -/
  cleanRun : Nat := 0
  gate : Bool := false
  cmdSeq : BitVec 4 := 0
  /-- The sequence number of the last command the layer executed, and the last 16 words with their times (R173). -/
  execSeq : BitVec 4 := 0
  retryBuffer : List (CmdWord × Nat) := []
  alerts : Nat := 0
  alertTrimAt : Option Nat := none
  vertical : Vertical := {}
  spots : List Spot := []
  /-- Terrier's pointer: row address and bank (R319). -/
  patrolRow : Nat := 0
  patrolBank : Nat := 0
  passStart : Nat := 0
  passDone : Bool := false
  /-- When Terrier last woke the channel from self-refresh (R325). -/
  patrolWoke : Option Nat := none
  lastPassMs : Nat := 0
  lateRaised : Bool := false
  retire : RetireState := .inService
  /-- Relocation entries that are valid: slab to target (R375). -/
  reloc : Sparse (Nat × Nat) := []
  /-- Retired without a copy: which fill a slab's later reserve slab takes (R377). -/
  unserved : List Nat := []
  poisonFill : Bool := false
  keeperActed : Bool := false
  /-- The clock stopped with no self-refresh entry before it (R383). -/
  clockLost : Bool := false
  idleSince : Nat := 0
  /-- Its keeper has acted: once its trim ends, the write queue is written before anything else (R385). -/
  rewriteDue : Bool := false
  /-- A trim owed before the channel serves again: that of a shift repair made while it was out (R367, R370). -/
  trimDue : Bool := false
  /-- Fenced for CA_REPLAY_FAILED: its block reset makes the echo test (R373). -/
  echoDue : Bool := false
deriving DecidableEq, Repr

/-- A fenceable block (R19, R20). -/
structure Block where
  fenced : Bool := false
  fenceTimes : List Nat := []
  /-- Its SRAM, or for a controller its write queue, is the failed element (R21). -/
  sramFailed : Bool := false
  /-- Kept fenced after a third fence in 24 h, a failed BIST or a failed SRAM test. -/
  kept : Bool := false
  /-- Under logic or memory BIST. -/
  testing : Bool := false
  resetting : Bool := false
deriving DecidableEq, Repr

/-- Quarter states of P:0100. -/
inductive QuarterState where
  | inService | isolated | resetting | heldIsolated
deriving DecidableEq, Repr

/-- A quarter of the base die (R14, R22). -/
structure Quarter where
  state : QuarterState := .inService
  /-- Isolation under way and not complete. -/
  isolating : Bool := false
  isolatedAt : Nat := 0
  isolations : List Nat := []
  cause : Nat := 0
  trigger : Nat := 0
  resetCount : Nat := 0
  autoReset : Bool := true
  pllLocked : Bool := true
  /-- The band its PLL took at its last lock (R405). -/
  pllBand : BitVec 8 := 0
  /-- The gates of its Pointer slice and its Bobbin slice (R282). -/
  pointerGate : Bool := false
  bobbinGate : Bool := false
  /-- Hub times, in the last 1 ms, of skeins, admitted packets, delivered packets and counter slots (P:3400, P:4C01,
  P:4C02, P:5C00). -/
  skeinTimes : List Nat := []
  enqTimes : List Nat := []
  deqTimes : List Nat := []
  counterTimes : List Nat := []
  cryptoTimes : List Nat := []
deriving DecidableEq, Repr

/-! ### Partitions, tables, queues -/

/-- The Krejo partition types of R40. -/
inductive PType where
  | raw | table | buffer | counter
deriving DecidableEq, Repr

/-- The modes of R41. -/
inductive Mode where
  | plain | veiled | sealed
deriving DecidableEq, Repr

/-- The binding record of a partition (R142). -/
structure Binding where
  identity : Word
  key : BitVec 128
deriving DecidableEq, Repr

/-- The buffer state of a BUFFER partition (R230) and its parameters (R252). -/
structure BufferState where
  used : Nat := 0
  fresh : Nat := 0
  listHead : Nat := 0x0FFFFFFF
  listLen : Nat := 0
  leaked : Nat := 0
  lowPct : Nat := 10
  lowRaised : Bool := false
  dropLimit : Nat := 0
  dropThreshold : Nat := 0
  dropPool : Nat := 0
  dropStopped : Nat := 0
  enqPackets : Nat := 0
  deqPackets : Nat := 0
  voidCells : Nat := 0
deriving DecidableEq, Repr

/-- The counter parameters of a partition (R276). -/
structure CounterState where
  saturate : Bool := false
  regionBase : Nat := 0
  regionGranules : Nat := 0
  ctrUpdates : Nat := 0
  polUpdates : Nat := 0
  polRed : Nat := 0
  coalesceHits : Nat := 0
  saturated : Nat := 0
  badState : Nat := 0
deriving DecidableEq, Repr

/-- A rekey walk (R361): the new slot, and the line index of its pointer. -/
structure Rekey where
  slot : Nat
  pointer : Nat
  quarantined : Nat
deriving DecidableEq, Repr

/-- The sealing parameters of a partition (R363). -/
structure SealState where
  integrityFail : Nat := 0
  treeFail : Nat := 0
  unwrittenRead : Nat := 0
  pageReencrypt : Nat := 0
  /-- The lines that stand quarantined, ascending (R345, R363). -/
  quarantined : List Nat := []
  rekey : Option Rekey := none
  /-- Anchor entries of the partition's data granules, key 32 × granule + entry (R337). -/
  anchors : Sparse Word := []
  /-- Anchor entries lost in SRAM (R347). -/
  anchorsLost : List Nat := []
  /-- Metadata lines whose only copy was lost in a Kennel slice, as granule, level and index (R350). -/
  lost : List (Nat × Nat × Nat) := []
deriving DecidableEq, Repr

/-- A descriptor change that waits at its quiesce point (R42). -/
inductive Change where
  | owner (mask : BitVec 4)
  | quota (lines : Nat)
  | ownerQuota (mask : BitVec 4) (lines : Nat)
  | resize (granules : Nat)
  | delete
  | region (base granules : Nat)
  | rights (field : BitVec 32)
deriving DecidableEq, Repr

/-- A partition descriptor (R495) with its binding record and per-partition parameters. -/
structure Partition where
  valid : Bool := false
  ptype : PType := .raw
  mode : Mode := .plain
  chip : Bool := false
  quarter : Fin 4 := 0
  owner : BitVec 4 := 0
  keySlot : Nat := 0
  base : Nat := 0
  granules : Nat := 0
  quota : Nat := 0
  rights : BitVec 32 := 0
  metaGranules : Nat := 0
  binding : Option Binding := none
  /-- The changes that wait at the quiesce point, in order, each with the mailbox whose command waits for it, if one
  does. -/
  pendingChanges : List (Change × Option (Fin 6)) := []
  buffer : BufferState := {}
  counter : CounterState := {}
  sealing : SealState := {}
deriving DecidableEq, Repr

/-- A target of a committed table write (R212). -/
inductive Target where
  | row (block : Nat)
  | stash (set : Nat)
  | directory (index : Nat)
deriving DecidableEq, Repr

/-- A table descriptor (R192), its seeds, stash and parameters. -/
structure Table where
  valid : Bool := false
  prefixKind : Bool := false
  partition : Fin 64 := 0
  keyLen : Nat := 0
  bucketLog2 : Nat := 0
  home : Fin 4 := 0
  baseBlock : Nat := 0
  regionBlocks : Nat := 0
  dirBase : Nat := 0
  dirBits : Nat := 0
  parallelProbe : Staged Bool := { old := false, new := false, since := 0 }
  kennelProbe : Staged Bool := { old := true, new := true, since := 0 }
  maxDisplace : Staged Nat := { old := 8, new := 8, since := 0 }
  entryCount : Nat := 0
  stashCount : Nat := 0
  commitSeq : BitVec 32 := 0
  seed1 : BitVec 128 := 0
  seed2 : BitVec 128 := 0
  /-- The stash: set to its entries in stash order (R201). -/
  stash : Sparse (List Line) := []
  stashHigh : Bool := false
  /-- td_state 2 while a delete quiesces, and then, with `valid` false, while it zeroes (R476). -/
  quiescing : Bool := false
  ring : List Target := []
  /-- Poisoned slots already reported (R214). -/
  reported : List (Nat × Nat) := []
  lookups : Nat := 0
  kennelHits : Nat := 0
  fullCount : Nat := 0
  dataErrors : Nat := 0
  retries : Nat := 0
  depthCuts : Nat := 0
deriving DecidableEq, Repr

/-- Queue states of R226. -/
inductive QState where
  | free | active | stopped | broken
deriving DecidableEq, Repr

/-- An admitted packet that is not yet linked or voided (R232, R234): its payload as far as it has arrived, and how many
of its lines have entered write queues. -/
structure Admission where
  job : Job
  length : Nat
  cells : List Nat
  spare : Nat
  admitted : Nat
  payload : List Byte
  written : Nat
  /-- Its ENQUEUE has ended, and it is to become a void cell (R240, R244, R245). -/
  ended : Bool
  voided : Bool
deriving DecidableEq, Repr

/-- A DEQUEUE that waits or runs (R236, R237). `remaining` is in its budget's unit. -/
structure Stream where
  job : Job
  byPackets : Bool
  remaining : Int
  first : Bool
  running : Bool
deriving DecidableEq, Repr

/-- A queue descriptor (R226) with its admissions and streams. -/
structure Queue where
  head : Nat := 0
  tail : Nat := 0
  cells : Nat := 0
  packets : Nat := 0
  profile : Nat := 0
  state : QState := .free
  partition : Nat := 0
  owner : BitVec 4 := 0
  admissions : List Admission := []
  streams : List Stream := []
deriving DecidableEq, Repr

/-- A queue profile (R229). -/
structure Profile where
  limit : Staged Nat := { old := 65536, new := 65536, since := 0 }
  minimum : Staged Nat := { old := 0, new := 0, since := 0 }
  alpha : Staged Nat := { old := 8, new := 8, since := 0 }
deriving DecidableEq, Repr

/-! ### Kennel and keys -/

/-- What a Kennel line is held for. -/
inductive KennelUse where
  | hostRead | probe | counter
deriving DecidableEq, Repr

/-- A line in the Kennel, in plaintext (R331). `way` is its place in its set; the list is most recently used first. -/
structure KennelLine where
  pd : Fin 64
  index : Nat
  set : Nat
  way : Nat
  data : Line
  dirty : Bool
  dirtySince : Nat
  use : KennelUse
  /-- The port-class whose request installed it, 8 × port + class (R291). -/
  owner : Option Nat
deriving DecidableEq, Repr

/-- A metadata line held in the seal reserve (R349): level 0 a tag line, 1 a counter line, 2 to 4 nodes of tree
levels 1 to 3; index within its level. `way` is its place in its set (R292). -/
structure MetaLine where
  way : Nat := 0
  pd : Fin 64
  granule : Nat
  level : Nat
  index : Nat
  data : Line
  dirty : Bool
deriving DecidableEq, Repr

/-- Key kinds of R353. -/
inductive KeyKind where
  | empty | xts | sealKey | gcm
deriving DecidableEq, Repr

/-- A key slot (R353). -/
structure KeySlot where
  kind : KeyKind := .empty
  key : BitVec 512 := 0
deriving DecidableEq, Repr

/-! ### Heat, wear -/

/-- A diode sensor, in units of 0.125 °C (R392 to R395). -/
structure Sensor where
  samples : List Int := [320, 320, 320, 320, 320, 320, 320, 320]
  raw : Int := 320
  value : Int := 320
  suspect : Bool := false
  /-- Consecutive samples beyond 6 °C of the estimate, and raw samples at or above the trip point. -/
  deviating : Nat := 0
  hot : Nat := 0
  /-- Consecutive samples within 3 °C of the estimate (R395). -/
  agreeing : Nat := 0
  peak : Int := 320
  factorPct : Nat := 100
  warned : Bool := false
deriving DecidableEq, Repr

/-- A bond interface (R387): equivalent cycles in units of 10^-6 cycle, the residual, the last sample and direction,
and what MRAM holds. -/
structure Bond where
  eq : Nat := 0
  residual : List Int := []
  last : Option Int := none
  turning : Option Int := none
  rising : Bool := true
  storedEq : Nat := 0
  storedResidual : List Int := []
  raised80 : Bool := false
  raised95 : Bool := false
deriving DecidableEq, Repr

/-- Sensors, governor and coolant (R397 to R410). -/
structure Thermal where
  warnLayer : Nat := 80
  warnBase : Nat := 95
  flowLossRate : Nat := 20
  flowLossCap : Nat := 30
  /-- The sensor that the converter takes next (R392). -/
  nextSensor : Fin 17 := 0
  flowLow : Bool := false
  flowCoolSince : Option Nat := none
  governorPct : Nat := 100
  powerEstDw : Nat := 0
  quarterDw : List Nat := [0, 0, 0, 0]
  /-- Windows in a row with room for g to rise (R400). -/
  calmWindows : Nat := 0
  /-- Outlet mean times 16 and power of the last 2,000 windows, newest first (R408). -/
  history : List (Int × Nat) := []
  tripped : Bool := false
  tripCount : Nat := 0
  blind : Bool := false
  oclkTrim : Nat := 0
  powerCapW : Nat := 72
deriving DecidableEq, Repr

/-! ### Management -/

/-- A mailbox (R440 to R445). -/
structure Mailbox where
  request : Memory := []
  response : Memory := []
  lastSeq : Option (BitVec 16) := none
  /-- The seq and opcode of the command that makes it busy. -/
  busy : Option (BitVec 16 × BitVec 16) := none
  /-- That command's notify bit (R441). -/
  notify : Bool := false
  ignored : Nat := 0
  commands : Nat := 0
  respReady : Bool := false
  lastStatus : Nat := 0
  respSeq : BitVec 16 := 0
deriving DecidableEq, Repr

/-- What a task or activity does (R445, R532). -/
inductive Work where
  /-- A creation or growth that waited for a refill (R316, R473). -/
  | allocation (pd : Fin 64)
  | resize (pd : Fin 64) (granules : Nat)
  | rekey (pd : Fin 64)
  | tableDelete (td : Fin 16)
  | bufferReset (pd : Fin 64)
  | portTrain (p : Fin 4)
  | portTest (p : Fin 4) (test : PortTest)
  | retune (p : Fin 4) (lanes : BitVec 16)
  | vtrim (c : Fin 32)
  | wireRepair (c : Fin 32) (path : Path) (wire : Nat)
  | rowRepair (c : Fin 32) (bank : Fin 16) (row : Nat)
  | retire (c : Fin 32)
  | quarterReset (q : Fin 4)
  | bist (b : BlockId) (patterns : Nat)
  | mbist (b : BlockId)
  | patchActivate (rom : Bool)
  | configImport
  | fuseBurn (field slot copy : Nat) (image : List Byte)
  | fuseLock (field slot copy : Nat)
  | fuseReburn (field slot : Nat)
deriving DecidableEq, Repr

/-- States of a ticket as `TASK_STATUS` numbers them (R471). -/
inductive TaskState where
  | queued | running | done
deriving DecidableEq, Repr

/-- A long command or a maintenance activity (R445, R534). `ticket` 0 is a stack-started activity. -/
structure Task where
  ticket : Nat
  opcode : BitVec 16
  mb : Fin 6
  byStack : Bool
  state : TaskState
  paused : Bool
  status : KStatus
  progress : Nat
  result : Word
  work : Work
deriving DecidableEq, Repr

/-- A copy by the MIG mover (R376, R334). Slabs are (source slab, target channel, target slab). -/
inductive Mover where
  | slabs (c : Fin 32) (todo : List (Nat × Nat × Nat)) (row : Nat)
  | granules (pd : Fin 64) (todo : List (Nat × Nat)) (row : Nat) (final : Nat)
deriving DecidableEq, Repr

/-- A freed granule whose slabs, as channel and slab, await their refill (R316). -/
structure Refill where
  granule : Nat
  slabs : List (Nat × Nat)
deriving DecidableEq, Repr

/-- Repair-log entries of R371. -/
inductive Repair where
  | shift (c : Nat) (path : Path) (position : Nat)
  | erasure (c : Nat) (path : Path) (wire : Nat)
  | retired (c : Nat)
  | reloc (c slab target targetSlab : Nat)
  /-- A relocation entry that ended with its granule. -/
  | freed (c slab : Nat)
  | row (c bank row spare : Nat)
deriving DecidableEq, Repr

/-- A command whose doorbell rang and which has not begun: while the cores reboot or a patch switches (R435, R460), or
behind a command that waits at a quiesce point (R446). -/
structure HeldCommand where
  mb : Fin 6
  opcode : BitVec 16
  frame : Frame
deriving DecidableEq, Repr

/-- Firmware, patch banks and the configuration traffic (R434 to R461, R485). -/
structure Firmware where
  activeBank : Nat := 0
  previousBank : Nat := 0
  patchVersion : Nat := 0
  minPatchVersion : Nat := 0
  bankA : Memory := []
  bankB : Memory := []
  /-- Probation: since when and resets so far. -/
  probation : Option (Nat × Nat) := none
  coreResets : Nat := 0
  lockstepAt : Option Nat := none
  rebooting : Bool := false
  activating : Bool := false
  snapshot : Option (List Byte × Nat) := none
  importNext : Nat := 0
  importBuffer : Memory := []
  persisted : List (Nat × Nat × Nat) := []
  features : Word := 0
  /-- The ROM's CRC-32 passes (R434); a patch bank holds an uncorrectable word (R439). -/
  romGood : Bool := true
  bankBadA : Bool := false
  bankBadB : Bool := false
  /-- The generations of the records of copy A and copy B of the configuration store, and records whose words take no
  write (R437). -/
  copyA : List (ConfigRecord × BitVec 32) := []
  copyB : List (ConfigRecord × BitVec 32) := []
  stuck : List ConfigRecord := []
  /-- Held commands, in the order of their doorbells. -/
  held : List HeldCommand := []
deriving DecidableEq, Repr

/-- The event log and its delivery (R452 to R457). -/
structure LogState where
  /-- The input buffer in SRAM: records on their way to MRAM, newest first, at most 4,096 (R434, R456). -/
  input : List EventRec := []
  /-- The log ring, newest first; the newest has log_count `count` less one. -/
  records : List EventRec := []
  count : Nat := 0
  ackIndex : Nat := 0
  alertMin : Nat := 2
  ibiMin : Nat := 2
  /-- The aligned second being counted, records admitted in it by code, and those suppressed by code with their
  count and highest severity. -/
  second : Nat := 0
  admitted : Sparse Nat := []
  suppressed : Sparse (Nat × Nat) := []
  /-- Events limited to one a second: (code, kind, number) with the second of the last record and the count since. -/
  limited : List ((Nat × Nat × Nat) × (Nat × Nat)) := []
  /-- Records that wait for delivery by in-band interrupt. -/
  ibiPending : List Nat := []
deriving DecidableEq, Repr

/-- The sideband target of MB4, the registers of MB5 and the TAP (R447 to R451). -/
structure Sideband where
  i3c : Bool := false
  dynamicAddress : BitVec 7 := 0
  strap : BitVec 2 := 0
  ibiEnabled : Bool := false
  maxWrite : Nat := 260
  maxRead : Nat := 260
  pecErrors : Nat := 0
  pointer4 : BitVec 16 := 0
  pointer5 : BitVec 16 := 0
  wspTarget : BitVec 32 := 0
  dieTarget : BitVec 8 := 0
  /-- What the last transfer or code answered, byte 0 first, and whether it was not acknowledged. -/
  answer : List Byte := []
  nacked : Bool := false
  /-- Mandatory bytes of the in-band interrupts sent, oldest first (R447, R455). -/
  ibis : List Byte := []
  /-- TRST_L holds the TAP in reset; IDCODE is the instruction a reset selects. -/
  tapReset : Bool := true
  ir : BitVec 8 := 0x01
  /-- The boundary register, and what the selected data register shifts out. -/
  boundary : BitVec 12 := 0
  tdo : BitVec 48 := 0
deriving DecidableEq, Repr

/-- A fuse word as its three references read it (R498, R510). -/
structure FuseWord where
  low : BitVec 32
  nominal : BitVec 32
  high : BitVec 32
deriving DecidableEq, Repr

/-- fuse_state of P:A000. -/
inductive FuseState where
  | good | weak | dead | default | blank
deriving DecidableEq, Repr

/-- The fuse array, its shadows and their states (R497 to R508). Fields are numbered as in R483. -/
structure FuseArray where
  words : Sparse FuseWord := []
  ident : BitVec 128 := 0
  trim : BitVec 4096 := 0
  trimLoaded : BitVec 4096 := 0
  /-- The PLL band table in force: TRIM's at the fuse load or at the last warm reset (R508). -/
  bands : BitVec 512 := 0
  /-- What each block of each field gave at the last fuse load; none where it is blank or at its default. -/
  selected : List (List (Option Nat)) := []
  /-- Channels that REPAIR keeps out of service at this start-up (R507). -/
  repairOut : List Nat := []
  keywrap : Option (BitVec 256) := none
  policy : BitVec 32 := 0
  policyLoaded : BitVec 32 := 0
  user : List (Option (BitVec 512)) := []
  states : List FuseState := [.blank, .blank, .blank, .blank, .blank, .blank]
  weakBits : List Nat := [0, 0, 0, 0, 0, 0]
  trimOverride : Bool := false
  policyOverride : Bool := false
  /-- TRIM is at its restrictive default, which adds 5.0 °C to every reading (R507). -/
  trimDefault : Bool := false
  unwrapFails : Nat := 0
  unwrapRun : Nat := 0
  keyLockedUntil : Option Nat := none
  /-- VFUSE is present and in range at its balls (R509, R549). -/
  vfuseOk : Bool := true
  vfuseRaised : Option Nat := none
deriving DecidableEq, Repr

/-- dev_state of P:0001. -/
inductive DevState where
  | fuseLoad | sram | core | dramInit | fill | ready | degraded | startFailed | tripped
deriving DecidableEq, Repr

/-- Clocks, resets and start-up of the whole stack (R412 to R433). -/
structure Device where
  dev : DevState := .fuseLoad
  lastCause : Nat := 0
  coldStarts : Nat := 0
  warmResets : Nat := 0
  startedAt : Nat := 0
  startup : Nat := 0
  epoch : Nat := 0
  /-- This cold start-up has sensed its fuses and counted itself (R414, R428). -/
  fusesSensed : Bool := false
  /-- refclk_state: 0 present, 1 lost, 2 holdover returning. -/
  refclk : Nat := 0
  /-- The bands that the hub PLL and the management PLL took at their last lock (R405). -/
  hubBand : BitVec 8 := 0
  managementBand : BitVec 8 := 0
  /-- The pending count of each pulse crossing, by its destination's number in R496 (R417). -/
  pulses : Sparse Nat := []
  overruns : Nat := 0
  peerResets : Nat := 0
  overrunStatus : BitVec 64 := 0
  peerResetStatus : BitVec 64 := 0
  fatal : Bool := false
  /-- RST_L and WRST_L as they stand; a warm reset is in progress from its start to WARM_RESTART_READY. -/
  rstLow : Bool := false
  wrstLow : Bool := false
  warm : Bool := false
  degradedItems : List (BitVec 32) := []
  railState : BitVec 8 := 0
  railFaults : Nat := 0
  /-- ALERT_L held asserted by FATAL, a trip or START_FAILED whatever the index (R455). -/
  alertForced : Bool := false
  thermtrip : Bool := false
deriving DecidableEq, Repr

/-- Device parameters that belong to no instance (R303, R328, R276, R363, R390). -/
structure DeviceParams where
  scrubPeriodH : Nat := 24
  scrubEnable : Bool := true
  suspectWindowH : Nat := 24
  suspectThreshold : Nat := 3
  autoRepair : Bool := true
  rowSuspectPasses : Nat := 3
  scrubLastPassH : Nat := 0
  sramCeCount : Nat := 0
  copyBlocks : Nat := 0
  ctrFlushUs : Nat := 1000
  polSweepMin : Nat := 60
  sealReserve : Nat := 65536
  scrubReserve : Nat := 250
  maintReserve : Nat := 2000
  restoreHoldS : Nat := 10
  holdPromoteUs : Nat := 20
  gateHigh : Nat := 96
  gateLow : Nat := 64
  missWindowUs : Nat := 100
  rekeyRate : Nat := 1000
  sealMetaHits : Nat := 0
  sealMetaMisses : Nat := 0
  migrationReserveMib : Nat := 2048
  migrateRate : Nat := 25
  trimDriftC : Nat := 8
  autoPpr : Bool := true
  bistPatterns : Nat := 65536
  controlMask : BitVec 6 := 0x3F
deriving DecidableEq, Repr

/-- The state of the AB1664 as a block: everything the spec gives it, and the queue of waiting commands. -/
structure State where
  /-- Commands that wait, first in, first out. -/
  pending : List Instr
  /-- The hub timer in ns (R414). -/
  hubTimer : Nat
  /-- How many free values have been drawn: the model's own field, not the spec's. -/
  drawn : Nat
  /-- How many requests the hub has presented: the model's own field, not the spec's. -/
  presented : Nat
  device : Device
  params : DeviceParams
  /-- DRAM: coded lines of 72 B, spare rows included (R13, R305). -/
  dram : Memory
  ports : Vector Port 4
  quarters : Vector Quarter 4
  channels : Vector Channel 32
  blocks : List (BlockId × Block)
  partitions : Vector Partition 64
  /-- The granule map of R154 (default: not valid). -/
  granuleMap : Sparse (BitVec 16)
  refills : List Refill
  tables : Vector Table 16
  /-- The root directory of R205 (default: empty), and entries uncorrectable in SRAM. -/
  directory : Sparse (BitVec 64)
  directoryBad : List Nat
  queues : Sparse Queue
  profiles : Vector Profile 32
  /-- Free-cell caches: key 64 × slice + partition (R231). -/
  freeCaches : Sparse (List Nat)
  kennel : List KennelLine
  /-- Kennel ways disabled under R267, as set and way. -/
  waysDisabled : List (Nat × Nat)
  sealCache : List MetaLine
  keys : Vector KeySlot 64
  sensors : Vector Sensor 17
  bonds : Vector Bond 20
  thermal : Thermal
  mailboxes : Vector Mailbox 6
  tasks : List Task
  nextTicket : Nat
  mover : Option Mover
  /-- The repair log: copy A, and copy B (R371, R436). -/
  repairLog : List Repair
  repairLogB : List Repair
  firmware : Firmware
  log : LogState
  sideband : Sideband
  fuses : FuseArray
  /-- Rotations of R376 over target channels, one for each choice: a QUARTER granule's own quarter and any channel, a
  CHIP granule's other quarters and its own. -/
  rotation : List Nat
  /-- Link-sealing salt counters in MRAM (R149). -/
  salts : Vector (BitVec 31) 4
deriving DecidableEq, Repr

/-- Words of copy 0 as shipped, part 0 (R505). -/
def shippedFuses0 : List (Nat × BitVec 32) :=
  [ (0x000, 0x00004246), (0x001, 0x16640000), (0x004, 0x23427C8A), (0x005, 0x0000000F), (0x006, 0xA72390EB),
    (0x06E, 0x00001000), (0x0A0, 0xA6D02A6D), (0x0C7, 0xF7C9C769), (0x0C8, 0x00000001), (0x0CF, 0x55DC4C5D),
    (0x0D0, 0x00000002), (0x0D7, 0xB60EA7F0), (0x0D8, 0x00000003), (0x0DF, 0x141B2CC4), (0x0E0, 0x00000004),
    (0x0E7, 0x7447065B), (0x0E8, 0x00000005), (0x0EF, 0xD6528D6F), (0x0F0, 0x00000006), (0x0F7, 0x358066C2),
    (0x0F8, 0x00000007), (0x0FF, 0x9795EDF6), (0x100, 0x00000008), (0x107, 0xF53833FC), (0x108, 0x00000009),
    (0x10F, 0x572DB8C8), (0x110, 0x0000000A), (0x117, 0xB4FF5365), (0x118, 0x0000000B), (0x11F, 0x16EAD851),
    (0x120, 0x0000000C), (0x127, 0x76B6F2CE), (0x128, 0x0000000D), (0x12F, 0xD4A379FA), (0x130, 0x0000000E),
    (0x137, 0x37719257) ]

/-- Words of copy 0 as shipped, part 1 (R505). -/
def shippedFuses1 : List (Nat × BitVec 32) :=
  [ (0x138, 0x0000000F), (0x13F, 0x95641963), (0x140, 0x00000010), (0x147, 0xF22A2E43), (0x148, 0x00000011),
    (0x14F, 0x503FA577), (0x150, 0x00000012), (0x157, 0xB3ED4EDA), (0x158, 0x00000013), (0x15F, 0x11F8C5EE),
    (0x160, 0x00000014), (0x167, 0x71A4EF71), (0x168, 0x00000015), (0x16F, 0xD3B16445), (0x170, 0x00000016),
    (0x177, 0x30638FE8), (0x178, 0x00000017), (0x17F, 0x927604DC), (0x180, 0x00000018), (0x187, 0xF0DBDAD6),
    (0x188, 0x00000019), (0x18F, 0x52CE51E2), (0x190, 0x0000001A), (0x197, 0xB11CBA4F), (0x198, 0x0000001B),
    (0x19F, 0x1309317B), (0x1A0, 0x0000001C), (0x1A7, 0x73551BE4), (0x1A8, 0x0000001D), (0x1AF, 0xD14090D0),
    (0x1B0, 0x0000001E), (0x1B7, 0x32927B7D), (0x1B8, 0x0000001F), (0x1BF, 0x9087F049), (0x3FF, 0x00000003) ]

/-- The fuse array as shipped (R505): IDENT and TRIM locked, REPAIR blocks 0 to 31 and POLICY block 0 burnt, in both
copies alike. What the words hold is the model's part: an AB1664-F of stepping B, serial 0, speed bin 1, corrections
zero. -/
def shippedWords : Sparse FuseWord :=
  let copy0 : List (Nat × BitVec 32) := shippedFuses0 ++ shippedFuses1
  (copy0 ++ copy0.map fun (w : Nat × BitVec 32) => (0x400 + w.1, w.2)).map fun (w : Nat × BitVec 32) =>
    (w.1, { low := w.2, nominal := w.2, high := w.2 })

/-- The block right after the release of its first reset: `VDD_CORE` power-on reset over, `RST_L` high, start-up in
phase 1 (R424, R428). -/
def State.reset : State :=
  { pending := []
    hubTimer := 0
    drawn := 0, presented := 0
    device := {}
    params := {}
    dram := []
    ports := Vector.replicate 4 {}
    quarters := Vector.replicate 4 {}
    channels := Vector.replicate 32 {}
    blocks := []
    partitions := Vector.replicate 64 {}
    granuleMap := []
    refills := []
    tables := Vector.replicate 16 {}
    directory := []
    directoryBad := []
    queues := []
    profiles := Vector.replicate 32 {}
    freeCaches := []
    kennel := []
    waysDisabled := []
    sealCache := []
    keys := Vector.replicate 64 {}
    sensors := Vector.replicate 17 {}
    bonds := Vector.replicate 20 {}
    thermal := {}
    mailboxes := Vector.replicate 6 {}
    tasks := []
    nextTicket := 1
    mover := none
    repairLog := []
    repairLogB := []
    firmware := {}
    log := {}
    sideband := {}
    fuses := { words := shippedWords }
    rotation := [0, 0, 0, 0]
    salts := Vector.replicate 4 0 }

end Sys2Proof.Machine
end

