-- ==== Sys2Proof/Machine/Bits.lean ====
section
/-! DEFINITION. Bit fields, byte strings, sparse tables and byte memories: the plain data operations on which every
meaning rests. -/

namespace Sys2Proof.Machine

open Sys2Proof

/-- The field `[hi:lo]` of a number that stands for a bit string. -/
def bitsOf (n hi lo : Nat) : Nat := (n >>> lo) % 2 ^ (hi + 1 - lo)

/-- Bit `i` of a number that stands for a bit string. -/
def bitAt (n i : Nat) : Bool := n.testBit i

def boolNat (b : Bool) : Nat := if b then 1 else 0

/-- The little-endian value of a byte string (R8). -/
def bytesToNat (bs : List Byte) : Nat := bs.foldr (fun b n => b.toNat + 256 * n) 0

/-- The low `n` bytes of a number, byte 0 first (R8). -/
def natToBytes : Nat → Nat → List Byte
  | 0, _ => []
  | n + 1, v => BitVec.ofNat 8 v :: natToBytes n (v / 256)

/-- Bytes `from` to `from + n - 1` of a byte string, zero where it has ended. -/
def bytesAt (bs : List Byte) (start n : Nat) : List Byte :=
  (List.range n).map fun i => bs.getD (start + i) 0

/-- A little-endian field of a byte string, `n` bytes from `start`. -/
def natAt (bs : List Byte) (start n : Nat) : Nat := bytesToNat (bytesAt bs start n)

/-- The slots of 16 B of a byte string, the last padded with zeros (R45). -/
def slotsOf (bs : List Byte) : List (BitVec 128) :=
  (List.range ((bs.length + 15) / 16)).map fun i => BitVec.ofNat 128 (natAt bs (16 * i) 16)

def slotBytes (w : BitVec 128) : List Byte := natToBytes 16 w.toNat

def lineBytes (l : Line) : List Byte := natToBytes 64 l.toNat

def lineOf (bs : List Byte) : Line := BitVec.ofNat 512 (bytesToNat (bytesAt bs 0 64))

/-- The lines of a byte string whose length is a multiple of 64. -/
def linesOf (bs : List Byte) : List Line :=
  (List.range (bs.length / 64)).map fun i => BitVec.ofNat 512 (natAt bs (64 * i) 64)

/-- A line with the field of `n` bits at bit `lo` replaced. -/
def linePut (l : Line) (lo n v : Nat) : Line :=
  BitVec.ofNat 512 (l.toNat - bitsOf l.toNat (lo + n - 1) lo * 2 ^ lo + v % 2 ^ n * 2 ^ lo)

/-- The field of `n` bits at bit `lo` of a line. -/
def lineGet (l : Line) (lo n : Nat) : Nat := l.toNat / 2 ^ lo % 2 ^ n

def allZero (bs : List Byte) : Bool := bs.all (· == 0)

/-- A count that saturates at 32 bits (the read-only counters of the parameter tables). -/
def sat32 (n : Nat) : Nat := if n < 4294967295 then n + 1 else 4294967295

def sat32Add (n k : Nat) : Nat := min 4294967295 (n + k)

def popcount (n width : Nat) : Nat := ((List.range width).filter n.testBit).length

/-! ### Lists -/

/-- Replaces the elements that pass a test. -/
def listModify {α : Type} (p : α → Bool) (f : α → α) (l : List α) : List α := l.map fun x => if p x then f x else x

/-- Removes the first element that passes a test. -/
def listTake {α : Type} (p : α → Bool) (l : List α) : List α := l.eraseP p

/-- The positions from which a Boolean mask of a number is set, lowest first. -/
def onesOf (n width : Nat) : List Nat := (List.range width).filter n.testBit

/-- The 64-bit position list of the fuse and repair fields. -/
def insertUnique (x : Nat) (l : List Nat) : List Nat := if l.contains x then l else l ++ [x]

/-- The median of an odd number of readings. -/
def insertSorted (x : Int) : List Int → List Int
  | [] => [x]
  | y :: ys => if x ≤ y then x :: y :: ys else y :: insertSorted x ys

def sortInts (l : List Int) : List Int := l.foldr insertSorted []

/-! ### Sparse tables -/

/-- The value of a sparse table at a key, `d` where none is listed. -/
def sparseGet {α : Type} (d : α) : List (Nat × α) → Nat → α
  | [], _ => d
  | (j, w) :: m, k => if j = k then w else sparseGet d m k

/-- A sparse table with the value at one key replaced, in canonical form. -/
def sparsePut {α : Type} [DecidableEq α] (d : α) : List (Nat × α) → Nat → α → List (Nat × α)
  | [], k, v => if v = d then [] else [(k, v)]
  | (j, w) :: m, k, v =>
    if k < j then (if v = d then (j, w) :: m else (k, v) :: (j, w) :: m)
    else if k = j then (if v = d then m else (k, v) :: m)
    else (j, w) :: sparsePut d m k v

/-- The canonical form: keys strictly rising, no listed value equal to the default. -/
def sparseWf {α : Type} [DecidableEq α] (d : α) : List (Nat × α) → Bool
  | [] => true
  | (k, v) :: m => decide (v ≠ d) && m.all (fun e => k < e.1) && sparseWf d m

/-! ### Byte memories -/

/-- One byte; an address that is not listed reads as zero (R315). -/
def memByte (m : Memory) (a : Nat) : Byte := sparseGet 0 m a

def memPut (m : Memory) (a : Nat) (b : Byte) : Memory := sparsePut 0 m a b

/-- The canonical form of a memory. -/
def memWf (m : Memory) : Bool := sparseWf (0 : Byte) m

/-- `n` bytes from an address. -/
def memBytes (m : Memory) (a n : Nat) : List Byte := (List.range n).map fun i => memByte m (a + i)

/-- Bytes written from an address upward. -/
def memWrite : Memory → Nat → List Byte → Memory
  | m, _, [] => m
  | m, a, b :: bs => memWrite (memPut m a b) (a + 1) bs

end Sys2Proof.Machine
end

