-- ==== Sys2Proof/Machine/Coding.lean ====
section
/-! DEFINITION. Codes: the fields GF(2^16) and GF(2^8), the Reed-Solomon code with four check symbols that the line
code (R305 to R309) and the flit code (R112) share, and the cyclic redundancy checks. -/

namespace Sys2Proof.Machine

open Sys2Proof

/-! ### Finite fields: `w` bits, reduced by `poly` -/

def gfDouble (w poly a : Nat) : Nat := if a.testBit (w - 1) then (2 * a) ^^^ poly else 2 * a

/-- The product, at once where a factor is zero. -/
def gfMul (w poly a b : Nat) : Nat :=
  if a == 0 || b == 0 then 0
  else
    (List.range w).foldl (fun acc i =>
      let d := gfDouble w poly acc
      if b.testBit (w - 1 - i) then d ^^^ a else d) 0

/-- The power `2^w - 2`, the inverse of a non-zero element. -/
def gfInv (w poly a : Nat) : Nat :=
  ((List.range (w - 1)).foldl (fun (acc : Nat × Nat) _ =>
    let sq := gfMul w poly acc.1 acc.1
    (sq, gfMul w poly acc.2 sq)) (a, 1)).2

/-- `α^k` for `α = 2`. -/
def gfExp (w poly : Nat) : Nat → Nat
  | 0 => 1
  | k + 1 => gfDouble w poly (gfExp w poly k)

/-! ### Reed-Solomon with roots `α^0` to `α^3` -/

/-- The coefficients, lowest degree first, of the monic polynomial with the given roots. -/
def gfPolyRoots (w poly : Nat) (roots : List Nat) : List Nat :=
  roots.foldl (fun p x =>
    (List.range (p.length + 1)).map fun i =>
      (if i = 0 then 0 else p.getD (i - 1) 0) ^^^ gfMul w poly x (p.getD i 0)) [1]

/-- The generator of R305 and R112, lowest degree first. -/
def rsGenerator (w poly : Nat) : List Nat := gfPolyRoots w poly ((List.range 4).map (gfExp w poly))

/-- The four check symbols: the remainder of data times `x^4`, highest degree first. -/
def rsChecks (w poly : Nat) (data : List Nat) : List Nat :=
  let g := rsGenerator w poly
  data.foldl (fun r d =>
    let f := d ^^^ r.getD 0 0
    (List.range 4).map fun i => r.getD (i + 1) 0 ^^^ gfMul w poly f (g.getD (3 - i) 0)) [0, 0, 0, 0]

/-- The syndromes S0 to S3 of a received word, first symbol the highest degree. -/
def rsSyndromes (w poly : Nat) (word : List Nat) : List Nat :=
  (List.range 4).map fun i =>
    let x := gfExp w poly i
    word.foldl (fun acc c => gfMul w poly acc x ^^^ c) 0

/-- The sum of `p` with its coefficients applied to syndromes from `k` on. -/
def rsApply (w poly : Nat) (p s : List Nat) (k : Nat) : Nat :=
  (List.range p.length).foldl (fun acc m => acc ^^^ gfMul w poly (p.getD m 0) (s.getD (m + k) 0)) 0

/-- Whether values at the positions `ps` of a word of `n` symbols explain the syndromes: the locator polynomial of
the positions annihilates them. -/
def rsExplains (w poly n : Nat) (s : List Nat) (ps : List Nat) : Bool :=
  let l := gfPolyRoots w poly (ps.map fun p => gfExp w poly (n - 1 - p))
  (List.range (4 - ps.length)).all fun k => rsApply w poly l s k == 0

/-- The value of the position `p` among `ps`, given that they explain the syndromes. -/
def rsValue (w poly n : Nat) (s : List Nat) (ps : List Nat) (p : Nat) : Nat :=
  let x := gfExp w poly (n - 1 - p)
  let q := gfPolyRoots w poly ((ps.filter (· != p)).map fun r => gfExp w poly (n - 1 - r))
  let num := rsApply w poly q s 0
  let den := (List.range q.length).foldl (fun acc i =>
    gfMul w poly acc x ^^^ q.getD (q.length - 1 - i) 0) 0
  gfMul w poly num (gfInv w poly den)

/-- The error positions, with the erasures `es`, of fewest errors that explain the syndromes with `2e + |es|` at most
four. -/
def rsLocate (w poly n : Nat) (s es : List Nat) : Option (List Nat) :=
  if rsExplains w poly n s es then some []
  else
    let free := (List.range n).filter fun p => !es.contains p
    match (if es.length ≤ 2 then free.find? fun p => rsExplains w poly n s (p :: es) else none) with
    | some p => some [p]
    | none =>
      if es.length = 0 then
        (free.findSome? fun p => (free.find? fun q => p < q && rsExplains w poly n s [p, q]).map fun q => [p, q])
      else none

/-- A word with the values at the positions `ps` taken off. -/
def rsFix (w poly n : Nat) (s : List Nat) (ps : List Nat) (word : List Nat) : List Nat :=
  (List.range word.length).map fun i =>
    word.getD i 0 ^^^ (if ps.contains i then rsValue w poly n s ps i else 0)

/-! ### The line code -/

def lineSymbols (l : Line) : List Nat := (List.range 32).map fun k => lineGet l (16 * k) 16

/-- The coded line of a line (R305, R306). -/
def encodeLine (l : Line) : CodedLine :=
  let cs := rsChecks 16 0x1100B (lineSymbols l)
  BitVec.ofNat 576 (l.toNat + 2 ^ 512 *
    (cs.getD 0 0 + 2 ^ 16 * cs.getD 1 0 + 2 ^ 32 * cs.getD 2 0 + 2 ^ 48 * cs.getD 3 0))

/-- The poison pattern of R308. -/
def poisonCode : CodedLine :=
  BitVec.ofNat 576 (2 ^ 512 * (0x9A5C + 2 ^ 16 * 0x36E1 + 2 ^ 32 * 0xC4D2 + 2 ^ 48 * 0x5F07))

def codedSymbols (c : CodedLine) : List Nat := (List.range 36).map fun k => c.toNat / 2 ^ (16 * k) % 65536

def symbolsLine (ws : List Nat) : Line :=
  BitVec.ofNat 512 ((List.range 32).foldr (fun k acc => ws.getD k 0 + 65536 * acc) 0)

/-- The classes of R309; the errors are the symbol positions outside the erasure set with their values. -/
inductive LineClass where
  | clean (data : Line)
  | erasureCorrected (data : Line)
  | corrected (data : Line) (errors : List (Nat × Nat))
  | poison
  | uncorrectable
deriving DecidableEq, Repr

/-- Whether a syndrome is within the poison distance of R309 from the poison pattern's. -/
def poisonNear (s es : List Nat) : Bool :=
  let sp := rsSyndromes 16 0x1100B (codedSymbols poisonCode)
  let d := (List.range 4).map fun i => s.getD i 0 ^^^ sp.getD i 0
  if rsExplains 16 0x1100B 36 d es then true
  else es.length == 0 && ((List.range 36).any fun p => rsExplains 16 0x1100B 36 d [p])

/-- The decoder of R309, with the erasure set of R307. -/
def classifyLine (c : CodedLine) (es : List Nat) : LineClass :=
  if 4 ≤ es.length then .uncorrectable
  else
    let ws := codedSymbols c
    let s := rsSyndromes 16 0x1100B ws
    if s = [0, 0, 0, 0] then .clean (symbolsLine ws)
    else if poisonNear s es then .poison
    else match rsLocate 16 0x1100B 36 s es with
      | some [] => .erasureCorrected (symbolsLine (rsFix 16 0x1100B 36 s es ws))
      | some ps =>
        .corrected (symbolsLine (rsFix 16 0x1100B 36 s (ps ++ es) ws))
          (ps.map fun p => (p, rsValue 16 0x1100B 36 s (ps ++ es) p))
      | none => .uncorrectable

/-! ### The flit code -/

/-- One codeword of R112 after correction of up to two byte errors, with whether it was changed; none where it cannot
be corrected. -/
def fecWord (word : List Nat) : Option (List Nat × Bool) :=
  let s := rsSyndromes 8 0x11D word
  if s = [0, 0, 0, 0] then some (word, false)
  else (rsLocate 8 0x11D 128 s []).map fun ps => (rsFix 8 0x11D 128 s ps word, true)

/-- The 256 bytes of a flit corrected by its two interleaved codewords (R112, R113). -/
def fecFlit (bs : List Byte) : Option (List Byte × Bool) :=
  let half (k : Nat) := (List.range 128).map fun i => (bs.getD (2 * i + k) 0).toNat
  match fecWord (half 0), fecWord (half 1) with
  | some (a, fa), some (b, fb) =>
    some ((List.range 256).map fun i =>
      BitVec.ofNat 8 (if i % 2 = 0 then a.getD (i / 2) 0 else b.getD (i / 2) 0), fa || fb)
  | _, _ => none

/-- The check bytes of R112 for flit bytes 0 to 247. -/
def fecBytes (bs : List Byte) : List Byte :=
  let half (k : Nat) := rsChecks 8 0x11D ((List.range 124).map fun i => (bs.getD (2 * i + k) 0).toNat)
  let a := half 0
  let b := half 1
  (List.range 8).map fun i => BitVec.ofNat 8 (if i % 2 = 0 then a.getD (i / 2) 0 else b.getD (i / 2) 0)

/-! ### Cyclic redundancy checks -/

/-- CRC-32C as R112 defines it. -/
def crc32c (bs : List Byte) : Nat :=
  (bs.foldl (fun c b =>
    (List.range 8).foldl (fun v _ => if v.testBit 0 then (v / 2) ^^^ 0x82F63B78 else v / 2) (c ^^^ b.toNat))
    0xFFFFFFFF) ^^^ 0xFFFFFFFF

/-- A CRC-16 over bytes, most significant bit first, of the polynomial `0x1021` from an initial value. -/
def crc16 (init : Nat) (bs : List Byte) : Nat :=
  bs.foldl (fun c b =>
    (List.range 8).foldl (fun v _ => if v.testBit 15 then (2 * v) % 65536 ^^^ 0x1021 else 2 * v % 65536)
      (c ^^^ (b.toNat * 256))) init

end Sys2Proof.Machine
end

