-- ==== Sys2Proof/Config.lean ====
section
/-! DEFINITION. What one part fixes and the spec does not state, and the free values: constants without a body, so that
no claim can rest on a value of them. -/

namespace Sys2Proof

/-- The 128-bit hash seeds a table draws at creation (R192), by the count of draws so far. -/
opaque Config.freeSeed : Nat → BitVec 128

/-- The Kennel set of a line, by its partition and line index: R290 gives eight slices of 4,096 sets and no index
function. Taken modulo 32,768. -/
opaque Config.kennelSet : Nat → Nat → Nat

/-- The Kennel set of a metadata line of the seal reserve, by its partition, data granule, level and index (R349). Taken
modulo 32,768. -/
opaque Config.metaSet : Nat → Nat → Nat → Nat → Nat

/-- The golden signature of a block's logic BIST, by event kind, number and pattern count (R521). -/
opaque Config.goldenSignature : Nat → Nat → Nat → BitVec 64

/-- The public patch verification keys of the ROM (R434, R459). -/
opaque Config.romKey : Nat → Nat × Nat

/-- The IDENT field that the ROM's constants give where the fuse field is at its default (R507): stepping, part code and
manufacturer codes. -/
opaque Config.romIdent : BitVec 128

/-- The TRIM field that the ROM gives where the fuse field is at its default: the governor energies, OCLK curve, PLL bands
and SerDes bias of it are used (R507). -/
opaque Config.romTrim : BitVec 4096

/-- The ROM's interface revision (R458). -/
opaque Config.romRevision : Nat

/-- The ROM's state-layout identifier (R458). -/
opaque Config.romLayout : Nat

/-- The code of a reason-or-kind item that the spec names without numbering, by event code and cause. Taken modulo
16. -/
opaque Config.reasonCode : Nat → Nat → Nat

/-- The stack address of a line of a reserve or spare row, by channel, bank, row and line (R321). -/
opaque Config.spareAddress : Nat → Nat → Nat → Nat → Nat

/-- The trim of OCLK that the fused curve gives at a reading of TS0: R405 gives the curve's points and no temperatures
for them. -/
opaque Config.oclkTrim : Nat → Int → Nat

/-- A 64-bit value that the spec leaves open, by the count of values drawn so far. -/
opaque Config.freeWord : Nat → BitVec 64

/-- One of several 64-bit values drawn together, by the count of values drawn so far and its place among them. -/
opaque Config.freeAt : Nat → Nat → BitVec 64

/-- The entries of the input queue of a Pointer slice and of a Bobbin slice, of which R282 names fractions. -/
opaque Config.pointerInput : Nat

opaque Config.bobbinInput : Nat

/-- The bits that a lane received while a test ran (R103), by the count of values drawn so far and the lane. -/
opaque Config.testBits : Nat → Nat → List Nat

/-- The exported form of the configuration store's content, and the content of an exported form (R464, R485): the spec
lists the content and gives the record no layout. -/
opaque Config.recordForm : Equiv.Perm (List (BitVec 8))

/-- The entry of TRIM pll_bands that a reading of TS0 picks at a PLL's lock: R405 gives a table indexed by TS0 and no
index. Taken modulo 64. -/
opaque Config.pllIndex : Int → Nat

end Sys2Proof
end

