-- ==== Sys2Proof/Machine/Ops.lean ====
section
/-! DEFINITION. The named operations over the state's parts: reading and replacing one port, channel, partition, queue
or block, the hub timer, and the values drawn from the free supply. -/

namespace Sys2Proof.Machine

open Sys2Proof

/-- The outcome type of every meaning. -/
abbrev Out := Host.Outcome State Fault Refusal

def modPort (p : Fin 4) (f : Port → Port) (s : State) : State := { s with ports := s.ports.set p (f s.ports[p]) }

def modPhy (p : Fin 4) (f : Phy → Phy) (s : State) : State := modPort p (fun x => { x with phy := f x.phy }) s

def modLink (p : Fin 4) (f : LinkState → LinkState) (s : State) : State :=
  modPort p (fun x => { x with link := f x.link }) s

def modLane (p : Fin 4) (l : Fin 16) (f : Lane → Lane) (s : State) : State :=
  modPort p (fun x => { x with lanes := x.lanes.set l (f x.lanes[l]) }) s

/-- Every lane of a port changed. -/
def mapLanes (p : Fin 4) (f : Nat → Lane → Lane) (s : State) : State :=
  modPort p (fun x => { x with lanes := x.lanes.mapFinIdx fun i l _ => f i l }) s

def modClass (p : Fin 4) (k : Fin 8) (f : PortClass → PortClass) (s : State) : State :=
  modPort p (fun x => { x with classes := x.classes.set k (f x.classes[k]) }) s

def modQuarter (q : Fin 4) (f : Quarter → Quarter) (s : State) : State :=
  { s with quarters := s.quarters.set q (f s.quarters[q]) }

def modChannel (c : Fin 32) (f : Channel → Channel) (s : State) : State :=
  { s with channels := s.channels.set c (f s.channels[c]) }

def modBank (c : Fin 32) (b : Fin 16) (f : Bank → Bank) (s : State) : State :=
  modChannel c (fun x => { x with banks := x.banks.set b (f x.banks[b]) }) s

def modVertical (c : Fin 32) (f : Vertical → Vertical) (s : State) : State :=
  modChannel c (fun x => { x with vertical := f x.vertical }) s

def modPartition (pd : Fin 64) (f : Partition → Partition) (s : State) : State :=
  { s with partitions := s.partitions.set pd (f s.partitions[pd]) }

def modBuffer (pd : Fin 64) (f : BufferState → BufferState) (s : State) : State :=
  modPartition pd (fun x => { x with buffer := f x.buffer }) s

def modCounter (pd : Fin 64) (f : CounterState → CounterState) (s : State) : State :=
  modPartition pd (fun x => { x with counter := f x.counter }) s

def modSeal (pd : Fin 64) (f : SealState → SealState) (s : State) : State :=
  modPartition pd (fun x => { x with sealing := f x.sealing }) s

def modTable (td : Fin 16) (f : Table → Table) (s : State) : State :=
  { s with tables := s.tables.set td (f s.tables[td]) }

def modProfile (i : Fin 32) (f : Profile → Profile) (s : State) : State :=
  { s with profiles := s.profiles.set i (f s.profiles[i]) }

def modMailbox (m : Fin 6) (f : Mailbox → Mailbox) (s : State) : State :=
  { s with mailboxes := s.mailboxes.set m (f s.mailboxes[m]) }

def modSensor (k : Fin 17) (f : Sensor → Sensor) (s : State) : State :=
  { s with sensors := s.sensors.set k (f s.sensors[k]) }

def modBond (i : Fin 20) (f : Bond → Bond) (s : State) : State := { s with bonds := s.bonds.set i (f s.bonds[i]) }

def modKey (k : Fin 64) (f : KeySlot → KeySlot) (s : State) : State := { s with keys := s.keys.set k (f s.keys[k]) }

def modDevice (f : Device → Device) (s : State) : State := { s with device := f s.device }

def modParams (f : DeviceParams → DeviceParams) (s : State) : State := { s with params := f s.params }

def modThermal (f : Thermal → Thermal) (s : State) : State := { s with thermal := f s.thermal }

def modFirmware (f : Firmware → Firmware) (s : State) : State := { s with firmware := f s.firmware }

def modLog (f : LogState → LogState) (s : State) : State := { s with log := f s.log }

def modSideband (f : Sideband → Sideband) (s : State) : State := { s with sideband := f s.sideband }

def modFuses (f : FuseArray → FuseArray) (s : State) : State := { s with fuses := f s.fuses }

/-! ### Sparse parts -/

/-- A queue descriptor (R225); a queue never created is FREE. -/
def queueAt (s : State) (q : Nat) : Queue := sparseGet {} s.queues q

def modQueue (q : Nat) (f : Queue → Queue) (s : State) : State :=
  { s with queues := sparsePut {} s.queues q (f (queueAt s q)) }

/-- A granule map entry (R154). -/
def granuleEntry (s : State) (g : Nat) : BitVec 16 := sparseGet 0 s.granuleMap g

def setGranule (g : Nat) (e : BitVec 16) (s : State) : State :=
  { s with granuleMap := sparsePut 0 s.granuleMap g e }

/-- A root directory entry (R205). -/
def directoryEntry (s : State) (i : Nat) : BitVec 64 := sparseGet 0 s.directory i

def setDirectory (i : Nat) (e : BitVec 64) (s : State) : State :=
  { s with directory := sparsePut 0 s.directory i e }

/-- The free-cell cache of a Bobbin slice for a partition (R231). -/
def freeCache (s : State) (slice pd : Nat) : List Nat := sparseGet [] s.freeCaches (64 * slice + pd)

def setFreeCache (slice pd : Nat) (cells : List Nat) (s : State) : State :=
  { s with freeCaches := sparsePut [] s.freeCaches (64 * slice + pd) cells }

/-- A fenceable block; one that has never left its reset state is not listed. -/
def blockAt (s : State) (b : BlockId) : Block :=
  match s.blocks.find? (fun e => e.1 = b) with
  | some e => e.2
  | none => {}

def modBlock (b : BlockId) (f : Block → Block) (s : State) : State :=
  if s.blocks.any (fun e => e.1 = b) then
    { s with blocks := s.blocks.map fun e => if e.1 = b then (b, f e.2) else e }
  else { s with blocks := s.blocks ++ [(b, f {})] }

/-! ### Blocks and quarters -/

/-- The quarter of a block (R14); the Kennel and the copy engine belong to the chip. -/
def quarterOf : BlockId → Option (Fin 4)
  | .port n => some n
  | .channel n => some (Fin.ofNat 4 (n.val / 8))
  | .pointer n => some n
  | .bobbin n => some n
  | .counter n => some n
  | .crypto n => some n
  | .kennel _ => none
  | .copy => none

/-- inst_kind and inst_num of R453. -/
def blockInst : BlockId → Nat × Nat
  | .port n => (1, n)
  | .channel n => (3, n)
  | .pointer n => (6, n)
  | .bobbin n => (7, n)
  | .counter n => (8, n)
  | .crypto n => (9, n)
  | .kennel n => (10, n)
  | .copy => (12, 0)

/-- The block that an inst_kind and inst_num name, if it can fence. -/
def blockNamed (kind num : Nat) : Option BlockId :=
  if kind = 1 ∧ num < 4 then some (.port (Fin.ofNat 4 num))
  else if kind = 3 ∧ num < 32 then some (.channel (Fin.ofNat 32 num))
  else if kind = 6 ∧ num < 4 then some (.pointer (Fin.ofNat 4 num))
  else if kind = 7 ∧ num < 4 then some (.bobbin (Fin.ofNat 4 num))
  else if kind = 8 ∧ num < 4 then some (.counter (Fin.ofNat 4 num))
  else if kind = 9 ∧ num < 4 then some (.crypto (Fin.ofNat 4 num))
  else if kind = 10 ∧ num < 8 then some (.kennel (Fin.ofNat 8 num))
  else if kind = 12 ∧ num = 0 then some .copy
  else none

/-- A block that takes no work: it is fenced, being reset or under test (R20, R518). -/
def blockStopped (s : State) (b : BlockId) : Bool :=
  let x := blockAt s b
  x.fenced || x.resetting || x.testing

/-- A quarter that answers nothing: isolating, isolated or being reset (R22). -/
def quarterOut (s : State) (q : Fin 4) : Bool :=
  let x := s.quarters[q]
  x.isolating || decide (x.state ≠ .inService)

/-! ### Time and free values -/

/-- A staged parameter's value in force at a time. -/
def stagedAt {α : Type} (x : Staged α) (t : Nat) : α :=
  if x.since ≤ t then x.new
  else match (x.earlier.filter fun e => e.1 ≤ t).getLast? with
    | some e => e.2
    | none => x.old

/-- A staged parameter written: the new value is in force 1 µs later, and the writes before it in their own time (R220,
R229). -/
def stage {α : Type} (x : Staged α) (v : α) (now : Nat) : Staged α :=
  { old := x.old, earlier := x.earlier ++ [(x.since, x.new)], new := v, since := now + 1000 }

/-- A happening noted among those of the last 1 ms. -/
def noteTime (now : Nat) (ts : List Nat) : List Nat := now :: ts.filter fun t => now < t + 1000000

/-- How many of a list of times lie in the last 1 ms. -/
def lastMs (now : Nat) (ts : List Nat) : Nat := (ts.filter fun t => now < t + 1000000).length

/-- The hub timer brought forward to a moment, never back. -/
def passTo (t : Nat) (s : State) : State := { s with hubTimer := max s.hubTimer t }

/-- One value drawn from the free supply. -/
def drawOne (s : State) : State := { s with drawn := s.drawn + 1 }

/-- The meanings of R442's statuses as codes. -/
def kstatusCode : KStatus → Nat
  | .ok => 0x00
  | .accepted => 0x01
  | .queued => 0x02
  | .badOpcode => 0x10
  | .badLength => 0x11
  | .badParam => 0x12
  | .denied => 0x13
  | .oversubscribed => 0x14
  | .tempRange => 0x15
  | .locked => 0x16
  | .failed => 0x17
  | .aborted => 0x18

/-- The completion status codes of R49. -/
def qstatusCode : QStatus → Nat
  | .ok => 0
  | .dataError => 1
  | .unwritten => 2
  | .integrity => 3
  | .denied => 4
  | .range => 5
  | .length => 6
  | .full => 7
  | .dropped => 8
  | .empty => 9
  | .busy => 10
  | .orphaned => 11
  | .unsupported => 12
  | .aborted => 13

/-- Requesters as R454 numbers them. -/
def requesterCode : Requester → Nat
  | .port p => p
  | .mgmt => 4
  | .dbg => 5
  | .mig => 6
  | .scr => 7
  | .rky => 8
  | .int => 9

def pathCode : Path → Nat
  | .column => 0
  | .skein => 1
  | .command => 2

def gaugeCode : Gauge → Nat
  | .g10 => 0
  | .g25 => 1
  | .g53 => 2
  | .g106 => 3

def gaugeOf (n : Nat) : Gauge := if n = 0 then .g10 else if n = 1 then .g25 else if n = 2 then .g53 else .g106

def railCode : Rail → Nat
  | .vddCore => 0
  | .vddSram => 1
  | .vddSd => 2
  | .vddSdh => 3
  | .vddIo => 4
  | .vddDram => 5
  | .vpp => 6
  | .vfuse => 7

def devStateCode : DevState → Nat
  | .fuseLoad => 0
  | .sram => 1
  | .core => 2
  | .dramInit => 3
  | .fill => 4
  | .ready => 5
  | .degraded => 6
  | .startFailed => 7
  | .tripped => 8

/-- READY or DEGRADED: the full command set is open (R428). -/
def devReady (s : State) : Bool := decide (s.device.dev = .ready) || decide (s.device.dev = .degraded)

/-- The SerDes rails are in range (R549). -/
def serdesUp (s : State) : Bool := !s.device.railState.getLsbD 2 && !s.device.railState.getLsbD 3

/-- A port whose receivers and transmitters run. -/
def portLive (s : State) (p : Fin 4) : Bool :=
  devReady s && serdesUp s && !s.device.fatal && !s.device.warm && !s.device.rstLow && !quarterOut s p &&
    !blockStopped s (.port p) && decide (s.ports[p].phy.state ≠ .disabled)

/-! ### The copies of the configuration store (R437) -/

/-- The generation of a record in a copy raised by one; a record never written has generation 0. -/
def raiseGeneration (copy : List (ConfigRecord × BitVec 32)) (r : ConfigRecord) : List (ConfigRecord × BitVec 32) :=
  match copy.find? fun e => e.1 = r with
  | some e => copy.map fun x => if x.1 = r then (r, e.2 + 1) else x
  | none => copy ++ [(r, 1)]

/-- Records written to copy A and then to copy B, each with its next generation. -/
def noteCommit (rs : List ConfigRecord) (s : State) : State :=
  modFirmware (fun f => { f with
    copyA := rs.foldl raiseGeneration f.copyA, copyB := rs.foldl raiseGeneration f.copyB }) s

end Sys2Proof.Machine
end

