-- ==== Sys2Proof/Machine/Blocks.lean ====
section
/-! DEFINITION. Lane coding: groups and masks (R66), ordered sets as sent (R80), blocks, scrambling, Gray levels and
precoding (R76, R77), striping over logical lanes (R78), ALIGN (R79), and the PRBS patterns (R103). -/

namespace Sys2Proof.Machine

open Sys2Proof

/-! ### Groups and gauges -/

/-- The lanes of a group mask (R66). -/
def maskLanes (m : BitVec 4) : Nat := 4 * popcount m.toNat 4

def maskHas (m : BitVec 4) (lane : Nat) : Bool := m.getLsbD (lane / 4)

/-- The physical lanes of a mask, ascending. -/
def lanesOf (m : BitVec 4) : List Nat := (List.range 16).filter fun i => maskHas m i

/-- NRZ gauges (R67). -/
def isNrz (g : Gauge) : Bool := decide (g = .g10) || decide (g = .g25)

/-! ### Ordered sets as sent -/

/-- Whether eight sets in a row of a kind have arrived on a lane at the port's step (R80). -/
def laneAck (x : Phy) (kind : Nat) (l : Lane) : Bool :=
  decide (l.sets = 8) && decide (l.setKind = kind) && decide (l.setStep = x.stepId)

/-- The ack of a set sent on a lane: of the sets of its kind received there (R80), and, in a TS_EQ set while a request of
the partner stands, the echo of that request's ack (R90). -/
def ackSent (x : Phy) (kind : Nat) (l : Lane) : Bool :=
  laneAck x kind l && (decide (kind ≠ 0xA3) || decide (l.standing.toNat / 8 = 0) || l.echo)

/-- The ordered set that a port sends on one of its lanes, with its CRC (R80). The group mask is the receiver's. -/
def orderedSet (x : Phy) (l : Lane) (lane kind arg : Nat) : BitVec 128 :=
  let body := kind + lane * 2 ^ 8 + gaugeCode x.gauge * 2 ^ 12 + x.latched.gaugeMask.toNat * 2 ^ 14 +
    boolNat x.latched.fckCap * 2 ^ 18 + boolNat x.precodeRequest * 2 ^ 19 + 2 ^ 20 + boolNat (ackSent x kind l) * 2 ^ 21 +
    x.rxMask.toNat * 2 ^ 22 + l.askedPreset % 8 * 2 ^ 26 + l.ask.toNat * 2 ^ 29 + l.limit.toNat * 2 ^ 35 +
    boolNat l.rxPass * 2 ^ 38 + l.errCount % 65536 * 2 ^ 40 + x.stepId.toNat * 2 ^ 56 + arg * 2 ^ 72
  BitVec.ofNat 128 (body + crc16 0xFFFF (natToBytes 14 body) * 2 ^ 112)

/-! ### Scrambling and symbols (R77) -/

/-- One bit through the scrambler x^58 + x^39 + 1; the accumulator holds the register, the newest bit lowest, and the
bits out. -/
def scrambleBit (body : Nat) (acc : Nat × Nat) (i : Nat) : Nat × Nat :=
  let o := (body >>> i ^^^ acc.1 >>> 38 ^^^ acc.1 >>> 57) % 2
  ((2 * acc.1 + o) % 2 ^ 58, acc.2 + o * 2 ^ i)

/-- The body of a data block of `n` bits scrambled, bit 0 first. -/
def scramble (reg : BitVec 58) (n body : Nat) : BitVec 58 × Nat :=
  let r := (List.range n).foldl (scrambleBit body) (reg.toNat, 0)
  (BitVec.ofNat 58 r.1, r.2)

/-- The Gray-coded level of a bit pair, the first bit of the pair lowest. -/
def grayLevel (pair : Nat) : Nat := if pair = 0 then 0 else if pair = 2 then 1 else if pair = 3 then 2 else 3

/-- The levels of a string of bits taken in pairs. -/
def grayLevels (n bits : Nat) : List Nat := (List.range (n / 2)).map fun i => grayLevel (bits / 4 ^ i % 4)

/-- 1/(1+D) modulo 4, from the level that went before. -/
def precode : Nat → List Nat → List Nat
  | _, [] => []
  | prev, d :: ds => (d + 4 - prev) % 4 :: precode ((d + 4 - prev) % 4) ds

/-- The symbols of a block of `n` bits on a lane: bits at NRZ gauges, levels at PAM4 gauges, precoded where the partner
asked for it. -/
def symbolsOf (g : Gauge) (precoded : Bool) (prev n bits : Nat) : List Nat :=
  if isNrz g then (List.range n).map fun i => bits / 2 ^ i % 2
  else if precoded then precode prev (grayLevels n bits) else grayLevels n bits

/-- Bits in the body of a block (R76). -/
def bodyBits (g : Gauge) : Nat := if isNrz g then 64 else 128

/-- The sync headers of R76, the bit sent first lowest. -/
def dataHeader : BitVec 2 := 2
def setHeader : BitVec 2 := 1

/-- A block driven on a lane. -/
def putBlock (x : Phy) (header : BitVec 2) (body : Nat) (l : Lane) : Lane :=
  let s := symbolsOf x.gauge x.partnerPrecode l.precoder (bodyBits x.gauge + 2) (header.toNat + 4 * body)
  { l with sent := l.sent ++ [.block header body s], precoder := if isNrz x.gauge then 0 else s.getLastD 0 }

/-- A data block: its body is scrambled. -/
def putData (x : Phy) (body : Nat) (l : Lane) : Lane :=
  let r := scramble l.scrambler (bodyBits x.gauge) body
  putBlock x dataHeader r.2 { l with scrambler := r.1 }

/-- An ordered set: one block at PAM4 gauges, two at NRZ gauges, not scrambled. -/
def putSet (x : Phy) (os : BitVec 128) (l : Lane) : Lane :=
  if isNrz x.gauge then putBlock x setHeader (os.toNat / 2 ^ 64) (putBlock x setHeader (os.toNat % 2 ^ 64) l)
  else putBlock x setHeader os.toNat l

/-! ### Striping (R78, R79) -/

/-- The place of a physical lane among the logical lanes of the transmit direction; none for one not active. -/
def logicalLane (x : Phy) (lane : Nat) : Option Nat :=
  (if x.reversed then (lanesOf x.txMask).reverse else lanesOf x.txMask).findIdx? (· = lane)

/-- The bytes of a unit that go to logical lane `j` of `w`. -/
def laneBytes (w j : Nat) (bs : List Byte) : List Byte :=
  (List.range ((bs.length + w - 1 - j) / w)).map fun k => bs.getD (w * k + j) 0

/-- Every active transmit lane of a port changed. -/
def eachTx (f : Nat → Lane → Lane) (x : Port) : Port :=
  { x with lanes := x.lanes.mapFinIdx fun i l _ => if maskHas x.phy.txMask i then f i l else l }

/-- An ordered set sent once on every active lane, each copy naming its lane. -/
def driveSet (kind arg : Nat) (x : Port) : Port :=
  eachTx (fun i l => putSet x.phy (orderedSet x.phy l i kind arg) l) x

/-- Block-times that one ordered set takes. -/
def setBlocks (g : Gauge) : Nat := if isNrz g then 2 else 1

/-- The copies of an ordered set by lane, as the wire record names them. -/
def setCopies (kind arg : Nat) (x : Port) : List (Nat × BitVec 128) :=
  (lanesOf x.phy.txMask).map fun i => (i, orderedSet x.phy x.lanes[Fin.ofNat 16 i] i kind arg)

/-- An ordered set sent so many times on every active lane. -/
def sendSet (kind arg times : Nat) (x : Port) : Port :=
  let y := (List.range times).foldl (fun y _ => driveSet kind arg y) x
  { y with link := { y.link with
      wire := y.link.wire ++ [.sets (setCopies kind arg x) times]
      blocks := y.link.blocks + times * setBlocks x.phy.gauge } }

/-- ALIGN on every active lane where its block-time has come: one in every 16,384 blocks. -/
def alignDue (x : Port) : Port :=
  if 16384 ≤ x.link.blocks + setBlocks x.phy.gauge then
    let y := sendSet 0xAA 0 1 x
    { y with link := { y.link with blocks := 0 } }
  else x

/-- The data blocks of block-time `k` of a unit. -/
def blockTime (bs : List Byte) (x : Port) (k : Nat) : Port :=
  let x := alignDue x
  let w := maskLanes x.phy.txMask
  let n := bodyBits x.phy.gauge / 8
  let y := eachTx (fun i l =>
    match logicalLane x.phy i with
    | some j => putData x.phy (natAt (laneBytes w j bs) (n * k) n) l
    | none => l) x
  { y with link := { y.link with blocks := y.link.blocks + 1 } }

/-- A unit of whole block-times on the lanes: a flit, or at a width of 12 a group of three. -/
def putUnit (bs : List Byte) (x : Port) : Port :=
  let times := bs.length / (maskLanes x.phy.txMask * (bodyBits x.phy.gauge / 8))
  (List.range times).foldl (blockTime bs) x

/-- The 256 bytes of a flit put on the lanes; at a width of 12 the group waits for its third flit. -/
def putImage (image : List Byte) (x : Port) : Port :=
  if maskLanes x.phy.txMask = 12 then
    let g := x.link.group ++ image
    if g.length < 768 then { x with link := { x.link with group := g } }
    else putUnit g { x with link := { x.link with group := [] } }
  else putUnit image x

/-- Electrical idle on every active lane. -/
def squelch (x : Port) : Port :=
  let y := eachTx (fun _ l => { l with sent := l.sent ++ [.idle] }) x
  { y with link := { y.link with wire := y.link.wire ++ [.squelch] } }

/-- The exit burst: the maximum-transition pattern and four IDLE_EXIT sets (R91). -/
def exitBurst (x : Port) : Port :=
  let y := eachTx (fun _ l => { l with sent := l.sent ++ [.burst] }) x
  sendSet 0xA7 0 4 { y with link := { y.link with wire := y.link.wire ++ [.exitBurst] } }

/-! ### What the lanes repeat -/

/-- What a transmitter repeats on a lane in the port's state (R81, R83, R84, R96, R102). -/
def laneTx (x : Phy) (lane : Nat) (l : Lane) : LaneTx :=
  let retired := x.retired.getLsbD (lane / 4)
  let set (kind : Nat) : LaneTx := .sets (orderedSet x l lane kind 0)
  match x.state with
  | .detect | .switch | .disabled => .idle
  | .acquire =>
    match x.loop with
    | some 2 => .looped
    | some _ => .idle
    | none => if retired then .idle else set 0xA1
  | .align => if retired then .idle else set 0xA1
  | .caps => if maskHas x.txMask lane then set 0xA2 else .idle
  | .eq => if maskHas x.txMask lane then set 0xA3 else .idle
  | .check =>
    if !maskHas x.txMask lane then .idle else if x.judged then set 0xA4 else .prbs 2 false (!isNrz x.gauge)
  | .active =>
    if x.txIdle then .idle else if maskHas x.txMask lane then .flits else if retired then .idle else set 0xA1
  | .test =>
    match x.test with
    | some t =>
      if !t.lanes.getLsbD lane then .idle
      else if t.loop = 2 then .looped else if t.loop = 3 then .prbs t.pattern t.inverted (!isNrz x.gauge)
      else .idle
    | none => .idle

/-- The lanes of a port set to what its state repeats. -/
def announce (x : Port) : Port :=
  { x with lanes := x.lanes.mapFinIdx fun i l _ => { l with tx := laneTx x.phy i l } }

/-! ### Test patterns (R103) -/

/-- The order of a pattern and the second tap of its polynomial. -/
def prbsOrder (pattern : Nat) : Nat × Nat := if pattern = 0 then (7, 6) else if pattern = 1 then (15, 14) else (31, 28)

/-- The bit that follows a register of a pattern, the newest bit lowest. -/
def prbsNext (pattern reg : Nat) : Nat :=
  (reg >>> ((prbsOrder pattern).1 - 1) ^^^ reg >>> ((prbsOrder pattern).2 - 1)) % 2

/-- `n` bits of a generator from a register, bit 0 first. -/
def prbsBits (pattern : Nat) (inverted : Bool) : Nat → Nat → List Nat
  | 0, _ => []
  | n + 1, reg =>
    let b := prbsNext pattern reg
    (b + boolNat inverted) % 2 :: prbsBits pattern inverted n ((2 * reg + b) % 2 ^ (prbsOrder pattern).1)

/-- Bits in pairs as Gray-coded levels, and the bits of received levels. -/
def pairLevels : List Nat → List Nat
  | a :: b :: bs => grayLevel (a + 2 * b) :: pairLevels bs
  | _ => []

def levelBits (levels : List Nat) : List Nat :=
  levels.flatMap fun v => if v = 0 then [0, 0] else if v = 1 then [0, 1] else if v = 2 then [1, 1] else [1, 0]

/-- What a generator drives at a gauge: bits at NRZ, levels at PAM4 (R103). -/
def prbsSymbols (g : Gauge) (pattern : Nat) (inverted : Bool) (n reg : Nat) : List Nat :=
  if isNrz g then prbsBits pattern inverted n reg else pairLevels (prbsBits pattern inverted n reg)

/-- The bits of the symbols that a checker receives at a gauge. -/
def symbolBits (g : Gauge) (symbols : List Nat) : List Nat :=
  if isNrz g then symbols.map (· % 2) else levelBits (symbols.map (· % 4))

/-- One received bit through a checker, whose register, error-free run and error count the accumulator holds: it takes
its register from the bits received until `2 × order` in a row fit, and then counts those that do not. -/
def prbsCheck (pattern : Nat) (inverted : Bool) (acc : Nat × Nat × Nat) (bit : Nat) : Nat × Nat × Nat :=
  let order := (prbsOrder pattern).1
  let got := (bit + boolNat inverted) % 2
  let want := prbsNext pattern acc.1
  if 2 * order ≤ acc.2.1 then
    ((2 * acc.1 + want) % 2 ^ order, acc.2.1, if got = want then acc.2.2 else acc.2.2 + 1)
  else ((2 * acc.1 + got) % 2 ^ order, if got = want then acc.2.1 + 1 else 0, acc.2.2)

/-- The bit errors that a checker counts in the bits it receives. -/
def prbsErrorCount (pattern : Nat) (inverted : Bool) (bits : List Nat) : Nat :=
  (bits.foldl (prbsCheck pattern inverted) (0, 0, 0)).2.2

end Sys2Proof.Machine
end

