-- ==== Sys2Proof/Machine/Crypto.lean ====
section
/-! DEFINITION. Cryptography: AES-256 and the modes the spec names (XTS, R332; counter mode and CMAC, R339; key wrap,
R354; the KDF of R355; GCM, R147), SipHash-2-4 (R197), SHA-384 and ECDSA P-384 (R459). Byte strings are lists, byte 0
first. -/

namespace Sys2Proof.Machine

open Sys2Proof

/-! ### AES-256 -/

/-- The AES S-box, byte `i` at bits `8i`. -/
def aesSbox : Nat :=
  (0x16bb54b00f2d99416842e6bf0d89a18cdf2855cee9871e9b948ed9691198f8e19e1dc186b95735610ef6034866b53e70 <<< 1664) |||
  (0x8a8bbd4b1f74dde8c6b4a61c2e2578ba08ae7a65eaf4566ca94ed58d6d37c8e779e4959162acd3c25c2406490a3a32e0 <<< 1280) |||
  (0xdb0b5ede14b8ee4688902a22dc4f816073195d643d7ea7c41744975fec130ccdd2f3ff1021dab6bcf5389d928f40a351 <<< 896) |||
  (0xa89f3c507f02f94585334d43fbaaefd0cf584c4a39becb6a5bb1fc20ed00d153842fe329b3d63b52a05a6e1b1a2c8309 <<< 512) |||
  (0x75b227ebe28012079a059618c323c7041531d871f1e5a534ccf73f362693fdb7c072a49cafa2d4adf04759fa7dc982ca <<< 128) |||
  0x76abd7fe2b670130c56f6bf27b777c63

/-- The inverse AES S-box, byte `i` at bits `8i`. -/
def aesInvSbox : Nat :=
  (0x7d0c2155631469e126d677ba7e042b17619953833cbbebc8b0f52aae4d3be0a0ef9cc9939f7ae52d0d4ab519a97f5160 <<< 1664) |||
  (0x5fec8027591012b131c7078833a8dd1ff45acd78fec0db9a2079d2c64b3e56fc1bbe18aa0e62b76f89c5291d711af147 <<< 1280) |||
  (0x6edf751ce837f9e28535ade72274ac9673e6b4f0cecff297eadc674f4111913a6b8a130103bdafc1020f3fca8f1e2cd0 <<< 896) |||
  (0x0645b3b80558e4f70ad3bc8c00abd890849d8da75746155edab9edfd5048706c92b6655dcc5ca4d41698688664f6f872 <<< 512) |||
  (0x25d18b6d49a25b76b224d92866a12e084ec3fa420b954cee3d23c2a632947b54cbe9dec444438e3487ff2f9b8239e37c <<< 128) |||
  0xfbd7f3819ea340bf38a53630d56a0952

def sboxByte (table b : Nat) : Nat := table / 2 ^ (8 * b) % 256

def xorList (a b : List Nat) : List Nat := List.zipWith (· ^^^ ·) a b

/-- Bytes `start` to `start + n - 1` of a number, little-endian, as numbers. -/
def numBytes (v start n : Nat) : List Nat := (List.range n).map fun i => v / 2 ^ (8 * (start + i)) % 256

def listNum (bs : List Nat) : Nat := bs.foldr (fun b n => b + 256 * n) 0

/-- The low `n` bytes of a number through a table. -/
def sboxBytes (table n v : Nat) : Nat := listNum ((numBytes v 0 n).map (sboxByte table))

/-- The 60 words of the key schedule as little-endian numbers, last first. -/
def aesSchedule (key : List Nat) : List Nat :=
  (List.range 52).foldl (fun ws k =>
    let i := k + 8
    let prev := ws.headD 0
    let t :=
      if i % 8 = 0 then sboxBytes aesSbox 4 (prev / 256 + prev % 256 * 2 ^ 24) ^^^ 2 ^ (i / 8 - 1)
      else if i % 8 = 4 then sboxBytes aesSbox 4 prev
      else prev
    (ws.getD 7 0 ^^^ t) :: ws) ((List.range 8).map fun i => listNum ((key.drop (4 * (7 - i))).take 4))

/-- The key of a round as a little-endian number of 16 bytes. -/
def aesRoundKey (key : List Nat) (r : Nat) : Nat :=
  ((((aesSchedule key).reverse.drop (4 * r)).take 4).foldr (fun w n => w + 2 ^ 32 * n) 0)

/-- The bytes of row `r` of a state: byte `i` is row `i mod 4` of column `i / 4`. -/
def aesRow (s r : Nat) : Nat := s &&& (0x000000FF_000000FF_000000FF_000000FF <<< (8 * r))

/-- ShiftRows with `dir = 1`, its inverse with `dir = 3`: row `r` moves by `r` columns. -/
def aesShift (s dir : Nat) : Nat :=
  (List.range 4).foldl (fun n r =>
    let w := 32 * (dir * r % 4)
    n ||| (aesRow s r >>> w) ||| ((aesRow s r <<< (128 - w)) % 2 ^ 128)) 0

/-- Every byte of a state doubled in the field of AES. -/
def aesDouble (s : Nat) : Nat :=
  ((s &&& 0x7F7F7F7F_7F7F7F7F_7F7F7F7F_7F7F7F7F) <<< 1) ^^^
    (((s >>> 7) &&& 0x01010101_01010101_01010101_01010101) * 0x1B)

/-- Every column rotated so that each row takes the byte `k` rows below it. -/
def aesRotate (s k : Nat) : Nat :=
  (List.range 4).foldl (fun n r => n ||| ((aesRow s ((r + k) % 4) >>> (8 * ((r + k) % 4))) <<< (8 * r))) 0

/-- MixColumns. -/
def aesMix (s : Nat) : Nat :=
  let t := aesRotate s 1
  aesDouble (s ^^^ t) ^^^ t ^^^ aesRotate s 2 ^^^ aesRotate s 3

/-- The inverse of MixColumns: the factor `{04}x² + {05}` before it. -/
def aesUnmix (s : Nat) : Nat := aesMix (s ^^^ aesDouble (aesDouble (s ^^^ aesRotate s 2)))

/-- AES-256 encryption of one block. -/
def aesEncrypt (key block : List Nat) : List Nat :=
  let s := (List.range 13).foldl (fun s r =>
    aesMix (aesShift (sboxBytes aesSbox 16 s) 1) ^^^ aesRoundKey key (r + 1)) (listNum block ^^^ aesRoundKey key 0)
  numBytes (aesShift (sboxBytes aesSbox 16 s) 1 ^^^ aesRoundKey key 14) 0 16

/-- AES-256 decryption of one block. -/
def aesDecrypt (key block : List Nat) : List Nat :=
  let s := (List.range 13).foldl (fun s r =>
    aesUnmix (sboxBytes aesInvSbox 16 (aesShift s 3) ^^^ aesRoundKey key (13 - r))) (listNum block ^^^ aesRoundKey key 14)
  numBytes (sboxBytes aesInvSbox 16 (aesShift s 3) ^^^ aesRoundKey key 0) 0 16

/-- The big-endian value of a byte string. -/
def beNum (bs : List Nat) : Nat := bs.foldl (fun n b => 256 * n + b) 0

/-- The big-endian bytes of a number. -/
def beBytes (n v : Nat) : List Nat := (numBytes v 0 n).reverse

/-! ### XTS, counter mode, CMAC -/

/-- The tweak of block `j` of a line (R332): AES of the sequence number under Key2, times `α^j`. -/
def xtsTweak (key2 : List Nat) (index : Nat) : Nat → List Nat
  | 0 => aesEncrypt key2 (numBytes index 0 16)
  | j + 1 =>
    let t := listNum (xtsTweak key2 index j)
    numBytes (if t.testBit 127 then (2 * t) % 2 ^ 128 ^^^ 0x87 else 2 * t) 0 16

/-- A line under AES-256-XTS (R332), encrypted or decrypted. -/
def xtsLine (decrypt : Bool) (key : BitVec 512) (index : Nat) (l : Line) : Line :=
  let k1 := numBytes key.toNat 0 32
  let k2 := numBytes key.toNat 32 32
  let out := (List.range 4).map fun j =>
    let t := xtsTweak k2 index j
    let b := xorList (numBytes l.toNat (16 * j) 16) t
    xorList (if decrypt then aesDecrypt k1 b else aesEncrypt k1 b) t
  BitVec.ofNat 512 (listNum out.flatten)

/-- A line XORed with the counter blocks of R339. -/
def ctrLine (key : BitVec 512) (major minor index : Nat) (l : Line) : Line :=
  let k := numBytes key.toNat 0 32
  let pad := (List.range 4).map fun j =>
    aesEncrypt k (numBytes major 0 8 ++ [minor % 256, j] ++ numBytes index 0 5 ++ [0])
  l ^^^ BitVec.ofNat 512 (listNum pad.flatten)

/-- Doubling in the field of CMAC, on big-endian bytes. -/
def cmacDouble (b : List Nat) : List Nat :=
  let n := beNum b
  beBytes 16 (if n.testBit 127 then (2 * n) % 2 ^ 128 ^^^ 0x87 else 2 * n)

/-- AES-256-CMAC (NIST SP 800-38B). -/
def cmac (key msg : List Nat) : List Nat :=
  let k1 := cmacDouble (aesEncrypt key (List.replicate 16 0))
  let n := (msg.length + 15) / 16 - 1
  let body := (List.range n).foldl (fun x i => aesEncrypt key (xorList x ((msg.drop (16 * i)).take 16)))
    (List.replicate 16 0)
  let last := msg.drop (16 * n)
  let tail :=
    if last.length = 16 then xorList last k1
    else xorList (last ++ [128] ++ List.replicate (15 - last.length) 0) (cmacDouble k1)
  aesEncrypt key (xorList body tail)

/-- The MAC of R339 over its 96-byte message, with a computed zero stored as one (R338). -/
def sealMac (key : BitVec 512) (domain : Nat) (position : List Nat) (counter : List Nat) (stored : Line) : Word :=
  let m := listNum ((cmac (numBytes key.toNat 32 32)
    ([domain, 0, 0, 0, 0, 0, 0, 0] ++ position ++ counter ++ numBytes stored.toNat 0 64)).take 8)
  BitVec.ofNat 64 (if m = 0 then 1 else m)

/-! ### Key wrap and the KDF -/

/-- One step of the unwrapping of RFC 3394: `A` and the registers. -/
def unwrapStep (kek : List Nat) (n : Nat) (st : List Nat × List (List Nat)) (t : Nat) : List Nat × List (List Nat) :=
  let i := (t - 1) % n
  let b := aesDecrypt kek (xorList st.1 (beBytes 8 t) ++ st.2.getD i [])
  (b.take 8, st.2.set i (b.drop 8))

/-- AES key unwrap (RFC 3394) with the default initial value; none where the integrity check fails. -/
def keyUnwrap (kek wrapped : List Nat) : Option (List Nat) :=
  let n := wrapped.length / 8 - 1
  let regs := (List.range n).map fun i => (wrapped.drop (8 * (i + 1))).take 8
  let r := (List.range (6 * n)).foldl (fun st k => unwrapStep kek n st (6 * n - k)) (wrapped.take 8, regs)
  if r.1 = List.replicate 8 0xA6 then some r.2.flatten else none

/-- The 256-bit key of the counter-mode KDF of NIST SP 800-108 with AES-256-CMAC (R355): a 32-bit counter, the label,
a zero byte, the context and the 32-bit output length, the numbers big-endian. -/
def kdf256 (key label context : List Nat) : List Nat :=
  ([1, 2].map fun i => cmac key (beBytes 4 i ++ label ++ [0] ++ context ++ beBytes 4 256)).flatten

/-! ### GCM -/

/-- Multiplication in the field of GHASH on 128-bit big-endian numbers. -/
def ghashMul (x y : Nat) : Nat :=
  ((List.range 128).foldl (fun (acc : Nat × Nat) i =>
    (if x.testBit (127 - i) then acc.1 ^^^ acc.2 else acc.1,
     if acc.2.testBit 0 then (acc.2 / 2) ^^^ (0xE1 <<< 120) else acc.2 / 2)) (0, y)).1

def ghash (h : Nat) (bs : List Nat) : Nat :=
  (List.range ((bs.length + 15) / 16)).foldl (fun acc i =>
    let b := (bs.drop (16 * i)).take 16
    ghashMul (acc ^^^ beNum (b ++ List.replicate (16 - b.length) 0)) h) 0

def pad16 (bs : List Nat) : List Nat := bs ++ List.replicate ((16 - bs.length % 16) % 16) 0

/-- The keystream of GCM for a 96-bit IV, from counter 2. -/
def gcmStream (key iv : List Nat) (n : Nat) : List Nat :=
  (((List.range ((n + 15) / 16)).map fun i => aesEncrypt key (iv ++ beBytes 4 (i + 2))).flatten).take n

/-- The tag of AES-256-GCM over additional data and ciphertext. -/
def gcmTag (key iv aad cipher : List Nat) : List Nat :=
  let h := beNum (aesEncrypt key (List.replicate 16 0))
  let s := ghash h (pad16 aad ++ pad16 cipher ++ beBytes 8 (8 * aad.length) ++ beBytes 8 (8 * cipher.length))
  xorList (beBytes 16 s) (aesEncrypt key (iv ++ [0, 0, 0, 1]))

/-! ### SipHash-2-4 -/

def rotl64 (x : BitVec 64) (n : Nat) : BitVec 64 := (x <<< n) ||| (x >>> (64 - n))

/-- A word worked out before it is used, so that the hash below is evaluated one word at a time. -/
def worked {α : Type} (x : BitVec 64) (f : BitVec 64 → α) : α :=
  match x.toNat with
  | 0 => f 0
  | n + 1 => f (BitVec.ofNat 64 (n + 1))

@[simp] theorem worked_eq {α : Type} (x : BitVec 64) (f : BitVec 64 → α) : worked x f = f x := by
  unfold worked
  split
  · rename_i h; rw [show x = 0 from BitVec.eq_of_toNat_eq (by simpa using h)]
  · rename_i n h; rw [show n + 1 = x.toNat from h.symm]; simp

def sipRound (v : BitVec 64 × BitVec 64 × BitVec 64 × BitVec 64) : BitVec 64 × BitVec 64 × BitVec 64 × BitVec 64 :=
  worked (v.1 + v.2.1) fun a =>
  worked (rotl64 v.2.1 13 ^^^ a) fun b =>
  worked (rotl64 a 32) fun a =>
  worked (v.2.2.1 + v.2.2.2) fun c =>
  worked (rotl64 v.2.2.2 16 ^^^ c) fun d =>
  worked (a + d) fun a' =>
  worked (rotl64 d 21 ^^^ a') fun d =>
  worked (c + b) fun c =>
  worked (rotl64 b 17 ^^^ c) fun b =>
  worked (rotl64 c 32) fun c => (a', b, c, d)

/-- SipHash-2-4 of a byte string under a 128-bit key. -/
def sipHash (key : BitVec 128) (msg : List Byte) : Word :=
  let k0 : BitVec 64 := BitVec.ofNat 64 key.toNat
  let k1 : BitVec 64 := BitVec.ofNat 64 (key.toNat / 2 ^ 64)
  let n := msg.length
  let words := (List.range (n / 8 + 1)).map fun i =>
    let v := natAt msg (8 * i) 8
    BitVec.ofNat 64 (if i = n / 8 then v + (n % 256) * 2 ^ 56 else v)
  let start := (k0 ^^^ 0x736f6d6570736575#64, k1 ^^^ 0x646f72616e646f6d#64, k0 ^^^ 0x6c7967656e657261#64,
    k1 ^^^ 0x7465646279746573#64)
  let v := words.foldl (fun v m =>
    let w := sipRound (sipRound (v.1, v.2.1, v.2.2.1, v.2.2.2 ^^^ m))
    (w.1 ^^^ m, w.2)) start
  let w := (List.range 4).foldl (fun v _ => sipRound v) (v.1, v.2.1, v.2.2.1 ^^^ 0xFF#64, v.2.2.2)
  w.1 ^^^ w.2.1 ^^^ w.2.2.1 ^^^ w.2.2.2

/-! ### SHA-384 -/

/-- The 80 round constants of SHA-384, word `i` at bits `64i`. -/
def shaConstants : Nat :=
  (0x6c44198c4a4758175fcb6fab3ad6faec597f299cfc657e2a4cc5d4becb3e42b6431d67c49c100d4c3c9ebe0a15c9bebc <<< 4736) |||
  (0x32caab7b40c7249328db77f523047d841b710b35131c471b113f9804bef90dae0a637dc5a2c898a606f067aa72176fba <<< 4352) |||
  (0xf57d4f7fee6ed178eada7dd6cde0eb1ed186b8c721c0c207ca273eceea26619cc67178f2e372532bbef9a3f7b2c67915 <<< 3968) |||
  (0xa4506cebde82bde990befffa23631e288cc702081a6439ec84c87814a1f0ab7278a5636f43172f60748f82ee5defb2fc <<< 3584) |||
  (0x682e6ff3d6b2b8a35b9cca4f7763e3734ed8aa4ae3418acb391c0cb3c5c95a6334b0bcb5e19b48a82748774cdf8eeb99 <<< 3200) |||
  (0x1e376c085141ab5319a4c116b8d2d0c8106aa07032bbd1b8f40e35855771202ad69906245565a910d192e819d6ef5218 <<< 2816) |||
  (0xc76c51a30654be30c24b8b70d0f89791a81a664bbc423001a2bfe8a14cf1036492722c851482353b81c2c92e47edaee6 <<< 2432) |||
  (0x766a0abb3c77b2a8650a73548baf63de53380d139d95b3df4d2c6dfc5ac42aed2e1b21385c26c92627b70a8546d22ffc <<< 2048) |||
  (0x142929670a0e6e7006ca6351e003826fd5a79147930aa725c6e00bf33da88fc2bf597fc7beef0ee4b00327c898fb213f <<< 1664) |||
  (0xa831c66d2db43210983e5152ee66dfab76f988da831153b55cb0a9dcbd41fbd44a7484aa6ea6e4832de92c6f592b0275 <<< 1280) |||
  (0x240ca1cc77ac9c650fc19dc68b8cd5b5efbe4786384f25e3e49b69c19ef14ad2c19bf174cf6926949bdc06a725c71235 <<< 896) |||
  (0x80deb1fe3b1696b172be5d74f27b896f550c7dc3d5ffb4e2243185be4ee4b28c12835b0145706fbed807aa98a3030242 <<< 512) |||
  (0xab1c5ed5da6d8118923f82a4af194f9b59f111f1b605d0193956c25bf348b538e9b5dba58189dbbcb5c0fbcfec4d3b2f <<< 128) |||
  0x7137449123ef65cd428a2f98d728ae22

def rotr64 (x : BitVec 64) (n : Nat) : BitVec 64 := (x >>> n) ||| (x <<< (64 - n))

/-- The message schedule of one 128 B block, last word first. -/
def shaSchedule (block : List Nat) : List (BitVec 64) :=
  let first := (List.range 16).map fun i => BitVec.ofNat 64 (beNum ((block.drop (8 * (15 - i))).take 8))
  (List.range 64).foldl (fun ws _ =>
    let x := ws.getD 14 0
    let y := ws.getD 1 0
    let s0 := rotr64 x 1 ^^^ rotr64 x 8 ^^^ (x >>> 7)
    let s1 := rotr64 y 19 ^^^ rotr64 y 61 ^^^ (y >>> 6)
    (ws.getD 15 0 + s0 + ws.getD 6 0 + s1) :: ws) first

def shaRound (v : List (BitVec 64)) (k w : BitVec 64) : List (BitVec 64) :=
  let a := v.getD 0 0
  let e := v.getD 4 0
  let s1 := rotr64 e 14 ^^^ rotr64 e 18 ^^^ rotr64 e 41
  let ch := (e &&& v.getD 5 0) ^^^ ((~~~ e) &&& v.getD 6 0)
  let t1 := v.getD 7 0 + s1 + ch + k + w
  let s0 := rotr64 a 28 ^^^ rotr64 a 34 ^^^ rotr64 a 39
  let maj := (a &&& v.getD 1 0) ^^^ (a &&& v.getD 2 0) ^^^ (v.getD 1 0 &&& v.getD 2 0)
  [t1 + s0 + maj, a, v.getD 1 0, v.getD 2 0, v.getD 3 0 + t1, e, v.getD 5 0, v.getD 6 0]

def shaBlock (h : List (BitVec 64)) (block : List Nat) : List (BitVec 64) :=
  let ws := (shaSchedule block).reverse
  let v := (List.range 80).foldl (fun v i =>
    shaRound v (BitVec.ofNat 64 (shaConstants / 2 ^ (64 * i))) (ws.getD i 0)) h
  List.zipWith (· + ·) h v

/-- SHA-384 of a byte string, as 48 bytes. -/
def sha384 (msg : List Nat) : List Nat :=
  let n := msg.length
  let padded := msg ++ [128] ++ List.replicate ((239 - n % 128) % 128) 0 ++ beBytes 16 (8 * n)
  let h := (List.range (padded.length / 128)).foldl (fun h i => shaBlock h ((padded.drop (128 * i)).take 128))
    [0xcbbb9d5dc1059ed8, 0x629a292a367cd507, 0x9159015a3070dd17, 0x152fecd8f70e5939, 0x67332667ffc00b31,
     0x8eb44a8768581511, 0xdb0c2e0d64f98fa7, 0x47b5481dbefa4fa4]
  ((h.take 6).map fun w => beBytes 8 w.toNat).flatten

/-! ### ECDSA P-384 -/

def p384Prime : Nat := 2 ^ 384 - 2 ^ 128 - 2 ^ 96 + 2 ^ 32 - 1

def p384Order : Nat :=
  0xffffffffffffffffffffffffffffffffffffffffffffffffc7634d81f4372ddf581a0db248b0a77aecec196accc52973

def p384B : Nat :=
  0xb3312fa7e23ee7e4988e056be3f82d19181d9c6efe8141120314088f5013875ac656398d8a2ed19d2a85c8edd3ec2aef

def p384Gx : Nat :=
  0xaa87ca22be8b05378eb1c71ef320ad746e1d3b628ba79b9859f741e082542a385502f25dbf55296c3a545e3872760ab7

def p384Gy : Nat :=
  0x3617de4a96262c6f5d9e98bf9292dc29f8f41dbd289a147ce9da3113b5f0b8c00a60b1ce1d7e819d7a431d7c90ea0e5f

/-- `a^e mod m` over the low 384 bits of the exponent. -/
def powMod (m a e : Nat) : Nat :=
  (List.range 384).foldl (fun acc i =>
    let sq := acc * acc % m
    if e.testBit (383 - i) then sq * a % m else sq) 1

def subMod (m a b : Nat) : Nat := (a + (m - b % m)) % m

/-- The sum of two points of the curve; none is the point at infinity. -/
def curveAdd (p q : Option (Nat × Nat)) : Option (Nat × Nat) :=
  match p, q with
  | none, _ => q
  | _, none => p
  | some (x1, y1), some (x2, y2) =>
    let m := p384Prime
    if x1 = x2 ∧ (y1 + y2) % m = 0 then none
    else
      let l :=
        if x1 = x2 then subMod m (3 * x1 * x1) 3 * powMod m (2 * y1) (m - 2) % m
        else subMod m y2 y1 * powMod m (subMod m x2 x1) (m - 2) % m
      let x3 := subMod m (subMod m (l * l) x1) x2
      some (x3, subMod m (l * subMod m x1 x3) y1)

def curveMul (k : Nat) (p : Option (Nat × Nat)) : Option (Nat × Nat) :=
  (List.range 384).foldl (fun acc i =>
    let d := curveAdd acc acc
    if k.testBit (383 - i) then curveAdd d p else d) none

/-- Verification of FIPS 186-5 over P-384 with SHA-384: the public key, the signed bytes, and `r` and `s`. -/
def ecdsaVerify (key : Nat × Nat) (msg : List Nat) (r s : Nat) : Bool :=
  let n := p384Order
  let m := p384Prime
  let onCurve := key.1 < m && key.2 < m &&
    (key.2 * key.2) % m == (subMod m (key.1 * key.1 * key.1) (3 * key.1) + p384B) % m
  if r = 0 ∨ n ≤ r ∨ s = 0 ∨ n ≤ s then false
  else if onCurve then
    let e := beNum (sha384 msg)
    let w := powMod n s (n - 2)
    match curveAdd (curveMul (e * w % n) (some (p384Gx, p384Gy))) (curveMul (r * w % n) (some key)) with
    | some (x, _) => x % n == r
    | none => false
  else false

end Sys2Proof.Machine
end

