-- ==== Sys2Proof/Machine/Flags.lean ====
section
/-! DEFINITION. Status and event flags: the event tables, the packing of records (R452 to R454), their admission and
delivery (R455 to R457), the alert line, and the words of status bits that registers and requests read. -/

namespace Sys2Proof.Machine

open Sys2Proof

/-! ### The event tables -/

def cellEvents : List Nat :=
  [0x1012, 0x1014, 0x2015, 0x2020, 0x2021, 0x2022, 0x2023, 0x2025, 0x2029, 0x8015, 0x8016, 0xB016]

def regionEvents : List Nat := [0x0014, 0x001A, 0x001B]

def chipEvents : List Nat :=
  [0x1034, 0x1035, 0x2026, 0x3010, 0x3011, 0x3012, 0x3013, 0x4012, 0x4013, 0x5010, 0x5011, 0x5012, 0x5014,
   0x7010, 0x7011, 0x7012, 0x7013, 0x7014, 0x7015, 0x7016, 0x8014, 0x8018, 0x8019, 0x801A, 0x8020, 0x8021, 0x8022,
   0x8023, 0x8024, 0x8025, 0x8026, 0x8027, 0x8028, 0x0010, 0x0011, 0x0012, 0x0013, 0x0016, 0x0017, 0x001C,
   0x9010, 0x9011, 0x9012, 0x9013, 0x9014, 0x9015, 0x9016, 0x9017, 0x9018, 0xA010, 0xA011, 0xA012, 0xA013, 0xA014,
   0xA015, 0xB017, 0x0030, 0x0031]

/-- The level of an event (R15): cell 0, block 1, region 2, chip 3. -/
def eventLevel (code : Nat) : Nat :=
  if cellEvents.contains code then 0 else if regionEvents.contains code then 2
  else if chipEvents.contains code then 3 else 1

def infoEvents : List Nat :=
  [0x1013, 0x1014, 0x1017, 0x1030, 0x1035, 0x2010, 0x2012, 0x2013, 0x2015, 0x4015, 0x6012, 0x6014, 0x2020, 0x2023,
   0x2026, 0x2029, 0x7012, 0x7015, 0x8024, 0x8027, 0x0010, 0x0015, 0x0017, 0x0019, 0x9010, 0x9013, 0xA013, 0xB010]

def serviceEvents : List Nat :=
  [0x1015, 0x1016, 0x1019, 0x1033, 0x1038, 0x2014, 0x2016, 0x3012, 0x3015, 0x3016, 0x4010, 0x4012, 0x4016, 0x5012,
   0x5013, 0x6015, 0x6017, 0x2022, 0x2024, 0x2025, 0x202A, 0x7010, 0x7017, 0x8011, 0x8012, 0x8013, 0x8016, 0x8018,
   0x8019, 0x801A, 0x8020, 0x8028, 0x0011, 0x0018, 0x9011, 0x9012, 0x9014, 0x9017, 0xA010, 0xA011, 0xB011, 0xB014]

def urgentEvents : List Nat :=
  [0x1018, 0x1037, 0x7011, 0x7013, 0x7016, 0x8014, 0x8021, 0x8026, 0x0016, 0x001A, 0x9016, 0xA012, 0x0030]

def fatalEvents : List Nat := [0x8025, 0x0012, 0x001C]

/-- The severity of an event: INFO 0, NOTICE 1, SERVICE 2, URGENT 3, FATAL 4. -/
def eventSeverity (code : Nat) : Nat :=
  if infoEvents.contains code then 0 else if serviceEvents.contains code then 2
  else if urgentEvents.contains code then 3 else if fatalEvents.contains code then 4 else 1

/-! ### Payload items (R454): a width in bits and a value -/

def itAddress (v : Nat) : Nat × Nat := (36, v)
def itPartition (v : Nat) : Nat × Nat := (6, v)
def itChannel (v : Nat) : Nat × Nat := (5, v)
def itBank (v : Nat) : Nat × Nat := (4, v)
def itRow (v : Nat) : Nat × Nat := (17, v)
def itLine (v : Nat) : Nat × Nat := (5, v)
def itPort (v : Nat) : Nat × Nat := (2, v)
def itClass (v : Nat) : Nat × Nat := (3, v)
def itQueue (v : Nat) : Nat × Nat := (18, v)
def itRequester (v : Nat) : Nat × Nat := (4, v)
def itPath (v : Nat) : Nat × Nat := (2, v)
def itWire (v : Nat) : Nat × Nat := (15, v)
def itSymbol (v : Nat) : Nat × Nat := (6, v)
def itReason (v : Nat) : Nat × Nat := (4, v)
def itTemp (v : Int) : Nat × Nat := (12, (v % 4096).toNat)
def itCount (v : Nat) : Nat × Nat := (32, min v 0xFFFFFFFF)
def itTicket (v : Nat) : Nat × Nat := (16, v)
def itStatus (v : Nat) : Nat × Nat := (8, v)
def itEvent (v : Nat) : Nat × Nat := (16, v)

/-- Payloads of 96 bits: an item that would pass bit 255 starts the next record (R454). The accumulator holds the
finished payloads, the open payload and its bits in use. -/
def packItems (items : List (Nat × Nat)) : List (BitVec 96) :=
  let r := items.foldl (fun (acc : List (BitVec 96) × Nat × Nat) it =>
    let v := it.2 % 2 ^ it.1
    if acc.2.2 + it.1 ≤ 96 then (acc.1, acc.2.1 + v * 2 ^ acc.2.2, acc.2.2 + it.1)
    else (acc.1 ++ [BitVec.ofNat 96 acc.2.1], v, it.1)) ([], 0, 0)
  r.1 ++ [BitVec.ofNat 96 r.2.1]

/-- The 32 bytes of a record (R452). -/
def recordBytes (r : EventRec) : List Byte :=
  natToBytes 32 (r.code % 65536 + r.level * 2 ^ 16 + r.severity * 2 ^ 18 + boolNat r.overrun * 2 ^ 21 +
    boolNat r.cont * 2 ^ 22 + r.instKind % 256 * 2 ^ 24 + r.instNum % 65536 * 2 ^ 32 +
    r.timestamp % 2 ^ 64 * 2 ^ 64 + r.epoch % 2 ^ 32 * 2 ^ 128 + r.payload.toNat * 2 ^ 160)

/-! ### Delivery -/

/-- The log ring holds 131,072 records (R436). -/
def logRingSize : Nat := 131072

/-- A record queued for a subscribed port; past 64 the oldest is dropped (R145, R146). -/
def queuePortRecord (r : EventRec) (p : Port) : Port :=
  if p.partnerState = .attached ∧ p.partner.events ∧ p.link.eventMinSeverity ≤ r.severity then
    let q := p.records ++ [r]
    if q.length ≤ 64 then { p with records := q }
    else { p with records := q.drop 1, recordsDropped := p.recordsDropped + 1 }
  else p

/-- The mandatory byte of an in-band interrupt (R447): response ready, event pending and the severity. -/
def ibiByte (s : State) (severity : Nat) : Byte :=
  BitVec.ofNat 8 (16 * boolNat (s.mailboxes[(4 : Fin 6)].respReady) + 8 + severity)

/-- The input buffer behind one more record: those raised within the 1 ms in which each reaches MRAM (R434, R456). -/
def bufferRecord (now : Nat) (r : EventRec) (input : List EventRec) : List EventRec :=
  (r :: input.filter fun e => now < e.timestamp + 1000000).take 4096

/-- One record placed in the log ring and put on its other paths, in log order on each path (R455). -/
def deliverRecord (r : EventRec) (s : State) : State :=
  let n := s.log.count
  let s := { s with
    log := { s.log with
      input := bufferRecord s.hubTimer r s.log.input
      records := (r :: s.log.records).take logRingSize, count := n + 1 },
    ports := s.ports.map (queuePortRecord r) }
  if s.sideband.i3c ∧ s.log.ibiMin ≤ r.severity then
    if s.sideband.ibiEnabled then
      modSideband (fun b => { b with ibis := b.ibis ++ [ibiByte s r.severity] }) s
    else modLog (fun l => { l with ibiPending := l.ibiPending ++ [n] }) s
  else s

/-- Whether a record's payload carries a count while the crossing into the management subsystem, which every count
passes on its way to the log, stands overrun (R418, R452). -/
def countOverran (items : List (Nat × Nat)) (s : State) : Bool :=
  s.device.overrunStatus.getLsbD 62 && items.any fun it => decide (it.1 = 32)

/-- The records of one event raised at a time, the continuations marked (R454). -/
def recordsAt (stamp code level severity kind num : Nat) (items : List (Nat × Nat)) (s : State) : List EventRec :=
  (packItems items).mapIdx fun i w =>
    { code := code, level := level, severity := severity, overrun := countOverran items s, cont := decide (0 < i),
      instKind := kind, instNum := num, timestamp := stamp, epoch := s.device.epoch, payload := w }

/-- The records of one event raised now. -/
def recordsOf (code level severity kind num : Nat) (items : List (Nat × Nat)) (s : State) : List EventRec :=
  recordsAt s.hubTimer code level severity kind num items s

/-- One second of the hub timer in ns. -/
def secondNs : Nat := 1000000000

/-- The end of an aligned second: one EVENT_SUPPRESSED for each code with records withheld, at that boundary, and the
counts begin again (R457). -/
def closeSecond (now : Nat) (s : State) : State :=
  let held := s.log.suppressed
  let stamp := (s.log.second + 1) * secondNs
  let s := modLog (fun l => { l with second := now, admitted := [], suppressed := [] }) s
  held.foldl (fun s e =>
    (recordsAt stamp 0x9018 3 e.2.2 0 0 [itEvent e.1, itCount e.2.1] s).foldl (fun s r => deliverRecord r s) s) s

/-- The aligned second of the hub timer, rolled on if it has passed. -/
def rollSecond (s : State) : State :=
  if s.log.second = s.hubTimer / secondNs then s else closeSecond (s.hubTimer / secondNs) s

/-- The limits of R457 on the log: 4,096 a second for each code, 500,000 in all. -/
def admits (code : Nat) (s : State) : Bool :=
  decide (sparseGet 0 s.log.admitted code < 4096) &&
    decide ((s.log.admitted.foldl (fun t e => t + e.2) 0) < 500000)

/-- The records that R457 always admits and counts against neither limit. -/
def alwaysAdmitted (r : EventRec) : Bool :=
  decide (r.severity = 4) || decide (r.code = 0x8025) || decide (r.code = 0x0012) || decide (r.code = 0x9018)

/-- One record admitted and delivered, or counted as suppressed (R457). -/
def admitRecord (r : EventRec) (s : State) : State :=
  if alwaysAdmitted r then deliverRecord r s
  else if admits r.code s then
    deliverRecord r (modLog (fun l => { l with
      admitted := sparsePut 0 l.admitted r.code (sparseGet 0 l.admitted r.code + 1) }) s)
  else
    modLog (fun l =>
      let e := sparseGet (0, 0) l.suppressed r.code
      { l with suppressed := sparsePut (0, 0) l.suppressed r.code (e.1 + 1, max e.2 r.severity) }) s

/-- An event raised under R452 to R457 with a stated level and severity. -/
def raiseAs (code level severity kind num : Nat) (items : List (Nat × Nat)) (s : State) : State :=
  let s := rollSecond s
  (recordsOf code level severity kind num items s).foldl (fun s r => admitRecord r s) s

/-- An event raised at the level and severity of its table. -/
def raise (code kind num : Nat) (items : List (Nat × Nat)) (s : State) : State :=
  raiseAs code (eventLevel code) (eventSeverity code) kind num items s

/-- Whether an event limited to one record a second may be raised now (R457). -/
def limitOpen (key : Nat × Nat × Nat) (s : State) : Bool :=
  match s.log.limited.find? (fun e => e.1 = key) with
  | none => true
  | some e => decide (e.2.1 ≠ s.hubTimer / secondNs)

/-- An event that its table limits to one record a second under a key (R457); the record's items are built from the
count since the last record. -/
def raiseLimitedFor (key : Nat × Nat × Nat) (code kind num : Nat) (items : Nat → List (Nat × Nat)) (s : State) : State :=
  let now := s.hubTimer / secondNs
  let since := match s.log.limited.find? (fun e => e.1 = key) with
    | some e => e.2.2
    | none => 0
  let rest := s.log.limited.filter fun e => e.1 ≠ key
  if limitOpen key s then
    raise code kind num (items (since + 1)) (modLog (fun l => { l with limited := (key, (now, 0)) :: rest }) s)
  else modLog (fun l => { l with limited := (key, (now, since + 1)) :: rest }) s

/-- An event limited to one record a second for each instance. -/
def raiseLimited (code kind num : Nat) (items : Nat → List (Nat × Nat)) (s : State) : State :=
  raiseLimitedFor (code, kind, num) code kind num items s

/-- GUARANTEE_MISSED for a port-class with misses not yet reported, at most once a second (R301). -/
def missReport (p : Fin 4) (k : Fin 8) (s : State) : State :=
  let c := s.ports[p].classes[k]
  let key := (0x6010 + 65536 * k.val, 1, p.val)
  if c.sinceFloor + c.sinceTarget + c.sinceKennel ≠ 0 ∧ limitOpen key s then
    raise 0x6010 1 p [itClass k, itCount c.sinceFloor, itCount c.sinceTarget, itCount c.sinceKennel]
      (modClass p k (fun c => { c with sinceFloor := 0, sinceTarget := 0, sinceKennel := 0 })
        (modLog (fun l => { l with
          limited := (key, (s.hubTimer / secondNs, 0)) :: l.limited.filter fun e => e.1 ≠ key }) s))
  else s

/-- An event of a block, named by its kind and number. -/
def raiseBlock (code : Nat) (b : BlockId) (items : List (Nat × Nat)) (s : State) : State :=
  raise code (blockInst b).1 (blockInst b).2 items s

/-- An event of a bank slice of a channel controller. -/
def raiseBank (code : Nat) (c : Fin 32) (b : Nat) (items : List (Nat × Nat)) (s : State) : State :=
  raise code 4 (16 * c.val + b) items s

/-! ### The alert line and status words -/

/-- The log_count of the newest record at index 0 of the ring downward. -/
def recordCount (s : State) (i : Nat) : Nat := s.log.count - 1 - i

/-- The oldest record at or above a severity that is not acknowledged, by log_count (R448, R455). -/
def oldestAlert (s : State) : Option Nat :=
  ((List.range s.log.records.length).reverse.find? fun i =>
    s.log.ackIndex ≤ recordCount s i &&
      (match s.log.records[i]? with | some r => decide (s.log.alertMin ≤ r.severity) | none => false)).map
    (recordCount s)

/-- `ALERT_L` asserted (R455, R23, R403, R430). -/
def alertAsserted (s : State) : Bool := s.device.alertForced || (oldestAlert s).isSome

/-- The MB_STATUS register of a sideband mailbox (R448). -/
def mbStatusWord (s : State) (m : Fin 6) : Nat :=
  let x := s.mailboxes[m]
  boolNat x.busy.isSome + 2 * boolNat x.respReady + 4 * boolNat (alertAsserted s) +
    8 * boolNat (!s.log.ibiPending.isEmpty) + 256 * x.lastStatus + 65536 * x.respSeq.toNat

/-- A panic bit in force on a port (R131, R132): the partner's, or the device's own. -/
def panicInForce (p : Port) : Bool := (p.link.partnerPanic && !p.link.panicIgnored) || p.devicePanic

end Sys2Proof.Machine
end

