-- ==== Sys2Proof/Machine/Packer.lean ====
section
/-! DEFINITION. The flit packer of a port: link messages, sequenced flits with their acknowledgement, credit and
panic fields, their bytes on the lanes, frames, sealing groups, and the hand-over of completions (R45, R50, R109 to R124,
R127, R128, R145 to R149). -/

namespace Sys2Proof.Machine

open Sys2Proof

/-- The ack field: the sequence number last accepted, 511 before any (R110). -/
def ackField (l : LinkState) : BitVec 9 := if l.rxNext = 0 then 511 else BitVec.ofNat 9 (l.rxNext - 1)

/-- Credit units freed in this session (R124). -/
def creditUnits (l : LinkState) : Nat := l.slotsFreed / 128

/-- The 240 slot bytes of a flit, its empty slots zero. -/
def slotImage (f : Flit) : List Byte := (List.range 15).flatMap fun i => slotBytes (f.slots.getD i 0)

/-- The 256 bytes of a flit (R109 to R112): header, slots, CRC and check bytes. -/
def flitImage (f : Flit) (ack : BitVec 9) (credit : BitVec 6) (panic : Bool) : List Byte :=
  let head := natToBytes 4 (f.ftype + boolNat panic * 2 ^ 3 + f.count * 2 ^ 4 + f.seq % 512 * 2 ^ 8 +
    ack.toNat * 2 ^ 17 + credit.toNat * 2 ^ 26)
  let data := head ++ slotImage f
  let coded := data ++ natToBytes 4 (crc32c data)
  coded ++ fecBytes coded

/-- A flit on the lanes with the current ack, credit and panic (R110, R121), in the next position of its frame. -/
def emitFlit (f : Flit) (p : Port) : Port :=
  let image := flitImage f (ackField p.link) (BitVec.ofNat 6 (creditUnits p.link)) p.devicePanic
  putImage image { p with link := { p.link with
    wire := p.link.wire ++ [.flit f (ackField p.link) (BitVec.ofNat 6 (creditUnits p.link)) p.devicePanic image]
    position := (p.link.position + 1) % 172
    ackOwed := false } }

/-- A NULL flit (R111). -/
def nullFlit : Flit := { ftype := 0, seq := 0, count := 0, slots := [] }

/-- A LINK flit with its messages. -/
def linkFlit (msgs : List (BitVec 128)) : Flit := { ftype := 4, seq := 0, count := msgs.length, slots := msgs }

/-- The STATUS message of R128. -/
def statusMessage (p : Port) : BitVec 128 :=
  let l := p.link
  BitVec.ofNat 128 (0x01 + l.frame.toNat * 2 ^ 8 + creditUnits l % 65536 * 2 ^ 16 + l.txNext % 512 * 2 ^ 32 +
    boolNat l.sealOn * 2 ^ 41 + boolNat (p.partnerState = .attached) * 2 ^ 42 + p.phy.rxMask.toNat * 2 ^ 43 +
    l.txSalt.toNat * 2 ^ 64)

/-- The STATUS flit at position 0 of the next frame (R115). -/
def statusFlit (p : Port) : Port :=
  let q := { p with link := { p.link with frame := p.link.frame + 1, position := 0 } }
  emitFlit (linkFlit [statusMessage q]) q

/-- A widening of the transmit direction has fallen due at a frame: the frame named or one after it (R129). -/
def widenDue (l : LinkState) (frame : BitVec 8) : Bool :=
  match l.widenAt with
  | some (_, f) => decide ((frame - f).toNat < 128)
  | none => false

/-- One more flit of an open width-12 group (R78): NULL, or the STATUS that begins the next frame. A frame at which the
width changes begins after the group, so the group's NULL flits put it off. -/
def fillFlit (p : Port) : Port :=
  if p.link.group = [] then p
  else if p.link.position ≠ 0 then emitFlit nullFlit p
  else if widenDue p.link (p.link.frame + 1) then
    let q := emitFlit nullFlit p
    { q with link := { q.link with position := 0 } }
  else statusFlit p

/-- An open width-12 group filled and sent (R78). -/
def fillGroup (p : Port) : Port := fillFlit (fillFlit p)

/-- A widening of the transmit direction that falls due with the next frame (R129, R130). -/
def applyWiden (p : Port) : Port :=
  match p.link.widenAt with
  | some (mask, _) =>
    if widenDue p.link (p.link.frame + 1) then
      let q := fillGroup p
      announce { q with phy := { q.phy with txMask := mask }, link := { q.link with widenAt := none } }
    else p
  | none => p

/-- The next frame begun by its STATUS flit (R115). -/
def putStatus (p : Port) : Port := statusFlit (applyWiden p)

/-- A flit put on the lanes, behind the STATUS flit of a new frame where one is due. -/
def putFlit (f : Flit) (p : Port) : Port := emitFlit f (if p.link.position = 0 then putStatus p else p)

def putNull (p : Port) : Port := putFlit nullFlit p

def putLink (msgs : List (BitVec 128)) (p : Port) : Port := putFlit (linkFlit msgs) p

/-- The NAK message of R127: the last accepted seq and the reason. -/
def nakMessage (l : LinkState) (reason : Bool) : BitVec 128 :=
  BitVec.ofNat 128 (0x02 + (ackField l).toNat * 2 ^ 8 + boolNat reason * 2 ^ 17)

/-- The WIDTH_CHANGE message of R129. -/
def widthMessage (mask : BitVec 4) (widen : Bool) (frame : BitVec 8) : BitVec 128 :=
  BitVec.ofNat 128 (0x03 + mask.toNat * 2 ^ 8 + boolNat widen * 2 ^ 12 + boolNat widen * frame.toNat * 2 ^ 13)

/-- Electrical idle left for traffic: a widening that has fallen due, the exit burst, and a STATUS flit that begins a new
frame (R91, R115, R130). -/
def leaveIdle (p : Port) : Port :=
  if p.phy.txIdle then
    let q := applyWiden p
    putStatus (exitBurst (announce { q with phy := { q.phy with txIdle := false } }))
  else p

/-- What a command sends on a port's lanes; a width-12 group that it leaves open is filled (R78). -/
def modSend (p : Fin 4) (f : Port → Port) (s : State) : State := modPort p (fun x => fillGroup (f x)) s

/-- The IV of a sealing group: the salt and the extended count of the group's first flit (R147). -/
def sealIv (salt : BitVec 32) (first : Nat) : List Nat := numBytes salt.toNat 0 4 ++ numBytes first 0 8

/-- The additional data of a sealing group (R147). -/
def sealAad (fs : List Flit) : List Nat :=
  (fs.map fun f => numBytes (f.ftype + f.count * 2 ^ 3 + f.seq % 512 * 2 ^ 7) 0 2).flatten

/-- The 240 slot bytes of a flit, its empty slots zero. -/
def flitBytes (f : Flit) : List Nat :=
  ((List.range 15).map fun i => numBytes (f.slots.getD i 0).toNat 0 16).flatten

/-- Slots of a byte string of 240 bytes. -/
def bytesSlots (bs : List Nat) : List (BitVec 128) :=
  (List.range 15).map fun i => BitVec.ofNat 128 (listNum ((bs.drop (16 * i)).take 16))

/-- A group's flits with the keystream applied to their slot bytes (R147); its own inverse. -/
def sealFlits (key : List Nat) (salt : BitVec 32) (first : Nat) (fs : List Flit) : List Flit :=
  let stream := gcmStream key (sealIv salt first) (240 * fs.length)
  fs.mapIdx fun i f => { f with slots := bytesSlots (xorList (flitBytes f) ((stream.drop (240 * i)).take 240)) }

/-- The tag of a group, from its ciphertext. -/
def groupTag (key : List Nat) (salt : BitVec 32) (first : Nat) (fs : List Flit) : Nat :=
  listNum (gcmTag key (sealIv salt first) (sealAad fs) ((fs.map flitBytes).flatten))

/-- The link-sealing key of a port: 256 bits of its slot (R147). -/
def linkKey (s : State) (p : Fin 4) : List Nat :=
  numBytes (s.keys[Fin.ofNat 64 s.ports[p].link.keySlot]).key.toNat 0 32

/-- A sequenced flit into the replay buffer and onto the lanes (R118, R121). With sealing on it joins the open group,
its slots encrypted with the group's stream. -/
def sendSequenced (key : List Nat) (ftype : Nat) (slots : List (BitVec 128)) (p : Port) : Port :=
  let l := p.link
  let f0 : Flit := { ftype := ftype, seq := l.txNext, count := slots.length, slots := slots }
  let first := match l.txGroup with | [] => l.txNext | g :: _ => g.seq
  let i := l.txGroup.length
  let f :=
    if l.sealOn ∧ ftype ≠ 3 then
      let stream := (gcmStream key (sealIv l.txSalt first) (240 * (i + 1))).drop (240 * i)
      { f0 with slots := bytesSlots (xorList (flitBytes f0) stream) }
    else f0
  let p := { p with link := { l with
    txNext := l.txNext + 1, replay := l.replay ++ [f]
    txGroup := if l.sealOn ∧ ftype ≠ 3 then l.txGroup ++ [f] else l.txGroup } }
  putFlit f p

/-- The TAG flit that closes the open sealing group (R147). -/
def closeGroup (key : List Nat) (p : Port) : Port :=
  match p.link.txGroup with
  | [] => p
  | g :: gs =>
    let tag := groupTag key p.link.txSalt g.seq (g :: gs)
    sendSequenced key 3 [BitVec.ofNat 128 tag, BitVec.ofNat 128 (g.seq % 512 + gs.length * 2 ^ 9)]
      { p with link := { p.link with txGroup := [] } }

/-- The credit of R124 for DATA slots. -/
def creditAvailable (l : LinkState) : Nat := l.partnerGranted + 128 * l.partnerUnits - l.slotsSent

/-- MGMT flits sent and not acknowledged; at most eight (R145). -/
def mgmtOutstanding (l : LinkState) : Nat := (l.replay.filter fun f => f.ftype = 2).length

/-- The tags that the completions wholly sent with the next slots free (R50). -/
def freedTags : Nat → List (Option (BitVec 14) × Nat) → List (BitVec 14)
  | _, [] => []
  | n, (t, k) :: rest =>
    if k ≤ n then (match t with | some t => t :: freedTags (n - k) rest | none => freedTags (n - k) rest) else []

/-- Slots of waiting completions taken for a flit: how many are left of each, a completion that is wholly sent leaving
the list and freeing its tag (R50). -/
def takeSlots : Nat → List (Option (BitVec 14) × Nat) → List (Option (BitVec 14) × Nat)
  | _, [] => []
  | n, (t, k) :: rest => if k ≤ n then takeSlots (n - k) rest else (t, k - n) :: rest

/-- One flit of whatever waits: a MGMT message, event records, or completion slots while credits last. The answer is
the port unchanged when nothing can be sent. -/
def packOne (key : List Nat) (p : Port) : Port :=
  let l := p.link
  let mgmtRoom := mgmtOutstanding l < 8
  match l.txMgmt with
  | m :: ms =>
    if mgmtRoom then sendSequenced key 2 m (leaveIdle { p with link := { l with txMgmt := ms } }) else p
  | [] =>
    if !p.records.isEmpty ∧ mgmtRoom then
      sendSequenced key 2 ((p.records.take 7).map fun r => slotsOf (recordBytes r)).flatten
        (leaveIdle { p with records := p.records.drop 7 })
    else
      let n := min 15 (min l.txData.length (creditAvailable l))
      if n = 0 then p
      else
        sendSequenced key 1 (l.txData.take n)
          (leaveIdle { p with
            sending := takeSlots n p.sending
            fences := p.fences.map fun f => { f with waits := f.waits.filter fun t => !(freedTags n p.sending).contains t }
            link := { l with txData := l.txData.drop n, slotsSent := l.slotsSent + n } })

/-- The replay buffer has room for a flit, and with sealing on for its group's tag too (R121, R147). -/
def replayRoom (l : LinkState) : Bool := decide (l.replay.length + (if l.sealOn then 2 else 1) ≤ 256)

/-- Flits packed while the port is ACTIVE and the replay buffer has room. -/
def packFlits (key : List Nat) : Nat → Port → Port
  | 0, p => p
  | n + 1, p =>
    if p.phy.state = .active ∧ replayRoom p.link then
      let q := packOne key p
      if q.link.txNext = p.link.txNext then q
      else packFlits key n (if 16 ≤ q.link.txGroup.length then closeGroup key q else q)
    else p

/-- The flit packer of a port run until it has nothing more that it may send. -/
def pump (p : Fin 4) (s : State) : State :=
  let key := linkKey s p
  modSend p (fun x =>
    let y := packFlits key 256 x
    if y.phy.state = .active ∧ y.link.replay.length < 256 then closeGroup key y else y) s

/-! ### Completions -/

/-- The header and data slots of a completion (R45). -/
def completionSlots (c : Completion) : List (BitVec 128) :=
  BitVec.ofNat 128 (c.opcode.toNat + c.tag.toNat * 2 ^ 6 + qstatusCode c.status * 2 ^ 20 + boolNat c.last * 2 ^ 24 +
    boolNat c.dupTag * 2 ^ 25 + boolNat c.kennel * 2 ^ 26 + c.data.length % 2 ^ 14 * 2 ^ 32 +
    c.result.toNat * 2 ^ 48 + boolNat c.late * 2 ^ 112) :: slotsOf c.data

/-- Whether a deadline in units of 16 ns has passed (R53). -/
def isLate (s : State) (arrived deadline : Nat) : Bool :=
  deadline != 0 && decide (arrived + 16 * deadline < s.hubTimer)

/-- The Collie books at a completion with last = 1: the window's charge, a target miss, and the end of the class's
busy stretch (R288, R301); `isolated` marks a DATA_ERROR of R22, which counts no target miss (R299). -/
def accountDone (j : Job) (late isolated : Bool) (s : State) : State :=
  let k : Fin 8 := Fin.ofNat 8 j.cls
  let busy := s.ports[j.port].outstanding.any fun e => e.2 == k.val
  missReport j.port k <| modClass j.port k (fun c =>
    let miss := late && decide (c.target ≠ 0) && !isolated
    { c with
      windowCharge := c.windowCharge + j.charge
      windowBusy := c.windowBusy && busy
      targetMiss := if miss then sat32 c.targetMiss else c.targetMiss
      sinceTarget := if miss then c.sinceTarget + 1 else c.sinceTarget }) s

/-- A completion handed to the flit packer of its port. -/
def handOver (p : Fin 4) (c : Completion) (s : State) : State :=
  pump p (modPort p (fun x =>
    { x with
      completions := x.completions ++ [c]
      sending := x.sending ++
        [(if c.last && !c.dupTag then some c.tag else none, (completionSlots c).length)]
      link := { x.link with txData := x.link.txData ++ completionSlots c } }) s)

/-- The end of a request: its completion goes out; its tag is free, and no fence waits for it, once that is sent (R50,
R61). A completion that is not OK carries neither data nor result (R46). -/
def completeAs (j : Job) (st : QStatus) (isolated kennel : Bool) (result : Word) (data : List Byte) (s : State) :
    State :=
  let ok := decide (st = .ok)
  let late := isLate s j.arrived j.deadline
  let s := modPort j.port (fun x => { x with outstanding := x.outstanding.eraseP (fun e => e.1 = j.tag) }) s
  let s := accountDone j late isolated s
  handOver j.port
    { opcode := j.opcode, tag := j.tag, status := st, last := true, dupTag := false, kennel := ok && kennel,
      late := late, result := if ok then result else 0, data := if ok then data else [] } s

/-- The completion of a request with one completion. -/
def complete (j : Job) (st : QStatus) (result : Word) (data : List Byte) (s : State) : State :=
  completeAs j st false false result data s

/-- A completion without result or data. -/
def completeWith (j : Job) (st : QStatus) (s : State) : State := complete j st 0 [] s

end Sys2Proof.Machine
end

