-- ==== Sys2Proof/Machine/Dram.lean ====
section
/-! DEFINITION. Lines in the layers: the granule map and line hash (R154 to R156), relocation and row remap (R375,
R380), the write queue (R165 to R167), reads and their outcomes (R307 to R312), and whole rows by skein (R184 to
R187). -/

namespace Sys2Proof.Machine

open Sys2Proof

/-! ### Addresses -/

/-- Lines in a granule. -/
def granuleLines : Nat := 1048576

/-- The stack line of a line of a partition: its base plus the line index (R156). -/
def stackLine (s : State) (pd : Fin 64) (index : Nat) : Nat := s.partitions[pd].base * granuleLines + index

/-- The line hash of R156, before relocation; none where the granule map entry is not valid (R155). -/
def hashPlace (s : State) (sl : Nat) : Option Place :=
  let g := sl / granuleLines
  let e := (granuleEntry s g).toNat
  if !bitAt e 0 then none
  else
    let r := sl / 32 % 32768
    let line : Fin 32 := Fin.ofNat 32 (sl % 32)
    let slab := bitsOf e 13 4
    if bitAt e 1 then
      let ch := bitsOf r 4 0 ^^^ bitsOf r 9 5 ^^^ bitsOf r 14 10 ^^^ bitsOf g 4 0 ^^^ bitsOf g 9 5
      let l := bitsOf r 14 5
      let bank := bitsOf l 3 0 ^^^ bitsOf l 7 4 ^^^ bitsOf l 9 8
      some { channel := Fin.ofNat 32 ch, bank := Fin.ofNat 16 bank, row := 64 * slab + bitsOf l 9 4, line := line }
    else
      let ch := 8 * bitsOf e 3 2 +
        (bitsOf r 2 0 ^^^ bitsOf r 5 3 ^^^ bitsOf r 8 6 ^^^ bitsOf r 11 9 ^^^ bitsOf r 14 12 ^^^ bitsOf g 2 0)
      let l := bitsOf r 14 3
      let bank := bitsOf l 3 0 ^^^ bitsOf l 7 4 ^^^ bitsOf l 11 8
      some { channel := Fin.ofNat 32 ch, bank := Fin.ofNat 16 bank, row := 64 * slab + bitsOf l 11 4, line := line }

/-- The relocation of R375 applied to a place. -/
def relocate (s : State) (pl : Place) : Place :=
  match (s.channels[pl.channel].reloc).find? (fun e => e.1 = pl.row / 64) with
  | some e => { pl with channel := Fin.ofNat 32 e.2.1, row := 64 * e.2.2 + pl.row % 64 }
  | none => pl

/-- The place of a line of a partition. -/
def placeOf (s : State) (pd : Fin 64) (index : Nat) : Option Place :=
  (hashPlace s (stackLine s pd index)).map (relocate s)

/-- The quarter of a place. -/
def placeQuarter (pl : Place) : Fin 4 := Fin.ofNat 4 (pl.channel.val / 8)

/-- A place whose channel serves nothing: it is retired and the slab has no target (R377). -/
def unserved (s : State) (pl : Place) : Bool := decide (s.channels[pl.channel].retire = .retired)

/-- A row followed through the row-remap latches: a spare in use may itself be remapped (R380). -/
def followRemap (m : Sparse Nat) : Nat → Nat → Nat
  | 0, row => row
  | n + 1, row =>
    match m.find? (fun e => e.1 = row) with
    | some e => followRemap m n (65536 + e.2)
    | none => row

/-- The row of the layer that holds a row address: a remapped row is in its spare (R380). -/
def layerRow (s : State) (c : Fin 32) (b : Fin 16) (row : Nat) : Nat :=
  followRemap s.channels[c].banks[b].remap 65 row

/-- The row address under which a spare row holds data: that of the row remapped to it, or its own where it is not in use
(R319, R380). -/
def spareRow (m : Sparse Nat) : Nat → Nat → Nat
  | 0, row => row
  | n + 1, row =>
    match m.find? (fun e => 65536 + e.2 = row) with
    | some e => spareRow m n e.1
    | none => row

/-- Rows of a bank, spare rows included (R13, R169). -/
def bankRows : Nat := 65600

/-- The first byte of a coded line in the layers. -/
def codedAddr (s : State) (pl : Place) : Nat :=
  ((((pl.channel.val * 16 + pl.bank.val) * bankRows + layerRow s pl.channel pl.bank pl.row) * 32) + pl.line.val) * 72

def storedLine (s : State) (pl : Place) : CodedLine :=
  BitVec.ofNat 576 (bytesToNat (memBytes s.dram (codedAddr s pl) 72))

def storeCoded (pl : Place) (c : CodedLine) (s : State) : State :=
  { s with dram := memWrite s.dram (codedAddr s pl) (natToBytes 72 c.toNat) }

/-! ### Erasures and suspects -/

/-- The erasure set of a line slot of a channel (R307, R372). -/
def erasureSet (s : State) (pl : Place) : List Nat :=
  let v := s.channels[pl.channel].vertical
  let col := v.colErased.map (· / 2)
  let sk := (v.skErased.filter fun x => x / 576 = pl.line.val).map fun x => x % 576 / 16
  (col ++ sk).eraseDups

/-- The wires of the bits in error of corrected symbols, on the path of the read (R306, R322). -/
def errorWires (path : Path) (line : Nat) (errs : List (Nat × Nat)) : List (Nat × Nat) :=
  (errs.map fun e =>
    match path with
    | .column => ((onesOf e.2 16).map fun j => (2 * e.1 + j / 8, e.1)).eraseDups
    | _ => (onesOf e.2 16).map fun j => (576 * line + 16 * e.1 + j, e.1)).flatten

/-- Hours in ns. -/
def hourNs : Nat := 3600000000000

/-- One correction counted against a wire, at the time of the row's last (R322): the wire becomes suspect at the threshold
of distinct rows. -/
def countWire (c : Fin 32) (path : Path) (row : Nat) (s : State) (ws : Nat × Nat) : State :=
  let v := s.channels[c].vertical
  let old := s.hubTimer - s.params.suspectWindowH * hourNs
  let recent := v.hits.filter fun h => old ≤ h.2.2.2 ∧ h.1 = path ∧ h.2.1 = ws.1
  let isNew := !recent.any fun h => h.2.2.1 = row
  let hits := (v.hits.filter fun h => decide (old ≤ h.2.2.2) && !decide (h.1 = path ∧ h.2.1 = ws.1 ∧ h.2.2.1 = row)) ++
    [(path, ws.1, row, s.hubTimer)]
  let s := modVertical c (fun v => { v with hits := hits }) s
  if isNew ∧ s.params.suspectThreshold ≤ recent.length + 1 ∧ !v.suspects.contains (path, ws.1) then
    raise 0x2024 3 c [itPath (pathCode path), itWire ws.1, itSymbol ws.2]
      (modVertical c (fun v => { v with suspects := v.suspects ++ [(path, ws.1)] }) s)
  else s

def countWires (pl : Place) (path : Path) (errs : List (Nat × Nat)) (s : State) : State :=
  (errorWires path pl.line errs).foldl (countWire pl.channel path (pl.bank.val * bankRows + pl.row)) s

/-- A line address put in the channel's spot queue (R312). -/
def queueSpot (pl : Place) (bad : Bool) (s : State) : State :=
  let c := s.channels[pl.channel]
  if c.spots.length < 64 then
    modChannel pl.channel (fun c => { c with
      spots := c.spots ++ [{ bank := pl.bank, row := pl.row, line := pl.line, bad := bad, since := s.hubTimer }] }) s
  else
    raiseLimited 0x2028 3 pl.channel (fun n => [itCount n])
      (modChannel pl.channel (fun c => { c with spotDropped := sat32 c.spotDropped }) s)

/-! ### Command words (R157, R164, R167, R173), in CCLK of 1 ns -/

/-- The earliest time that an interval after an event allows. -/
def after (t : Option Nat) (n : Nat) : Nat := match t with | some t => t + n | none => 0

/-- The interval after the channel's last command of a kind: one for its own bank group, one for the others. -/
def afterGroup (last : Option (Nat × Fin 16)) (b : Fin 16) (same other : Nat) : Nat :=
  match last with
  | some (t, k) => t + (if k.val % 4 = b.val % 4 then same else other)
  | none => 0

/-- tFAW: at most four ACT or REFpb in 16. -/
def afterFour (acts : List Nat) : Nat := match acts[3]? with | some t => t + 16 | none => 0

def maxOf (ts : List Nat) : Nat := ts.foldl max 0

/-- A channel in power-down woken, with tXP before its next command (R176). -/
def wakePowerDown (c : Fin 32) (s : State) : State :=
  if s.channels[c].state = .powerDown then
    modChannel c (fun x => { x with state := .active, wakeAt := some (s.hubTimer + 10) }) s
  else s

/-- The write queue behind one more command word: an entry leaves with its 16th after its WRITE (R167). -/
def ageQueue (q : List WqEntry) : List WqEntry :=
  (q.map fun e => { e with issued := e.issued.map (· + 1) }).filter fun e =>
    match e.issued with | some n => decide (n < 16) | none => true

/-- A command word issued and executed: its sequence number, the retry buffer, and one more command behind every issued
write (R167, R173). A clean run of 16 ends a run of alerts; the last entry to leave the write queue begins the idle time
of R176. -/
def issueWord (c : Fin 32) (w : CmdWord) (s : State) : State :=
  modChannel c (fun x =>
    let q := ageQueue x.writeQueue
    { x with
      cmdSeq := x.cmdSeq + 1
      execSeq := x.cmdSeq
      retryBuffer := (x.retryBuffer ++ [(w, s.hubTimer)]).drop (x.retryBuffer.length + 1 - 16)
      writeQueue := q
      draining := x.draining && decide (x.wqLow < q.length)
      idleSince := if q.isEmpty && !x.writeQueue.isEmpty then s.hubTimer else x.idleSince
      cleanRun := x.cleanRun + 1
      alerts := if 16 ≤ x.cleanRun + 1 then 0 else x.alerts }) s

/-- The windows of 64 CCLK begun by now, each adding its budgets at the issue scale in force (R164). -/
def creditChannel (now : Nat) (x : Channel) : Channel :=
  let n := now / 64 - x.windowAt
  { x with
    windowAt := x.windowAt + n
    actBudget := if n = 0 then x.actBudget else min 1600 (x.actBudget + 16 * x.scalePct * n)
    colBudget := if n = 0 then x.colBudget else min 6400 (x.colBudget + 64 * x.scalePct * n) }

/-- `creditChannel` of one channel at the present time. -/
def creditWindows (c : Fin 32) (s : State) : State := modChannel c (creditChannel s.hubTimer) s

/-- The first time at which a budget covers one command: now, or the start of a later window (R164). -/
def budgetTime (s : State) (x : Channel) (budget perWindow : Nat) : Nat :=
  if 100 ≤ budget ∨ perWindow = 0 then s.hubTimer
  else 64 * (x.windowAt + (100 - budget + perWindow - 1) / perWindow)

/-- An activation that waits for its budget and spends it. -/
def spendAct (c : Fin 32) (s : State) : State :=
  let s := creditWindows c s
  let x := s.channels[c]
  modChannel c (fun y => { y with actBudget := y.actBudget - 100 })
    (creditWindows c (passTo (budgetTime s x x.actBudget (16 * x.scalePct)) s))

/-- A column command that waits for its budget and spends it. -/
def spendCol (c : Fin 32) (s : State) : State :=
  let s := creditWindows c s
  let x := s.channels[c]
  modChannel c (fun y => { y with colBudget := y.colBudget - 100 })
    (creditWindows c (passTo (budgetTime s x x.colBudget (64 * x.scalePct)) s))

/-- PRE at its first legal CCLK: a bank's open row closed. -/
def closeRow (c : Fin 32) (b : Fin 16) (s : State) : State :=
  let x := s.channels[c]
  let k := x.banks[b]
  if k.openRow = none then s
  else
    let s := passTo (maxOf [after k.actAt 33, after k.readAt 4, after k.writeEnd 15, after x.wakeAt 0]) s
    issueWord c (.pre b) (modBank c b (fun y => { y with openRow := none, preAt := some s.hubTimer }) s)

/-- Every open row of a channel closed by PRE (R159). -/
def closeRows (c : Fin 32) (s : State) : State := (List.finRange 16).foldl (fun s b => closeRow c b s) s

/-- The time at which at most one other bank of the channel is in refresh. -/
def refreshSlot (x : Channel) (b : Fin 16) (t : Nat) : Nat :=
  let ends := ((List.finRange 16).filter fun k => k ≠ b).filterMap fun k =>
    match x.banks[k].refAt with | some r => if t < r + 120 then some (r + 120) else none | none => none
  if 2 ≤ ends.length then ends.foldl min (ends.getD 0 0) else t

/-- A refresh forced by a debt of 8 counted and reported, at most once a second (R171). -/
def noteForced (c : Fin 32) (b : Fin 16) (s : State) : State :=
  if 8 ≤ s.channels[c].banks[b].debt then
    raiseLimited 0x2010 3 c (fun n => [itCount n])
      (modChannel c (fun y => { y with forcedRefreshCount := sat32 y.forcedRefreshCount }) s)
  else s

/-- REFpb of a bank at its first legal CCLK: precharged first, 8 rows refreshed, and one less of debt (R169). -/
def refreshNow (c : Fin 32) (b : Fin 16) (s : State) : State :=
  let s := closeRow c b (wakePowerDown c (noteForced c b s))
  let x := s.channels[c]
  let k := x.banks[b]
  let t := maxOf [s.hubTimer, after k.actAt 48, after k.preAt 15, after k.refAt 120,
    (match x.lastRef with | some (r, j) => if j = b then 0 else r + 8 | none => 0), afterFour x.acts, after x.wakeAt 0]
  let s := passTo (refreshSlot x b t) s
  let s := modBank c b (fun y => { y with
    debt := y.debt - 1, refRow := (y.refRow + 1) % 8200, refAt := some s.hubTimer }) s
  issueWord c (.refpb b) (modChannel c (fun y => { y with
    acts := (s.hubTimer :: y.acts).take 4, lastRef := some (s.hubTimer, b) }) s)

/-- Every REFpb that a bank owes issued. -/
def payBank (c : Fin 32) (s : State) (b : Fin 16) : State :=
  (List.range s.channels[c].banks[b].debt).foldl (fun s _ => refreshNow c b s) s

/-- Every REFpb that a channel owes issued before it enters self-refresh (R177). -/
def payDebts (c : Fin 32) (s : State) : State := (List.finRange 16).foldl (payBank c) s

/-- ACT at its first legal CCLK: a precharged bank's row opened, within the activation budget. -/
def actRow (c : Fin 32) (b : Fin 16) (row : Nat) (s : State) : State :=
  let s := spendAct c s
  let x := s.channels[c]
  let k := x.banks[b]
  let s := passTo (maxOf [after k.actAt 48, after k.preAt 15, after k.refAt 120, afterGroup x.lastAct b 4 2,
    afterFour x.acts, after x.wakeAt 0]) s
  let s := modBank c b (fun y => { y with openRow := some row, hitStreak := 0, actAt := some s.hubTimer }) s
  issueWord c (.act b row) (modChannel c (fun y => { y with
    acts := (s.hubTimer :: y.acts).take 4, lastAct := some (s.hubTimer, b), idleSince := s.hubTimer }) s)

/-- A refresh that goes before the next ACT to its bank: forced, or in normal mode of a debt of 4 or more (R169). -/
def refreshFirst (x : Channel) (b : Fin 16) : Bool :=
  decide (8 ≤ x.banks[b].debt) || (decide (4 ≤ x.banks[b].debt) && !x.fallback)

/-- A row made the open row of its bank: the channel woken, another row closed, a refresh that must come first, and the
ACT (R159, R169, R176). -/
def openBank (pl : Place) (s : State) : State :=
  let c := pl.channel
  let s := wakePowerDown c s
  if s.channels[c].banks[pl.bank].openRow = some pl.row then s
  else
    let s := closeRow c pl.bank s
    let s := if refreshFirst s.channels[c] pl.bank then refreshNow c pl.bank s else s
    actRow c pl.bank pl.row s

/-- READ at its first legal CCLK: a coded line of the open row on the column wires. -/
def readBurst (pl : Place) (s : State) : State :=
  let c := pl.channel
  let b := pl.bank
  let s := spendCol c s
  let x := s.channels[c]
  let k := x.banks[b]
  let s := passTo (maxOf [after k.actAt 15, afterGroup x.lastCol b 2 1, after x.lastWriteEnd 5, after x.wakeAt 0]) s
  let s := modBank c b (fun y => { y with readAt := some s.hubTimer, hitStreak := y.hitStreak + 1 }) s
  issueWord c (.read b pl.line) (modChannel c (fun y => { y with
    lastCol := some (s.hubTimer, b), lastReadEnd := some (s.hubTimer + 44), idleSince := s.hubTimer
    columnData := storedLine s pl, lastLine := some (b, pl.row, pl.line) }) s)

/-- WRITE at its first legal CCLK, its burst 8 CCLK later on the column wires. -/
def writeBurst (pl : Place) (s : State) : State :=
  let c := pl.channel
  let b := pl.bank
  let s := spendCol c s
  let x := s.channels[c]
  let k := x.banks[b]
  let s := passTo (maxOf [after k.actAt 15, afterGroup x.lastCol b 2 1, after x.lastReadEnd 3 - 8, after x.wakeAt 0]) s
  let s := modBank c b (fun y => { y with writeEnd := some (s.hubTimer + 9), hitStreak := y.hitStreak + 1 }) s
  issueWord c (.write b pl.line) (modChannel c (fun y => { y with
    lastCol := some (s.hubTimer, b), lastWriteEnd := some (s.hubTimer + 9), idleSince := s.hubTimer }) s)

/-- The next SKCLK edge at or after a time. -/
def skclkEdge (t : Nat) : Nat := (t + 9) / 10 * 10

/-- A skein command on an SKCLK edge; its row closes as it completes, after the write recovery of an SKWR (R159, R184,
R185). -/
def skeinBurst (c : Fin 32) (b : Fin 16) (write : Bool) (s : State) : State :=
  let x := s.channels[c]
  let k := x.banks[b]
  let t := maxOf [s.hubTimer, after k.actAt 15, after x.lastSkein 10, after x.wakeAt 0]
  let s := passTo (skclkEdge t) s
  let done := s.hubTimer + 10
  let s := modQuarter (Fin.ofNat 4 (c.val / 8)) (fun q => { q with skeinTimes := noteTime s.hubTimer q.skeinTimes }) s
  issueWord c (if write then .skwr b else .skrd b) (modBank c b (fun y => { y with
    openRow := none, hitStreak := 0
    preAt := some (maxOf [done + (if write then 15 else 0), after y.actAt 33, after y.readAt 4, after y.writeEnd 15]) })
    (modChannel c (fun y => { y with lastSkein := some s.hubTimer, idleSince := s.hubTimer }) s))

/-! ### Self-refresh and trims -/

/-- The sensor of a channel's own layer: TS(k+1) for CH(2k) and CH(2k+1) (R170). -/
def layerSensor (c : Fin 32) : Fin 17 := Fin.ofNat 17 (c.val / 2 + 1)

/-- A channel held until its trim (R174, R367): VERTICAL_TRIM carries the probes and ends it. -/
def holdTrim (c : Fin 32) (s : State) : State :=
  modChannel c (fun x => { x with state := if x.state = .retired then .retired else .trim }) (wakePowerDown c s)

/-- The reading of a channel's layer sensor has moved by trim_drift_c since its last trim (R177, R367). -/
def trimDrifted (s : State) (c : Fin 32) : Bool :=
  decide (8 * s.params.trimDriftC ≤ (s.sensors[layerSensor c].value - s.channels[c].vertical.lastTrimTemp).natAbs)

/-- The exit of a channel from self-refresh begun at a time: tXS, every debt at 0, and a trim where its layer has drifted or where one is
due (R177, R385, R520). -/
def exitRefreshAt (begun : Nat) (due : Bool) (c : Fin 32) (s : State) : State :=
  let s := passTo (begun + 1200) s
  let s := modChannel c (fun y => { y with
    state := .active, idleSince := s.hubTimer, banks := y.banks.map fun b => { b with debt := 0 } }) s
  if due || s.channels[c].trimDue || trimDrifted s c then holdTrim c s else s

def exitRefresh (due : Bool) (c : Fin 32) (s : State) : State := exitRefreshAt s.hubTimer due c s

/-! ### The write queue -/

/-- Whether a write-queue entry is of a line. -/
def wqMatches (pl : Place) (e : WqEntry) : Bool :=
  decide (e.bank = pl.bank) && decide (e.row = pl.row) && decide (e.line = pl.line)

def wqEntry (s : State) (pl : Place) : Option WqEntry := (s.channels[pl.channel].writeQueue).find? (wqMatches pl)

/-- The coded line that an entry holds. -/
def wqCoded (e : WqEntry) : CodedLine := if e.poison then poisonCode else encodeLine e.data

/-- A write-queue entry written to the layer. -/
def layerWrite (c : Fin 32) (e : WqEntry) (s : State) : State :=
  storeCoded { channel := c, bank := e.bank, row := e.row, line := e.line } (wqCoded e) s

/-- The WRITE of the entry of a line: the layer holds it, and the entry stays until 16 further commands (R167). -/
def writeEntry (c : Fin 32) (e : WqEntry) (s : State) : State :=
  let pl : Place := { channel := c, bank := e.bank, row := e.row, line := e.line }
  let s := modChannel c (fun x => { x with
    writeQueue := x.writeQueue.map fun q => if wqMatches pl q then { q with issued := none } else q }) s
  let s := writeBurst pl (openBank pl s)
  layerWrite c e (modChannel c (fun x => { x with
    writeQueue := x.writeQueue.map fun q => if wqMatches pl q then { q with issued := some 0 } else q }) s)

/-- One command of a drain: the WRITE of the oldest entry not yet issued, or a NOP word behind issued ones (R167). -/
def drainOne (c : Fin 32) (s : State) : State :=
  match s.channels[c].writeQueue.find? (fun e => e.issued.isNone) with
  | some e => writeEntry c e s
  | none => issueWord c .nop (passTo (s.hubTimer + 1) s)

/-- A drain until the write queue has fallen to a length (R167). -/
def drainTo (c : Fin 32) (low : Nat) : Nat → State → State
  | 0, s => s
  | n + 1, s => if s.channels[c].writeQueue.length ≤ low then s else drainTo c low n (drainOne c s)

/-- A drain in progress finished, before a read that it holds back (R167). -/
def endDrain (c : Fin 32) (s : State) : State :=
  if s.channels[c].draining then drainTo c s.channels[c].wqLow 128 s else s

/-- The entries of one row written before a skein of it, ahead of the queue's other writes (R187). -/
def drainRow (c : Fin 32) (b : Fin 16) (row : Nat) (s : State) : State :=
  (s.channels[c].writeQueue.filter fun e => decide (e.bank = b) && decide (e.row = row) && e.issued.isNone).foldl
    (fun s e => writeEntry c e s) s

/-- NOP words until no entry of a row is left in the queue: an SKWR of the row must not be followed by the replay or the
forwarding of an older write (R166, R167). -/
def outlastRow (c : Fin 32) (b : Fin 16) (row : Nat) : Nat → State → State
  | 0, s => s
  | n + 1, s =>
    if s.channels[c].writeQueue.any fun e => decide (e.bank = b) && decide (e.row = row) then
      outlastRow c b row n (issueWord c .nop (passTo (s.hubTimer + 1) s))
    else s

/-- Every entry of a channel written to the layer and out of its queue (R382, R384). -/
def drainAll (c : Fin 32) (s : State) : State := drainTo c 0 256 s

/-- The write queue of a channel back from a stop written before anything else, or once the trim that holds it has ended
(R384, R385). -/
def rewriteQueue (c : Fin 32) (s : State) : State :=
  if s.channels[c].rewriteDue && decide (s.channels[c].state = .active) then
    modChannel c (fun x => { x with rewriteDue := false }) (drainAll c s)
  else s

/-- A channel out of self-refresh, unless a command, its quarter or FATAL holds it there (R177). One that its keeper put
there reports it, is trimmed, and then writes its queue (R385). -/
def leaveRefreshAt (begun : Nat) (c : Fin 32) (s : State) : State :=
  let x := s.channels[c]
  if x.state = .selfRefresh ∧ !x.heldByCommand ∧ !quarterOut s (Fin.ofNat 4 (c.val / 8)) ∧ !s.device.fatal then
    let s := modChannel c (fun y => { y with keeperActed := false, rewriteDue := x.rewriteDue || x.keeperActed }) s
    rewriteQueue c (exitRefreshAt begun x.keeperActed c (if x.keeperActed then raise 0x8017 3 c [] s else s))
  else s

def leaveSelfRefresh (c : Fin 32) (s : State) : State := leaveRefreshAt s.hubTimer c s

/-- The write queue holds 64 entries (R158). -/
def wqSize : Nat := 64

def wqFull (s : State) (c : Fin 32) : Bool := decide (wqSize ≤ s.channels[c].writeQueue.length)

/-- A write placed in the queue: in place of the line's entry, or behind the others (R165). -/
def wqPut (e : WqEntry) (q : List WqEntry) : List WqEntry :=
  if q.any fun x => x.bank = e.bank ∧ x.row = e.row ∧ x.line = e.line then
    q.map fun x => if x.bank = e.bank ∧ x.row = e.row ∧ x.line = e.line then
      { x with data := e.data, poison := e.poison, issued := none } else x
  else q ++ [e]

/-- Where a second copy of a write goes while a mover copies its slab (R376): the mover's slab in progress. -/
def moverTwin (s : State) (pl : Place) : Option Place :=
  match s.mover with
  | some (.slabs c ((slab, tc, ts) :: _) _) =>
    if pl.channel = c ∧ pl.row / 64 = slab then
      some { pl with channel := Fin.ofNat 32 tc, row := 64 * ts + pl.row % 64 }
    else none
  | _ => none

/-- A line placed in its channel's write queue, and in the target's while its slab is being copied (R376). A full
queue is first drained to its low mark (R167). -/
def pushWrite (pl : Place) (data : Line) (poison : Bool) (s : State) : State :=
  let put (pl : Place) (s : State) : State :=
    let s :=
      if wqFull s pl.channel ∧ (wqEntry s pl).isNone ∧ !blockStopped s (.channel pl.channel) then
        drainTo pl.channel s.channels[pl.channel].wqLow 128 s
      else s
    let s := wakePowerDown pl.channel s
    let e : WqEntry := {
      bank := pl.bank, row := pl.row, line := pl.line, data := data, issued := none, poison := poison }
    modChannel pl.channel (fun c => { c with
      writeQueue := wqPut e c.writeQueue
      draining := c.draining || decide (c.wqHigh ≤ (wqPut e c.writeQueue).length)
      idleSince := s.hubTimer }) s
  match moverTwin s pl with
  | some t => put t (put pl s)
  | none => put pl s

/-! ### Column reads -/

/-- A line read by the column path, its row left open (R159). -/
def touchBank (pl : Place) (s : State) : State := readBurst pl (openBank pl s)

/-- What a read of a line is made for: the address and requester that its records name (R566). -/
structure ReadFor where
  who : Requester
  address : Nat
deriving DecidableEq, Repr

/-- A line decoded from the layer, with the effects of R310 on a demand read; none where its data is bad. -/
def decodeRead (f : ReadFor) (path : Path) (pl : Place) (s : State) : Option Line × State :=
  let ch := pl.channel
  match classifyLine (storedLine s pl) (erasureSet s pl) with
  | .clean d => (some d, s)
  | .erasureCorrected d => (some d, modChannel ch (fun c => { c with erasureFixCount := sat32 c.erasureFixCount }) s)
  | .corrected d errs =>
    (some d, countWires pl path errs (queueSpot pl false (modChannel ch (fun c => { c with ceCount := sat32 c.ceCount }) s)))
  | .poison => (none, modChannel ch (fun c => { c with poisonReadCount := sat32 c.poisonReadCount }) s)
  | .uncorrectable =>
    (none, raiseBank 0x2021 ch pl.bank [itAddress f.address, itRequester (requesterCode f.who)]
      (queueSpot pl true (modChannel ch (fun c => { c with ueCount := sat32 c.ueCount }) s)))

/-- READ of a line, and once more by PRE, ACT and READ where the burst is uncorrectable (R175). -/
def fetchLine (pl : Place) (s : State) : State :=
  let s := touchBank pl s
  match classifyLine (storedLine s pl) (erasureSet s pl) with
  | .uncorrectable => touchBank pl (closeRow pl.channel pl.bank s)
  | _ => s

/-- A read of a line: forwarded from the write queue (R166), or by the column path. -/
def lineRead (f : ReadFor) (pl : Place) (s : State) : Option Line × State :=
  match wqEntry s pl with
  | some e =>
    let s := modChannel pl.channel (fun c => { c with wqForwardCount := sat32 c.wqForwardCount, idleSince := s.hubTimer }) s
    if e.poison then (none, modChannel pl.channel (fun c => { c with poisonReadCount := sat32 c.poisonReadCount }) s)
    else (some e.data, s)
  | none => decodeRead f .column pl (fetchLine pl s)

/-! ### Rows by skein -/

/-- A skein of a row, after the row's write-queue entries: ACT, the skein command, and the row closed (R159, R184,
R187). -/
def closeBank (c : Fin 32) (b : Fin 16) (row : Nat) (write : Bool) (s : State) : State :=
  let s := drainRow c b row s
  let s := if write then outlastRow c b row 16 s else s
  skeinBurst c b write (openBank { channel := c, bank := b, row := row, line := 0 } s)

/-- One line of a row in the base die's copy; one that is uncorrectable there is read once more, by the column path (R175,
R310). -/
def rowLine (f : ReadFor) (pl : Place) (s : State) : Option Line × State :=
  match classifyLine (storedLine s pl) (erasureSet s pl) with
  | .uncorrectable => decodeRead f .column pl (touchBank pl s)
  | _ => decodeRead f .skein pl s

/-- The 32 lines of a row by SKRD, after the row's write-queue entries are written; none marks a bad line (R186). The
address is the first line's. -/
def rowRead (f : ReadFor) (c : Fin 32) (b : Fin 16) (row : Nat) (s : State) : List (Option Line) × State :=
  let s := closeBank c b row false s
  (List.finRange 32).foldl (fun (acc : List (Option Line) × State) i =>
    let pl : Place := { channel := c, bank := b, row := row, line := i }
    let r := rowLine { f with address := f.address + 64 * i.val } pl acc.2
    (acc.1 ++ [r.1], r.2)) ([], s)

/-- A whole row written by SKWR, none as the poison pattern, after the row's write-queue entries (R184, R187). -/
def rowWrite (c : Fin 32) (b : Fin 16) (row : Nat) (image : List (Option Line)) (s : State) : State :=
  let s := closeBank c b row true s
  (List.finRange 32).foldl (fun s i =>
    storeCoded { channel := c, bank := b, row := row, line := i }
      (match image.getD i none with | some l => encodeLine l | none => poisonCode) s) s

/-- A row written by SKWR to its place, and to the target's row while its slab is being copied (R376). -/
def rowWriteBoth (pl : Place) (image : List (Option Line)) (s : State) : State :=
  let s' := rowWrite pl.channel pl.bank pl.row image s
  match moverTwin s pl with
  | some t => rowWrite t.channel t.bank t.row image s'
  | none => s'

/-! ### Where a place belongs -/

/-- The granule that owns a slab of a channel, before relocation (R154, R377). -/
def slabOwner (s : State) (c : Fin 32) (slab : Nat) : Option Nat :=
  (s.granuleMap.find? fun e =>
    let v := e.2.toNat
    bitAt v 0 &&
      (if bitAt v 1 then bitsOf v 13 4 == slab
       else bitsOf v 3 2 == c.val / 8 && decide (bitsOf v 13 4 ≤ slab) && decide (slab < bitsOf v 13 4 + 4))).map (·.1)

/-- The source of a reserve slab that a relocation entry names. -/
def relocSource (s : State) (c : Fin 32) (slab : Nat) : Option (Fin 32 × Nat) :=
  (List.finRange 32).findSome? fun k =>
    ((s.channels[k].reloc).find? fun e => e.2 = (c.val, slab)).map fun e => (k, e.1)

/-- The granule whose data a slab holds, through relocation. -/
def slabGranule (s : State) (c : Fin 32) (slab : Nat) : Option Nat :=
  match relocSource s c slab with
  | some (k, sl) => slabOwner s k sl
  | none => slabOwner s c slab

/-- The partition of a granule index. -/
def granulePartition (s : State) (g : Nat) : Option (Fin 64) :=
  (List.finRange 64).find? fun pd =>
    let x := s.partitions[pd]
    x.valid && ((decide (x.base ≤ g) && decide (g < x.base + x.granules + x.metaGranules)) ||
      (match s.mover with
       | some (.granules q todo _ _) => decide (q = pd) && todo.any fun e => e.1 = g
       | _ => false))

/-- The stack line held at a place, by searching the row blocks of its granule (R156 is one-to-one). -/
def stackLineAt (s : State) (pl : Place) : Option Nat :=
  match slabGranule s pl.channel (pl.row / 64) with
  | none => none
  | some g =>
    ((List.range 32768).find? fun r =>
      match hashPlace s (g * granuleLines + 32 * r) with
      | some q =>
        let t := relocate s q
        decide (t.channel = pl.channel) && decide (t.bank = pl.bank) && decide (t.row = pl.row)
      | none => false).map fun r => g * granuleLines + 32 * r + pl.line.val

/-- The partition and line index held at a place. -/
def lineOwner (s : State) (pl : Place) : Option (Fin 64 × Nat) :=
  match stackLineAt s pl with
  | none => none
  | some sl =>
    (granulePartition s (sl / granuleLines)).map fun pd => (pd, sl - s.partitions[pd].base * granuleLines)

end Sys2Proof.Machine
end

