-- ==== Sys2Proof/Machine/Operands.lean ====
section
/-! DEFINITION. Operand forms: the fields of a request header and its aux by opcode, the payload that they imply, the
checks of R43 with R63, R217, R248 and R273, and the charge of R280. -/

namespace Sys2Proof.Machine

open Sys2Proof

/-! ### Header fields -/

/-- The aux field `[hi:lo]` (R37). -/
def auxF (h : Hdr) (hi lo : Nat) : Nat := bitsOf h.aux.toNat hi lo

/-- The header slot of a request (R30). -/
def headerSlot (op : BitVec 6) (h : Hdr) : BitVec 128 :=
  BitVec.ofNat 128 (op.toNat + h.tag.toNat * 2 ^ 6 + h.partition.toNat * 2 ^ 20 + h.cls.toNat * 2 ^ 26 +
    h.deadline.toNat * 2 ^ 29 + h.lengthCode.toNat * 2 ^ 40 + h.address.toNat * 2 ^ 44 + h.aux.toNat * 2 ^ 80)

/-- The opcode and header of a slot (R30). -/
def slotHeader (w : BitVec 128) : BitVec 6 × Hdr :=
  let n := w.toNat
  (BitVec.ofNat 6 n,
   { tag := BitVec.ofNat 14 (n / 2 ^ 6), partition := BitVec.ofNat 6 (n / 2 ^ 20), cls := BitVec.ofNat 3 (n / 2 ^ 26),
     deadline := BitVec.ofNat 11 (n / 2 ^ 29), lengthCode := BitVec.ofNat 4 (n / 2 ^ 40),
     address := BitVec.ofNat 36 (n / 2 ^ 44), aux := BitVec.ofNat 48 (n / 2 ^ 80) })

def opNop : BitVec 6 := 0x00
def opRead : BitVec 6 := 0x01
def opWrite : BitVec 6 := 0x02
def opWriteMask : BitVec 6 := 0x03
def opAtomAdd : BitVec 6 := 0x08
def opAtomFadd : BitVec 6 := 0x09
def opAtomSwap : BitVec 6 := 0x0A
def opAtomCas : BitVec 6 := 0x0B
def opAtomPadd : BitVec 6 := 0x0C
def opLookupExact : BitVec 6 := 0x10
def opLookupPrefix : BitVec 6 := 0x11
def opTableUpdate : BitVec 6 := 0x12
def opCtrUpdate : BitVec 6 := 0x18
def opPolUpdate : BitVec 6 := 0x19
def opCtrRead : BitVec 6 := 0x1A
def opEnqueue : BitVec 6 := 0x20
def opDequeue : BitVec 6 := 0x21
def opQueueQuery : BitVec 6 := 0x22
def opSkeinCopy : BitVec 6 := 0x28
def opRowFill : BitVec 6 := 0x29
def opMailbox : BitVec 6 := 0x30
def opStatusRead : BitVec 6 := 0x31

def atomicOps : List (BitVec 6) := [opAtomAdd, opAtomFadd, opAtomSwap, opAtomCas, opAtomPadd]

/-- The opcodes of R32. -/
def definedOps : List (BitVec 6) :=
  [opNop, opRead, opWrite, opWriteMask] ++ atomicOps ++
  [opLookupExact, opLookupPrefix, opTableUpdate, opCtrUpdate, opPolUpdate, opCtrRead, opEnqueue, opDequeue,
   opQueueQuery, opSkeinCopy, opRowFill, opMailbox, opStatusRead]

/-- The opcodes that name no partition (R34). -/
def unpartitionedOps : List (BitVec 6) := [opNop, opMailbox, opStatusRead]

/-- Payload slots by R32 and R35; a reserved opcode has none. -/
def payloadSlots (op : BitVec 6) (h : Hdr) : Nat :=
  let code := h.lengthCode.toNat
  if op = opWrite then 4 * (code + 1)
  else if op = opWriteMask then 5
  else if atomicOps.contains op then 1
  else if op = opLookupExact then (auxF h 9 4 + 15) / 16
  else if op = opLookupPrefix then 1
  else if op = opTableUpdate then 4
  else if op = opEnqueue then (auxF h 31 18 + 15) / 16
  else if op = opRowFill then 1
  else if op = opMailbox then (if auxF h 0 0 = 0 then 4 * (code + 1) else 0)
  else 0

/-- The partition types of R32 for an opcode. -/
def opTypes (op : BitVec 6) : List PType :=
  if op = opRead then [.raw, .table, .counter]
  else if op = opWrite then [.raw, .counter]
  else if op = opWriteMask ∨ atomicOps.contains op ∨ op = opSkeinCopy ∨ op = opRowFill then [.raw]
  else if op = opLookupExact ∨ op = opLookupPrefix ∨ op = opTableUpdate then [.table]
  else if op = opCtrUpdate ∨ op = opPolUpdate ∨ op = opCtrRead then [.counter]
  else [.buffer]

/-- The rights of R32: whether read and write are needed. -/
def opRights (op : BitVec 6) (h : Hdr) : Bool × Bool :=
  if op = opRead ∨ op = opLookupExact ∨ op = opLookupPrefix ∨ op = opQueueQuery then (true, false)
  else if op = opAtomFadd ∨ op = opAtomSwap ∨ op = opAtomCas ∨ op = opSkeinCopy then (true, true)
  else if op = opCtrRead then (true, auxF h 0 0 = 1)
  else (false, true)

/-! ### Partitions, tables and queues as requests see them -/

def pdOf (h : Hdr) : Fin 64 := Fin.ofNat 64 h.partition.toNat

def tdOf (h : Hdr) : Fin 16 := Fin.ofNat 16 (auxF h 3 0)

def queueOf (h : Hdr) : Nat := auxF h 17 0

/-- 64 MiB, the size of a granule. -/
def granuleBytes : Nat := 67108864

/-- The size of a partition in bytes (R40). -/
def partitionBytes (x : Partition) : Nat := x.granules * granuleBytes

/-- Whether some port of a mask has an identity attached. -/
def identityAttached (s : State) (mask : BitVec 4) (id : Word) : Bool :=
  (List.finRange 4).any fun p =>
    mask.getLsbD p && decide (s.ports[p].partnerState = .attached) && decide (s.ports[p].partner.identity = id)

/-- A partition is ORPHANED while it holds a binding record whose identity no owner port has attached (R142). -/
def partitionOrphaned (s : State) (pd : Fin 64) : Bool :=
  let x := s.partitions[pd]
  match x.binding with
  | none => false
  | some b => x.valid && !identityAttached s x.owner b.identity

/-- A queue is ORPHANED while its owner ports have its partition's identity not attached (R228). -/
def queueOrphaned (s : State) (q : Nat) : Bool :=
  let x := queueAt s q
  match s.partitions[Fin.ofNat 64 x.partition].binding with
  | none => false
  | some b => decide (x.state ≠ .free) && decide (x.owner ≠ 0) && !identityAttached s x.owner b.identity

/-- A right of a requester on a partition (R358): 0 read, 1 write, 2 overwrite_unverified. -/
def hasRight (x : Partition) (requester right : Nat) : Bool := x.rights.getLsbD (3 * requester + right)

/-- The key slot of an encrypted partition holds a key of its kind (R357). -/
def keyPresent (s : State) (x : Partition) : Bool :=
  match x.mode with
  | .plain => true
  | .veiled => decide (s.keys[Fin.ofNat 64 x.keySlot].kind = .xts)
  | .sealed => decide (s.keys[Fin.ofNat 64 x.keySlot].kind = .sealKey)

/-- The named table is valid, in the partition and of the kind (R217). -/
def tableFits (s : State) (h : Hdr) (prefixKind : Option Bool) : Bool :=
  let t := s.tables[tdOf h]
  t.valid && decide (t.partition = pdOf h) &&
    (match prefixKind with | none => true | some k => t.prefixKind == k)

/-- The named queue is not FREE and is in the partition (R248). -/
def queueFits (s : State) (h : Hdr) : Bool :=
  let q := queueAt s (queueOf h)
  decide (q.state ≠ .free) && decide (q.partition = (pdOf h).val)

/-- Whether a byte address of a COUNTER partition is in its policer region (R257). -/
def inPolicerRegion (x : Partition) (a : Nat) : Bool :=
  decide (x.counter.regionBase * granuleBytes ≤ a) &&
    decide (a < (x.counter.regionBase + x.counter.regionGranules) * granuleBytes)

/-! ### The checks of R43 -/

/-- The reserved header, aux and payload bits of an opcode are zero (R37), the table-dependent fields of TABLE_UPDATE
left for after step 5 (R43, R217). -/
def reservedClear (op : BitVec 6) (r : Req) : Bool :=
  let h := r.hdr
  let pay := r.payload
  let codeUsed := op = opRead ∨ op = opWrite ∨ op = opCtrRead ∨ op = opMailbox ∨ op = opStatusRead
  let addrFree := op = opNop ∨ op = opLookupExact ∨ op = opLookupPrefix ∨ op = opTableUpdate ∨ op = opEnqueue ∨
    op = opDequeue ∨ op = opQueueQuery
  let auxTop :=
    if op = opNop ∨ op = opCtrRead then 1
    else if op = opLookupExact then 10 else if op = opLookupPrefix then 4
    else if op = opTableUpdate then 38 else if op = opCtrUpdate ∨ op = opSkeinCopy then 48
    else if op = opPolUpdate then 16 else if op = opEnqueue then 32 else if op = opDequeue then 33
    else if op = opQueueQuery then 18 else if op = opRowFill then 12 else if op = opMailbox then 2 else 0
  (decide codeUsed || decide (h.lengthCode = 0)) &&
  (!decide addrFree || decide (h.address = 0)) &&
  decide (h.aux.toNat < 2 ^ auxTop) &&
  (!unpartitionedOps.contains op || decide (h.partition = 0)) &&
  (!decide (op = opWriteMask ∨ op = opAtomAdd ∨ op = opAtomFadd ∨ op = opAtomSwap) || allZero (bytesAt pay 8 8)) &&
  (!decide (op = opTableUpdate) || decide (auxF h 5 4 ≠ 3)) &&
  (!decide (op = opPolUpdate) || decide (auxF h 15 14 ≠ 3))

/-- Step 1: the opcode's partition type where the descriptor is defined, R41, and the reserved fields. -/
def checkForm (s : State) (op : BitVec 6) (r : Req) : Bool :=
  let x := s.partitions[pdOf r.hdr]
  definedOps.contains op && reservedClear op r &&
  (unpartitionedOps.contains op || !x.valid ||
    ((opTypes op).contains x.ptype &&
      !(decide (op = opSkeinCopy ∨ op = opRowFill) && decide (x.mode ≠ .plain))))

/-- Step 2: neither the partition nor a named queue of it is orphaned (R43, R228). -/
def checkOwned (s : State) (op : BitVec 6) (h : Hdr) : Bool :=
  unpartitionedOps.contains op ||
    (!partitionOrphaned s (pdOf h) &&
      !(decide (op = opEnqueue ∨ op = opDequeue ∨ op = opQueueQuery) && queueFits s h && queueOrphaned s (queueOf h)))

/-- Step 3: the port holds the rights, and an encrypted partition's key is present (R43, R357). -/
def checkRights (s : State) (p : Fin 4) (op : BitVec 6) (h : Hdr) : Bool :=
  let x := s.partitions[pdOf h]
  let need := opRights op h
  unpartitionedOps.contains op ||
    (x.valid && (!need.1 || hasRight x p 0) && (!need.2 || hasRight x p 1) && keyPresent s x)

/-- Step 4: length code, key length, packet length, mask, count and budget (R63, R217, R248). -/
def checkLength (s : State) (op : BitVec 6) (r : Req) : Bool :=
  let h := r.hdr
  let t := s.tables[tdOf h]
  if op = opRead ∨ op = opWrite ∨ op = opMailbox ∨ op = opStatusRead then decide (h.lengthCode.toNat ≤ 7)
  else if op = opCtrRead then decide (h.lengthCode.toNat ≤ 3)
  else if op = opWriteMask then !allZero (bytesAt r.payload 0 8)
  else if op = opLookupExact then
    let k := auxF h 9 4
    decide (1 ≤ k) && decide (k ≤ 40) && (!tableFits s h (some false) || decide (k = t.keyLen))
  else if op = opEnqueue then decide (1 ≤ auxF h 31 18) && decide (auxF h 31 18 ≤ 16000)
  else if op = opPolUpdate then decide (1 ≤ auxF h 13 0) && decide (auxF h 13 0 ≤ 16000)
  else if op = opDequeue then decide (auxF h 31 18 ≠ 0)
  else true

/-- The bytes a request touches from its address (R63). -/
def extentOf (op : BitVec 6) (h : Hdr) : Nat :=
  let code := h.lengthCode.toNat
  if op = opRead ∨ op = opWrite ∨ op = opMailbox ∨ op = opStatusRead then 64 * (code + 1)
  else if op = opWriteMask then 64
  else if op = opAtomPadd ∨ op = opCtrUpdate then 16
  else if atomicOps.contains op then 8
  else if op = opPolUpdate then 32
  else if op = opCtrRead then 16 * (code + 1)
  else if op = opSkeinCopy then 2048 * (auxF h 47 36 + 1)
  else if op = opRowFill then 2048 * (auxF h 11 0 + 1)
  else 0

/-- The alignment of R37. -/
def alignOf (op : BitVec 6) : Nat :=
  if op = opRead ∨ op = opWrite ∨ op = opWriteMask ∨ op = opMailbox ∨ op = opStatusRead then 64
  else if op = opAtomPadd ∨ op = opCtrUpdate ∨ op = opCtrRead then 16
  else if atomicOps.contains op then 8
  else if op = opPolUpdate then 32
  else if op = opSkeinCopy ∨ op = opRowFill then 2048
  else 1

/-- Step 5: alignment, extent, TD or queue, and the ranges of MAILBOX, STATUS_READ, SKEIN_COPY and the policer region
(R43, R258, R273). -/
def checkRange (s : State) (op : BitVec 6) (h : Hdr) : Bool :=
  let x := s.partitions[pdOf h]
  let a := h.address.toNat
  let n := extentOf op h
  let limit := if op = opMailbox then 4096 else if op = opStatusRead then 65536 else partitionBytes x
  if op = opNop then true
  else if op = opLookupExact then tableFits s h (some false)
  else if op = opLookupPrefix then tableFits s h (some true)
  else if op = opTableUpdate then tableFits s h none
  else if op = opEnqueue ∨ op = opDequeue ∨ op = opQueueQuery then queueFits s h
  else
    decide (a % alignOf op = 0) && decide (a + n ≤ limit) &&
    (!decide (op = opCtrRead) || decide (a % 64 + n ≤ 64)) &&
    (!decide (op = opCtrUpdate ∨ op = opCtrRead) || !inPolicerRegion x a) &&
    (!decide (op = opPolUpdate) || inPolicerRegion x a) &&
    (!decide (op = opSkeinCopy) ||
      (let src := auxF h 35 0
       decide (src % 2048 = 0) && decide (src + n ≤ limit) && (decide (src + n ≤ a) || decide (a + n ≤ src))))

/-- The fields of a TABLE_UPDATE that the named table's kind, the target and the key length reserve (R196, R206, R209).
R209 gives aux[11:7] and aux[37] a meaning for a node entry alone and does not say what they are for a directory entry:
DESIGN CHOICE (log 88): they are reserved there. -/
def updateReservedClear (t : Table) (r : Req) : Bool :=
  let h := r.hdr
  let img := r.payload
  if t.prefixKind then
    (if auxF h 6 6 = 1 then
      let e := natAt img 0 8
      let kind := bitsOf e 1 0
      decide (auxF h 36 30 = 0) && decide (auxF h 11 7 = 0) && decide (auxF h 37 37 = 0) &&
      allZero (bytesAt img 8 56) && decide (kind ≠ 3) && decide (bitsOf e 15 10 = 0) &&
      (!decide (kind = 2) || (decide (bitsOf e 9 2 = 0) && decide (bitsOf e 63 41 = 0)))
    else
      let e := natAt img 0 64
      let len := bitsOf e 135 128
      decide (bitsOf e 143 138 = 0) && decide (bitsOf e 191 169 = 0) && decide (bitsOf e 511 336 = 0) &&
      ((List.range 128).all fun i =>
        decide (i < len ∧ i < 8 * t.keyLen) || !bitAt e (8 * (i / 8) + (7 - i % 8))))
  else
    let e := natAt img 0 64
    decide (auxF h 37 24 = 0) &&
    allZero (bytesAt img t.keyLen (40 - t.keyLen)) &&
    decide (bitsOf e 463 448 = 0) && decide (bitsOf e 511 480 = 0)

/-- Whether a block of a prefix table's partition lies in its region (R210). -/
def inRegion (t : Table) (block : Nat) : Bool :=
  decide (t.baseBlock ≤ block) && decide (block < t.baseBlock + t.regionBlocks)

/-- The further checks of a TABLE_UPDATE (R210, R217), after step 5. -/
def checkUpdate (s : State) (r : Req) : Option QStatus :=
  let h := r.hdr
  let t := s.tables[tdOf h]
  if !updateReservedClear t r then some .unsupported
  else if t.prefixKind then
    let e := natAt r.payload 0 64
    if auxF h 6 6 = 1 then
      if decide (bitsOf e 1 0 = 1) && decide (t.dirBits < bitsOf e 9 2) then some .length
      else if !decide (auxF h 29 12 < 2 ^ t.dirBits) then some .range
      else if decide (bitsOf e 1 0 = 2) && !inRegion t (bitsOf e 40 16) then some .range
      else none
    else
      if decide (8 * t.keyLen < bitsOf e 135 128) then some .length
      else if !inRegion t (auxF h 36 12) then some .range
      else if decide (2 ≤ bitsOf e 137 136) && !inRegion t (bitsOf e 168 144) then some .range
      else none
  else none

/-- The status with which a request fails its checks, in the order of R43; none where it passes. -/
def checkRequest (s : State) (p : Fin 4) (op : BitVec 6) (r : Req) : Option QStatus :=
  if !checkForm s op r then some .unsupported
  else if !checkOwned s op r.hdr then some .orphaned
  else if !checkRights s p op r.hdr then some .denied
  else if !checkLength s op r then some .length
  else if !checkRange s op r.hdr then some .range
  else if op = opTableUpdate then checkUpdate s r
  else none

/-! ### Lines and charges -/

/-- The line writes of a packet of `l` bytes (R224). -/
def packetLines (l : Nat) : Nat :=
  let n := (l + 239) / 240
  4 * (n - 1) + (16 + (l - 240 * (n - 1)) + 63) / 64

/-- The charge of R280 in bytes; a DEQUEUE is charged here for its ingress. -/
def chargeOf (s : State) (op : BitVec 6) (r : Req) : Nat :=
  let h := r.hdr
  if op = opRead ∨ op = opWrite then 64 * (h.lengthCode.toNat + 1)
  else if op = opWriteMask then (if natAt r.payload 0 8 = 2 ^ 64 - 1 then 64 else 128)
  else if atomicOps.contains op ∨ op = opCtrUpdate ∨ op = opPolUpdate then 128
  else if op = opCtrRead then 64
  else if op = opLookupExact then 512
  else if op = opLookupPrefix then (if s.tables[tdOf h].keyLen = 4 then 256 else 512)
  else if op = opTableUpdate then 1024
  else if op = opEnqueue then 64 * packetLines (auxF h 31 18)
  else if op = opDequeue then 256
  else if op = opSkeinCopy then 512 * (auxF h 47 36 + 1)
  else if op = opRowFill then 256 * (auxF h 11 0 + 1)
  else 0

/-- The line indexes of its partition that a request reads or writes by address. -/
def linesTouched (op : BitVec 6) (h : Hdr) : List Nat :=
  if op = opMailbox ∨ op = opStatusRead then []
  else
    let a := h.address.toNat / 64
    let n := extentOf op h
    let own := if n = 0 then [] else (List.range ((h.address.toNat % 64 + n + 63) / 64)).map (a + ·)
    if op = opSkeinCopy then own ++ (List.range (n / 64)).map (auxF h 35 0 / 64 + ·) else own

end Sys2Proof.Machine
end

