-- ==== Sys2Proof/Machine/Sealing.lean ====
section
/-! DEFINITION. Lines of a partition in its mode: PLAIN, VEILED (R317, R332) and SEALED with its tags, counters, tree,
anchors and the seal reserve (R333 to R350), and the key that a rekey in progress gives each line (R361). -/

namespace Sys2Proof.Machine

open Sys2Proof

/-- What a line access ends with: the data, or a status, marked where it comes from an isolated quarter (R22, R299). -/
inductive LineResult where
  | data (l : Line)
  | fail (st : QStatus) (isolated : Bool)
deriving DecidableEq, Repr

/-- The data of a result, zero where it failed. -/
def resultData : LineResult → Line
  | .data l => l
  | .fail _ _ => 0

/-! ### Keys -/

/-- The key of a line, page or node that ends below line `last`: the new slot's below the rekey pointer (R361). -/
def keyFor (s : State) (pd : Fin 64) (last : Nat) : BitVec 512 :=
  let x := s.partitions[pd]
  match x.sealing.rekey with
  | some r => (s.keys[Fin.ofNat 64 (if last ≤ r.pointer then r.slot else x.keySlot)]).key
  | none => (s.keys[Fin.ofNat 64 x.keySlot]).key

/-! ### Metadata places (R333 to R336) -/

/-- Pages in a granule, and lines in a metadata slot. -/
def granulePages : Nat := 16384

def slotLines : Nat := 149792

/-- The offset, in lines, of a metadata line in its slot: level 0 tags, 1 counters, 2 to 4 nodes of levels 1 to 3. -/
def metaOffset (level index : Nat) : Nat :=
  (if level = 0 then 0 else if level = 1 then 131072 else if level = 2 then 147456 else if level = 3 then 149504
   else 149760) + index

/-- The stack granule of metadata granule `k` of a partition: directly above the data range; while a resize moves the
metadata, at its old place until the mover has switched it (R334). -/
def metaGranuleAt (s : State) (pd : Fin 64) (k : Nat) : Nat :=
  let x := s.partitions[pd]
  match s.mover with
  | some (.granules q todo _ final) =>
    if q = pd then
      match todo.find? (fun e => e.2 = x.base + final + k) with
      | some e => e.1
      | none => x.base + final + k
    else x.base + x.granules + k
  | _ => x.base + x.granules + k

/-- The place of a metadata line of data granule `d`. -/
def metaPlace (s : State) (pd : Fin 64) (d level index : Nat) : Option Place :=
  (hashPlace s (metaGranuleAt s pd (d / 7) * granuleLines + d % 7 * slotLines + metaOffset level index)).map (relocate s)

/-- The second place of a metadata line while its granule is being moved (R334). -/
def metaTwin (s : State) (pd : Fin 64) (d level index : Nat) : Option Place :=
  match s.mover with
  | some (.granules q ((src, dst) :: _) _ _) =>
    if q = pd ∧ src = metaGranuleAt s pd (d / 7) then
      (hashPlace s (dst * granuleLines + d % 7 * slotLines + metaOffset level index)).map (relocate s)
    else none
  | _ => none

/-! ### MACs -/

/-- Bytes 8 to 15 of a MAC message: a data line's byte address, or a metadata line's granule and index. -/
def metaPosition (d index : Nat) : List Nat := numBytes d 0 4 ++ numBytes index 0 4

/-- The last line under a metadata line of a level, for its key: a counter line has one page, a node its children. -/
def metaEnd (d level index : Nat) : Nat :=
  d * granuleLines + (index + 1) * 64 * 8 ^ (level - 1)

/-- The MAC that a counter line or node has in its parent entry; zero for an all-zero line (R338, R339). -/
def childMac (s : State) (pd : Fin 64) (d level index : Nat) (l : Line) : Word :=
  if l = 0 then 0
  else sealMac (keyFor s pd (metaEnd d level index)) (level + 1) (metaPosition d index) (List.replicate 16 0) l

/-- The MAC of a data line (R339). -/
def dataMac (key : BitVec 512) (index major minor : Nat) (stored : Line) : Word :=
  sealMac key 1 (numBytes (64 * index) 0 8) (numBytes major 0 8 ++ [minor] ++ List.replicate 7 0) stored

def nodeEntry (l : Line) (n : Nat) : Word := BitVec.ofNat 64 (lineGet l (64 * n) 64)

def setNodeEntry (l : Line) (n : Nat) (m : Word) : Line := linePut l (64 * n) 64 m.toNat

def majorOf (l : Line) : Nat := lineGet l 0 64

def minorOf (l : Line) (k : Nat) : Nat := lineGet l (64 + 7 * k) 7

def setMinor (l : Line) (k v : Nat) : Line := linePut l (64 + 7 * k) 7 v

def setMajor (l : Line) (v : Nat) : Line := linePut l 0 64 v

/-! ### Kennel sets (R290 to R292) -/

/-- The slice of a set. -/
def kennelSlice (set : Nat) : Fin 8 := Fin.ofNat 8 (set / 4096)

/-- A slice serves nothing while fenced, reset or tested (R271). -/
def kennelServes (s : State) (set : Nat) : Bool := !blockStopped s (.kennel (kennelSlice set))

def kennelIs (pd : Fin 64) (index : Nat) (k : KennelLine) : Bool := decide (k.pd = pd) && decide (k.index = index)

/-- The line held for a partition's line, whether or not its slice serves. -/
def kennelHeld (s : State) (pd : Fin 64) (index : Nat) : Option KennelLine := s.kennel.find? (kennelIs pd index)

def kennelDrop (pd : Fin 64) (index : Nat) (s : State) : State :=
  { s with kennel := s.kennel.filter fun k => !kennelIs pd index k }

def kennelCount (s : State) (pd : Fin 64) : Nat := (s.kennel.filter fun k => k.pd = pd).length

/-- The lines of a partition that a port-class has installed (R291). -/
def classLines (s : State) (pd : Fin 64) (owner : Nat) : Nat :=
  (s.kennel.filter fun k => k.pd = pd ∧ k.owner = some owner).length

def classOf (s : State) (owner : Nat) : PortClass :=
  s.ports[Fin.ofNat 4 (owner / 8)].classes[Fin.ofNat 8 owner]

/-- The share in force of a port-class in a partition. -/
def classShare (s : State) (pd : Fin 64) (owner : Nat) : Nat :=
  let c := classOf s owner
  if c.kennelPd = pd.val then c.kennelLines else 0

/-- A line is protected while its port-class holds no more lines than its share (R292). -/
def kennelProtected (s : State) (k : KennelLine) : Bool :=
  match k.owner with
  | some o => decide (classShare s k.pd o ≠ 0) && decide (classLines s k.pd o ≤ classShare s k.pd o)
  | none => false

/-- A Kennel miss of a port-class that was below its share (R292, R301). -/
def countKennelMiss (s : State) (pd : Fin 64) (owner : Option Nat) : State :=
  match owner with
  | none => s
  | some o =>
    if classLines s pd o < classShare s pd o then
      missReport (Fin.ofNat 4 (o / 8)) (Fin.ofNat 8 o) <|
        modClass (Fin.ofNat 4 (o / 8)) (Fin.ofNat 8 o) (fun c => { c with kennelMiss := sat32 c.kennelMiss, sinceKennel := c.sinceKennel + 1 }) s
    else s

/-- A dirty line that stays held: its quarter is isolated (R272), its channel is stopped (R21), or its slice serves
nothing (R271). -/
def kennelPinned (s : State) (k : KennelLine) : Bool :=
  k.dirty && (!kennelServes s k.set ||
    (match placeOf s k.pd k.index with
     | some pl => quarterOut s (placeQuarter pl) || blockStopped s (.channel pl.channel)
     | none => false))

/-- The set of a metadata line of the reserve. -/
def metaSet (pd : Fin 64) (d level index : Nat) : Nat := Config.metaSet pd d level index % 32768

def metaLineSet (m : MetaLine) : Nat := metaSet m.pd m.granule m.level m.index

/-- An invalid way of a set that is not disabled. -/
def freeWay (s : State) (set : Nat) : Option Nat :=
  let used := (s.kennel.filter fun k => k.set = set).map (·.way) ++
    (s.sealCache.filter fun m => metaLineSet m = set).map (·.way)
  (List.range 16).find? fun w => !used.contains w && !s.waysDisabled.contains (set, w)

/-- The least recently used line that passes a test. -/
def kennelLru (s : State) (p : KennelLine → Bool) : Option KennelLine :=
  s.kennel.reverse.find? fun k => p k && !kennelPinned s k

/-- A line passed through its crypto slice, for P:7C00 (R352, R363). -/
def noteCrypto (pl : Place) (s : State) : State :=
  modQuarter (placeQuarter pl) (fun q => { q with cryptoTimes := noteTime s.hubTimer q.cryptoTimes }) s

/-- A whole line written to a PLAIN or VEILED partition, committed at the write queue; none is success. -/
def openWrite (pd : Fin 64) (index : Nat) (data : Line) (s : State) : Option (QStatus × Bool) × State :=
  match placeOf s pd index with
  | none => (some (.range, false), s)
  | some pl =>
    if quarterOut s (placeQuarter pl) then (some (.dataError, true), s)
    else if unserved s pl then (some (.dataError, false), s)
    else
      match s.partitions[pd].mode with
      | .veiled => (none, pushWrite pl (xtsLine false (keyFor s pd (index + 1)) index data) false (noteCrypto pl s))
      | _ => (none, pushWrite pl data false s)

/-! ### The seal reserve (R349) -/

def sealKey (m : MetaLine) (pd : Fin 64) (d level index : Nat) : Bool :=
  decide (m.pd = pd) && decide (m.granule = d) && decide (m.level = level) && decide (m.index = index)

def sealHeld (s : State) (pd : Fin 64) (d level index : Nat) : Option MetaLine :=
  s.sealCache.find? fun m => sealKey m pd d level index

/-- The Kennel slice that holds a metadata line of the reserve. -/
def metaSlice (pd : Fin 64) (d level index : Nat) : Fin 8 := kennelSlice (metaSet pd d level index)

/-- Whether the slice of a metadata line serves nothing (R271). -/
def metaStopped (s : State) (pd : Fin 64) (d level index : Nat) : Bool :=
  blockStopped s (.kennel (metaSlice pd d level index))

/-- A metadata line put in the reserve as the most recently used, in place of a held copy. -/
def sealPut (m : MetaLine) (s : State) : State :=
  { s with sealCache := m :: s.sealCache.filter fun x => !sealKey x m.pd m.granule m.level m.index }

/-- Whether the reserve has room for one more line of a set: a way that is free, and a line of its size (R292, R362). -/
def metaRoom (s : State) (pd : Fin 64) (d level index : Nat) : Bool :=
  decide (s.sealCache.length < s.params.sealReserve) && !metaStopped s pd d level index &&
    (freeWay s (metaSet pd d level index)).isSome

/-- A metadata line put in the reserve: in place of its held copy, or in a free way of its set. -/
def sealStore (m : MetaLine) (s : State) : State :=
  match sealHeld s m.pd m.granule m.level m.index with
  | some h => sealPut { m with way := h.way } s
  | none =>
    match freeWay s (metaLineSet m) with
    | some w => sealPut { m with way := w } s
    | none => s

/-- A metadata line written to the layers' queue, and to its second place during a move. -/
def pushMeta (pd : Fin 64) (d level index : Nat) (l : Line) (s : State) : State :=
  let s := match metaPlace s pd d level index with
    | some pl => pushWrite pl l false s
    | none => s
  match metaTwin s pd d level index with
  | some pl => pushWrite pl l false s
  | none => s

/-- A metadata line read without verification. -/
def readMetaRaw (who : Requester) (pd : Fin 64) (d level index : Nat) (s : State) : LineResult × State :=
  match metaPlace s pd d level index with
  | none => (.fail .range false, s)
  | some pl =>
    if quarterOut s (placeQuarter pl) then (.fail .dataError true, s)
    else if unserved s pl then (.fail .dataError false, s)
    else
      match lineRead { who := who, address := 64 * (metaGranuleAt s pd (d / 7) * granuleLines + d % 7 * slotLines + metaOffset level index) } pl s with
      | (some l, s) => (.data l, s)
      | (none, s) => (.fail .dataError false, s)

def anchorEntry (s : State) (pd : Fin 64) (d n : Nat) : Word := sparseGet 0 s.partitions[pd].sealing.anchors (32 * d + n)

def setAnchor (pd : Fin 64) (d n : Nat) (w : Word) (s : State) : State :=
  modSeal pd (fun x => { x with anchors := sparsePut 0 x.anchors (32 * d + n) w }) s

/-! ### The verified path (R343, R347) -/

/-- The lines of a path from a counter line or node up that are not held, read raw, lowest first: level, index, content;
and the status of one that could not be read, with the isolation mark. -/
def pathRaw (who : Requester) (pd : Fin 64) (d : Nat) :
    Nat → Nat → Nat → State → List (Nat × Nat × Line) × Option (QStatus × Bool) × State
  | 0, _, _, s => ([], none, s)
  | fuel + 1, level, index, s =>
    match sealHeld s pd d level index with
    | some _ => ([], none, s)
    | none =>
      match readMetaRaw who pd d level index s with
      | (.fail st iso, s) => ([], some (st, iso), s)
      | (.data l, s) =>
        let r := pathRaw who pd d fuel (level + 1) (index / 8) s
        ((level, index, l) :: r.1, r.2.1, r.2.2)

/-- The entry that a metadata line must match: its held or just verified parent's, or the anchor's. -/
def expectedMac (s : State) (pd : Fin 64) (d : Nat) (above : List (Nat × Nat × Line)) (level index : Nat) : Word :=
  if level = 4 then anchorEntry s pd d index
  else
    match above.find? (fun e => e.1 = level + 1) with
    | some e => nodeEntry e.2.2 (index % 8)
    | none =>
      match sealHeld s pd d (level + 1) (index / 8) with
      | some m => nodeEntry m.data (index % 8)
      | none => 0

/-- The level at which a path fails against its parent or the anchor, if any: checked from the anchor down. -/
def pathFault (s : State) (pd : Fin 64) (d : Nat) (path : List (Nat × Nat × Line)) : Option Nat :=
  (path.reverse.find? fun e =>
    (decide (e.1 = 4) && (s.partitions[pd].sealing.anchorsLost).contains (32 * d + e.2.1)) ||
      (s.partitions[pd].sealing.lost).contains (d, e.1, e.2.1) ||
      decide (childMac s pd d e.1 e.2.1 e.2.2 ≠ expectedMac s pd d path e.1 e.2.1)).map (·.1)

/-- The content of the lowest line of a path. -/
def pathHead (path : List (Nat × Nat × Line)) : Line := match path with | e :: _ => e.2.2 | [] => 0

/-- A line of a path that fails against its parent or the anchor: counted and reported, an anchor entry that is lost with
SEAL_ANCHOR_LOST before it (R343, R347). -/
def failTree (pd : Fin 64) (d level anchor : Nat) (s : State) : State :=
  let s := modSeal pd (fun x => { x with treeFail := sat32 x.treeFail }) s
  let lost := decide (level = 4) && (s.partitions[pd].sealing.anchorsLost).contains (32 * d + anchor)
  raise 0x7011 15 pd [itCount (level - 1), itCount d] (if lost then raise 0x7016 15 pd [itCount d] s else s)

/-! ### Write-back (R349) -/

/-- A dirty counter line or node written back: its MAC goes into its parent, which becomes dirty, up to the anchor
(R349). A parent that is not held is verified first; one that fails, or cannot be read, takes nothing, and what lies
beneath it goes under R347. With no room in the reserve the whole path is written at once. -/
def sealWriteBack (pd : Fin 64) (d : Nat) : Nat → Nat → Nat → Line → State → State
  | 0, _, _, _, s => s
  | fuel + 1, level, index, l, s =>
    let s := pushMeta pd d level index l s
    if level = 0 then s
    else
      let mac := childMac s pd d level index l
      if level = 4 then setAnchor pd d index mac s
      else
        match sealHeld s pd d (level + 1) (index / 8) with
        | some p => sealPut { p with data := setNodeEntry p.data (index % 8) mac, dirty := true } s
        | none =>
          let r := pathRaw .int pd d 4 (level + 1) (index / 8) s
          let s := r.2.2
          match r.2.1, pathFault s pd d r.1 with
          | some _, _ => s
          | none, some bad => failTree pd d bad (index / 8 ^ (4 - level)) s
          | none, none =>
            let l' := setNodeEntry (pathHead r.1) (index % 8) mac
            if metaRoom s pd d (level + 1) (index / 8) then
              sealStore { pd := pd, granule := d, level := level + 1, index := index / 8, data := l', dirty := true } s
            else sealWriteBack pd d fuel (level + 1) (index / 8) l' s

/-- One metadata line out of the reserve, written back if dirty. -/
def sealEvict (m : MetaLine) (s : State) : State :=
  let s := { s with sealCache := s.sealCache.filter fun x => !sealKey x m.pd m.granule m.level m.index }
  if m.dirty then sealWriteBack m.pd m.granule 5 m.level m.index m.data s else s

/-- A dirty line that stays held: its slice, the slice of its held parent, or the channel or quarter of its place serves
nothing (R21, R22, R271). -/
def sealPinned (s : State) (m : MetaLine) : Bool :=
  m.dirty &&
    (metaStopped s m.pd m.granule m.level m.index ||
      (match metaPlace s m.pd m.granule m.level m.index with
       | some pl => quarterOut s (placeQuarter pl) || blockStopped s (.channel pl.channel)
       | none => false) ||
      ((sealHeld s m.pd m.granule (m.level + 1) (m.index / 8)).isSome &&
        metaStopped s m.pd m.granule (m.level + 1) (m.index / 8)))

/-- Least recently used lines evicted until the reserve holds no more than its size (R349, R362). -/
def sealTrim : Nat → State → State
  | 0, s => s
  | fuel + 1, s =>
    if s.sealCache.length ≤ s.params.sealReserve then s
    else
      match s.sealCache.reverse.find? fun m => !sealPinned s m with
      | some m => sealTrim fuel (sealEvict m s)
      | none => s

def sealFit (s : State) : State := sealTrim (5 * s.sealCache.length) s

/-- The dirty lines of a selection written back, lowest level first, and kept clean (R349). -/
def sealFlush (sel : MetaLine → Bool) (s : State) : State :=
  let s := [0, 1, 2, 3, 4].foldl (fun s level =>
    let ms := s.sealCache.filter fun m => sel m && m.dirty && !sealPinned s m && decide (m.level = level)
    ms.foldl (fun s m =>
      let clean (x : MetaLine) : MetaLine :=
        if sealKey x m.pd m.granule m.level m.index then { x with dirty := false } else x
      let s := { s with sealCache := s.sealCache.map clean }
      sealWriteBack m.pd m.granule 5 m.level m.index m.data s) s) s
  sealFit s

/-- The counter line of a page, verified (R343 steps 2 and 3), with its path installed in the reserve. -/
def counterLine (who : Requester) (pd : Fin 64) (d page : Nat) (s : State) : LineResult × State :=
  match sealHeld s pd d 1 page with
  | some m => (.data m.data, sealPut m (modParams (fun p => { p with sealMetaHits := p.sealMetaHits + 1 }) s))
  | none =>
    let s := modParams (fun p => { p with sealMetaMisses := p.sealMetaMisses + 1 }) s
    let r := pathRaw who pd d 4 1 page s
    match r.2.1 with
    | some e => (.fail e.1 e.2, r.2.2)
    | none =>
      let s := r.2.2
      match pathFault s pd d r.1 with
      | some level => (.fail .integrity false, failTree pd d level (page / 512) s)
      | none =>
        (.data (pathHead r.1), r.1.reverse.foldl (fun s e =>
          if metaRoom s pd d e.1 e.2.1 then
            sealStore { pd := pd, granule := d, level := e.1, index := e.2.1, data := e.2.2, dirty := false } s
          else s) s)

/-- A new counter line put in the reserve, or written back with its path where there is none (R346, R349). -/
def putCounter (pd : Fin 64) (d page : Nat) (l : Line) (s : State) : State :=
  if (sealHeld s pd d 1 page).isNone && !metaRoom s pd d 1 page then sealWriteBack pd d 5 1 page l s
  else sealStore { pd := pd, granule := d, level := 1, index := page, data := l, dirty := true } s

/-- A tag line: the held copy, or read from its place. -/
def tagLine (who : Requester) (pd : Fin 64) (d index : Nat) (s : State) : LineResult × State :=
  match sealHeld s pd d 0 index with
  | some m => (.data m.data, modParams (fun p => { p with sealMetaHits := p.sealMetaHits + 1 }) s)
  | none =>
    let s := modParams (fun p => { p with sealMetaMisses := p.sealMetaMisses + 1 }) s
    match readMetaRaw who pd d 0 index s with
    | (.data l, s) =>
      (.data l, if metaRoom s pd d 0 index then
          sealStore { pd := pd, granule := d, level := 0, index := index, data := l, dirty := false } s
        else s)
    | r => r

/-- A tag line written: into the write queue, and into a held copy (R346). -/
def putTag (pd : Fin 64) (d index : Nat) (l : Line) (s : State) : State :=
  let s := pushMeta pd d 0 index l s
  match sealHeld s pd d 0 index with
  | some m => sealPut { m with data := l } s
  | none => s

/-! ### Sealed lines -/

/-- A line number put in an ascending list that does not hold it. -/
def insertLine (n : Nat) : List Nat → List Nat
  | [] => [n]
  | m :: ms => if n < m then n :: m :: ms else if n = m then m :: ms else m :: insertLine n ms

/-- A line quarantined: it counts once, and a Kennel copy of it is no longer served (R345). -/
def noteQuarantine (pd : Fin 64) (index : Nat) (s : State) : State :=
  kennelDrop pd index (modSeal pd (fun x => { x with quarantined := insertLine index x.quarantined }) s)

/-- Raised for a line quarantined under R341 or R345: the address and the requester. -/
def raiseQuarantined (who : Requester) (pd : Fin 64) (index : Nat) (s : State) : State :=
  raise 0x7010 15 pd [itAddress (64 * index), itRequester (requesterCode who)] (noteQuarantine pd index s)

/-- Why a line of a place cannot be reached: its granule map entry is not valid (R155), its quarter is isolated (R22), or
its channel is retired with no target (R377). -/
def placeBars (s : State) (o : Option Place) : Option (QStatus × Bool) :=
  match o with
  | none => some (.range, false)
  | some pl =>
    if quarterOut s (placeQuarter pl) then some (.dataError, true)
    else if unserved s pl then some (.dataError, false) else none

/-- The stored data line of a partition, as the code delivers it (R311). -/
def storedRead (who : Requester) (pd : Fin 64) (index : Nat) (s : State) : LineResult × State :=
  match placeOf s pd index with
  | none => (.fail .range false, s)
  | some pl =>
    if quarterOut s (placeQuarter pl) then (.fail .dataError true, s)
    else if unserved s pl then (.fail .dataError false, s)
    else
      match lineRead { who := who, address := 64 * stackLine s pd index } pl s with
      | (some l, s) => (.data l, s)
      | (none, s) => (.fail .dataError false, s)

/-- One line of a page carried to a new counter (R341, R361): its stored form, its tag and its minor. `keep` is the old
key and counter line, `key` and `major` the new; the answer's first part is the line to write, if any. -/
def recryptLine (who : Requester) (pd : Fin 64) (index : Nat) (oldKey newKey : BitVec 512) (c : Line) (tag : Option Word)
    (major : Nat) (s : State) : Option Line × Word × Nat × State :=
  let k := index % 64
  let minor := minorOf c k
  if minor = 0 then (none, tag.getD 0, 0, s)
  else if minor = 127 then (none, tag.getD 0, 127, s)
  else
    let poisoned : Bool := match placeOf s pd index with
      | some pl =>
        (match wqEntry s pl with
         | some e => e.poison
         | none => decide (classifyLine (storedLine s pl) (erasureSet s pl) = .poison))
      | none => false
    if poisoned then (none, tag.getD 0, 1, (storedRead who pd index s).2)
    else
      match storedRead who pd index s with
      | (.data stored, s) =>
        if tag = some (dataMac oldKey index (majorOf c) minor stored) then
          let plain := ctrLine oldKey (majorOf c) minor index stored
          let out := ctrLine newKey major 1 index plain
          (some out, dataMac newKey index major 1 out, 1,
            match placeOf s pd index with | some pl => noteCrypto pl (noteCrypto pl s) | none => s)
        else (none, tag.getD 0, 127, raiseQuarantined who pd index s)
      | (.fail _ _, s) => (none, tag.getD 0, 127, raiseQuarantined who pd index s)

/-- A page carried to a new major (and key), with one line written over as it goes (R341, R361). -/
def recryptPage (who : Requester) (pd : Fin 64) (d page : Nat) (oldKey newKey : BitVec 512) (c : Line) (major : Nat)
    (fresh : Option (Nat × Line)) (s : State) : Line × State :=
  let first := d * granuleLines + 64 * page
  let step (acc : Line × State) (t : Nat) : Line × State :=
    let r := tagLine who pd d (8 * page + t) acc.2
    let tags := match r.1 with | .data l => some l | .fail _ _ => none
    let inner := (List.range 8).foldl (fun (a : Line × Line × State) j =>
      let k := 8 * t + j
      let index := first + k
      let isOver := match fresh with | some o => decide (o.1 = index) | none => false
      if isOver then
        let plain := match fresh with | some o => o.2 | none => 0
        let out := ctrLine newKey major 1 index plain
        let s := match placeOf a.2.2 pd index with | some pl => pushWrite pl out false a.2.2 | none => a.2.2
        (setMinor a.1 k 1, setNodeEntry a.2.1 j (dataMac newKey index major 1 out), s)
      else
        let q := recryptLine who pd index oldKey newKey c (tags.map fun l => nodeEntry l j) major a.2.2
        let s := match q.1, placeOf q.2.2.2 pd index with
          | some l, some pl => pushWrite pl l false q.2.2.2
          | _, _ => q.2.2.2
        (setMinor a.1 k q.2.2.1, setNodeEntry a.2.1 j q.2.1, s)) (acc.1, tags.getD 0, r.2)
    (inner.1, putTag pd d (8 * page + t) inner.2.1 inner.2.2)
  (List.range 8).foldl step (setMajor 0 major, s)

/-- The places of a page's data lines and tag lines. -/
def pageSpots (s : State) (pd : Fin 64) (d page : Nat) : List (Option Place) :=
  (List.range 64).map (fun k => placeOf s pd (d * granuleLines + 64 * page + k)) ++
    (List.range 8).map fun t => metaPlace s pd d 0 (8 * page + t)

/-- Why a page cannot be carried over: the first of its data lines and tag lines that cannot be reached (R22, R362). -/
def pageBars (s : State) (pd : Fin 64) (d page : Nat) : Option (QStatus × Bool) :=
  (pageSpots s pd d page).findSome? (placeBars s)

/-- The page re-encryption that a write needs (R341, R342). One that needs a line out of reach ends with the status of
that line and leaves the page as it was (R22). -/
def reencrypt (who : Requester) (pd : Fin 64) (index : Nat) (data c : Line) (s : State) :
    Option (QStatus × Bool) × State :=
  let d := index / granuleLines
  let page := index % granuleLines / 64
  match pageBars s pd d page with
  | some e => (some e, s)
  | none =>
    let key := keyFor s pd (index + 1)
    let r := recryptPage who pd d page key key c (majorOf c + 1) (some (index, data)) s
    let s := putCounter pd d page r.1 r.2
    let s := modSeal pd (fun x => { x with
      pageReencrypt := x.pageReencrypt + 1
      quarantined := x.quarantined.filter (· ≠ index) }) s
    (none, raiseLimited 0x7012 15 pd (fun n => [itCount n]) s)

/-- A page whose major can advance no more and which needs re-encryption: a line of it has spent its minor (R342). -/
def pageSpent (c : Line) : Bool :=
  decide (majorOf c = 2 ^ 64 - 1) && (List.range 64).any fun k => decide (minorOf c k = 126)

/-- The right overwrite_unverified of a requester (R358). -/
def mayOverwrite (s : State) (pd : Fin 64) (who : Requester) : Bool :=
  decide (requesterCode who < 6) && hasRight s.partitions[pd] (requesterCode who) 2

/-- A whole-line write to a SEALED line, which takes no room in the reserve but what is free (R340 to R348); none is
success. -/
def sealedPut (who : Requester) (pd : Fin 64) (index : Nat) (data : Line) (s : State) :
    Option (QStatus × Bool) × State :=
  let d := index / granuleLines
  let i := index % granuleLines
  match placeOf s pd index with
  | none => (some (.range, false), s)
  | some pl =>
    match (placeBars s (some pl)).or (placeBars s (metaPlace s pd d 0 (i / 8))) with
    | some e => (some e, s)
    | none =>
      match counterLine who pd d (i / 64) s with
      | (.fail st iso, s) => (some (st, iso), s)
      | (.data c, s) =>
        let minor := minorOf c (i % 64)
        if pageSpent c || (decide (majorOf c = 2 ^ 64 - 1) && decide (minor = 127) && mayOverwrite s pd who) then
          (some (.denied, false), raise 0x7013 15 pd [itCount (d * granulePages + i / 64)] s)
        else if minor = 127 ∧ !mayOverwrite s pd who then (some (.integrity, false), s)
        else if 126 ≤ minor then reencrypt who pd index data c s
        else
          let r := tagLine who pd d (i / 8) s
          let key := keyFor s pd (index + 1)
          let out := ctrLine key (majorOf c) (minor + 1) index data
          let tags := setNodeEntry (resultData r.1) (i % 8) (dataMac key index (majorOf c) (minor + 1) out)
          let others := match r.1 with
            | .fail _ _ => (List.range 8).filter (· ≠ i % 8)
            | .data _ => []
          let c' := others.foldl (fun l j => setMinor l (8 * (i % 64 / 8) + j) 127) c
          let s := pushWrite pl out false (noteCrypto pl r.2)
          let s := putTag pd d (i / 8) tags s
          let s := putCounter pd d (i / 64) (setMinor c' (i % 64) (minor + 1)) s
          (none, others.foldl (fun s j => noteQuarantine pd (index - i % 8 + j) s) s)

/-! ### Room in the reserve (R292) -/

/-- A line out of the Kennel, written back if dirty (R264, R266). -/
def openEvict (k : KennelLine) (s : State) : State :=
  let s := kennelDrop k.pd k.index (countKennelMiss s k.pd k.owner)
  if !k.dirty then s
  else if s.partitions[k.pd].mode = .sealed then (sealedPut .int k.pd k.index k.data s).2
  else (openWrite k.pd k.index k.data s).2

/-- The way that a new metadata line takes in its set, by R292: a free way, a line of a partition above its quota, a line
of the full reserve, or a Kennel line that is not protected. -/
def metaChoice (s : State) (set : Nat) : Option (Nat ⊕ KennelLine ⊕ MetaLine) :=
  let inSet (k : KennelLine) : Bool := decide (k.set = set)
  match freeWay s set with
  | some w => some (.inl w)
  | none =>
    match kennelLru s (fun k => inSet k && decide (s.partitions[k.pd].quota < kennelCount s k.pd)) with
    | some k => some (.inr (.inl k))
    | none =>
      match (if s.params.sealReserve ≤ s.sealCache.length then
          s.sealCache.reverse.find? fun m => decide (metaLineSet m = set) && !sealPinned s m else none) with
      | some m => some (.inr (.inr m))
      | none => (kennelLru s (fun k => inSet k && !kennelProtected s k)).map fun k => .inr (.inl k)

/-- Room made for a metadata line that is not held: its way's line goes out, and the least recently used line of a full
reserve before it. Where R292 finds no way, the line is used without being kept. -/
def makeRoomFor (pd : Fin 64) (d level index : Nat) (s : State) : State :=
  if (sealHeld s pd d level index).isSome ∨ s.params.sealReserve = 0 ∨ metaStopped s pd d level index then s
  else
    match metaChoice s (metaSet pd d level index) with
    | none => s
    | some (.inr (.inr m)) => sealEvict m s
    | some ch =>
      let s :=
        if s.params.sealReserve ≤ s.sealCache.length then
          match s.sealCache.reverse.find? fun m => !sealPinned s m with
          | some m => sealEvict m s
          | none => s
        else s
      match ch with
      | .inr (.inl k) => if (kennelHeld s k.pd k.index).isSome then openEvict k s else s
      | _ => s

/-- Room made for the tag line and the path of a line before any of them is read, so that no write-back of a line that
gives way falls between the reading of a path and its use. -/
def sealMakeRoom (pd : Fin 64) (d i : Nat) (s : State) : State :=
  let s := [4, 3, 2, 1].foldl (fun s level => makeRoomFor pd d level (i / 64 / 8 ^ (level - 1)) s) s
  makeRoomFor pd d 0 (i / 8) s

/-- A whole-line write to a SEALED line (R340 to R349); none is success. -/
def sealedWrite (who : Requester) (pd : Fin 64) (index : Nat) (data : Line) (s : State) :
    Option (QStatus × Bool) × State :=
  sealedPut who pd index data (sealMakeRoom pd (index / granuleLines) (index % granuleLines) s)

/-- A read of a SEALED line, in the order of R343; a tag mismatch is verified once more on the data line and tag line as
the channel holds them (R345). -/
def sealedRead (who : Requester) (pd : Fin 64) (index : Nat) (s : State) : LineResult × State :=
  let d := index / granuleLines
  let i := index % granuleLines
  let s := sealMakeRoom pd d i s
  match storedRead who pd index s with
  | (.fail st iso, s) => (.fail st iso, s)
  | (.data stored, s) =>
    match tagLine who pd d (i / 8) s with
    | (.fail st iso, s) => (.fail st iso, s)
    | (.data tags, s) =>
      match counterLine who pd d (i / 64) s with
      | (.fail st iso, s) => (.fail st iso, s)
      | (.data c, s) =>
        let minor := minorOf c (i % 64)
        if minor = 0 then
          (.fail .unwritten false, modSeal pd (fun x => { x with unwrittenRead := sat32 x.unwrittenRead }) s)
        else if minor = 127 then (.fail .integrity false, s)
        else
          let key := keyFor s pd (index + 1)
          if dataMac key index (majorOf c) minor stored = nodeEntry tags (i % 8) then
            (.data (ctrLine key (majorOf c) minor index stored),
              match placeOf s pd index with | some pl => noteCrypto pl s | none => s)
          else
            match storedRead who pd index s with
            | (.fail st iso, s) => (.fail st iso, s)
            | (.data stored, s) =>
              match readMetaRaw who pd d 0 (i / 8) s with
              | (.fail st iso, s) => (.fail st iso, s)
              | (.data tags, s) =>
                if dataMac key index (majorOf c) minor stored = nodeEntry tags (i % 8) then
                  (.data (ctrLine key (majorOf c) minor index stored),
                    match placeOf s pd index with | some pl => noteCrypto pl s | none => s)
                else
                  let s := putCounter pd d (i / 64) (setMinor c (i % 64) 127) s
                  let s := modSeal pd (fun x => { x with integrityFail := sat32 x.integrityFail }) s
                  (.fail .integrity false, raiseQuarantined who pd index s)

/-! ### Lines of any mode -/

/-- A read of a partition's line in plaintext (R330, R343). -/
def partitionRead (who : Requester) (pd : Fin 64) (index : Nat) (s : State) : LineResult × State :=
  match s.partitions[pd].mode with
  | .plain => storedRead who pd index s
  | .veiled =>
    match storedRead who pd index s with
    | (.data l, s) =>
      (.data (if l = 0 then 0 else xtsLine true (keyFor s pd (index + 1)) index l),
        match placeOf s pd index with | some pl => noteCrypto pl s | none => s)
    | r => r
  | .sealed => sealedRead who pd index s

/-- A whole-line write of a partition's line, committed at the write queue (R21, R346); none is success. -/
def partitionWrite (who : Requester) (pd : Fin 64) (index : Nat) (data : Line) (s : State) :
    Option (QStatus × Bool) × State :=
  match s.partitions[pd].mode with
  | .sealed => sealedWrite who pd index data s
  | _ => openWrite pd index data s

end Sys2Proof.Machine
end

