-- ==== Sys2Proof/Machine/Kennel.lean ====
section
/-! DEFINITION. The Kennel: its sets and ways, the choice of a victim (R290 to R293), write-backs (R266), and reads and
writes of lines through it (R264, R265, R313, R331). -/

namespace Sys2Proof.Machine

open Sys2Proof

/-- The set of a line, 4,096 × slice + set; the index function is a free value of the part (R290). -/
def kennelSetOf (pd : Fin 64) (index : Nat) : Nat := Config.kennelSet pd index % 32768

/-- The line served by the Kennel. -/
def kennelHit (s : State) (pd : Fin 64) (index : Nat) : Option KennelLine :=
  match kennelHeld s pd index with
  | some k => if kennelServes s k.set then some k else none
  | none => none

/-- A held line made the most recently used. -/
def kennelTouch (k : KennelLine) (s : State) : State :=
  { s with kennel := k :: s.kennel.filter fun x => !kennelIs k.pd k.index x }

/-- A dirty line written to its channel, and kept clean. -/
def kennelWriteBack (k : KennelLine) (s : State) : State :=
  if k.dirty && !kennelPinned s k then
    let clean (x : KennelLine) : KennelLine := if kennelIs k.pd k.index x then { x with dirty := false } else x
    (partitionWrite .int k.pd k.index k.data { s with kennel := s.kennel.map clean }).2
  else s

/-- A line out of the Kennel, written back if dirty (R264, R266). -/
def kennelEvict (k : KennelLine) (s : State) : State :=
  if kennelPinned s k then s else kennelDrop k.pd k.index (kennelWriteBack k (countKennelMiss s k.pd k.owner))

/-- Dirty lines of a selection written back (R266). -/
def kennelFlush (sel : KennelLine → Bool) (s : State) : State :=
  (s.kennel.filter fun k => sel k && k.dirty).foldl (fun s k => kennelWriteBack k s) s

/-- Lines of a selection evicted, least recently used first. -/
def kennelPurge (sel : KennelLine → Bool) (s : State) : State :=
  (s.kennel.reverse.filter sel).foldl (fun s k => kennelEvict k s) s

/-- The choice of R292: a free way, or a victim; none serves the request without caching. -/
def kennelChoice (s : State) (pd : Fin 64) (set : Nat) : Option (Nat ⊕ KennelLine) :=
  let inSet (k : KennelLine) : Bool := decide (k.set = set)
  match freeWay s set with
  | some w => some (.inl w)
  | none =>
    match kennelLru s (fun k => inSet k && decide (s.partitions[k.pd].quota < kennelCount s k.pd)) with
    | some k => some (.inr k)
    | none =>
      match (if s.partitions[pd].quota ≤ kennelCount s pd then kennelLru s (fun k => inSet k && decide (k.pd = pd))
             else none) with
      | some k => some (.inr k)
      | none => (kennelLru s (fun k => inSet k && !kennelProtected s k)).map .inr

/-- An install under R292: the line becomes the most recently used of its partition, or the request is served without
caching; so it is too where the quota is reached and every line of the partition stays held. -/
def kennelInstall (pd : Fin 64) (index : Nat) (data : Line) (dirty : Bool) (use : KennelUse) (owner : Option Nat)
    (s : State) : State :=
  let set := kennelSetOf pd index
  if s.partitions[pd].quota = 0 ∨ !kennelServes s set then s
  else
    match kennelChoice s pd set with
    | none => s
    | some ch =>
      let own := match ch with | .inr k => decide (k.pd = pd) | .inl _ => false
      let full := decide (s.partitions[pd].quota ≤ kennelCount s pd) && !own
      match full, kennelLru s (fun k => decide (k.pd = pd)) with
      | true, none => s
      | _, lru =>
        let s := match full, lru with | true, some k => kennelEvict k s | _, _ => s
        let s := match ch with | .inl _ => s | .inr k => kennelEvict k s
        match freeWay s set with
        | none => s
        | some way =>
          kennelTouch {
            pd := pd, index := index, set := set, way := way, data := data, dirty := dirty
            dirtySince := s.hubTimer, use := use, owner := owner } s

/-- Whether a line was served without caching: its partition caches lines, and it is not held (R292, R301). -/
def uncached (s : State) (pd : Fin 64) (index : Nat) : Bool :=
  decide (s.partitions[pd].quota ≠ 0) && (kennelHeld s pd index).isNone

/-- An install made for a request of one line, with the Kennel miss of one served without caching (R301). -/
def kennelInstallFor (pd : Fin 64) (index : Nat) (data : Line) (dirty : Bool) (use : KennelUse) (owner : Option Nat)
    (s : State) : State :=
  let s := kennelInstall pd index data dirty use owner s
  if uncached s pd index then countKennelMiss s pd owner else s

/-- Lines beyond a partition's quota evicted, least recently used first (R293). -/
def kennelShrink (pd : Fin 64) : Nat → State → State
  | 0, s => s
  | n + 1, s =>
    if kennelCount s pd ≤ s.partitions[pd].quota then s
    else
      match kennelLru s (fun k => decide (k.pd = pd)) with
      | some k => kennelShrink pd n (kennelEvict k s)
      | none => s

/-- A held line changed in place and made the most recently used. -/
def kennelUpdate (k : KennelLine) (data : Line) (dirty : Bool) (s : State) : State :=
  kennelTouch { k with
    data := data
    dirty := k.dirty || dirty
    dirtySince := if k.dirty then k.dirtySince else s.hubTimer } s

/-! ### Lines of requests -/

/-- A line of a quarter that answers nothing; a held counter line of it is not served either (R22, R272). -/
def lineIsolated (s : State) (pd : Fin 64) (index : Nat) : Bool :=
  match placeOf s pd index with
  | some pl => quarterOut s (placeQuarter pl)
  | none => false

/-- A line read for a host READ: from the Kennel, or from its channel with an install where the partition has a quota
and is no COUNTER partition (R264, R265, R290). The flag is the kennel bit of R45. -/
def hostRead (who : Requester) (owner : Option Nat) (pd : Fin 64) (index : Nat) (s : State) :
    LineResult × Bool × State :=
  match kennelHit s pd index with
  | some k =>
    if k.use = .counter ∧ lineIsolated s pd index then (.fail .dataError true, false, s)
    else (.data k.data, true, kennelTouch k s)
  | none =>
    match partitionRead who pd index s with
    | (.data l, s) =>
      (.data l, false,
        if s.partitions[pd].ptype = .counter then s else kennelInstall pd index l false .hostRead owner s)
    | (r, s) => (r, false, s)

/-- A whole line written for a request: a held counter line is replaced and dirty (R265); any other held copy takes the
new data once the write has entered its queue (R57). -/
def hostWrite (who : Requester) (pd : Fin 64) (index : Nat) (data : Line) (s : State) :
    Option (QStatus × Bool) × State :=
  match kennelHeld s pd index with
  | some k =>
    if k.use = .counter then
      if lineIsolated s pd index then (some (.dataError, true), s) else (none, kennelUpdate k data true s)
    else
      match partitionWrite who pd index data s with
      | (none, s) => (none, if kennelServes s k.set then kennelUpdate k data false s else kennelDrop pd index s)
      | r => r
  | none => partitionWrite who pd index data s

/-- The read half of a read-modify-write of a RAW line: the write-queue entry first, then a clean Kennel copy, then the
channel (R313). -/
def halfRead (who : Requester) (pd : Fin 64) (index : Nat) (s : State) : LineResult × State :=
  let queued := match placeOf s pd index with
    | some pl => (wqEntry s pl).isSome
    | none => false
  if queued then partitionRead who pd index s
  else
    match kennelHit s pd index with
    | some k => (.data k.data, s)
    | none => partitionRead who pd index s

/-- Every Kennel line of a row invalidated after an SKWR (R187): the lines of one 2 KiB block of a partition. -/
def kennelDropBlock (pd : Fin 64) (block : Nat) (s : State) : State :=
  { s with kennel := s.kennel.filter fun k => !(decide (k.pd = pd) && decide (k.index / 32 = block)) }

end Sys2Proof.Machine
end

