-- ==== Sys2Proof/Machine/Tables.lean ====
section
/-! DEFINITION. The search of tables as the Pointer slices find them: hashes, buckets, stash sets, directory and nodes
(R195 to R208), without the effects of the reads. -/

namespace Sys2Proof.Machine

open Sys2Proof

/-! ### Rows -/

/-- A line as a read would deliver it now: none where it is bad. -/
def linePeek (s : State) (pl : Place) : Option Line :=
  match wqEntry s pl with
  | some e => if e.poison then none else some e.data
  | none =>
    match classifyLine (storedLine s pl) (erasureSet s pl) with
    | .clean d => some d
    | .erasureCorrected d => some d
    | .corrected d _ => some d
    | .poison => none
    | .uncorrectable => none

/-- The lines of a row as a read would deliver them now: none marks a bad line (R186). -/
def rowPeek (s : State) (pl : Place) : List (Option Line) :=
  (List.finRange 32).map fun i => linePeek s { pl with line := i }

/-- The place of a row block of a partition. -/
def blockPlace (s : State) (pd : Fin 64) (block : Nat) : Option Place := placeOf s pd (32 * block)

/-- A row block whose granule is not mapped (R155). -/
def blockUnmapped (s : State) (pd : Fin 64) (block : Nat) : Bool := (blockPlace s pd block).isNone

/-- A row block in a quarter that answers nothing (R22). -/
def blockIsolated (s : State) (pd : Fin 64) (block : Nat) : Bool :=
  match blockPlace s pd block with
  | none => false
  | some pl => quarterOut s (placeQuarter pl)

/-- A row block that nothing can read: unmapped, in an isolated quarter, or of an unserved slab. -/
def blockLost (s : State) (pd : Fin 64) (block : Nat) : Bool :=
  match blockPlace s pd block with
  | none => true
  | some pl => quarterOut s (placeQuarter pl) || unserved s pl

/-- How a request ends that meets a lost row block: RANGE where its granule is not mapped (R155), else DATA_ERROR, marked
where its quarter is isolated (R299). -/
def lostEnd (s : State) (pd : Fin 64) (block : Nat) : QStatus × Bool :=
  if blockUnmapped s pd block then (.range, false) else (.dataError, blockIsolated s pd block)

/-- The lines of a row block, all bad where it is lost. -/
def blockPeek (s : State) (pd : Fin 64) (block : Nat) : List (Option Line) :=
  match blockPlace s pd block with
  | none => List.replicate 32 none
  | some pl => if blockLost s pd block then List.replicate 32 none else rowPeek s pl

/-! ### Exact tables -/

def entryValid (l : Line) : Bool := l.getLsbD 448

def entryKey (keyLen : Nat) (l : Line) : Nat := lineGet l 0 (8 * keyLen)

def entryResult (l : Line) : Nat := lineGet l 320 128

def entryFlags (l : Line) : Nat := lineGet l 464 16

def entryGen (l : Line) : Nat := lineGet l 480 16

/-- The hashes of a key (R197). -/
structure KeyHash where
  b1 : Nat
  b2 : Nat
  slot : Nat
  stashSet : Nat
deriving DecidableEq, Repr

def keyHash (t : Table) (key : Nat) : KeyHash :=
  let m := natToBytes t.keyLen key
  let h1 := (sipHash t.seed1 m).toNat
  let h2 := (sipHash t.seed2 m).toNat
  let b1 := h1 % 2 ^ t.bucketLog2
  let b2 := h2 % 2 ^ t.bucketLog2
  { b1 := b1, b2 := if b2 = b1 then b1 ^^^ 1 else b2, slot := h1 / 2 ^ 59, stashSet := h1 / 2 ^ 32 % 512 }

/-- The slot of a row whose entry matches a key (R198). -/
def rowFind (keyLen key : Nat) (row : List (Option Line)) : Option (Nat × Line) :=
  (List.range 32).findSome? fun i =>
    match row.getD i none with
    | some l => if entryValid l && entryKey keyLen l == key then some (i, l) else none
    | none => none

def stashFind (t : Table) (set key : Nat) : Option Line :=
  (sparseGet [] t.stash set).find? fun l => entryKey t.keyLen l == key

/-- What an exact lookup finds (R198): a row block that it could not read is `lost`. -/
inductive Found where
  | kennel (entry : Line)
  | bucket (second : Bool) (slot : Nat) (entry : Line)
  | stash (entry : Line)
  | miss
  | bad
  | lost (block : Nat)
deriving DecidableEq, Repr

/-- The entry of the Kennel's probe line, where it matches (R198). -/
def probeHit (s : State) (td : Fin 16) (key at_ : Nat) : Option Line :=
  let t := s.tables[td]
  let h := keyHash t key
  match (if stagedAt t.kennelProbe at_ then kennelHit s t.partition (32 * (t.baseBlock + h.b1) + h.slot) else none) with
  | some k => if entryValid k.data && entryKey t.keyLen k.data == key then some k.data else none
  | none => none

/-- The second half of the search: row b2, the stash, and a miss, which a bad line of either row makes DATA_ERROR. -/
def secondSearch (s : State) (td : Fin 16) (key : Nat) (firstBad : Bool) : Found :=
  let t := s.tables[td]
  let h := keyHash t key
  if blockLost s t.partition (t.baseBlock + h.b2) then .lost (t.baseBlock + h.b2)
  else
    let row2 := blockPeek s t.partition (t.baseBlock + h.b2)
    match rowFind t.keyLen key row2 with
    | some (i, e) => .bucket true i e
    | none =>
      match (if t.stashCount = 0 then none else stashFind t h.stashSet key) with
      | some e => .stash e
      | none => if firstBad || row2.contains none then .bad else .miss

/-- The search of R198 by a lookup received at a time, with the row blocks it reads. -/
def exactSearch (s : State) (td : Fin 16) (key at_ : Nat) : Found × List Nat :=
  let t := s.tables[td]
  let h := keyHash t key
  let both := stagedAt t.parallelProbe at_
  let blk (b : Nat) := t.baseBlock + b
  match probeHit s td key at_ with
  | some e => (.kennel e, [])
  | none =>
    if blockLost s t.partition (blk h.b1) then (.lost (blk h.b1), [])
    else if both && blockLost s t.partition (blk h.b2) then (.lost (blk h.b2), [])
    else
      let row1 := blockPeek s t.partition (blk h.b1)
      match rowFind t.keyLen key row1 with
      | some (i, e) => (.bucket false i e, if both then [blk h.b1, blk h.b2] else [blk h.b1])
      | none =>
        let f := secondSearch s td key (row1.contains none)
        (f, match f with | .lost _ => [blk h.b1] | _ => [blk h.b1, blk h.b2])

/-- A committed write since a commit_seq touched row b1, row b2 or the stash set of a key, as the ring of the last 16
targets shows; more than 16 commits are taken to have (R212). -/
def commitsTouch (t : Table) (key : Nat) (since : BitVec 32) : Bool :=
  let h := keyHash t key
  let n := (t.commitSeq - since).toNat
  decide (16 < n) || (t.ring.take n).any fun x =>
    match x with
    | .row b => decide (b = t.baseBlock + h.b1) || decide (b = t.baseBlock + h.b2)
    | .stash set => decide (set = h.stashSet)
    | .directory _ => false

/-! ### Insertion (R201, R202) -/

/-- A planned write of an update: an entry into a slot of a row block, or into the stash. -/
inductive TableWrite where
  | row (block slot : Nat) (entry : Line)
  | stash (entry : Line)
deriving DecidableEq, Repr

/-- Where a key is: its row block and slot, or the stash. -/
def findEntry (s : State) (t : Table) (key : Nat) : Option (Option (Nat × Nat) × Line) :=
  let h := keyHash t key
  match rowFind t.keyLen key (blockPeek s t.partition (t.baseBlock + h.b1)) with
  | some (i, e) => some (some (t.baseBlock + h.b1, i), e)
  | none =>
    match rowFind t.keyLen key (blockPeek s t.partition (t.baseBlock + h.b2)) with
    | some (i, e) => some (some (t.baseBlock + h.b2, i), e)
    | none => (stashFind t h.stashSet key).map fun e => (none, e)

/-- The entry that an image makes: valid, with a generation (R195). -/
def imageEntry (img : Line) (gen : Nat) : Line := linePut (linePut img 448 1 1) 480 16 gen

/-- The lowest free slot of a row; a bad slot is never free (R201, R214). -/
def freeSlot (row : List (Option Line)) : Option Nat :=
  (List.range 32).find? fun i => match row.getD i none with | some l => !entryValid l | none => false

/-- The plan of an insert: its moves and displacements, none where the table has no place, and the rows it read beside
the key's own. -/
abbrev InsertPlan := Option (List TableWrite × Nat) × List Nat

/-- The last place of a displacement chain: the stash set of the entry it carries, where that has room (R201). -/
def chainEnd (t : Table) (n : Nat) (e : Line) (moves : List TableWrite) : Option (List TableWrite × Nat) :=
  if (sparseGet [] t.stash (keyHash t (entryKey t.keyLen e)).stashSet).length < 8 then some (moves ++ [.stash e], n)
  else none

/-- The displacement chain of R201 from an entry at a bucket. A slot already written by the chain, or a bad slot, ends
the chain at the stash. -/
def displace (s : State) (t : Table) : Nat → Nat → Line → Nat → List TableWrite → List Nat → InsertPlan
  | 0, n, e, _, moves, seen => (chainEnd t n e moves, seen)
  | fuel + 1, n, e, b, moves, seen =>
    let blk := t.baseBlock + b
    let slot := ((keyHash t (entryKey t.keyLen e)).slot + n) % 32
    let taken := moves.any fun w => match w with | .row b' i _ => b' == blk && i == slot | .stash _ => false
    match (if taken then none else (blockPeek s t.partition blk).getD slot none) with
    | none => (chainEnd t n e moves, seen)
    | some v =>
      let moves := moves ++ [.row blk slot e]
      let h := keyHash t (entryKey t.keyLen v)
      let a := if h.b1 = b then h.b2 else h.b1
      let seen := seen ++ [t.baseBlock + a]
      match freeSlot (blockPeek s t.partition (t.baseBlock + a)) with
      | some i => (some (moves ++ [.row (t.baseBlock + a) i v], n + 1), seen)
      | none => displace s t fuel (n + 1) v a moves seen

/-- The place of a new entry (R201): the preferred or lowest free slot of b1, the lowest of b2, or a chain of at most
`depth` displacements. -/
def insertPlan (s : State) (t : Table) (new : Line) (depth : Nat) : InsertPlan :=
  let h := keyHash t (entryKey t.keyLen new)
  let row (b : Nat) := blockPeek s t.partition (t.baseBlock + b)
  match freeSlot (row h.b1), freeSlot (row h.b2) with
  | some i, _ =>
    let preferred := match (row h.b1).getD h.slot none with | some l => !entryValid l | none => false
    (some ([.row (t.baseBlock + h.b1) (if preferred then h.slot else i) new], 0), [])
  | none, some i => (some ([.row (t.baseBlock + h.b2) i new], 0), [])
  | none, none => displace s t depth 0 new h.b1 [] []

/-! ### Prefix tables -/

/-- Key bit `i`: bit 7 − (i mod 8) of byte ⌊i/8⌋ of a key held as a little-endian number. -/
def keyBit (key i : Nat) : Bool := bitAt key (8 * (i / 8) + (7 - i % 8))

/-- The directory index of a key: its first `bits` bits as an unsigned number. -/
def keyIndex (key bits : Nat) : Nat := (List.range bits).foldl (fun n i => 2 * n + boolNat (keyBit key i)) 0

def nodeKind (l : Line) : Nat := lineGet l 136 2

def nodeLength (l : Line) : Nat := lineGet l 128 8

def nodeChild (l : Line) : Nat := lineGet l 144 25

def nodeMatches (key : Nat) (l : Line) : Bool :=
  decide (nodeKind l ≠ 0) && ((List.range (nodeLength l)).all fun i => keyBit key i == keyBit l.toNat i)

/-- The matching entry of greatest length, of equals the lowest slot (R207). -/
def nodeBest (key : Nat) (row : List (Option Line)) : Option Line :=
  row.foldl (fun best o =>
    match o with
    | none => best
    | some l =>
      if nodeMatches key l then
        match best with
        | some b => if nodeLength b < nodeLength l then some l else best
        | none => some l
      else best) none

/-- What a prefix lookup finds: a directory result, a node entry, or nothing; with the rows read and the cut. -/
inductive PrefixFound where
  | directory (entry : BitVec 64)
  | node (best : Option Line) (depthCut : Bool)
  | bad
  | lost (block : Nat)
  | directoryBad (index : Nat)
deriving DecidableEq, Repr

/-- The walk of R207 from a node row, `n` rows left to read. -/
def prefixWalk (s : State) (pd : Fin 64) (key : Nat) : Nat → Nat → Option Line → List Nat → PrefixFound × List Nat
  | 0, _, best, rows => (.node best true, rows)
  | n + 1, block, best, rows =>
    if blockLost s pd block then (.lost block, rows)
    else
      let row := blockPeek s pd block
      let rows := rows ++ [block]
      if row.contains none then (.bad, rows)
      else
        match nodeBest key row with
        | none => (.node best false, rows)
        | some m =>
          let best := if nodeKind m = 1 ∨ nodeKind m = 3 then some m else best
          if nodeKind m = 1 then (.node best false, rows)
          else prefixWalk s pd key n (nodeChild m) best rows

/-- The search of R207 with the rows it reads. -/
def prefixSearch (s : State) (td : Fin 16) (key : Nat) : PrefixFound × List Nat :=
  let t := s.tables[td]
  let i := t.dirBase + keyIndex key t.dirBits
  if s.directoryBad.contains i then (.directoryBad i, [])
  else
    let d := directoryEntry s i
    let kind := bitsOf d.toNat 1 0
    if kind = 1 then (.directory d, [])
    else if kind = 2 then prefixWalk s t.partition key 4 (bitsOf d.toNat 40 16) none []
    else (.node none false, [])

/-! ### Slices -/

/-- The quarter whose Pointer slice reads a row block. -/
def blockQuarter (s : State) (pd : Fin 64) (block : Nat) : Option (Fin 4) := (blockPlace s pd block).map placeQuarter

end Sys2Proof.Machine
end

