-- ==== Sys2Proof/Machine/Ingress.lean ====
section
/-! DEFINITION. Port ingress: duplicate tags (R51), the checks of R43, Collie's admission (R278 to R288), the holds of
R20, R42 and R158, device panic (R286), and the waiting of requests in a channel that sleeps (R177). -/

namespace Sys2Proof.Machine

open Sys2Proof

/-- What is done with a request once it is past ingress. -/
abbrev Perform := Job → Req → State → State

/-! ### Token buckets (R281) -/

/-- The units of 2^−16 charge byte that a rate in MB/s adds in a tick of 16 ns. -/
def rateUnits (m : Nat) : Nat := (m * 1048576 + 500) / 1000

/-- A port-class with its buckets refilled to now. -/
def refillClass (now : Nat) (c : PortClass) : PortClass :=
  let tick := now / 16
  let dt : Int := (tick - c.refilled : Nat)
  { c with
    refilled := tick
    floorTokens := min (c.floorBurst * 65536 : Nat) (c.floorTokens + dt * (rateUnits c.floor : Nat))
    ceilTokens := min (c.ceilingBurst * 65536 : Nat) (c.ceilTokens + dt * (rateUnits c.ceiling : Nat)) }

/-- What Collie does with a request: pass, with the port-class after its debits, or hold. -/
inductive Verdict where
  | pass (c : PortClass)
  | hold (r : HoldReason)
deriving DecidableEq, Repr

/-- The evaluation of R281 on a refilled port-class. -/
def chargeClass (c : PortClass) (charge : Nat) (gated : Bool) : Verdict :=
  let u : Int := (charge * 65536 : Nat)
  if c.ceiling ≠ 0 ∧ c.ceilTokens < 0 then .hold .ceiling
  else
    let floor := decide (u ≤ c.floorTokens)
    if !floor ∧ gated then .hold .gate
    else
      .pass { c with
        ceilTokens := if c.ceiling ≠ 0 then c.ceilTokens - u else c.ceilTokens
        floorTokens := if floor then c.floorTokens - u else c.floorTokens }

/-! ### What a request needs -/

/-- A line that the Kennel serves without its channel: a READ of a held line, and any access to a held counter line
(R264, R265, R290). -/
def servedByKennel (s : State) (op : BitVec 6) (pd : Fin 64) (index : Nat) : Bool :=
  match kennelHit s pd index with
  | some k =>
    decide (op = opRead ∨ op = opCtrUpdate ∨ op = opPolUpdate ∨ op = opCtrRead) ||
      (decide (op = opWrite) && decide (k.use = .counter))
  | none => false

/-- The places of the lines a request touches by address. -/
def placesTouched (s : State) (op : BitVec 6) (h : Hdr) : List Place :=
  (linesTouched op h).filterMap fun i => placeOf s (pdOf h) i

/-- The lines that a request touches by address at their channels. -/
def channelLines (s : State) (op : BitVec 6) (h : Hdr) : List Nat :=
  (linesTouched op h).filter fun i => !servedByKennel s op (pdOf h) i

/-- The row blocks that a table request reads or writes; an exact lookup that has read row b1 needs b2. -/
def tableBlocks (s : State) (j : Job) (r : Req) : List Nat :=
  let op := j.opcode
  let t := s.tables[tdOf r.hdr]
  if op = opLookupExact then
    let key := natAt r.payload 0 t.keyLen
    if j.began.isSome then [t.baseBlock + (keyHash t key).b2] else (exactSearch s (tdOf r.hdr) key j.arrived).2
  else if op = opLookupPrefix then (prefixSearch s (tdOf r.hdr) (natAt r.payload 0 t.keyLen)).2
  else if op = opTableUpdate then
    if t.prefixKind then (if auxF r.hdr 6 6 = 0 then [auxF r.hdr 36 12] else [])
    else
      let img := lineOf r.payload
      let h := keyHash t (entryKey t.keyLen img)
      let own := [t.baseBlock + h.b1, t.baseBlock + h.b2]
      if auxF r.hdr 5 4 = 0 ∧ (findEntry s t (entryKey t.keyLen img)).isNone then
        own ++ (insertPlan s t (imageEntry img 0) (stagedAt t.maxDisplace j.arrived)).2
      else own
  else []

/-- The rows of a table request that lie in the layers. -/
def tablePlaces (s : State) (j : Job) (r : Req) : List Place :=
  (tableBlocks s j r).filterMap fun b => blockPlace s (pdOf r.hdr) b

/-- The operations that write the lines they touch by address at their channels. -/
def writesLines (op : BitVec 6) : Bool := decide (op = opWrite ∨ op = opWriteMask) || atomicOps.contains op

/-- The tag line, counter line and nodes of a SEALED line that the reserve does not hold (R349); a write also puts its tag
line in a write queue (R346). -/
def pathPlaces (s : State) (write : Bool) (pd : Fin 64) (index : Nat) : List Place :=
  let d := index / granuleLines
  let page := index % granuleLines / 64
  [(0, index % granuleLines / 8), (1, page), (2, page / 8), (3, page / 64), (4, page / 512)].filterMap fun e =>
    if (sealHeld s pd d e.1 e.2).isSome && !(write && decide (e.1 = 0)) then none else metaPlace s pd d e.1 e.2

/-- The counter line of a SEALED line as it stands now. -/
def counterPeek (s : State) (pd : Fin 64) (d page : Nat) : Option Line :=
  match sealHeld s pd d 1 page with
  | some m => some m.data
  | none => (metaPlace s pd d 1 page).bind (linePeek s)

/-- The other data lines and tag lines of the page that a write of a SEALED line re-encrypts, its minor spent (R341). -/
def pagePlaces (s : State) (pd : Fin 64) (index : Nat) : List Place :=
  let d := index / granuleLines
  let page := index % granuleLines / 64
  match counterPeek s pd d page with
  | some c => if minorOf c (index % 64) < 126 then [] else (pageSpots s pd d page).filterMap id
  | none => []

/-- The Kennel slices that hold a dirty metadata line of the path of a SEALED line (R271, R349). -/
def pathSlices (s : State) (pd : Fin 64) (index : Nat) : List BlockId :=
  let d := index / granuleLines
  let page := index % granuleLines / 64
  [(1, page), (2, page / 8), (3, page / 64), (4, page / 512)].filterMap fun e =>
    match sealHeld s pd d e.1 e.2 with
    | some m => if m.dirty then some (BlockId.kennel (metaSlice pd d e.1 e.2)) else none
    | none => none

/-- The places at which a request needs its channels: its lines, its rows and their metadata. -/
def placesNeeded (s : State) (j : Job) (r : Req) : List Place :=
  let op := j.opcode
  let pd := pdOf r.hdr
  let lines := channelLines s op r.hdr
  let paths := if s.partitions[pd].mode = .sealed then
      ((lines ++ (tableBlocks s j r).map (32 * ·)).map (pathPlaces s (writesLines op) pd)).flatten ++
        (if writesLines op then (lines.map (pagePlaces s pd)).flatten else [])
    else []
  if unpartitionedOps.contains op then []
  else lines.filterMap (fun i => placeOf s pd i) ++ tablePlaces s j r ++ paths

/-- The crypto slices of a BUFFER partition's cells: that of its quarter, or all four. -/
def bufferCrypto (x : Partition) : List BlockId :=
  if x.chip then (List.finRange 4).map BlockId.crypto else [.crypto x.quarter]

/-- The Pointer slices of a table request: those of its rows and for an update its home slice, or with no row the slice
of the port's quarter (R194). -/
def pointerSlices (s : State) (j : Job) (r : Req) : List (Fin 4) :=
  let rows := (tablePlaces s j r).map placeQuarter
  if j.opcode = opTableUpdate then s.tables[tdOf r.hdr].home :: rows else if rows = [] then [j.port] else rows

/-- The blocks of the base die that a request needs (R20). -/
def blocksNeeded (s : State) (j : Job) (r : Req) : List BlockId :=
  let op := j.opcode
  let h := r.hdr
  let x := s.partitions[pdOf h]
  let queued := decide (op = opEnqueue ∨ op = opDequeue)
  let pls := placesTouched s op h
  let need := placesNeeded s j r
  let crypto := if x.mode = .plain then []
    else if queued then bufferCrypto x else need.map fun pl => BlockId.crypto (placeQuarter pl)
  let kennel := (linesTouched op h).filterMap fun i =>
    match kennelHeld s (pdOf h) i with
    | some k => if k.dirty then some (BlockId.kennel (kennelSlice k.set)) else none
    | none => none
  let lines := linesTouched op h ++ (tableBlocks s j r).map (32 * ·)
  let paths := if x.mode = .sealed then (lines.map (pathSlices s (pdOf h))).flatten else []
  let engine :=
    if op = opLookupExact ∨ op = opLookupPrefix ∨ op = opTableUpdate then (pointerSlices s j r).map BlockId.pointer
    else if queued ∨ op = opQueueQuery then [BlockId.bobbin (Fin.ofNat 4 (queueOf h / 65536))]
    else if op = opCtrUpdate ∨ op = opPolUpdate ∨ op = opCtrRead then pls.map fun pl => BlockId.counter (placeQuarter pl)
    else if op = opSkeinCopy ∨ op = opRowFill then [BlockId.copy]
    else []
  if unpartitionedOps.contains op then []
  else need.map (fun pl => BlockId.channel pl.channel) ++ crypto ++ kennel ++ paths ++ engine

/-- A needed block that is stopped in a quarter that serves: the request is held for it (R20). -/
def fenceHolds (s : State) (j : Job) (r : Req) : Bool :=
  (blocksNeeded s j r).any fun b =>
    blockStopped s b && (match quarterOf b with | some q => !quarterOut s q | none => true)

/-- A descriptor change waits at its quiesce point on what the request names (R42, R193). -/
def quiesceHolds (s : State) (op : BitVec 6) (h : Hdr) : Bool :=
  !unpartitionedOps.contains op &&
    (!s.partitions[pdOf h].pendingChanges.isEmpty ||
      (decide (op = opLookupExact ∨ op = opLookupPrefix ∨ op = opTableUpdate) && s.tables[tdOf h].valid && s.tables[tdOf h].quiescing))

/-- The port is in SWITCH or RECOVERY: its held requests wait (R99). -/
def linkHolds (s : State) (p : Fin 4) : Bool :=
  s.ports[p].link.session && decide (s.ports[p].phy.state ≠ .active)

/-- The gate of R282 that a request tests. -/
def gateSet (s : State) (op : BitVec 6) (h : Hdr) : Bool :=
  if op = opLookupExact ∨ op = opLookupPrefix then (List.finRange 4).any fun q => s.quarters[q].pointerGate
  else if op = opTableUpdate then s.quarters[s.tables[tdOf h].home].pointerGate
  else if op = opEnqueue ∨ op = opDequeue then s.quarters[(Fin.ofNat 4 (queueOf h / 65536) : Fin 4)].bobbinGate
  else
    match placesTouched s op h with
    | pl :: _ => s.channels[pl.channel].gate
    | [] => false

/-! ### Order (R55, R62, R162, R187, R211, R284) -/

/-- What the order of requests is kept for: a line of a partition, a table's commits, a queue's packets. -/
inductive OrderKey where
  | line (pd : Fin 64) (index : Nat)
  | table (td : Fin 16)
  | enqueue (queue : Nat)
  | dequeue (queue : Nat)
deriving DecidableEq, Repr

/-- The keys of a request: every line it touches by address or by row, and for an update its table, for a queue request
its queue. -/
def orderKeys (s : State) (j : Job) (r : Req) : List OrderKey :=
  let op := j.opcode
  let pd := pdOf r.hdr
  let rows := (tableBlocks s j r).map fun b => (List.range 32).map fun i => OrderKey.line pd (32 * b + i)
  (linesTouched op r.hdr).map (OrderKey.line pd) ++ rows.flatten ++
    (if op = opTableUpdate then [.table (tdOf r.hdr)]
     else if op = opEnqueue then [.enqueue (queueOf r.hdr)]
     else if op = opDequeue then [.dequeue (queueOf r.hdr)] else [])

def keysMeet (a b : List OrderKey) : Bool := a.any fun k => b.contains k

/-- Order at the port (R55, R62, R284): an earlier held request of the class, or one with a line, table or queue in
common. -/
def orderHolds (s : State) (earlier : List Held) (j : Job) (r : Req) : Bool :=
  earlier.any fun e =>
    decide (e.req.hdr.cls = r.hdr.cls) || keysMeet (orderKeys s e.job e.req) (orderKeys s j r)

/-! ### Scheduling (R160 to R163, R188) -/

/-- The rank of a request: its class, and 7 for a TABLE_UPDATE (R160, R188). -/
def jobRank (j : Job) : Nat := if j.opcode = opTableUpdate then 7 else j.cls

/-- est of R160 and R188 for a queued request: 40 ns for each skein it may still need, 8 ns for a write, and 55 or 85 ns
as its row is open or not. -/
def requestEst (s : State) (q : QueuedReq) : Nat :=
  if q.opcode = opLookupExact then (if q.job.began.isSome then 40 else 80)
  else if q.opcode = opLookupPrefix then 160
  else if q.opcode = opSkeinCopy then 80
  else if q.opcode = opRowFill then 40
  else if q.opcode = opWrite then 8
  else
    match placesTouched s q.opcode q.req.hdr with
    | pl :: _ => if s.channels[pl.channel].banks[pl.bank].openRow = some pl.row then 55 else 85
    | [] => 85

/-- Expiry less est of a job, the moment at which its slack is zero; a TABLE_UPDATE has no deadline inside the stack
(R160, R188). -/
def slackEnd (j : Job) (est : Nat) : Option Int :=
  if j.deadline = 0 ∨ j.opcode = opTableUpdate then none else some ((j.arrived + 16 * j.deadline : Nat) - (est : Nat))

/-- Whether a job's slack is below its channel's threshold now (R161). -/
def slackLow (s : State) (c : Fin 32) (j : Job) (est : Nat) : Bool :=
  let n := s.channels[c].slackThresholdNs
  match slackEnd j est with
  | some e => decide (n ≠ 0) && decide (e - (s.hubTimer : Nat) < (n : Nat))
  | none => false

/-- Panic in force on a port with a request queued in a controller (R131, R132, R161). -/
def panicTrigger (s : State) (c : Fin 32) : Bool :=
  (s.channels[c].requests).any fun r => panicInForce s.ports[r.job.port]

/-- A write that waits for room with its slack below the threshold (R161, R167). -/
def waitingLow (s : State) (c : Fin 32) : Bool := (s.channels[c].waiting).any fun w => slackLow s c w.job 8

/-- A trigger of R161 that holds now. -/
def fallbackTrigger (s : State) (c : Fin 32) : Bool :=
  panicTrigger s c || waitingLow s c || (s.channels[c].requests).any fun q => slackLow s c q.job (requestEst s q)

/-- The end of a trigger that held noted, before the change that ends it (R161). -/
def noteTrigger (c : Fin 32) (s : State) : State :=
  if s.channels[c].fallback && fallbackTrigger s c then modChannel c (fun x => { x with fallbackAt := s.hubTimer }) s
  else s

/-- `noteTrigger` for every channel, before a panic ends. -/
def noteTriggers (s : State) : State := (List.finRange 32).foldl (fun s c => noteTrigger c s) s

/-- A member of a list that no other beats, the first of equals. -/
def bestBy (better : QueuedReq → QueuedReq → Bool) : List QueuedReq → Option QueuedReq
  | [] => none
  | q :: qs =>
    match bestBy better qs with
    | some r => if better r q then some r else some q
    | none => some q

/-- Of two requests the older, by its unpacking and then by the hub's order (R158, R160). -/
def older (a b : QueuedReq) : Bool :=
  decide (a.job.arrived < b.job.arrived) ||
    (decide (a.job.arrived = b.job.arrived) && decide (a.job.order < b.job.order))

def oldest (qs : List QueuedReq) : Option QueuedReq := bestBy older qs

/-- A request whose first line in the channel hits an open row by a column command (R162). -/
def rowHit (s : State) (c : Fin 32) (q : QueuedReq) : Bool :=
  match (placesTouched s q.opcode q.req.hdr).find? fun pl => pl.channel = c with
  | some pl =>
    !decide (q.opcode = opSkeinCopy ∨ q.opcode = opRowFill) &&
      decide (s.channels[c].banks[pl.bank].openRow = some pl.row)
  | none => false

/-- A row hit of a bank whose streak has run out while an older request waits for another of its rows (R162). -/
def streakOver (s : State) (c : Fin 32) (qs : List QueuedReq) (q : QueuedReq) : Bool :=
  match (placesTouched s q.opcode q.req.hdr).find? fun pl => pl.channel = c with
  | some pl =>
    decide (s.channels[c].hitStreakMax ≤ s.channels[c].banks[pl.bank].hitStreak) &&
      qs.any fun o => older o q &&
        (placesNeeded s o.job o.req).any fun k => k.channel = c ∧ k.bank = pl.bank ∧ k.row ≠ pl.row
  | none => false

/-- The first CCLK in which the next command of a request in a channel meets every interval of R157, its bank's refresh
and its budget (R162, R164): its READ, the PRE of another open row, or its ACT. -/
def eligibleAt (s : State) (c : Fin 32) (q : QueuedReq) : Nat :=
  let x := creditChannel s.hubTimer s.channels[c]
  match (placesTouched s q.opcode q.req.hdr).find? fun pl => pl.channel = c with
  | none => s.hubTimer
  | some pl =>
    let b := pl.bank
    let k := x.banks[b]
    match k.openRow with
    | some row =>
      if row = pl.row then
        maxOf [budgetTime s x x.colBudget (64 * x.scalePct), after k.actAt 15, afterGroup x.lastCol b 2 1,
          after x.lastWriteEnd 5, after x.wakeAt 0]
      else maxOf [s.hubTimer, after k.actAt 33, after k.readAt 4, after k.writeEnd 15, after x.wakeAt 0]
    | none =>
      maxOf [budgetTime s x x.actBudget (16 * x.scalePct), after k.actAt 48, after k.preAt 15, after k.refAt 120,
        afterGroup x.lastAct b 4 2, afterFour x.acts, after x.wakeAt 0]

/-- The requests of a channel that are eligible in the first CCLK in which one is (R162). -/
def eligible (s : State) (c : Fin 32) (qs : List QueuedReq) : List QueuedReq :=
  let ts := qs.map (eligibleAt s c)
  let t := max s.hubTimer (ts.foldl min (ts.headD 0))
  qs.filter fun q => decide (eligibleAt s c q ≤ t)

/-- A request whose age has reached age_limit_ns of a channel (R163). -/
def pastAge (s : State) (c : Fin 32) (j : Job) : Bool := decide (j.arrived + s.channels[c].ageLimitNs ≤ s.hubTimer)

/-- The choice of R162 among the requests of a channel that are eligible in the first CCLK in which one is: the oldest past
age_limit_ns or promoted; in normal mode row hits, then the oldest; in fallback mode the lowest rank, in it the least
slack below the threshold, then row hits, then the oldest. -/
def pickRequest (s : State) (c : Fin 32) (all : List QueuedReq) : Option QueuedReq :=
  let x := s.channels[c]
  let qs := eligible s c all
  let aged := qs.filter fun q => q.promoted || pastAge s c q.job
  if aged ≠ [] then oldest aged
  else if !x.fallback then
    let hits := qs.filter fun q => rowHit s c q && !streakOver s c qs q
    if hits ≠ [] then oldest hits else oldest qs
  else
    let k := qs.filter fun q => qs.all fun o => decide (jobRank q.job ≤ jobRank o.job)
    let low := k.filter fun q => slackLow s c q.job (requestEst s q)
    let hits := k.filter (rowHit s c)
    if low ≠ [] then
      bestBy (fun a b =>
        decide ((slackEnd a.job (requestEst s a)).getD 0 < (slackEnd b.job (requestEst s b)).getD 0)) low
    else if hits ≠ [] then oldest hits
    else oldest k

/-! ### Waiting at a controller -/

/-- A channel that must leave self-refresh, or end a trim, before it serves (R174, R177, R480). -/
def channelAsleep (s : State) (c : Fin 32) : Bool :=
  decide (s.channels[c].state = .selfRefresh) || decide (s.channels[c].state = .trim)

/-- A channel at which a request waits: asleep, or in a drain that only promoted reads pass (R167). -/
def channelWaits (s : State) (j : Job) (c : Fin 32) : Bool :=
  let x := s.channels[c]
  channelAsleep s c ||
    (x.draining && decide (j.opcode ≠ opWrite) && !pastAge s c j)

/-- The places whose channels a request needs before it begins: an exact lookup that reads its rows in turn begins with
row b1 (R198). -/
def waitPlaces (s : State) (j : Job) (r : Req) : List Place :=
  if j.opcode = opLookupExact ∧ !stagedAt s.tables[tdOf r.hdr].parallelProbe j.arrived then (tablePlaces s j r).take 1
  else placesNeeded s j r

/-- The first channel of a request's places at which it waits. -/
def sleepingChannel (s : State) (j : Job) (r : Req) : Option (Fin 32) :=
  ((waitPlaces s j r).filter fun pl => !quarterOut s (placeQuarter pl)).findSome? fun pl =>
    if channelWaits s j pl.channel then some pl.channel else none

/-- An earlier request, or an earlier write that waits for room, with a line, table or queue in common: the channel it
waits in (R55, R158, R162, R168, R187, R211). -/
def earlierWaits (s : State) (j : Job) (r : Req) : Option (Fin 32) :=
  let keys := orderKeys s j r
  (List.finRange 32).find? fun c =>
    (s.channels[c].requests.any fun q =>
      decide (q.job.order < j.order) && keysMeet (orderKeys s q.job q.req) keys) ||
    s.channels[c].waiting.any fun w => decide (w.job.order < j.order) && keys.contains (.line w.pd w.address)

/-- The request queue of a channel holds 128 requests (R158). -/
def queueFull (s : State) (c : Fin 32) : Bool := decide (128 ≤ s.channels[c].requests.length)

/-- An exact lookup whose second row lies in a channel that it would wait in, and whose queue is full: it waits at its
first row's channel (R158, R198). -/
def secondFull (s : State) (j : Job) (r : Req) : Option (Fin 32) :=
  if j.opcode = opLookupExact ∧ j.began = none then
    match tablePlaces s j r with
    | [a, b] => if channelWaits s j b.channel && queueFull s b.channel then some a.channel else none
    | _ => none
  else none

/-- The channel in whose queue a request waits now. -/
def waitChannel (s : State) (j : Job) (r : Req) : Option (Fin 32) :=
  match sleepingChannel s j r with
  | some c => some c
  | none =>
    match secondFull s j r with
    | some c => some c
    | none => earlierWaits s j r

/-- A WRITE, whose lines may wait for room at a controller's input (R161, R167). -/
def waitsAtInput (j : Job) (r : Req) : Bool :=
  decide (j.opcode = opWrite) || (decide (j.opcode = opWriteMask) && decide (natAt r.payload 0 8 = 2 ^ 64 - 1))

/-- The hub holds a request for a channel whose request queue is full, and one for a channel whose write queue is full but
for a WRITE that finds the controller's input free (R158, R167). -/
def queueHolds (s : State) (j : Job) (r : Req) : Bool :=
  ((placesNeeded s j r).any fun pl =>
    queueFull s pl.channel ||
      (wqFull s pl.channel && !(waitsAtInput j r && s.channels[pl.channel].waiting.isEmpty))) ||
    (match waitChannel s { j with order := s.presented } r with
     | some c => queueFull s c
     | none => false)

/-- A gate as its input queue now stands: set at 75%, cleared at 50% (R282). -/
def gateNext (old : Bool) (n size : Nat) : Bool :=
  if n = 0 then false else if 3 * size ≤ 4 * n then true else if 2 * n ≤ size then false else old

/-- The requests that wait for a Pointer slice (R194). -/
def pointerQueue (s : State) (q : Fin 4) : Nat :=
  (s.channels.toList.map fun x => (x.requests.filter fun e =>
    decide (e.opcode = opLookupExact ∨ e.opcode = opLookupPrefix ∨ e.opcode = opTableUpdate) &&
      decide ((pointerSlices s e.job e.req).head? = some q)).length).foldl (· + ·) 0

/-- The DEQUEUEs that wait at a Bobbin slice (R237). -/
def bobbinQueue (s : State) (q : Fin 4) : Nat :=
  (s.queues.map fun e =>
    if e.1 / 65536 % 4 = q.val then (e.2.streams.filter fun t => !t.running).length else 0).foldl (· + ·) 0

/-- The gates of the engine slices set or cleared by their input queues (R282). -/
def watchGates (s : State) : State :=
  (List.finRange 4).foldl (fun s q => modQuarter q (fun x => { x with
    pointerGate := gateNext x.pointerGate (pointerQueue s q) Config.pointerInput
    bobbinGate := gateNext x.bobbinGate (bobbinQueue s q) Config.bobbinInput }) s) s

/-- A channel's request queue changed, and its gate with it (R282); a trigger of fallback that the change ends is
noted. -/
def setRequests (c : Fin 32) (q : List QueuedReq) (s : State) : State :=
  watchGates (modChannel c (fun x => { x with
    requests := q
    gate := if s.params.gateHigh ≤ q.length then true else if q.length ≤ s.params.gateLow then false else x.gate })
    (noteTrigger c s))

/-- A queue with a request in its place by the hub's order (R158). -/
def putQueued (q : QueuedReq) (qs : List QueuedReq) : List QueuedReq :=
  (qs.filter fun e => e.job.order < q.job.order) ++ q :: qs.filter fun e => !decide (e.job.order < q.job.order)

/-- A promotion by age counted (R163). -/
def countPromoted (c : Fin 32) (s : State) : State :=
  modChannel c (fun x => { x with promotedCount := sat32 x.promotedCount }) s

/-- The channel that promotes a request now: its age has reached the limit of the first channel it needs, and it is not
promoted yet (R163). -/
def promotes (s : State) (q : QueuedReq) : Option (Fin 32) :=
  match placesNeeded s q.job q.req with
  | pl :: _ => if !q.promoted && pastAge s pl.channel q.job then some pl.channel else none
  | [] => none

/-- A request presented to the controllers: it waits in a channel's queue, or is performed. One past age_limit_ns is
promoted as it comes (R163). -/
def present (perform : Perform) (q : QueuedReq) (s : State) : State :=
  match waitChannel s q.job q.req, promotes s q with
  | some c, some k =>
    setRequests c (putQueued { q with promoted := true } s.channels[c].requests) (countPromoted k s)
  | some c, none => setRequests c (putQueued q s.channels[c].requests) s
  | none, some k => perform q.job q.req (countPromoted k s)
  | none, none => perform q.job q.req s

/-- A request at the hub: numbered, and presented. -/
def toHub (perform : Perform) (j : Job) (r : Req) (s : State) : State :=
  present perform { opcode := j.opcode, req := r, job := { j with order := s.presented }, promoted := false }
    { s with presented := s.presented + 1 }

/-! ### Holding (R283, R286) -/

/-- The receive-buffer slots of a request: its header, and its payload as far as it has arrived. -/
def requestSlots (op : BitVec 6) (r : Req) : Nat := 1 + min (payloadSlots op r.hdr) ((r.payload.length + 15) / 16)

def heldSlots (p : Port) : Nat := (p.held.map fun e => requestSlots e.opcode e.req).foldl (· + ·) 0

/-- Device panic raised or cleared by the slots held (R286). -/
def panicCheck (p : Fin 4) (s : State) : State :=
  let x := s.ports[p]
  let n := heldSlots x
  if !x.devicePanic ∧ x.panicHigh ≤ n then
    raiseLimited 0x6013 1 p (fun _ => []) (modPort p (fun x => { x with devicePanic := true }) s)
  else if x.devicePanic ∧ n ≤ x.panicLow then
    raiseLimited 0x6014 1 p (fun _ => []) (modPort p (fun x => { x with devicePanic := false }) (noteTriggers s))
  else s

/-- Slots of a request freed in the receive buffer (R124). -/
def freeSlots (p : Fin 4) (n : Nat) (s : State) : State :=
  modLink p (fun l => { l with slotsFreed := l.slotsFreed + n, ackOwed := true }) s

/-! ### Admission -/

/-- The job of a request: its deadline, the class's target where it carries none (R288), and its charge. -/
def jobOf (s : State) (p : Fin 4) (op : BitVec 6) (r : Req) (arrived : Nat) : Job :=
  let c := s.ports[p].classes[Fin.ofNat 8 r.hdr.cls.toNat]
  { port := p, opcode := op, tag := r.hdr.tag, cls := r.hdr.cls.toNat,
    deadline := if r.hdr.deadline = 0 then (c.target + 15) / 16 else r.hdr.deadline.toNat,
    arrived := arrived, charge := chargeOf s op r, order := 0, began := none }

/-- The decision on a checked request, held or new, behind the earlier held requests of its port. -/
def decideRequest (s : State) (p : Fin 4) (earlier : List Held) (r : Req) (j : Job)
    (passGate : Bool) : Verdict :=
  let c := refillClass s.hubTimer s.ports[p].classes[Fin.ofNat 8 r.hdr.cls.toNat]
  if linkHolds s p then .hold .link
  else if orderHolds s earlier j r then .hold .order
  else if fenceHolds s j r then .hold .fence
  else if queueHolds s j r then .hold .queueFull
  else
    chargeClass c j.charge
      (gateSet s j.opcode r.hdr && !passGate && decide (s.hubTimer < j.arrived + 1000 * s.params.holdPromoteUs))

/-- A request kept at its port (R283, R286). -/
def holdRequest (p : Fin 4) (h : Held) (s : State) : State :=
  modClass p (Fin.ofNat 8 h.req.hdr.cls.toNat)
    (fun c => { c with windowCeiling := c.windowCeiling || decide (h.reason = .ceiling) })
    (modPort p (fun x => { x with held := x.held ++ [h] }) s)

/-- A fence: it waits for every request received before it, and holds back nothing (R61). -/
def isFence (op : BitVec 6) (r : Req) : Bool := decide (op = opNop) && decide (auxF r.hdr 0 0 = 1)

/-- A request evaluated at its port, new or held: held at a quiesce point before any check, checked against the
descriptor it will run under, and then passed to the hub or held (R42, R43, R281). -/
def evaluate (perform : Perform) (p : Fin 4) (h : Held) (s : State) : State :=
  let free (s : State) : State := freeSlots p (requestSlots h.opcode h.req) s
  if quiesceHolds s h.opcode h.req.hdr then holdRequest p { h with reason := .quiesce } s
  else
    match checkRequest s p h.opcode h.req with
    | some st => completeWith { h.job with charge := 0 } st (free s)
    | none =>
      if isFence h.opcode h.req then perform h.job h.req (free s)
      else
        match decideRequest s p s.ports[p].held h.req h.job h.passGate with
        | .pass c => toHub perform h.job h.req (free (modClass p (Fin.ofNat 8 h.req.hdr.cls.toNat) (fun _ => c) s))
        | .hold why => holdRequest p { h with reason := why } s

/-- A request unpacked at a port that does not serve requests is ignored (R107, R125, R140). -/
def portServes (s : State) (p : Fin 4) : Bool :=
  portLive s p && decide (s.ports[p].partnerState = .attached) && !s.ports[p].draining && decide (s.ports[p].partner.role = 0)

/-- A tag is outstanding until the completion with last = 1 for it has been sent (R50). -/
def tagOutstanding (x : Port) (tag : BitVec 14) : Bool :=
  (x.outstanding.any fun e => e.1 = tag) || x.sending.any fun e => e.1 = some tag

/-- A request unpacked at its port: a duplicate tag, a failed check, or admission. -/
def ingress (perform : Perform) (p : Fin 4) (op : BitVec 6) (r : Req) (s : State) : State :=
  let x := s.ports[p]
  if !portServes s p then
    let s := freeSlots p (requestSlots op r) s
    if x.draining then s else raise 0x103A 1 p [] s
  else if tagOutstanding x r.hdr.tag then
    let s := modPort p (fun x => { x with dupTags := x.dupTags + 1 }) (freeSlots p (requestSlots op r) s)
    let s := raiseLimited 0x103B 1 p (fun n => [itCount n]) s
    handOver p
      { opcode := op, tag := r.hdr.tag, status := .unsupported, last := true, dupTag := true, kennel := false,
        late := false, result := 0, data := [] } s
  else
    let s := modPort p (fun x => { x with outstanding := x.outstanding ++ [(r.hdr.tag, r.hdr.cls.toNat)] }) s
    panicCheck p (evaluate perform p
      { opcode := op, req := r, job := jobOf s p op r s.hubTimer, reason := .order, passGate := false } s)

/-- A request received from the partner: its slots enter the receive buffer, and it is unpacked. A port whose receivers are
off receives nothing (R107). -/
def receive (perform : Perform) (p : Fin 4) (op : BitVec 6) (r : Req) (s : State) : State :=
  if !portLive s p then s
  else ingress perform p op r (modLink p (fun l => { l with slotsTaken := l.slotsTaken + requestSlots op r }) s)

end Sys2Proof.Machine
end

