-- ==== Sys2Proof/Machine/Transactions.lean ====
section
/-! DEFINITION. QTL requests on memory: NOP and its fence, READ, WRITE, WRITE_MASK, the atomics, SKEIN_COPY, ROW_FILL and
reserved opcodes (R32 to R39, R55 to R61, R189, R190, R268, R269, R313). -/

namespace Sys2Proof.Machine

open Sys2Proof

/-! ### NOP and fences -/

/-- NOP: complete at once, or with fence = 1 once every request received earlier on the port has sent its completion
(R61). A fence is performed as it is received. -/
def performNop : Perform := fun j r s =>
  let x := s.ports[j.port]
  let waits := ((x.outstanding.map (·.1)).filter (· ≠ j.tag)) ++ x.sending.filterMap (·.1)
  if auxF r.hdr 0 0 = 1 ∧ waits ≠ [] then
    modPort j.port (fun p => { p with fences := p.fences ++ [{ job := j, waits := waits }] }) s
  else completeWith j .ok s

def execNop (p : Fin 4) (r : Req) (s : State) : Out := .next (receive performNop p opNop r s)

/-- A fence whose earlier requests have all completed sends its completion (R61). -/
def fenceDone (p : Fin 4) (tag : BitVec 14) (s : State) : State :=
  match s.ports[p].fences.find? (fun f => f.job.tag = tag ∧ f.waits = []) with
  | some f =>
    completeWith f.job .ok (modPort p (fun x => { x with fences := x.fences.eraseP (fun g => g.job.tag = tag) }) s)
  | none => s

def execFenceComplete (p : Fin 4) (tag : BitVec 14) (s : State) : Out := .next (fenceDone p tag s)

/-! ### READ -/

/-- What a run of line reads has found: the data, the first failure in address order, and whether the Kennel served
every line (R45, R59). -/
structure Reading where
  data : List Byte
  failed : Option (QStatus × Bool)
  kennel : Bool
  /-- A line was served without caching (R301). -/
  uncached : Bool := false
deriving DecidableEq, Repr

/-- Lines read in address order for a port's request. -/
def readLines (who : Requester) (owner : Option Nat) (pd : Fin 64) : List Nat → Reading → State → Reading × State
  | [], acc, s => (acc, s)
  | i :: is, acc, s =>
    match hostRead who owner pd i s with
    | (.data l, hit, s) =>
      readLines who owner pd is
        { acc with data := acc.data ++ lineBytes l, kennel := acc.kennel && hit
                   uncached := acc.uncached ||
                     (decide (s.partitions[pd].ptype ≠ .counter) && Sys2Proof.Machine.uncached s pd i) } s
    | (.fail st iso, _, s) =>
      readLines who owner pd is
        { acc with failed := (match acc.failed with | some f => some f | none => some (st, iso)), kennel := false } s

/-- The port-class of a job, as the Kennel numbers it. -/
def ownerOf (j : Job) : Nat := 8 * j.port.val + j.cls

/-- READ (R32, R47, R59). -/
def performRead : Perform := fun j r s =>
  let res := readLines (.port j.port) (some (ownerOf j)) (pdOf r.hdr) (linesTouched opRead r.hdr)
    { data := [], failed := none, kennel := true } s
  let s := if res.1.uncached then countKennelMiss res.2 (pdOf r.hdr) (some (ownerOf j)) else res.2
  match res.1.failed with
  | some (st, iso) => completeAs j st iso false 0 [] s
  | none => completeAs j .ok false res.1.kennel 0 res.1.data s

def execRead (p : Fin 4) (r : Req) (s : State) : Out := .next (receive performRead p opRead r s)

/-! ### WRITE -/

/-- A line of a WRITE into a policer region: the stack sets `last` in both records (R260). -/
def policerImage (s : State) (x : Partition) (index : Nat) (l : Line) : Line :=
  if x.ptype = .counter ∧ inPolicerRegion x (64 * index) then
    let now := s.hubTimer / 16 % 2 ^ 40
    linePut (linePut l 80 40 now) 336 40 now
  else l

/-- Whether a line's write must wait at its controller's input for room (R21, R179). -/
def writeWaits (s : State) (pd : Fin 64) (index : Nat) : Option (Fin 32) :=
  match kennelHeld s pd index, placeOf s pd index with
  | some k, some pl =>
    if k.use ≠ .counter ∧ wqFull s pl.channel ∧ (wqEntry s pl).isNone then some pl.channel else none
  | none, some pl => if wqFull s pl.channel ∧ (wqEntry s pl).isNone then some pl.channel else none
  | _, none => none

/-- A line of a WRITE at its controller's input; one with its slack below the threshold starts a drain in fallback mode
(R161, R167). -/
def awaitRoom (c : Fin 32) (w : WaitingWrite) (s : State) : State :=
  modChannel c (fun x => { x with
    waiting := x.waiting ++ [w]
    draining := x.draining || (x.fallback && slackLow s c w.job 8) }) s

/-- The lines of a WRITE: each enters its write queue or waits for room. The answer is how many wait and the first
failure. -/
def writeLines (j : Job) (pd : Fin 64) : List (Nat × Line) → Nat → Option (QStatus × Bool) → State →
    Nat × Option (QStatus × Bool) × State
  | [], n, f, s => (n, f, s)
  | (i, l) :: ls, n, f, s =>
    let out := match writeWaits s pd i with
      | some c => if quarterOut s (Fin.ofNat 4 (c.val / 8)) then none else some c
      | none => none
    match out with
    | some c =>
      writeLines j pd ls (n + 1) f (awaitRoom c { job := j, pd := pd, address := i, data := l } s)
    | none =>
      match hostWrite (.port j.port) pd i (policerImage s s.partitions[pd] i l) s with
      | (none, s) => writeLines j pd ls n f s
      | (some e, s) => writeLines j pd ls n (match f with | some g => some g | none => some e) s

/-- A WRITE once none of its lines waits: complete, with the first failure if any (R59). -/
def writeOutcome (j : Job) (n : Nat) (f : Option (QStatus × Bool)) (s : State) : State :=
  if n ≠ 0 then
    let e := f.getD (.ok, false)
    modPort j.port (fun p => { p with
      openWrites := p.openWrites ++ [{ job := j, remaining := n, status := e.1, isolated := e.2 }] }) s
  else
    match f with
    | some (st, iso) => completeAs j st iso false 0 [] s
    | none => completeWith j .ok s

/-- WRITE (R21, R32, R59). -/
def performWrite : Perform := fun j r s =>
  let is := linesTouched opWrite r.hdr
  let ls := is.mapIdx fun k i => (i, lineOf (bytesAt r.payload (64 * k) 64))
  let out := writeLines j (pdOf r.hdr) ls 0 none s
  writeOutcome j out.1 out.2.1 out.2.2

def execWrite (p : Fin 4) (r : Req) (s : State) : Out := .next (receive performWrite p opWrite r s)

/-- A line of an open WRITE settled: the request completes with its last line. -/
def settleLine (j : Job) (st : QStatus) (isolated : Bool) (s : State) : State :=
  match s.ports[j.port].openWrites.find? (fun o => o.job = j) with
  | none => s
  | some o =>
    let status := if o.status = .ok then st else o.status
    let iso := if o.status = .ok then isolated else o.isolated
    let rest (l : List OpenWrite) : List OpenWrite := l.eraseP fun x => x.job = j
    if o.remaining ≤ 1 then
      completeAs j status iso false 0 [] (modPort j.port (fun p => { p with openWrites := rest p.openWrites }) s)
    else
      modPort j.port (fun p => { p with
        openWrites :=
          rest p.openWrites ++ [{ o with
            remaining := o.remaining - 1, status := status, isolated := iso }] }) s

/-! ### Read-modify-writes -/

/-- A read-modify-write of one line: the request's status on failure, or the new line written and `done` of the old
(R165, R269). -/
def updateLine (who : Requester) (pd : Fin 64) (index : Nat) (half : State → LineResult × State) (f : Line → Line)
    (s : State) : LineResult × State :=
  match half s with
  | (.fail st iso, s) => (.fail st iso, s)
  | (.data old, s) =>
    match partitionWrite who pd index (f old) s with
    | (none, s) => (.data old, s)
    | (some e, s) => (.fail e.1 e.2, s)

/-- The bytes of a mask merged into a line (R39). -/
def mergeMask (mask : Nat) (new old : Line) : Line :=
  lineOf ((List.range 64).map fun i =>
    if mask.testBit i then (lineBytes new).getD i 0 else (lineBytes old).getD i 0)

/-- WRITE_MASK (R39, R313, R344). -/
def performWriteMask : Perform := fun j r s =>
  let pd := pdOf r.hdr
  let i := r.hdr.address.toNat / 64
  let mask := natAt r.payload 0 8
  let image := lineOf (bytesAt r.payload 16 64)
  if mask = 2 ^ 64 - 1 then
    let out := writeLines j pd [(i, image)] 0 none s
    writeOutcome j out.1 out.2.1 out.2.2
  else
    match updateLine (.port j.port) pd i (halfRead (.port j.port) pd i) (mergeMask mask image) s with
    | (.data old, s) =>
      completeWith j .ok (match kennelHit s pd i with
        | some k => kennelUpdate k (mergeMask mask image old) false s
        | none => kennelDrop pd i s)
    | (.fail st iso, s) => completeAs j st iso false 0 [] s

def execWriteMask (p : Fin 4) (r : Req) (s : State) : Out := .next (receive performWriteMask p opWriteMask r s)

/-- The new line of an atomic on the word at a byte offset (R38). -/
def atomicLine (op : BitVec 6) (off : Nat) (a b : Nat) (old : Line) : Line :=
  let w := lineGet old (8 * off) 64
  if op = opAtomAdd ∨ op = opAtomFadd then linePut old (8 * off) 64 (w + a)
  else if op = opAtomSwap then linePut old (8 * off) 64 a
  else if op = opAtomCas then (if w = a then linePut old (8 * off) 64 b else old)
  else linePut (linePut old (8 * off) 64 (w + a)) (8 * off + 64) 64 (lineGet old (8 * off + 64) 64 + b)

/-- An atomic: a read-modify-write at the channel controller; a Kennel copy is invalidated before the completion
(R268). -/
def performAtomic (op : BitVec 6) : Perform := fun j r s =>
  let pd := pdOf r.hdr
  let i := r.hdr.address.toNat / 64
  let off := r.hdr.address.toNat % 64
  let who := Requester.port j.port
  match updateLine who pd i (partitionRead who pd i)
      (atomicLine op off (natAt r.payload 0 8) (natAt r.payload 8 8)) s with
  | (.data old, s) =>
    let result : Word :=
      if op = opAtomAdd ∨ op = opAtomPadd then 0 else BitVec.ofNat 64 (lineGet old (8 * off) 64)
    complete j .ok result [] (kennelDrop pd i s)
  | (.fail st iso, s) => completeAs j st iso false 0 [] s

def execAtomAdd (p : Fin 4) (r : Req) (s : State) : Out := .next (receive (performAtomic opAtomAdd) p opAtomAdd r s)

def execAtomFadd (p : Fin 4) (r : Req) (s : State) : Out := .next (receive (performAtomic opAtomFadd) p opAtomFadd r s)

def execAtomSwap (p : Fin 4) (r : Req) (s : State) : Out := .next (receive (performAtomic opAtomSwap) p opAtomSwap r s)

def execAtomCas (p : Fin 4) (r : Req) (s : State) : Out := .next (receive (performAtomic opAtomCas) p opAtomCas r s)

def execAtomPadd128 (p : Fin 4) (r : Req) (s : State) : Out :=
  .next (receive (performAtomic opAtomPadd) p opAtomPadd r s)

/-! ### Whole rows -/

/-- The row blocks of a SKEIN_COPY or ROW_FILL from a byte address (R189). -/
def blockList (address count : Nat) : List Nat := (List.range count).map (address / 2048 + ·)

/-- A row block read by SKRD. -/
def blockRead (who : Requester) (pd : Fin 64) (block : Nat) (s : State) : List (Option Line) × State :=
  match blockPlace s pd block with
  | some pl => rowRead { who := who, address := 64 * stackLine s pd (32 * block) } pl.channel pl.bank pl.row s
  | none => (List.replicate 32 none, s)

/-- A row block written by one SKWR; its Kennel lines are invalidated (R187). -/
def blockWrite (pd : Fin 64) (block : Nat) (image : List (Option Line)) (s : State) : State :=
  match blockPlace s pd block with
  | some pl => kennelDropBlock pd block (rowWriteBoth pl image s)
  | none => s

def countCopied (s : State) : State := modParams (fun p => { p with copyBlocks := p.copyBlocks + 1 }) s

/-- Blocks copied in ascending order; the answer carries the first bad source address (R190). -/
def copyBlocksLoop (who : Requester) (pd : Fin 64) : List (Nat × Nat) → Option Nat → State → Option Nat × State
  | [], bad, s => (bad, s)
  | (src, dst) :: bs, bad, s =>
    let r := blockRead who pd src s
    let bad' := match bad with
      | some a => some a
      | none => ((List.range 32).find? fun i => (r.1.getD i none).isNone).map fun i => 2048 * src + 64 * i
    copyBlocksLoop who pd bs bad' (countCopied (blockWrite pd dst r.1 r.2))

/-- SKEIN_COPY (R189, R190). -/
def performSkeinCopy : Perform := fun j r s =>
  let pd := pdOf r.hdr
  let n := auxF r.hdr 47 36 + 1
  let srcs := blockList (auxF r.hdr 35 0) n
  let dsts := blockList r.hdr.address.toNat n
  match (srcs ++ dsts).find? fun b => blockLost s pd b with
  | some b => completeAs j (lostEnd s pd b).1 (lostEnd s pd b).2 false 0 [] s
  | none =>
    match copyBlocksLoop (.port j.port) pd (srcs.zip dsts) none s with
    | (some a, s) => completeWith j .dataError (raise 0x3014 12 0 [itAddress a] s)
    | (none, s) => completeWith j .ok s

def execSkeinCopy (p : Fin 4) (r : Req) (s : State) : Out := .next (receive performSkeinCopy p opSkeinCopy r s)

/-- ROW_FILL: four copies of the pattern in every line of every block (R189). -/
def performRowFill : Perform := fun j r s =>
  let pd := pdOf r.hdr
  let pat := bytesAt r.payload 0 16
  let line := lineOf (pat ++ pat ++ pat ++ pat)
  let dsts := blockList r.hdr.address.toNat (auxF r.hdr 11 0 + 1)
  match dsts.find? fun b => blockLost s pd b with
  | some b => completeAs j (lostEnd s pd b).1 (lostEnd s pd b).2 false 0 [] s
  | none =>
    completeWith j .ok
      (dsts.foldl (fun s b => countCopied (blockWrite pd b (List.replicate 32 (some line)) s)) s)

def execRowFill (p : Fin 4) (r : Req) (s : State) : Out := .next (receive performRowFill p opRowFill r s)

/-! ### Reserved opcodes -/

/-- A reserved opcode has no payload slots and completes UNSUPPORTED (R33, R35). -/
def performReserved : Perform := fun j _ s => completeWith j .unsupported s

def execReservedOpcode (p : Fin 4) (op : BitVec 6) (r : Req) (s : State) : Out :=
  .next (receive performReserved p op r s)

end Sys2Proof.Machine
end

