-- ==== Sys2Proof/Machine/Pointer.lean ====
section
/-! DEFINITION. Requests of the Pointer slices: LOOKUP_EXACT, LOOKUP_PREFIX and TABLE_UPDATE, their reads of rows and the
commits of their writes (R194 to R214). -/

namespace Sys2Proof.Machine

open Sys2Proof

/-! ### Poisoned slots (R214) -/

/-- TABLE_POISONED_SLOT for the bad lines of a row not reported before: kind 0 bucket slot, 1 node slot. -/
def reportBad (td : Fin 16) (block : Nat) (row : List (Option Line)) (s : State) : State :=
  (List.range 32).foldl (fun s i =>
    let t := s.tables[td]
    if (row.getD i none).isNone ∧ !t.reported.contains (block, i) then
      raise 0x3012 16 td
        [itReason (boolNat t.prefixKind), itCount (if t.prefixKind then block else block - t.baseBlock), itLine i]
        (modTable td (fun t => { t with reported := t.reported ++ [(block, i)] }) s)
    else s) s

/-- TABLE_POISONED_SLOT for an uncorrectable directory entry not reported before: kind 2. -/
def reportDirectory (td : Fin 16) (i : Nat) (s : State) : State :=
  let t := s.tables[td]
  if t.reported.contains (i, 32) then s
  else
    raise 0x3012 16 td [itReason 2, itCount (i - t.dirBase), itLine 0]
      (modTable td (fun t => { t with reported := t.reported ++ [(i, 32)] }) s)

/-- The rows a table request reads, with the effects of each read. -/
def readRows (who : Requester) (td : Fin 16) (blocks : List Nat) (s : State) : State :=
  blocks.foldl (fun s b =>
    let r := blockRead who s.tables[td].partition b s
    reportBad td b r.1 r.2) s

/-! ### Lookups -/

/-- The result and data of an exact hit (R199). -/
def exactResult (stash second : Bool) (slot : Nat) (e : Line) : Word × List Byte :=
  (BitVec.ofNat 64 (1 + 2 * boolNat stash + 4 * boolNat second + slot * 2 ^ 3 + entryFlags e * 2 ^ 8 +
     entryGen e * 2 ^ 24),
   natToBytes 16 (entryResult e))

/-- An exact lookup with what it found, completed (R198 to R200). -/
def lookupEnd (j : Job) (td : Fin 16) (key : Nat) (found : Found) (s : State) : State :=
  let t := s.tables[td]
  let h := keyHash t key
  let hit (second stash : Bool) (slot : Nat) (e : Line) (s : State) : State :=
    let res := exactResult stash second slot e
    complete j .ok res.1 res.2 s
  let failed (st : QStatus) (isolated : Bool) : State :=
    completeAs j st isolated false 0 [] (modTable td (fun t => { t with dataErrors := sat32 t.dataErrors }) s)
  match found with
  | .kennel e =>
    let s := match kennelHeld s t.partition (32 * (t.baseBlock + h.b1) + h.slot) with
      | some k => kennelTouch k s
      | none => s
    hit false false h.slot e (modTable td (fun t => { t with kennelHits := t.kennelHits + 1 }) s)
  | .bucket second slot e =>
    let s :=
      if stagedAt t.kennelProbe j.arrived ∧ !second ∧ slot = h.slot then
        kennelInstallFor t.partition (32 * (t.baseBlock + h.b1) + slot) e false .probe (some (ownerOf j)) s
      else s
    hit second false slot e s
  | .stash e => hit false true 0 e s
  | .miss => complete j .ok 0 [] s
  | .bad => failed .dataError false
  | .lost b => failed (lostEnd s t.partition b).1 (lostEnd s t.partition b).2

/-- The second half of an exact lookup that had read row b1: row b2 and the stash. One that finds no match re-runs once,
whole, if a commit since its first read touched what it searched (R212). -/
def lookupSecond (j : Job) (td : Fin 16) (key : Nat) (seq : BitVec 32) (firstBad : Bool) (s : State) : State :=
  let t := s.tables[td]
  let who := Requester.port j.port
  let found := secondSearch s td key firstBad
  let s := match found with
    | .lost _ => s
    | _ => readRows who td [t.baseBlock + (keyHash t key).b2] s
  if (found = .miss ∨ found = .bad) ∧ commitsTouch t key seq then
    let again := exactSearch s td key j.arrived
    lookupEnd j td key again.1 (readRows who td again.2 (modTable td (fun t => { t with retries := sat32 t.retries }) s))
  else lookupEnd j td key found s

/-- LOOKUP_EXACT (R198, R212): where row b2 is needed and its channel does not serve, row b1 is read and the lookup waits
there. -/
def performLookupExact : Perform := fun j r s =>
  let td := tdOf r.hdr
  let t := s.tables[td]
  let key := natAt r.payload 0 t.keyLen
  let h := keyHash t key
  let who := Requester.port j.port
  match j.began with
  | some (seq, bad) => lookupSecond j td key seq bad s
  | none =>
    let found := exactSearch s td key j.arrived
    let s := modTable td (fun t => { t with lookups := t.lookups + 1 }) s
    let waits := match blockPlace s t.partition (t.baseBlock + h.b2) with
      | some pl =>
        if found.2 = [t.baseBlock + h.b1, t.baseBlock + h.b2] ∧ !stagedAt t.parallelProbe j.arrived ∧
          channelWaits s j pl.channel then some pl.channel else none
      | none => none
    match waits with
    | some c =>
      let bad := (blockPeek s t.partition (t.baseBlock + h.b1)).contains none
      let s := readRows who td [t.baseBlock + h.b1] s
      setRequests c (putQueued { opcode := opLookupExact, req := r, job := { j with began := some (t.commitSeq, bad) }
                                 promoted := match blockPlace s t.partition (t.baseBlock + h.b1) with
                                   | some pl => pastAge s pl.channel j
                                   | none => false } s.channels[c].requests) s
    | none => lookupEnd j td key found.1 (readRows who td found.2 s)

def execLookupExact (p : Fin 4) (r : Req) (s : State) : Out := .next (receive performLookupExact p opLookupExact r s)

/-- LOOKUP_PREFIX (R207, R208). -/
def performLookupPrefix : Perform := fun j r s =>
  let td := tdOf r.hdr
  let t := s.tables[td]
  let found := prefixSearch s td (natAt r.payload 0 t.keyLen)
  let rows := found.2.length
  let s := readRows (.port j.port) td found.2 (modTable td (fun t => { t with lookups := t.lookups + 1 }) s)
  let failed (st : QStatus) (isolated : Bool) (s : State) : State :=
    completeAs j st isolated false 0 [] (modTable td (fun t => { t with dataErrors := sat32 t.dataErrors }) s)
  match found.1 with
  | .directory d =>
    complete j .ok (BitVec.ofNat 64 (3 + bitsOf d.toNat 9 2 * 2 ^ 8))
      (natToBytes 6 (bitsOf d.toNat 63 16) ++ List.replicate 10 0) s
  | .node best cut =>
    let s :=
      if cut then
        raiseLimited 0x3013 16 td (fun _ => []) (modTable td (fun t => { t with depthCuts := sat32 t.depthCuts }) s)
      else s
    match best with
    | none => complete j .ok (BitVec.ofNat 64 (4 * boolNat cut + rows * 2 ^ 3)) [] s
    | some e =>
      complete j .ok
        (BitVec.ofNat 64 (1 + 4 * boolNat cut + rows * 2 ^ 3 + nodeLength e * 2 ^ 8 + lineGet e 320 16 * 2 ^ 16))
        (natToBytes 16 (lineGet e 192 128)) s
  | .bad => failed .dataError false s
  | .lost b => failed (lostEnd s t.partition b).1 (lostEnd s t.partition b).2 s
  | .directoryBad i => failed .dataError false (reportDirectory td i s)

def execLookupPrefix (p : Fin 4) (r : Req) (s : State) : Out := .next (receive performLookupPrefix p opLookupPrefix r s)

/-! ### Commits (R202, R211) -/

/-- A committed write counted, with its target in the ring of the last 16 (R211, R212). -/
def commitCount (td : Fin 16) (target : Target) (s : State) : State :=
  modTable td (fun t => { t with commitSeq := t.commitSeq + 1, ring := (target :: t.ring).take 16 }) s

/-- A row, read before, rewritten by one SKWR with some slots changed; bad slots keep the poison pattern (R214). -/
def commitRow (td : Fin 16) (block : Nat) (f : Nat → Option Line → Option Line) (s : State) : State :=
  let pd := s.tables[td].partition
  let row := blockPeek s pd block
  commitCount td (.row block) (blockWrite pd block ((List.range 32).map fun i => f i (row.getD i none)) s)

/-- TABLE_STASH_HIGH as the stash count passes 3,072, again only after it has fallen below 2,048 (R203). -/
def stashWatch (td : Fin 16) (s : State) : State :=
  let t := s.tables[td]
  if 3072 < t.stashCount ∧ !t.stashHigh then raise 0x3010 16 td [] (modTable td (fun t => { t with stashHigh := true }) s)
  else if t.stashCount < 2048 ∧ t.stashHigh then modTable td (fun t => { t with stashHigh := false }) s
  else s

/-- A stash set written (R211). -/
def commitStash (td : Fin 16) (set : Nat) (es : List Line) (s : State) : State :=
  let old := (sparseGet [] s.tables[td].stash set).length
  stashWatch td (commitCount td (.stash set) (modTable td (fun t => { t with
    stash := sparsePut [] t.stash set es, stashCount := t.stashCount + es.length - old }) s))

/-- One planned write committed. -/
def commitWrite (td : Fin 16) (w : TableWrite) (s : State) : State :=
  match w with
  | .row block slot e => commitRow td block (fun i l => if i = slot then some e else l) s
  | .stash e =>
    let t := s.tables[td]
    let set := (keyHash t (entryKey t.keyLen e)).stashSet
    commitStash td set (sparseGet [] t.stash set ++ [e]) s

/-- Moves commit from the last to the first (R202). -/
def commitMoves (td : Fin 16) (ws : List TableWrite) (s : State) : State :=
  ws.reverse.foldl (fun s w => commitWrite td w s) s

/-! ### Exact updates -/

/-- The result of an exact update (R204). -/
def updateResult (changed existed mismatch stashed : Bool) (displaced gen : Nat) : Word :=
  BitVec.ofNat 64 (boolNat changed + 2 * boolNat existed + 4 * boolNat mismatch + 8 * boolNat stashed +
    displaced * 2 ^ 4 + gen * 2 ^ 8)

/-- An entry replaced or removed where it stands. -/
def replaceEntry (td : Fin 16) (key : Nat) (place : Option (Nat × Nat)) (e : Option Line) (s : State) :
    State :=
  match place with
  | some (block, slot) => commitRow td block (fun i l => if i = slot then some (e.getD 0) else l) s
  | none =>
    let t := s.tables[td]
    let set := (keyHash t key).stashSet
    let es := (sparseGet [] t.stash set).filterMap fun x => if entryKey t.keyLen x = key then e else some x
    commitStash td set es s

/-- The first stashed entry, in stash order, whose pair of buckets includes `b` (R203). -/
def stashCandidate (t : Table) (b : Nat) : Option (Nat × Line) :=
  t.stash.findSome? fun se =>
    (se.2.find? fun e =>
      let h := keyHash t (entryKey t.keyLen e)
      h.b1 == b || h.b2 == b).map fun e => (se.1, e)

/-- STASH_MOVE: the freed slot of a bucket takes a stashed entry, destination first (R203). -/
def stashMove (td : Fin 16) (block slot : Nat) (s : State) : State :=
  let t := s.tables[td]
  match stashCandidate t (block - t.baseBlock) with
  | none => s
  | some (set, e) =>
    let s := commitWrite td (.row block slot e) s
    commitStash td set ((sparseGet [] s.tables[td].stash set).filter (· ≠ e)) s

def setEntryCount (td : Fin 16) (n : Nat) (s : State) : State := modTable td (fun t => { t with entryCount := n }) s

/-- A FULL update counted, with TABLE_FULL at most once a second with its count (R201, R209, R210, R220, R221). -/
def tableFull (j : Job) (td : Fin 16) (s : State) : State :=
  completeWith j .full (raiseLimited 0x3011 16 td (fun n => [itCount n])
    (modTable td (fun t => { t with fullCount := sat32 t.fullCount }) s))

/-- The first of some row blocks that nothing can read. -/
def firstLost (s : State) (pd : Fin 64) (blocks : List Nat) : Option Nat := blocks.find? fun b => blockLost s pd b

/-- An update that meets a lost row ends with no change (R155, R216). -/
def updateLost (j : Job) (pd : Fin 64) (block : Nat) (s : State) : State :=
  completeAs j (lostEnd s pd block).1 (lostEnd s pd block).2 false 0 [] s

/-- An insert of R201. -/
def exactInsert (j : Job) (td : Fin 16) (img : Line) (noOverwrite : Bool) (s : State) : State :=
  let t := s.tables[td]
  let key := entryKey t.keyLen img
  let new := imageEntry img 0
  match findEntry s t key with
  | some (place, old) =>
    if noOverwrite then complete j .ok (updateResult false true false false 0 (entryGen old)) [] s
    else
      let gen := (entryGen old + 1) % 65536
      complete j .ok (updateResult true true false false 0 gen) []
        (replaceEntry td key place (some (imageEntry img gen)) s)
  | none =>
    if t.entryCount = 2 ^ (t.bucketLog2 + 5) ∨ t.entryCount = 268435456 then tableFull j td s
    else
      let plan := insertPlan s t new (stagedAt t.maxDisplace j.arrived)
      match firstLost s t.partition plan.2 with
      | some b => updateLost j t.partition b s
      | none =>
        let s := readRows (.port j.port) td plan.2 s
        match plan.1 with
        | none => tableFull j td s
        | some (moves, n) =>
          let stashed := moves.any fun w => match w with | .stash _ => true | .row _ _ _ => false
          complete j .ok (updateResult true false false stashed n 0) []
            (setEntryCount td (t.entryCount + 1) (commitMoves td moves s))

/-- A delete or modify of R204. -/
def exactChange (j : Job) (td : Fin 16) (img : Line) (delete : Bool) (genCheck : Option Nat) (s : State) : State :=
  let t := s.tables[td]
  let key := entryKey t.keyLen img
  match findEntry s t key with
  | none => completeWith j .empty s
  | some (place, old) =>
    if (match genCheck with | some g => decide (g ≠ entryGen old) | none => false) then
      complete j .ok (updateResult false true true false 0 (entryGen old)) [] s
    else if delete then
      let s := setEntryCount td (t.entryCount - 1) (replaceEntry td key place none s)
      let s := match place with
        | some (block, slot) => stashMove td block slot s
        | none => s
      complete j .ok (updateResult true true false false 0 0) [] s
    else
      let gen := (entryGen old + 1) % 65536
      complete j .ok (updateResult true true false false 0 gen) []
        (replaceEntry td key place (some (imageEntry img gen)) s)

/-! ### Prefix updates (R209, R210) -/

/-- The largest entry_count of a prefix table (R210). -/
def prefixLimit : Nat := 16777216

/-- An insert, modify or delete on one target that is empty or not: whether it may write, or the status. -/
def targetVerdict (action : Nat) (isEmpty clear : Bool) : Option QStatus :=
  if action = 0 then (if isEmpty || clear then none else some .full)
  else if isEmpty then some .empty else none

def prefixNode (j : Job) (td : Fin 16) (r : Req) (s : State) : State :=
  let t := s.tables[td]
  let action := auxF r.hdr 5 4
  let slot := auxF r.hdr 11 7
  let block := auxF r.hdr 36 12
  let clear := decide (action = 0) && decide (auxF r.hdr 37 37 = 1)
  let row := blockPeek s t.partition block
  let img : Line := if action = 1 then 0 else lineOf r.payload
  let count (l : Option Line) : Nat := match l with | some l => boolNat (decide (nodeKind l ≠ 0)) | none => 0
  match row.getD slot none with
  | none => completeWith j .dataError s
  | some old =>
    match targetVerdict action (decide (nodeKind old = 0)) clear with
    | some st => if st = .full then tableFull j td s else completeWith j st s
    | none =>
      let gone := if clear then (row.map count).foldl (· + ·) 0 else count (some old)
      let n := t.entryCount - gone + count (some img)
      if prefixLimit < n then tableFull j td s
      else
        complete j .ok 1 []
          (setEntryCount td n (commitRow td block
            (fun i l => if i = slot then some img else if clear then l.map fun _ => 0 else l) s))

def prefixDirectory (j : Job) (td : Fin 16) (r : Req) (s : State) : State :=
  let t := s.tables[td]
  let action := auxF r.hdr 5 4
  let i := t.dirBase + auxF r.hdr 29 12
  let old := directoryEntry s i
  let img : BitVec 64 := if action = 1 then 0 else BitVec.ofNat 64 (natAt r.payload 0 8)
  let full (e : BitVec 64) : Nat := boolNat (decide (bitsOf e.toNat 1 0 ≠ 0))
  if s.directoryBad.contains i then completeWith j .dataError (reportDirectory td i s)
  else
    match targetVerdict action (decide (full old = 0)) false with
    | some st => if st = .full then tableFull j td s else completeWith j st s
    | none =>
      let n := t.entryCount - full old + full img
      if prefixLimit < n then tableFull j td s
      else complete j .ok 1 [] (commitCount td (.directory i) (setDirectory i img (setEntryCount td n s)))

/-- TABLE_UPDATE (R201 to R211, R214, R216): its rows are read before anything is decided. -/
def performTableUpdate : Perform := fun j r s =>
  let td := tdOf r.hdr
  let t := s.tables[td]
  let action := auxF r.hdr 5 4
  let h := keyHash t (entryKey t.keyLen (lineOf r.payload))
  let own :=
    if t.prefixKind then (if auxF r.hdr 6 6 = 0 then [auxF r.hdr 36 12] else [])
    else [t.baseBlock + h.b1, t.baseBlock + h.b2]
  if quarterOut s t.home then completeAs j .dataError true false 0 [] s
  else
    match firstLost s t.partition own with
    | some b => updateLost j t.partition b s
    | none =>
      let s := readRows (.port j.port) td own s
      if t.prefixKind then (if auxF r.hdr 6 6 = 1 then prefixDirectory j td r s else prefixNode j td r s)
      else
        let img := lineOf r.payload
        let genCheck := if auxF r.hdr 6 6 = 1 then some (auxF r.hdr 22 7) else none
        if action = 0 then exactInsert j td img (decide (auxF r.hdr 23 23 = 1)) s
        else exactChange j td img (decide (action = 1)) genCheck s

def execTableUpdate (p : Fin 4) (r : Req) (s : State) : Out := .next (receive performTableUpdate p opTableUpdate r s)

end Sys2Proof.Machine
end

