-- ==== Sys2Proof/Machine/Bobbin.lean ====
section
/-! DEFINITION. Requests and steps of the Bobbin slices: the cell pool (R230, R231), ENQUEUE with its drop rule (R232 to
R235), DEQUEUE streams (R236 to R238), QUEUE_QUERY (R239), void cells and cell faults (R240, R242). -/

namespace Sys2Proof.Machine

open Sys2Proof

/-! ### The pool -/

def nullCell : Nat := 0x0FFFFFFF

/-- Cells of 256 B in a partition (R222). -/
def poolCells (x : Partition) : Nat := x.granules * 262144

def usedCells (s : State) (pd : Fin 64) : Nat := s.partitions[pd].buffer.used

def freeCells (s : State) (pd : Fin 64) : Nat := poolCells s.partitions[pd] - usedCells s pd

/-- The home slice of a queue (R225). -/
def homeSlice (q : Nat) : Fin 4 := Fin.ofNat 4 (q / 65536)

/-- BUFFER_LOW as free cells fall below the mark, again only 5 points above it (R252). -/
def bufferWatch (pd : Fin 64) (s : State) : State :=
  let x := s.partitions[pd]
  let b := x.buffer
  let free := 100 * freeCells s pd
  if b.lowPct ≠ 0 ∧ free < b.lowPct * poolCells x ∧ !b.lowRaised then
    raise 0x4013 15 pd [] (modBuffer pd (fun b => { b with lowRaised := true }) s)
  else if b.lowRaised ∧ (b.lowPct + 5) * poolCells x ≤ free then modBuffer pd (fun b => { b with lowRaised := false }) s
  else s

/-- The four lines of a cell, as the stack reads them for itself. -/
def readCell (who : Requester) (pd : Fin 64) (cell : Nat) (s : State) : Option (List Byte) × State :=
  (List.range 4).foldl (fun (acc : Option (List Byte) × State) i =>
    match partitionRead who pd (4 * cell + i) acc.2 with
    | (.data l, s) => (acc.1.map (· ++ lineBytes l), s)
    | (.fail _ _, s) => (none, s)) (some [], s)

/-- A cell written whole, and whether every line of it was. -/
def writeCell (pd : Fin 64) (cell : Nat) (bytes : List Byte) (s : State) : Bool × State :=
  (List.range 4).foldl (fun (acc : Bool × State) i =>
    let r := partitionWrite .int pd (4 * cell + i) (lineOf (bytesAt bytes (64 * i) 64)) acc.2
    (acc.1 && r.1.isNone, r.2)) (true, s)

/-- The pointer cell at the head of the DRAM free list popped into a slice's cache; a bad one is lost with its entries
(R231, R242), and one in an isolated quarter stays where it is. -/
def popPointer (slice : Fin 4) (pd : Fin 64) (s : State) : State :=
  let head := s.partitions[pd].buffer.listHead
  if lineIsolated s pd (4 * head) then s
  else
  match readCell .int pd head s with
  | (some bs, s) =>
    let entry (i : Nat) : Nat := natAt bs (4 * i) 4 % 2 ^ 28
    setFreeCache slice pd (freeCache s slice pd ++ (List.range 63).map (fun i => entry (i + 1)) ++ [head])
      (modBuffer pd (fun b => { b with listHead := entry 0, listLen := b.listLen - 1 }) s)
  | (none, s) =>
    raise 0x4012 15 pd []
      (modBuffer pd (fun b => { b with
        leaked := b.leaked + 64, used := b.used + 64, listHead := nullCell, listLen := 0 }) s)

/-- A cache below 64 entries refilled from the list, or from the fresh index (R231). -/
def refillCache (slice : Fin 4) (pd : Fin 64) (s : State) : State :=
  let x := s.partitions[pd]
  if 64 ≤ (freeCache s slice pd).length then s
  else if x.buffer.listLen ≠ 0 then popPointer slice pd s
  else
    let n := min 64 (poolCells x - x.buffer.fresh)
    if n = 0 then s
    else
      setFreeCache slice pd (freeCache s slice pd ++ (List.range n).map (x.buffer.fresh + ·))
        (modBuffer pd (fun b => { b with fresh := b.fresh + n }) s)

/-- One cell taken by a slice for a use. -/
def takeCell (slice : Fin 4) (pd : Fin 64) (s : State) : Option Nat × State :=
  let s := refillCache slice pd (refillCache slice pd s)
  match freeCache s slice pd with
  | [] => (none, s)
  | c :: cs =>
    (some c, bufferWatch pd (modBuffer pd (fun b => { b with used := b.used + 1 }) (setFreeCache slice pd cs s)))

/-- Up to `n` cells taken. -/
def takeCells (slice : Fin 4) (pd : Fin 64) : Nat → State → List Nat × State
  | 0, s => ([], s)
  | n + 1, s =>
    match takeCell slice pd s with
    | (none, s) => ([], s)
    | (some c, s) =>
      let r := takeCells slice pd n s
      (c :: r.1, r.2)

/-- A cache above 192 entries spilled: 63 entries written into a 64th of a quarter that serves, which heads the list
(R231). A cell that cannot be written heads nothing, and the cache keeps its entries. -/
def spillCache (slice : Fin 4) (pd : Fin 64) (s : State) : State :=
  let cells := freeCache s slice pd
  if cells.length ≤ 192 then s
  else
    let b := s.partitions[pd].buffer
    let img := (natToBytes 4 b.listHead :: (cells.take 63).map (natToBytes 4)).flatten
    match (cells.drop 63).find? fun p => !lineIsolated s pd (4 * p) with
    | none => s
    | some p =>
      match writeCell pd p img s with
      | (true, s) =>
        modBuffer pd (fun b => { b with listHead := p, listLen := b.listLen + 1 })
          (setFreeCache slice pd ((cells.drop 63).erase p) s)
      | (false, s) => s

/-- A used cell freed to a slice's cache. -/
def giveCell (slice : Fin 4) (pd : Fin 64) (s : State) (cell : Nat) : State :=
  bufferWatch pd (spillCache slice pd
    (setFreeCache slice pd (freeCache s slice pd ++ [cell])
      (modBuffer pd (fun b => { b with used := b.used - 1 }) s)))

def giveCells (slice : Fin 4) (pd : Fin 64) (cells : List Nat) (s : State) : State :=
  cells.foldl (giveCell slice pd) s

/-! ### Cells of packets -/

/-- Cells of a packet of `l` bytes (R224). -/
def packetCells (l : Nat) : Nat := (l + 239) / 240

/-- A cell header (R223). -/
def cellHeader (next len no : Nat) (void : Bool) (q time : Nat) : Nat :=
  next % 2 ^ 28 + len * 2 ^ 28 + no * 2 ^ 42 + boolNat void * 2 ^ 49 + q * 2 ^ 50 + time % 2 ^ 32 * 2 ^ 68

def headerNext (bs : List Byte) : Nat := bitsOf (natAt bs 0 16) 27 0

def headerLen (bs : List Byte) : Nat := bitsOf (natAt bs 0 16) 41 28

def headerVoid (bs : List Byte) : Bool := bitAt (natAt bs 0 16) 49

def headerTime (bs : List Byte) : Nat := bitsOf (natAt bs 0 16) 99 68

/-- Lines of cell `k` that a packet writes (R224). -/
def cellLines (len k : Nat) : Nat :=
  if k + 1 < packetCells len then 4 else (16 + (len - 240 * k) + 63) / 64

/-- A queue's partition. -/
def queuePd (s : State) (q : Nat) : Fin 64 := Fin.ofNat 64 (queueAt s q).partition

/-- The lines of an admitted packet in the order they are written, as cell and line of the cell (R224). -/
def packetPlaces (len : Nat) : List (Nat × Nat) :=
  ((List.range (packetCells len)).map fun k => (List.range (cellLines len k)).map fun i => (k, i)).flatten

/-- The payload bytes that must have arrived before a line of a packet is written (R234). -/
def bytesBefore (len k i : Nat) : Nat := min len (min (240 * (k + 1)) (240 * k + 64 * i + 48))

/-- A line of an admitted packet's cell (R223, R224). -/
def packetLine (q : Nat) (a : Admission) (k i : Nat) : Line :=
  let head := cellHeader (a.cells.getD (k + 1) a.spare) a.length k false q (a.admitted / 16)
  lineOf (bytesAt (natToBytes 16 head ++ bytesAt (a.payload.take a.length) (240 * k) 240) (64 * i) 64)

/-- The channels of a packet's cells, and the crypto slices they pass, can take its lines (R20). -/
def cellsReady (s : State) (pd : Fin 64) (cells : List Nat) : Bool :=
  cells.all fun c =>
    match placeOf s pd (4 * c) with
    | some pl =>
      !quarterOut s (placeQuarter pl) && !blockStopped s (.channel pl.channel) && !channelAsleep s pl.channel &&
        (decide (s.partitions[pd].mode = .plain) || !blockStopped s (.crypto (placeQuarter pl)))
    | none => true

/-- The write queue of a line's channel has room for it (R158). -/
def lineRoom (s : State) (pd : Fin 64) (index : Nat) : Bool :=
  match placeOf s pd index with
  | some pl => !wqFull s pl.channel || (wqEntry s pl).isSome
  | none => true

/-- The lines of an admitted packet that have arrived, written as their channels take them, up to `n` more: how many are
written, and the first failure. -/
def writeArrived (q : Nat) (a : Admission) : Nat → Nat → State → Nat × Option (QStatus × Bool) × State
  | 0, w, s => (w, none, s)
  | n + 1, w, s =>
    match (packetPlaces a.length)[w]? with
    | none => (w, none, s)
    | some (k, i) =>
      let pd := queuePd s q
      let cell := a.cells.getD k 0
      if a.payload.length < bytesBefore a.length k i ∨ !cellsReady s pd [cell] ∨ !lineRoom s pd (4 * cell + i) then
        (w, none, s)
      else
        match partitionWrite (.port a.job.port) pd (4 * cell + i) (packetLine q a k i) s with
        | (none, s) => writeArrived q a n (w + 1) s
        | (some e, s) => (w, some e, s)

/-- Every line of an admitted packet has entered a write queue. -/
def admissionWritten (a : Admission) : Bool := decide (a.written = packetLines a.length)

/-- Whether the head of a queue is a position that has been linked or voided. -/
def headSettled (x : Queue) : Bool :=
  decide (x.head ≠ x.tail) && !(x.admissions.any fun a => a.cells.head? = some x.head)

/-- Void cells at the head freed, and head advanced past them (R240). -/
def skimVoids (q : Nat) : Nat → State → State
  | 0, s => s
  | n + 1, s =>
    let x := queueAt s q
    let pd := queuePd s q
    if headSettled x && cellsReady s pd [x.head] then
      match partitionRead .int pd (4 * x.head) s with
      | (.data l, s) =>
        if headerVoid (lineBytes l) then
          skimVoids q n
            (giveCell (homeSlice q) pd
              (modQueue q (fun y => { y with head := headerNext (lineBytes l), cells := y.cells - 1 }) s) x.head)
        else s
      | (.fail _ _, s) => s
    else s

def skim (q : Nat) (s : State) : State := skimVoids q (queueAt s q).cells s

/-- An admitted packet that cannot be linked turned into a void cell (R240); it keeps its place as it is until the channel
of its first cell takes the void header. -/
def voidPacket (q : Nat) (a : Admission) (s : State) : State :=
  let pd := queuePd s q
  let first := a.cells.getD 0 0
  if !cellsReady s pd [first] then
    modQueue q (fun y => { y with
      admissions := y.admissions.map fun b => if b = a then { a with ended := true, voided := true } else b }) s
  else
    let s := (partitionWrite .int pd (4 * first)
      (BitVec.ofNat 512 (cellHeader a.spare 0 0 true q (a.admitted / 16))) s).2
    let s := modQueue q (fun y => { y with
      admissions := y.admissions.filter fun b => b ≠ a
      cells := y.cells - (packetCells a.length - 1) }) s
    skim q (giveCells (homeSlice q) pd (a.cells.drop 1)
      (modBuffer pd (fun b => { b with voidCells := sat32 b.voidCells }) s))

/-- The packets of a queue that wait to become void cells. -/
def settleVoids (q : Nat) (s : State) : State :=
  ((queueAt s q).admissions.filter (·.voided)).foldl (fun s a => voidPacket q a s) s

/-- The ENQUEUE of an admitted packet ended with a status other than OK, once; the packet is to be voided or linked as
`voided` says (R244, R245). -/
def endAdmission (q : Nat) (a : Admission) (st : QStatus) (isolated voided : Bool) (s : State) : State :=
  let s := modQueue q (fun y => { y with
    admissions := y.admissions.map fun b => if b = a then { a with ended := true, voided := a.voided || voided } else b }) s
  if a.ended then s else completeAs a.job st isolated false 0 [] s

/-! ### ENQUEUE -/

/-- The drop rule of R233, with the profile in force for a request received at a time (R229): the counter that a dropped packet adds to, or none where it is admitted. -/
def dropRule (s : State) (q n arrived : Nat) : Option (BufferState → BufferState) :=
  let x := queueAt s q
  let pf := s.profiles[Fin.ofNat 32 x.profile]
  let free := freeCells s (queuePd s q)
  let want := x.cells + n
  let alpha := stagedAt pf.alpha arrived
  let within :=
    if 8 ≤ alpha then decide (want ≤ free * 2 ^ (alpha - 8)) else decide (want * 2 ^ (8 - alpha) ≤ free)
  if x.state = .stopped then some fun b => { b with dropStopped := b.dropStopped + 1 }
  else if stagedAt pf.limit arrived < want then some fun b => { b with dropLimit := b.dropLimit + 1 }
  else if free < n then some fun b => { b with dropPool := b.dropPool + 1 }
  else if stagedAt pf.minimum arrived < want ∧ !within then some fun b => { b with dropThreshold := b.dropThreshold + 1 }
  else none

/-- Quarter isolation met by an ENQUEUE or DEQUEUE (R22, R245). -/
def bobbinIsolated (s : State) (q : Nat) : Bool :=
  let x := s.partitions[queuePd s q]
  quarterOut s (homeSlice q) ||
    (if x.chip then (List.finRange 4).any fun k => quarterOut s k else quarterOut s x.quarter)

/-- The arrived lines of an admitted packet written where their channels can take them; a failure ends its ENQUEUE. -/
def writeAdmission (q : Nat) (a : Admission) (s : State) : State :=
  if a.voided then voidPacket q a s
  else
    let r := writeArrived q a (packetLines a.length) a.written s
    let b : Admission := { a with written := r.1 }
    let s := modQueue q (fun y => { y with admissions := y.admissions.map fun c => if c = a then b else c }) r.2.2
    match r.2.1 with
    | none => s
    | some e => voidPacket q { b with ended := true, voided := true } (endAdmission q b e.1 e.2 true s)

/-- ENQUEUE: the drop rule and admission as the header arrives (R232, R233); the packet's lines go to its cells as they
arrive and as their channels take them (R234). -/
def performEnqueue : Perform := fun j r s =>
  let q := queueOf r.hdr
  let pd := pdOf r.hdr
  let len := auxF r.hdr 31 18
  let n := packetCells len
  let drop (f : BufferState → BufferState) (s : State) : State := completeWith j .dropped (modBuffer pd f s)
  if bobbinIsolated s q then completeAs j .dataError true false 0 [] s
  else if (queueAt s q).state = .broken then completeWith j .dataError s
  else
    match dropRule s q n j.arrived with
    | some f => drop f s
    | none =>
      let got := takeCells (homeSlice q) pd n s
      let s := got.2
      if got.1.length < n then
        drop (fun b => { b with dropPool := b.dropPool + 1 }) (giveCells (homeSlice q) pd got.1 s)
      else
        let spare := got.1.getD (n - 1) 0
        let a : Admission := {
          job := j, length := len, cells := (queueAt s q).tail :: got.1.take (n - 1), spare := spare
          admitted := s.hubTimer, payload := r.payload.take len, written := 0, ended := false, voided := false }
        let s := modQuarter (homeSlice q) (fun x => { x with enqTimes := noteTime s.hubTimer x.enqTimes }) s
        writeAdmission q a (modQueue q (fun y => { y with
          tail := spare, cells := y.cells + n, admissions := y.admissions ++ [a] }) s)

/-- Payload bytes of an ENQUEUE that arrive after its header (R232, R234): they join its packet where it has been
admitted, or the request where its port or a controller still holds it; the payload of a dropped or failed one, or of a
duplicate tag, is discarded. -/
def arrivePayload (p : Fin 4) (fills : Option (BitVec 14)) (bytes : List Byte) (s : State) : State :=
  let free (s : State) : State :=
    modLink p (fun l => { l with slotsFreed := l.slotsFreed + bytes.length / 16, ackOwed := true }) s
  match fills with
  | none => free s
  | some tag =>
  if s.ports[p].held.any (fun h => h.req.hdr.tag = tag) then
    let fill (h : Held) : Held :=
      if h.req.hdr.tag = tag then { h with req := { h.req with payload := h.req.payload ++ bytes } } else h
    modPort p (fun x => { x with held := x.held.map fill }) s
  else
    let s := free s
    let mine (j : Job) : Bool := decide (j.port = p) && decide (j.tag = tag)
    let fill (e : QueuedReq) : QueuedReq :=
      if mine e.job then { e with req := { e.req with payload := e.req.payload ++ bytes } } else e
    let fillAll (x : Channel) : Channel := { x with requests := x.requests.map fill }
    let s := { s with channels := s.channels.map fillAll }
    match s.queues.find? (fun e => e.2.admissions.any fun a => mine a.job && !a.ended) with
    | none => s
    | some (q, y) =>
      match y.admissions.find? (fun a => mine a.job && !a.ended) with
      | none => s
      | some a =>
        let b : Admission := { a with payload := (a.payload ++ bytes).take a.length }
        writeAdmission q b (modQueue q (fun y => { y with
          admissions := y.admissions.map fun c => if c = a then b else c }) s)

def execEnqueue (p : Fin 4) (r : Req) (s : State) : Out := .next (receive performEnqueue p opEnqueue r s)

/-- The oldest admission of a queue linked once its lines have entered write queues; its ENQUEUE completes (R234,
R235). One that is to be voided becomes a void cell. -/
def linkPacket (q : Nat) (s : State) : State :=
  if blockStopped s (.bobbin (homeSlice q)) || quarterOut s (homeSlice q) then s
  else
    let s := settleVoids q s
    let s := match (queueAt s q).admissions with
      | a :: _ => writeAdmission q a s
      | [] => s
    match (queueAt s q).admissions with
    | a :: rest =>
      if admissionWritten a && !a.voided then
        let s := modQueue q (fun y => { y with admissions := rest, packets := y.packets + 1 }) s
        let s := modBuffer (queuePd s q) (fun b => { b with enqPackets := b.enqPackets + 1 }) s
        let y := queueAt s q
        skim q (if a.ended then s else complete a.job .ok
          (BitVec.ofNat 64 (y.packets + y.cells * 2 ^ 24 + packetCells a.length * 2 ^ 48)) [] s)
      else s
    | [] => s

def execPacketLink (q : BitVec 18) (s : State) : Out := .next (linkPacket q.toNat s)

/-! ### DEQUEUE -/

/-- DEQUEUE: a stream that waits at the home slice (R236, R237). -/
def performDequeue : Perform := fun j r s =>
  let q := queueOf r.hdr
  let budget := auxF r.hdr 31 18
  let byPackets := decide (auxF r.hdr 32 32 = 1)
  if bobbinIsolated s q then completeAs j .dataError true false 0 [] s
  else if (queueAt s q).state = .broken then completeWith j .dataError s
  else
    watchGates (modQueue q (fun y => { y with
      streams := y.streams ++
        [{ job := j, byPackets := byPackets, remaining := if byPackets then budget else 256 * budget
           first := true, running := false }] }) s)

def execDequeue (p : Fin 4) (r : Req) (s : State) : Out := .next (receive performDequeue p opDequeue r s)

/-- Streams that a slice runs. -/
def runningStreams (s : State) (slice : Fin 4) : Nat :=
  (s.queues.filter fun e => homeSlice e.1 = slice).foldl (fun n e => n + (e.2.streams.filter (·.running)).length) 0

/-- A stream at the front of its queue ended with one last completion. -/
def endStream (q : Nat) (t : Stream) (st : QStatus) (isolated : Bool) (s : State) : State :=
  completeAs t.job st isolated false 0 [] (watchGates (modQueue q (fun y => { y with streams := y.streams.drop 1 }) s))

/-- Another queue of the slice has a DEQUEUE first in line that arrived earlier and waits for a stream (R237). -/
def earlierStream (s : State) (q : Nat) (t : Stream) : Bool :=
  s.queues.any fun e => decide (e.1 ≠ q) && decide (homeSlice e.1 = homeSlice q) &&
    (match e.2.streams with
     | u :: _ => !u.running && decide (u.job.order < t.job.order)
     | [] => false)

/-- The next waiting DEQUEUE of a queue started, in the order in which the DEQUEUEs of a slice arrived: with nothing
linked it completes EMPTY (R236, R237). -/
def startStream (q : Nat) (s : State) : State :=
  let slice := homeSlice q
  if blockStopped s (.bobbin slice) then s
  else
    let s := skim q (settleVoids q s)
    let x := queueAt s q
    match x.streams with
    | t :: rest =>
      if t.running ∨ 512 ≤ runningStreams s slice ∨ earlierStream s q t then s
      else if bobbinIsolated s q then endStream q t .dataError true s
      else if x.state = .broken then endStream q t .dataError false s
      else if x.packets = 0 then endStream q t .empty false s
      else watchGates (modQueue q (fun y => { y with streams := { t with running := true } :: rest }) s)
    | [] => s

def execStreamStart (q : BitVec 18) (s : State) : Out := .next (startStream q.toNat s)

/-- What the head packet of a queue reads as: its cells in order, its bytes and admission time; or the first cell whose
header is bad, or a bad data line. -/
inductive Packet where
  | whole (cells : List Nat) (next len time : Nat) (bytes : List Byte)
  | poisoned (cells : List Nat) (next : Nat)
  | broken (cell : Nat)
deriving DecidableEq, Repr

/-- The chain of a packet followed, `n` cells left. -/
def followCells (who : Requester) (pd : Fin 64) (len time : Nat) :
    Nat → Nat → Nat → List Nat → List Byte → Bool → State → Packet × State
  | 0, _, cell, cells, bytes, bad, s =>
    (if bad then .poisoned cells cell else .whole cells cell len time (bytes.take len), s)
  | n + 1, k, cell, cells, bytes, bad, s =>
    match partitionRead who pd (4 * cell) s with
    | (.fail _ _, s) => (.broken cell, s)
    | (.data l0, s) =>
      let r := (List.range (cellLines len k - 1)).foldl (fun (acc : List Byte × Bool × State) i =>
        match partitionRead who pd (4 * cell + i + 1) acc.2.2 with
        | (.data l, s) => (acc.1 ++ lineBytes l, acc.2.1, s)
        | (.fail _ _, s) => (acc.1, true, s)) (lineBytes l0, false, s)
      followCells who pd len time n (k + 1) (headerNext (lineBytes l0)) (cells ++ [cell])
        (bytes ++ r.1.drop 16) (bad || r.2.1) r.2.2

/-- The head packet of a queue read (R224). -/
def readPacket (who : Requester) (q : Nat) (s : State) : Packet × State :=
  let pd := queuePd s q
  let head := (queueAt s q).head
  match partitionRead who pd (4 * head) s with
  | (.fail _ _, s) => (.broken head, s)
  | (.data l, s) =>
    let len := headerLen (lineBytes l)
    followCells who pd len (headerTime (lineBytes l)) (packetCells len) 0 head [] [] false s

/-- The length of the head packet, where its header can be read. -/
def headLength (q : Nat) (s : State) : Option Nat × State :=
  match partitionRead .int (queuePd s q) (4 * (queueAt s q).head) s with
  | (.data l, s) => (some (headerLen (lineBytes l)), s)
  | (.fail _ _, s) => (none, s)

/-- The queue past its head packet, whose cells return to the slice (R237). -/
def passPacket (q : Nat) (cells : List Nat) (next : Nat) (s : State) : State :=
  let pd := queuePd s q
  let s := modQueue q (fun y => { y with
    head := next, cells := y.cells - cells.length, packets := y.packets - 1 }) s
  skim q (giveCells (homeSlice q) pd cells s)

/-- The debit of a packet at hand-over, 64 B for each of its lines (R280, R281). -/
def debitPacket (j : Job) (len : Nat) (s : State) : State :=
  let u : Int := (64 * packetLines len * 65536 : Nat)
  modClass j.port (Fin.ofNat 8 j.cls) (fun c =>
    let c := refillClass s.hubTimer c
    { c with
      ceilTokens := if c.ceiling ≠ 0 then c.ceilTokens - u else c.ceilTokens
      floorTokens := max 0 (c.floorTokens - u)
      windowCharge := c.windowCharge + 64 * packetLines len }) s

/-- What a stream does after a packet of `len` bytes: the budget left, and whether that packet was its last (R236). -/
def streamAfter (q : Nat) (t : Stream) (len : Nat) (s : State) : Int × Bool × State :=
  let left := t.remaining - (if t.byPackets then 1 else (len : Int))
  let x := queueAt s q
  if left ≤ 0 ∨ x.packets = 0 then (left, true, s)
  else if t.byPackets then (left, false, s)
  else
    let r := headLength q s
    (left, (match r.1 with | some l => decide (left < (l : Int)) | none => false), r.2)

/-- QUEUE_BROKEN (R242). -/
def breakQueue (q cell : Nat) (s : State) : State :=
  raise 0x4010 7 (homeSlice q) [itQueue q, itCount cell] (modQueue q (fun y => { y with state := .broken }) s)

/-- The packet whose completion is handed over by a running stream (R237, R238). -/
def handPacket (q : Nat) (t : Stream) (cells : List Nat) (next len time : Nat) (bytes : List Byte) (s : State) :
    State :=
  let s := passPacket q cells next s
  let s := debitPacket t.job len s
  let s := modBuffer (queuePd s q) (fun b => { b with deqPackets := b.deqPackets + 1 }) s
  let s := modQuarter (homeSlice q) (fun x => { x with deqTimes := noteTime s.hubTimer x.deqTimes }) s
  let y := queueAt s q
  let after := streamAfter q t len s
  let s := after.2.2
  let us := min 65535 ((s.hubTimer / 16 % 2 ^ 32 + 2 ^ 32 - time) % 2 ^ 32 * 16 / 1000)
  let result : Word := BitVec.ofNat 64 (y.packets + y.cells * 2 ^ 24 + us * 2 ^ 48)
  if after.2.1 then complete t.job .ok result bytes (modQueue q (fun y => { y with streams := y.streams.drop 1 }) s)
  else
    handOver t.job.port
      { opcode := t.job.opcode, tag := t.job.tag, status := .ok, last := false, dupTag := false, kennel := false,
        late := false, result := result, data := bytes }
      (modQueue q (fun y => { y with
        streams := { t with remaining := after.1, first := false } :: y.streams.drop 1 }) s)

/-- Credits for the slots of a packet's completion (R123, R237). -/
def packetCredit (s : State) (p : Fin 4) (len : Nat) : Bool :=
  let l := s.ports[p].link
  decide (l.txData.length + 1 + (len + 15) / 16 ≤ creditAvailable l)

/-- One packet of a queue's running stream handed over, or the end of the stream (R236 to R238, R242, R245). -/
def handoverStep (q : Nat) (s : State) : State :=
  let slice := homeSlice q
  let x := queueAt s q
  match x.streams with
  | [] => s
  | t :: _ =>
    if !t.running then s
    else if bobbinIsolated s q then endStream q t .dataError true s
    else if blockStopped s (.bobbin slice) then s
    else if x.state = .broken then endStream q t .dataError false s
    else if x.packets = 0 then endStream q t (if t.first then .empty else .aborted) false s
    else if !cellsReady s (queuePd s q) [x.head] then s
    else
      match readPacket (.port t.job.port) q s with
      | (.broken cell, s) => endStream q t .dataError false (breakQueue q cell s)
      | (.poisoned cells next, s) =>
        endStream q t .dataError false
          (raiseLimited 0x4011 7 slice (fun n => [itCount n, itQueue q]) (passPacket q cells next s))
      | (.whole cells next len time bytes, s') =>
        if !cellsReady s (queuePd s q) cells || !packetCredit s t.job.port len then s
        else handPacket q t cells next len time bytes s'

def execDequeueHandover (q : BitVec 18) (s : State) : Out := .next (handoverStep q.toNat s)

/-! ### QUEUE_QUERY -/

def queueStateCode : QState → Nat
  | .free => 0
  | .active => 1
  | .stopped => 2
  | .broken => 3

/-- The descriptor of R226. -/
def queueDescriptor (x : Queue) : List Byte :=
  natToBytes 16 (x.head % 2 ^ 28 + x.tail % 2 ^ 28 * 2 ^ 28 + x.cells % 2 ^ 24 * 2 ^ 56 + x.packets % 2 ^ 24 * 2 ^ 80 +
    x.profile % 32 * 2 ^ 104 + queueStateCode x.state * 2 ^ 109 + x.partition % 64 * 2 ^ 111 +
    x.owner.toNat * 2 ^ 117)

/-- QUEUE_QUERY (R239, R245). -/
def performQueueQuery : Perform := fun j r s =>
  let q := queueOf r.hdr
  if quarterOut s (homeSlice q) then completeAs j .dataError true false 0 [] s
  else complete j .ok 0 (queueDescriptor (queueAt s q)) s

def execQueueQuery (p : Fin 4) (r : Req) (s : State) : Out := .next (receive performQueueQuery p opQueueQuery r s)

end Sys2Proof.Machine
end

