-- ==== Sys2Proof/Machine/Counters.lean ====
section
/-! DEFINITION. Counters and policers: CTR_UPDATE, POL_UPDATE and CTR_READ (R254 to R264), the write-back of held
counter lines (R266) and the policer sweep (R262). -/

namespace Sys2Proof.Machine

open Sys2Proof

/-- What a counter operation does to its line: the new line, and the request's result and data. -/
abbrev LineChange := Line → Line × Word × List Byte

/-- What it ends with. -/
inductive CounterResult where
  | done (result : Word) (data : List Byte)
  | fail (st : QStatus) (isolated : Bool)
deriving DecidableEq, Repr

/-- A read-modify-write of a counter line at its channel; a line that keeps its value is not written. -/
def counterAtChannel (who : Requester) (pd : Fin 64) (index : Nat) (f : LineChange) (s : State) :
    CounterResult × State :=
  match partitionRead who pd index s with
  | (.fail st iso, s) => (.fail st iso, s)
  | (.data l, s) =>
    let c := f l
    if c.1 = l then (.done c.2.1 c.2.2, s)
    else
      match partitionWrite who pd index c.1 s with
      | (none, s) => (.done c.2.1 c.2.2, s)
      | (some e, s) => (.fail e.1 e.2, s)

/-- A counter operation applied to a held copy. -/
def counterAtKennel (k : KennelLine) (f : LineChange) (s : State) : CounterResult × State :=
  let c := f k.data
  (.done c.2.1 c.2.2, if c.1 = k.data then kennelTouch k s else kennelUpdate k c.1 true s)

/-- A counter operation on a line, held, installed or at its channel (R264); its quarter must serve (R272). -/
def counterOp (j : Job) (pd : Fin 64) (index : Nat) (f : LineChange) (s : State) : CounterResult × State :=
  let who := Requester.port j.port
  let out := match placeOf s pd index with
    | some pl => quarterOut s (placeQuarter pl)
    | none => false
  if out then (.fail .dataError true, s)
  else
    match kennelHit s pd index with
    | some k =>
      counterAtKennel k f (modCounter pd (fun c => { c with coalesceHits := c.coalesceHits + 1 }) s)
    | none =>
      if s.partitions[pd].quota = 0 then counterAtChannel who pd index f s
      else
        match partitionRead who pd index s with
        | (.fail st iso, s) => (.fail st iso, s)
        | (.data l, s) =>
          let s := kennelInstallFor pd index l false .counter (some (ownerOf j)) s
          match kennelHit s pd index with
          | some k => counterAtKennel k f s
          | none => counterAtChannel who pd index f s

/-- The completion of a counter operation. -/
def counterEnd (j : Job) (r : CounterResult × State) (after : State → State) : State :=
  match r with
  | (.done res data, s) => complete j .ok res data (after s)
  | (.fail st iso, s) => completeAs j st iso false 0 [] s

/-- Issue slots of the line's counter slice used (R274, R276). -/
def noteSlots (pd : Fin 64) (index n : Nat) (s : State) : State :=
  match placeOf s pd index with
  | none => s
  | some pl =>
    modQuarter (placeQuarter pl) (fun q => { q with
      counterTimes := List.replicate (n - 1) s.hubTimer ++ noteTime s.hubTimer q.counterTimes }) s

/-! ### Counters -/

/-- One field of a counter with an increment (R255): the sum, and whether it stopped at the top. -/
def counterAdd (saturate : Bool) (old inc : Nat) : Nat × Bool :=
  if saturate then (min (old + inc) (2 ^ 64 - 1), decide (2 ^ 64 - 1 < old + inc)) else ((old + inc) % 2 ^ 64, false)

/-- CTR_UPDATE on the counter at a byte offset of its line; the result tells how many fields saturated. -/
def counterChange (saturate : Bool) (off packets bytes : Nat) : LineChange := fun l =>
  let p := counterAdd saturate (lineGet l (8 * off) 64) packets
  let b := counterAdd saturate (lineGet l (8 * off + 64) 64) bytes
  (linePut (linePut l (8 * off) 64 p.1) (8 * off + 64) 64 b.1,
   BitVec.ofNat 64 (boolNat (p.2 || b.2)), [])

/-- CTR_UPDATE (R255). -/
def performCtrUpdate : Perform := fun j r s =>
  let pd := pdOf r.hdr
  let a := r.hdr.address.toNat
  let res := counterOp j pd (a / 64)
    (counterChange s.partitions[pd].counter.saturate (a % 64) (auxF r.hdr 47 32) (auxF r.hdr 31 0))
    (noteSlots pd (a / 64) 1 s)
  match res with
  | (.fail st iso, s) => completeAs j st iso false 0 [] s
  | (.done hit _, s) =>
    let s := modCounter pd (fun c => { c with ctrUpdates := c.ctrUpdates + 1 }) s
    completeWith j .ok
      (if hit = 0 then s
       else raiseLimited 0x5010 15 pd (fun n => [itCount n])
        (modCounter pd (fun c => { c with saturated := sat32 c.saturated }) s))

def execCtrUpdate (p : Fin 4) (r : Req) (s : State) : Out := .next (receive performCtrUpdate p opCtrUpdate r s)

/-- CTR_READ on `n` counters from a byte offset of their line (R256). -/
def counterRead (off n : Nat) (clear : Bool) : LineChange := fun l =>
  ((if clear then (List.range n).foldl (fun l i => linePut l (8 * off + 128 * i) 128 0) l else l), 0,
   bytesAt (lineBytes l) off (16 * n))

/-- CTR_READ (R256). -/
def performCtrRead : Perform := fun j r s =>
  let a := r.hdr.address.toNat
  counterEnd j (counterOp j (pdOf r.hdr) (a / 64)
    (counterRead (a % 64) (r.hdr.lengthCode.toNat + 1) (decide (auxF r.hdr 0 0 = 1)))
    (noteSlots (pdOf r.hdr) (a / 64) 1 s)) id

def execCtrRead (p : Fin 4) (r : Req) (s : State) : Out := .next (receive performCtrRead p opCtrRead r s)

/-! ### Policers -/

/-- A policer record (R259). -/
structure Policer where
  tc : Nat
  tx : Nat
  last : Nat
  mode : Nat
  aware : Bool
  reservedClear : Bool
  cir : Nat
  xir : Nat
  cbs : Nat
  xbs : Nat
deriving DecidableEq, Repr

/-- The record at bit `b` of a line. -/
def policerAt (l : Line) (b : Nat) : Policer :=
  { tc := lineGet l b 40, tx := lineGet l (b + 40) 40, last := lineGet l (b + 80) 40, mode := lineGet l (b + 120) 2,
    aware := l.getLsbD (b + 122),
    reservedClear := decide (lineGet l (b + 123) 5 = 0) && decide (lineGet l (b + 240) 16 = 0),
    cir := lineGet l (b + 128) 32, xir := lineGet l (b + 160) 32, cbs := lineGet l (b + 192) 24,
    xbs := lineGet l (b + 216) 24 }

def putPolicer (l : Line) (b : Nat) (p : Policer) : Line :=
  linePut (linePut (linePut l b 40 p.tc) (b + 40) 40 p.tx) (b + 80) 40 p.last

/-- A record with mode 1 or 2 and clear reserved bits runs; any other acts as mode 0 (R261). -/
def policerRuns (p : Policer) : Bool := p.reservedClear && (decide (p.mode = 1) || decide (p.mode = 2))

def policerBad (p : Policer) : Bool := !p.reservedClear || decide (p.mode = 3)

/-- The refill of R261 at a tick. -/
def policerRefill (now : Nat) (p : Policer) : Policer :=
  let elapsed := (now + 2 ^ 40 - p.last) % 2 ^ 40
  { p with
    tc := min (p.cbs * 65536) (p.tc + elapsed * p.cir)
    tx := min (p.xbs * 65536) (p.tx + elapsed * p.xir)
    last := now }

/-- The colouring of R261 on a refilled record: the output colour and the record after it. -/
def policerColour (len colour : Nat) (p : Policer) : Nat × Policer :=
  let b := len * 65536
  let c := if p.aware then colour else 0
  if p.mode = 1 then
    if c = 2 ∨ p.tx < b then (2, p)
    else if c = 1 ∨ p.tc < b then (1, { p with tx := p.tx - b })
    else (0, { p with tx := p.tx - b, tc := p.tc - b })
  else
    if c = 0 ∧ b ≤ p.tc then (0, { p with tc := p.tc - b })
    else if c ≠ 2 ∧ b ≤ p.tx then (1, { p with tx := p.tx - b })
    else (2, p)

/-- POL_UPDATE on the record at a byte offset: result bit 2 marks a record in a bad state. -/
def policerChange (now off len colour : Nat) : LineChange := fun l =>
  let p := policerAt l (8 * off)
  if policerRuns p then
    let r := policerColour len colour (policerRefill now p)
    (putPolicer l (8 * off) r.2, BitVec.ofNat 64 r.1, [])
  else (l, BitVec.ofNat 64 (colour + 4 * boolNat (policerBad p)), [])

/-- The current tick as `last` holds it. -/
def tickNow (s : State) : Nat := s.hubTimer / 16 % 2 ^ 40

/-- POL_UPDATE (R261). -/
def performPolUpdate : Perform := fun j r s =>
  let pd := pdOf r.hdr
  let a := r.hdr.address.toNat
  match counterOp j pd (a / 64) (policerChange (tickNow s) (a % 64) (auxF r.hdr 13 0) (auxF r.hdr 15 14))
    (noteSlots pd (a / 64) 2 s) with
  | (.fail st iso, s) => completeAs j st iso false 0 [] s
  | (.done res _, s) =>
    let out := res.toNat % 4
    let bad := res.getLsbD 2
    let s := modCounter pd (fun c => { c with
      polUpdates := c.polUpdates + 1
      polRed := if out = 2 then c.polRed + 1 else c.polRed
      badState := if bad then sat32 c.badState else c.badState }) s
    complete j .ok (BitVec.ofNat 64 out) []
      (if bad then raiseLimited 0x5011 15 pd (fun _ => [itAddress a]) s else s)

def execPolUpdate (p : Fin 4) (r : Req) (s : State) : Out := .next (receive performPolUpdate p opPolUpdate r s)

/-- The lines of a partition's policer region. -/
def policerLines (x : Partition) : List Nat :=
  (List.range (x.counter.regionGranules * granuleLines)).map (x.counter.regionBase * granuleLines + ·)

/-- A line of policers with a function applied to each active record. -/
def mapPolicers (f : Policer → Policer) : LineChange := fun l =>
  ([0, 256].foldl (fun l b =>
    let p := policerAt l b
    if policerRuns p then putPolicer l b (f p) else l) l, 0, [])

/-- A line of policers changed by the counter slice for itself: the held copy, or the line at its channel. A copy held in a
Kennel slice that is stopped, which nothing sees before it resumes, is changed as it stands (R262, R271). -/
def sweepLine (f : LineChange) (pd : Fin 64) (s : State) (index : Nat) : State :=
  let out := match placeOf s pd index with
    | some pl => quarterOut s (placeQuarter pl)
    | none => true
  if out then s
  else
    match kennelHeld s pd index with
    | some k => (counterAtKennel k f s).2
    | none => (counterAtChannel .int pd index f s).2

/-- The sweep of a partition's policers (R262). -/
def sweepPolicers (pd : Fin 64) (s : State) : State :=
  (policerLines s.partitions[pd]).foldl (sweepLine (mapPolicers (policerRefill (tickNow s))) pd) s

/-- A line of policers with every record's tokens at their bucket sizes, and the running ones then swept (R262). -/
def fillLine (now : Nat) : LineChange := fun l =>
  ([0, 256].foldl (fun l b =>
    let p := policerAt l b
    let p := { p with tc := p.cbs * 65536, tx := p.xbs * 65536 }
    putPolicer l b (if policerRuns p then policerRefill now p else p)) l, 0, [])

/-- The sweep after a quarter's return from an isolation of more than 240 min: its policers start full (R262). -/
def fillPolicers (pd : Fin 64) (q : Fin 4) (s : State) : State :=
  ((policerLines s.partitions[pd]).filter fun i =>
      match placeOf s pd i with | some pl => placeQuarter pl = q | none => false).foldl
    (sweepLine (fillLine (tickNow s)) pd) s

def execPolicerSweep (pd : Fin 64) (late : Bool) (s : State) : Out :=
  let s := if late then raise 0x5014 15 pd [] s else s
  .next (if s.partitions[pd].valid ∧ s.partitions[pd].ptype = .counter then sweepPolicers pd s else s)

/-! ### Held lines -/

/-- A held line written back once it has been dirty for ctr_flush_us (R266). -/
def flushHeld (pd : Fin 64) (index : Nat) (s : State) : State :=
  match kennelHit s pd index with
  | some k => if k.dirty then kennelWriteBack k (passTo (k.dirtySince + 1000 * s.params.ctrFlushUs) s) else s
  | none => s

def execCounterFlush (pd : Fin 64) (line : BitVec 30) (s : State) : Out := .next (flushHeld pd line.toNat s)

end Sys2Proof.Machine
end

