-- ==== Sys2Proof/Machine/Collie.lean ====
section
/-! DEFINITION. Collie's ledger, trims and restorations (R293 to R299), the port hold limit (R285), stuck partner panic
(R287) and miss windows (R301). -/

namespace Sys2Proof.Machine

open Sys2Proof

/-! ### The ledger (R294, R295) -/

/-- The port-classes in the order of R297. -/
def trimOrder : List (Fin 4 × Fin 8) :=
  ((List.finRange 8).reverse.map fun k => (List.finRange 4).reverse.map fun p => (p, k)).flatten

def classAt (s : State) (pk : Fin 4 × Fin 8) : PortClass := s.ports[pk.1].classes[pk.2]

/-- What a guarantee charges (R295). -/
def classCharge (c : PortClass) : Nat := if c.target ≠ 0 then c.ceiling else c.floor

/-- A channel that counts in the ledger: not retired, not retiring (R376), not held (R480). -/
def inService (s : State) (c : Fin 32) : Bool :=
  decide (s.channels[c].retire ≠ .retired) && decide (s.channels[c].retire ≠ .migrating) && !s.channels[c].heldByCommand &&
    decide (s.channels[c].state ≠ .retired)

/-- The channels of a scope: 0 is CHIP, 1 to 4 a quarter. -/
def scopeHolds (scope : Nat) (c : Fin 32) : Bool := decide (scope = 0) || decide (c.val / 8 + 1 = scope)

def serviceCount (s : State) (scope : Nat) : Nat :=
  ((List.finRange 32).filter fun c => scopeHolds scope c && inService s c).length

/-- The issue scale in percent that the factors now give (R294). -/
def issueScale (s : State) (c : Fin 32) : Nat := min s.channels[c].thermalPct s.thermal.governorPct

/-- cap_c in hundredths of MB/s, at a scale in percent (R294). -/
def capacityAt (s : State) (c : Fin 32) (pct : Nat) : Int :=
  if inService s c then
    max 0 ((49920 * pct : Nat) - (100 * ((if s.channels[c].hot then 4000 else 2000) + s.params.scrubReserve +
      s.params.maintReserve) : Nat))
  else 0

def capacityOf (s : State) (c : Fin 32) : Int := capacityAt s c (issueScale s c)

/-- The charges of a scope, one port-class left out. -/
def scopeCharge (s : State) (skip : Option (Fin 4 × Fin 8)) (scope : Nat) : Nat :=
  trimOrder.foldl (fun n pk =>
    if skip = some pk ∨ (classAt s pk).scope ≠ scope then n else n + classCharge (classAt s pk)) 0

/-- What is left of a channel's capacity beside the charges on it, times 100 and times the in-service channels of the
chip and of its quarter. -/
def ledgerRoom (s : State) (skip : Option (Fin 4 × Fin 8)) (c : Fin 32) : Int :=
  let q := c.val / 8 + 1
  let nc := serviceCount s 0
  let nq := serviceCount s q
  capacityOf s c * (nc * nq : Nat) - (100 * (scopeCharge s skip 0 * nq + scopeCharge s skip q * nc) : Nat)

/-- The ledger check of a scope: every in-service channel of it passes, and a scope without one carries nothing. -/
def scopeFits (s : State) (scope : Nat) : Bool :=
  ((List.finRange 32).all fun c => !(scopeHolds scope c && inService s c) || decide (0 ≤ ledgerRoom s none c)) &&
    (decide (serviceCount s scope ≠ 0) || decide (scopeCharge s none scope = 0))

/-- The ledger check of R295. -/
def ledgerFits (s : State) : Bool := (List.range 5).all fun scope => scopeFits s scope

/-- The largest charge, in steps of 100 MB/s, that a port-class can put on a scope (R295, R297). -/
def largestCharge (s : State) (pk : Fin 4 × Fin 8) (scope : Nat) : Nat :=
  let chans := (List.finRange 32).filter fun c => scopeHolds scope c && inService s c
  let fit (c : Fin 32) : Nat :=
    let m := if scope = 0 then serviceCount s (c.val / 8 + 1) else serviceCount s 0
    (ledgerRoom s (some pk) c / (100 * m : Nat)).toNat / 100 * 100
  match chans with
  | [] => 0
  | _ => chans.foldl (fun n c => min n (fit c)) 400000

/-- led_committed_mbps of a channel (R295), rounded down. -/
def committedOf (s : State) (c : Fin 32) : Nat :=
  let q := c.val / 8 + 1
  let nc := serviceCount s 0
  let nq := serviceCount s q
  if inService s c then (scopeCharge s none 0 * nq + scopeCharge s none q * nc) / (nc * nq) else 0

/-! ### Trims (R297) -/

/-- The in-force guarantees of a port-class reduced, with its event. -/
def trimEvent (pk : Fin 4 × Fin 8) (kind admitted remaining : Nat) (f : PortClass → PortClass) (s : State) : State :=
  raise 0x6011 1 pk.1 [itClass pk.2, itReason kind, itCount admitted, itCount remaining] (modClass pk.1 pk.2 f s)

/-- One port-class of the trim: its target, then its floor, its buckets first refilled at the rate in force until now
(R281). -/
def trimClass (s : State) (pk : Fin 4 × Fin 8) : State :=
  let c := classAt s pk
  let s :=
    if c.target ≠ 0 ∧ classCharge c ≠ 0 ∧ !scopeFits s c.scope then
      trimEvent pk 1 c.targetAdmitted 0 (fun c => { c with target := 0 }) s
    else s
  let c := classAt s pk
  if c.target = 0 ∧ c.floor ≠ 0 ∧ !scopeFits s c.scope then
    let v := min c.floor (largestCharge s pk c.scope)
    if v < c.floor then
      trimEvent pk 0 c.floorAdmitted v (fun c => { refillClass s.hubTimer c with floor := v }) s
    else s
  else s

/-- Kennel lines that shares may take: the capacity left by disabled ways and stopped slices, less the seal reserve. -/
def kennelCapacity (s : State) : Nat :=
  let slices := (List.finRange 8).filter fun k => !blockStopped s (.kennel k)
  65536 * slices.length - (s.waysDisabled.filter fun w => slices.contains (kennelSlice w.1)).length -
    s.params.sealReserve

def shareSum (s : State) : Nat := trimOrder.foldl (fun n pk => n + (classAt s pk).kennelLines) 0

/-- One port-class of the trim of Kennel shares. -/
def trimShare (s : State) (pk : Fin 4 × Fin 8) : State :=
  let c := classAt s pk
  let excess := shareSum s - kennelCapacity s
  if excess = 0 ∨ c.kennelLines = 0 then s
  else
    let v := c.kennelLines - excess
    trimEvent pk 2 c.kennelAdmitted v (fun c => { c with kennelLines := v }) s

/-! ### Restoration (R298) -/

/-- The greatest floor that fits, up to the admitted one. -/
def floorRoom (s : State) (pk : Fin 4 × Fin 8) : Nat :=
  let c := classAt s pk
  if c.target ≠ 0 then c.floorAdmitted else max c.floor (min c.floorAdmitted (largestCharge s pk c.scope))

/-- Whether a removed target fits again: the ceiling is charged in place of the floor. -/
def targetRoom (s : State) (pk : Fin 4 × Fin 8) : Bool :=
  let c := classAt s pk
  decide (c.target = 0) && decide (c.targetAdmitted ≠ 0) && decide (c.ceiling ≤ largestCharge s pk c.scope)

def shareRoom (s : State) (pk : Fin 4 × Fin 8) : Nat :=
  let c := classAt s pk
  min c.kennelAdmitted (c.kennelLines + (kennelCapacity s - shareSum s))

/-- The start of the time for which room has lasted: kept while it lasts, begun anew by a drop of the ledger. -/
def roomKept (now : Nat) (dropped room : Bool) (old : Option Nat) : Option Nat :=
  if !room then none else if dropped then some now else some (old.getD now)

/-- The room of one port-class's guarantees noted. -/
def noteClass (dropped : Bool) (s : State) (pk : Fin 4 × Fin 8) : State :=
  let c := classAt s pk
  let floor := decide (c.floor < floorRoom s pk)
  let target := targetRoom s pk
  let share := decide (c.kennelLines < shareRoom s pk)
  modClass pk.1 pk.2 (fun c => { c with
    floorRoomAt := roomKept s.hubTimer dropped floor c.floorRoomAt
    targetRoomAt := roomKept s.hubTimer dropped target c.targetRoomAt
    shareRoomAt := roomKept s.hubTimer dropped share c.shareRoomAt }) s

/-- The room of every trimmed guarantee noted; `dropped` begins every wait anew (R298). -/
def noteRooms (dropped : Bool) (s : State) : State := trimOrder.foldl (noteClass dropped) s

/-- Whether room noted at a time has lasted for restore_hold_s. -/
def roomHeld (s : State) : Option Nat → Bool
  | some t => decide (t + s.params.restoreHoldS * secondNs ≤ s.hubTimer)
  | none => false

/-- The earliest time at which room was noted, of every trimmed guarantee. -/
def firstRoom (s : State) : Option Nat :=
  let ts := (trimOrder.map fun pk =>
    let c := classAt s pk
    [c.floorRoomAt, c.targetRoomAt, c.shareRoomAt].filterMap id).flatten
  match ts with
  | [] => none
  | t :: ts => some (ts.foldl min t)

/-- One guarantee restored, with its event once it is at its admitted value. -/
def restoreEvent (pk : Fin 4 × Fin 8) (kind : Nat) (whole : Bool) (f : PortClass → PortClass) (s : State) : State :=
  let s := modClass pk.1 pk.2 f s
  if whole then raise 0x6012 1 pk.1 [itClass pk.2, itReason kind] s else s

/-- One port-class of the restoration: its floor, its target, its Kennel share, each if its room has lasted and still
stands. -/
def restoreClass (s : State) (pk : Fin 4 × Fin 8) : State :=
  let c := classAt s pk
  let v := floorRoom s pk
  let s :=
    if roomHeld s c.floorRoomAt ∧ c.floor < v then
      restoreEvent pk 0 (decide (v = c.floorAdmitted)) (fun c => { refillClass s.hubTimer c with floor := v }) s
    else s
  let s :=
    if roomHeld s c.targetRoomAt ∧ targetRoom s pk then
      restoreEvent pk 1 true (fun c => { c with target := c.targetAdmitted }) s
    else s
  let n := shareRoom s pk
  if roomHeld s c.shareRoomAt ∧ c.kennelLines < n then
    restoreEvent pk 2 (decide (n = c.kennelAdmitted)) (fun c => { c with kennelLines := n }) s
  else s

/-- The ledger and the Kennel capacity judged again after an input changed: trims, then the new issue scales, and the
start or restart of the restore waits. `before` is the state whose capacities the change may have lowered. -/
def recomputeLedger (before s : State) : State :=
  let dropped := ((List.finRange 32).any fun c => decide (capacityOf s c < capacityAt before c before.channels[c].scalePct)) ||
    decide (kennelCapacity s < kennelCapacity before)
  let s := if ledgerFits s then s else trimOrder.foldl trimClass s
  let s := if shareSum s ≤ kennelCapacity s then s else trimOrder.foldl trimShare s
  noteRooms dropped { s with channels := s.channels.map fun x =>
    { creditChannel s.hubTimer x with scalePct := min x.thermalPct s.thermal.governorPct } }

/-- GUARANTEE_RESTORED: the trimmed guarantees whose room has lasted for restore_hold_s restored in reverse trim order
(R298). -/
def restoreGuarantees (s : State) : State :=
  match firstRoom s with
  | none => s
  | some t => noteRooms false (trimOrder.reverse.foldl restoreClass (passTo (t + s.params.restoreHoldS * secondNs) s))

def execGuaranteeRestored (s : State) : Out := .next (restoreGuarantees s)

/-! ### The port hold limit, panic and misses -/

/-- A request still held at the hold limit completes BUSY, unexecuted (R285). -/
def requestBusy (p : Fin 4) (tag : BitVec 14) (s : State) : State :=
  match s.ports[p].held.find? (fun e => e.req.hdr.tag = tag) with
  | none => s
  | some e =>
    let s := passTo (e.job.arrived + 1000 * s.ports[p].holdLimitUs) s
    let j := { e.job with charge := 0 }
    let s := modPort p (fun x => { x with
      held := x.held.eraseP fun h => h.req.hdr.tag = tag, busyCount := sat32 x.busyCount }) s
    let s := freeSlots p (requestSlots e.opcode e.req) s
    panicCheck p (completeWith j .busy (raiseLimited 0x6016 1 p (fun n => [itCount n]) s))

/-- Partner panic held for panic_max_us is ignored until the partner clears it (R287). -/
def panicStuck (p : Fin 4) (s : State) : State :=
  let x := s.ports[p]
  if x.link.partnerPanic ∧ !x.link.panicIgnored ∧ x.panicMax ≠ 0 then
    raise 0x6015 1 p [] (modLink p (fun l => { l with panicIgnored := true })
      (noteTriggers (passTo (x.link.panicSince + 1000 * x.panicMax) s)))
  else s

def execPartnerPanicStuck (p : Fin 4) (s : State) : Out := .next (panicStuck p s)

/-- The end of a miss window for one port-class (R301). -/
def windowClass (s : State) (pk : Fin 4 × Fin 8) : State :=
  let x := s.ports[pk.1]
  let busy := x.outstanding.any fun e => e.2 == pk.2.val
  let waits := x.held.any fun e => e.reason = .ceiling ∧ e.req.hdr.cls.toNat = pk.2.val
  missReport pk.1 pk.2 <| modClass pk.1 pk.2 (fun c =>
    let miss := decide (c.floor ≠ 0) && c.windowBusy && !c.windowCeiling &&
      decide (100 * c.windowCharge < 95 * c.floor * s.params.missWindowUs)
    { c with
      floorMiss := if miss then sat32 c.floorMiss else c.floorMiss
      sinceFloor := if miss then c.sinceFloor + 1 else c.sinceFloor
      windowCharge := 0
      windowBusy := busy
      windowCeiling := waits }) s

def execMissWindow (s : State) : Out := .next (trimOrder.foldl windowClass s)

end Sys2Proof.Machine
end

