-- ==== Sys2Proof/Machine/Attach.lean ====
section
/-! DEFINITION. Attachment: hello, binding records, port groups and rebinding (R133 to R138, R142, R143), detachment and
the settling of a partner's requests (R139 to R141, R241), and the start of a link session (R118, R149). -/

namespace Sys2Proof.Machine

open Sys2Proof

/-! ### Orphans (R142, R228) -/

/-- Partitions that are orphaned in `after` and not in `before`. -/
def newOrphans (before after : State) : List (Fin 64) :=
  (List.finRange 64).filter fun pd => partitionOrphaned after pd && !partitionOrphaned before pd

/-- How many queues are orphaned in `after` and not in `before`. -/
def newQueueOrphans (before after : State) : Nat :=
  (after.queues.filter fun e => queueOrphaned after e.1 && !queueOrphaned before e.1).length

/-- The events of partitions and queues that a detach orphaned. -/
def raiseOrphans (p : Fin 4) (before s : State) : State :=
  let pds := newOrphans before s
  let n := newQueueOrphans before s
  let s := pds.foldl (fun s (pd : Fin 64) => raise 0x1034 15 pd [] s) s
  if n = 0 then s else raise 0x4014 1 p [itCount n] s

/-! ### Settling (R140, R241) -/

/-- A port's Bobbin requests settled: its unlinked admissions voided and its streams ended. -/
def settleBobbin (p : Fin 4) (s : State) : State :=
  s.queues.foldl (fun s e =>
    let q := e.1
    let s := ((queueAt s q).admissions.filter fun a => a.job.port = p).foldl (fun s a => voidPacket q a s) s
    modQueue q (fun y => { y with streams := y.streams.filter fun t => t.job.port ≠ p }) s) s

/-- A port's requests in channel controllers dropped. -/
def settleChannels (p : Fin 4) (s : State) : State :=
  (List.finRange 32).foldl (fun s c =>
    setRequests c ((s.channels[c].requests).filter fun r => r.job.port ≠ p)
      (modChannel c (fun x => { x with waiting := x.waiting.filter fun w => w.job.port ≠ p }) (noteTrigger c s))) s

/-- Every request of a port settled: what is not committed is cancelled and counted ABORTED. -/
def settlePort (p : Fin 4) (s : State) : State :=
  let s := settleChannels p (settleBobbin p s)
  panicCheck p (modPort p (fun x => { x with
    aborted := x.aborted + x.outstanding.length
    outstanding := [], sending := [], held := [], openWrites := [], fences := []
    records := [], recordsDropped := 0
    classes := x.classes.map fun c => { c with windowBusy := false }
    link := { x.link with
      txData := [], replay := [], ackedNext := x.link.txNext, rxGroup := [], rxSlots := [], rxFilling := none
      slotsFreed := x.link.slotsFreed + heldSlots x + x.link.rxSlots.length
      ackOwed := x.link.ackOwed || decide (heldSlots x + x.link.rxSlots.length ≠ 0)
      partnerPanic := false, panicIgnored := false } }) s)

/-- Detachment of a port's partner with a reason of R139; without one attached nothing happens. -/
def detachPort (p : Fin 4) (reason : Nat) (s : State) : State :=
  if s.ports[p].partnerState ≠ .attached then s
  else
    let after := settlePort p (modPort p (fun x => { x with
      partnerState := .detaching, partner := {}, draining := false }) s)
    raiseOrphans p s (raise 0x1031 1 p [itReason reason] after)

/-- A port out of ACTIVE for good: its partner is detached and the session ends. -/
def portDown (p : Fin 4) (reason : Nat) (s : State) : State :=
  modPort p (fun x => { x with
    partnerState := if x.partnerState = .detaching then .detaching else .down
    link := { x.link with session := false } })
    (detachPort p reason s)

/-! ### Sessions -/

/-- A link session begun as a port enters ACTIVE from DETECT: sequence spaces and credit counts are reset, and the
port's salt counter advances (R118, R149). -/
def startSession (p : Fin 4) (s : State) : State :=
  let s := portDown p 0 s
  let salt := s.salts[p] + 1
  let s := { s with salts := s.salts.set p salt }
  modPort p (fun x => { x with
    partnerState := .linked
    linkedAt := s.hubTimer
    link := { x.link with
      session := true, sealOn := x.link.sealWanted, partnerSealOn := false, keySlot := x.link.sealSlot,
      txSalt := BitVec.ofNat 32 (2 ^ 31 + salt.toNat), rxSalt := 0,
      txNext := 0, rxNext := 0, ackedNext := 0, replay := [], txData := [], replays := 0, nakAt := none,
      ackOwed := false, slotsFreed := 0, slotsTaken := 0, partnerGranted := 0, partnerUnits := 0, lastCredit := 0,
      slotsSent := 0, rxSlots := [], rxFilling := none, rxGroup := [], tagFailed := false, txGroup := [], frame := 0, partnerFrame := 0,
      widthAsked := none, switchFrame := 0, widenAt := none, group := [], partnerPanic := false, panicIgnored := false, lastGood := s.hubTimer } }) s

/-! ### Hello -/

def identOrder (s : State) : Nat := bitsOf s.fuses.ident.toNat 7 0

def identStepping (s : State) : Nat := bitsOf s.fuses.ident.toNat 15 8

def identSerial (s : State) : Nat := bitsOf s.fuses.ident.toNat 127 64

/-- The ports on which an identity is attached. -/
def groupPorts (s : State) (id : Word) : Nat :=
  (List.finRange 4).foldl (fun n p =>
    if s.ports[p].partnerState = .attached ∧ s.ports[p].partner.identity = id then n + 2 ^ p.val else n) 0

/-- The first cause of R135 that a HELLO meets, as its result code. -/
def helloResult (s : State) (p : Fin 4) (m : BitVec 512) : Nat :=
  let x := s.ports[p]
  let n := m.toNat
  let id : Word := BitVec.ofNat 64 (bitsOf n 127 64)
  let key : BitVec 128 := BitVec.ofNat 128 (bitsOf n 255 128)
  let credits := bitsOf n 271 256
  let locked := match x.lockedUntil with | some t => decide (s.hubTimer < t) | none => false
  let bad := decide (id = 0) || decide (1 < bitsOf n 23 16) || decide (bitsOf n 15 8 ≠ 1) ||
    decide (credits < 1024) || decide (4096 < credits) || decide (credits % 128 ≠ 0) ||
    decide (bitsOf n 63 26 ≠ 0) || decide (bitsOf n 511 272 ≠ 0)
  let mismatch :=
    ((List.finRange 64).any fun pd =>
      match s.partitions[pd].binding with
      | some b => decide (b.identity = id) && decide (b.key ≠ key)
      | none => false) ||
    ((List.finRange 4).any fun q =>
      let y := s.ports[q]
      decide (y.partnerState = .attached) && decide (y.partner.identity = id) && decide (y.partner.key ≠ key))
  let conflict := (List.finRange 4).any fun q =>
    let y := s.ports[q]
    decide (q ≠ p) && decide (y.partnerState = .attached) && decide (y.partner.identity = id) &&
      (!bitAt n 24 || !y.partner.grouped)
  if locked then 4 else if bad then 1 else if x.link.sealOn != x.link.partnerSealOn then 5
  else if mismatch then 2 else if conflict then 3 else 0

/-- HELLO_ACK (R134). -/
def helloAck (s : State) (result role rebound : Nat) (id : Word) : List (BitVec 128) :=
  let credits := if result = 0 ∧ role = 0 then 4096 else 0
  slotsOf (natToBytes 64 (0x11 + result * 2 ^ 8 + identOrder s * 2 ^ 16 + identStepping s * 2 ^ 24 +
    groupPorts s id * 2 ^ 32 + rebound * 2 ^ 36 + identSerial s * 2 ^ 64 + credits * 2 ^ 128))

/-- The partner attached: its binding records written, orphans of its identity and key rebound (R142, R143, R228). -/
def attachPartner (p : Fin 4) (m : BitVec 512) (s : State) : Nat × State :=
  let n := m.toNat
  let id : Word := BitVec.ofNat 64 (bitsOf n 127 64)
  let key : BitVec 128 := BitVec.ofNat 128 (bitsOf n 255 128)
  let s1 := modPort p (fun x => { x with
    partnerState := .attached
    partner := { identity := id, key := key, role := bitsOf n 23 16, grouped := bitAt n 24, events := bitAt n 25
                 credits := bitsOf n 271 256 }
    link := { x.link with partnerGranted := bitsOf n 271 256 } }) s
  let s2 := { s1 with partitions := s1.partitions.map fun x =>
    if x.valid ∧ x.owner.getLsbD p ∧ x.binding.isNone then { x with binding := some { identity := id, key := key } } else x }
  let s2 := noteCommit (((List.finRange 64).filter fun pd =>
    s2.partitions[pd].binding.isSome && s1.partitions[pd].binding.isNone).map .binding) s2
  let back := newOrphans s2 s
  let queues := newQueueOrphans s2 s
  let s3 := back.foldl (fun s (pd : Fin 64) => raise 0x1035 15 pd [] s) s2
  (back.length, if queues = 0 then s3 else raise 0x4015 1 p [itCount queues] s3)

/-- A BIND_MISMATCH result counted toward the lockout of R136. -/
def countMismatch (p : Fin 4) (s : State) : State :=
  let x := s.ports[p]
  let recent := x.mismatches.filter fun t => s.hubTimer < t + 60 * secondNs
  if 2 ≤ recent.length then
    raise 0x1033 1 p [] (modPort p (fun x => { x with
      mismatches := [], lockedUntil := some (s.hubTimer + x.link.bindLockoutS * secondNs) }) s)
  else modPort p (fun x => { x with mismatches := recent ++ [s.hubTimer] }) s

/-- The answer to a HELLO on a linked port (R134 to R136). -/
def answerHello (p : Fin 4) (m : BitVec 512) (s : State) : State :=
  let id : Word := BitVec.ofNat 64 (bitsOf m.toNat 127 64)
  let res := helloResult s p m
  let r : Nat × State :=
    if res = 0 then attachPartner p m s
    else if res = 2 then (0, countMismatch p s)
    else if res = 5 then (0, raise 0x1038 1 p [] s)
    else (0, s)
  let s := r.2
  let ack := helloAck s res (bitsOf m.toNat 23 16) r.1 id
  let s := pump p (modLink p (fun l => { l with txMgmt := l.txMgmt ++ [ack] }) s)
  if res = 0 then raise 0x1030 1 p [] s else s

/-- A HELLO received: answered, or kept until a cleanup ends (R137, R141); a port that failed authentication answers
none (R148), and one whose receivers are ignored hears none (R107). -/
def receiveHello (p : Fin 4) (m : BitVec 512) (s : State) : State :=
  let x := s.ports[p]
  if !portLive s p then s
  else if bitsOf m.toNat 7 0 ≠ 0x10 then raise 0x103A 1 p [] s
  else if x.link.authFailed then s
  else
    match x.partnerState with
    | .down => s
    | .detaching => modPort p (fun x => { x with waitingHello := some m }) s
    | .attached => modPort p (fun x => { x with waitingHello := some m }) (detachPort p 7 s)
    | .linked => answerHello p m s

def execHello (p : Fin 4) (msg : BitVec 512) (s : State) : Out := .next (receiveHello p msg s)

/-- No HELLO within hello_timeout_ms of LINKED (R133, R150). -/
def helloTimeout (p : Fin 4) (s : State) : State :=
  let x := s.ports[p]
  if x.partnerState = .linked then
    raise 0x1032 1 p [] (passTo (x.linkedAt + 1000000 * x.link.helloTimeoutMs) s)
  else s

def execHelloTimeout (p : Fin 4) (s : State) : Out := .next (helloTimeout p s)

/-- The end of a binding lockout (R136). -/
def lockoutEnd (p : Fin 4) (s : State) : State :=
  match s.ports[p].lockedUntil with
  | some t => modPort p (fun x => { x with lockedUntil := none }) (passTo t s)
  | none => s

def execBindLockoutEnd (p : Fin 4) (s : State) : Out := .next (lockoutEnd p s)

/-! ### Detach -/

/-- A DETACH message: the port takes no more requests until every one it has received is complete (R140). -/
def receiveDetach (p : Fin 4) (s : State) : State :=
  if s.ports[p].partnerState = .attached then modPort p (fun x => { x with draining := true }) s else s

def execDetach (p : Fin 4) (s : State) : Out := .next (receiveDetach p s)

/-- Whether the last completion of a port has been acknowledged. -/
def drained (x : Port) : Bool :=
  x.outstanding.isEmpty && x.link.txData.isEmpty && !(x.link.replay.any fun f => decide (f.ftype = 1))

/-- DETACH_ACK once the last completion is acknowledged, and the detachment after it (R140). -/
def detachAck (p : Fin 4) (s : State) : State :=
  let x := s.ports[p]
  if x.partnerState = .attached ∧ x.draining ∧ drained x then
    detachPort p 2 (pump p (modLink p (fun l => { l with txMgmt := l.txMgmt ++ [[0x13]] }) s))
  else s

def execDetachAck (p : Fin 4) (s : State) : Out := .next (detachAck p s)

/-- The end of a detach's cleanup; a HELLO that waited for it is answered (R141). -/
def cleanupDone (p : Fin 4) (s : State) : State :=
  let x := s.ports[p]
  if x.partnerState ≠ .detaching then s
  else
    let up := x.link.session
    let s := modPort p (fun x => { x with
      partnerState := if up then .linked else .down, linkedAt := s.hubTimer, waitingHello := none }) s
    match x.waitingHello with
    | some m => if up then receiveHello p m s else s
    | none => s

def execDetachCleanupDone (p : Fin 4) (s : State) : Out := .next (cleanupDone p s)

/-- EVENT_OVERFLOW with the count of records dropped, once the queue has space (R146). -/
def eventOverflow (p : Fin 4) (s : State) : State :=
  let x := s.ports[p]
  if x.recordsDropped ≠ 0 ∧ x.records.length < 64 then
    pump p (raise 0x1039 1 p [itCount x.recordsDropped] (modPort p (fun x => { x with recordsDropped := 0 }) s))
  else s

def execEventOverflow (p : Fin 4) (s : State) : Out := .next (eventOverflow p s)

end Sys2Proof.Machine
end

