-- ==== Sys2Proof/Machine/Lanes.lean ====
section
/-! DEFINITION. Training of a port: its states and timeouts (R83), the gauge steps of R85, stored presets (R564), ordered
sets (R80 to R82, R88 to R91), lane loss and re-add (R92 to R97), forwarded-clock loss (R98, R101) and the loss of all
lanes (R100). -/

namespace Sys2Proof.Machine

open Sys2Proof

/-! ### Lanes and gauges -/

/-- Lane rates of R67, in units of 10 kb/s. -/
def gaugeRate : Gauge → Nat
  | .g10 => 1031250
  | .g25 => 2578125
  | .g53 => 5312500
  | .g106 => 10625000

/-- The thresholds of R84. -/
def gaugeThreshold : Gauge → Nat
  | .g10 => 0
  | .g25 => 0
  | .g53 => 265
  | .g106 => 531

/-- The threshold of a fallback CHECK (R98). -/
def quickThreshold (g : Gauge) : Nat := gaugeThreshold g / 5

/-- The stack's own highest gauge: ordering code (R4), POLICY and the TRIM speed bin (R68). -/
def stackTop (s : State) : Nat :=
  min (if identOrder s = 0x46 then 3 else 2)
    (min (bitsOf s.fuses.policy.toNat 1 0) (if bitsOf s.fuses.trim.toNat 2509 2508 = 0 then 2 else 3))

/-- The parameters of R106 taken for a training, with the gauges that the stack's own limits allow (R68). -/
def latchTraining (s : State) (x : Phy) : Phy :=
  { x with latched := {
      gaugeMax := x.gaugeMax, widthMin := x.widthMin, fckEnable := x.fckEnable, presetMask := x.presetMask
      gaugeMask := BitVec.ofNat 4 (2 ^ (min (stackTop s) x.gaugeMax + 1) - 1)
      fckCap := decide (identOrder s = 0x46) } }

/-- The gauges that the conditions of R68 allow a port to reach. -/
def gaugeAllowed (s : State) (p : Fin 4) (g : Gauge) : Bool :=
  let x := s.ports[p].phy
  decide (g = .g10) ||
    (x.partnerGauges.getLsbD (gaugeCode g) && decide (gaugeCode g ≤ stackTop s) &&
      decide (gaugeCode g ≤ x.latched.gaugeMax) && (!decide (g = .g106) || (x.partnerFck && x.latched.fckEnable)))

/-- The highest gauge a port may reach. -/
def highestGauge (s : State) (p : Fin 4) : Gauge :=
  if gaugeAllowed s p .g106 then .g106 else if gaugeAllowed s p .g53 then .g53
  else if gaugeAllowed s p .g25 then .g25 else .g10

/-- A gauge common to both sides, up to the ceiling latched at CAPS (R106). -/
def gaugeCommon (x : Phy) (g : Gauge) : Bool :=
  decide (g = .g10) || (x.partnerGauges.getLsbD (gaugeCode g) && decide (gaugeCode g ≤ gaugeCode x.highest))

/-- The next common gauge above one. -/
def nextGauge (x : Phy) (g : Gauge) : Option Gauge :=
  [Gauge.g25, .g53, .g106].find? fun h => decide (gaugeCode g < gaugeCode h) && gaugeCommon x h

/-- The highest common gauge below G106 (R98). -/
def fallbackGauge (x : Phy) : Gauge := if gaugeCommon x .g53 then .g53 else if gaugeCommon x .g25 then .g25 else .g10

/-- P:1020 port_state. -/
def portStateCode (x : Phy) : Nat :=
  if x.climb = .recover ∧ x.state ≠ .active ∧ x.state ≠ .disabled ∧ x.state ≠ .test then 8
  else match x.state with
    | .detect => 0
    | .acquire => 1
    | .align => 2
    | .caps => 3
    | .eq => 4
    | .check => 5
    | .switch => 6
    | .active => 7
    | .test => 9
    | .disabled => 10

/-! ### Moves between states -/

/-- c(−2) is held at 0 at the NRZ gauges (R88). -/
def holdTap (g : Gauge) (l : Lane) : Lane := if isNrz g then { l with taps := { l.taps with cm2 := 0 } } else l

/-- A training state entered: its timeout and the counts of sets begin again, and the lanes repeat what it sends. -/
def enterState (p : Fin 4) (st : PortState) (f : Phy → Phy) (s : State) : State :=
  let g := (f s.ports[p].phy).gauge
  modPort p announce
    (mapLanes p (fun _ l => holdTap g { l with sets := 0, acked := false })
      (modPhy p (fun x => f { x with state := st, since := s.hubTimer, judged := false }) s))

def enterAcquire (p : Fin 4) (f : Phy → Phy) (s : State) : State :=
  mapLanes p (fun _ l => { l with locked := false }) (enterState p .acquire f s)

/-- DETECT: the session is over, and training begins again from G10. -/
def toDetect (p : Fin 4) (s : State) : State :=
  modLink p (fun l => { l with session := false })
    (enterState p .detect (fun x => { x with
      gauge := .g10, climb := .up, rxMask := 0, txMask := 0, bestGauge := .g10, bestMask := 0, retried := false
      returning := false, quick := false, stable := 0, rxIdle := false, txIdle := false, loop := none
      test := none }) s)

/-- A port that is not disabled taken out of service: its partner is detached with a reason of R139, its transmitters
idle, and it is in DETECT. A disabled port stays as it is (R107). -/
def dropPort (p : Fin 4) (reason : Nat) (s : State) : State :=
  if s.ports[p].phy.state = .disabled then s else modPort p squelch (toDetect p (portDown p reason s))

/-- SWITCH toward a gauge: GAUGE_SWITCH sent 16 times, on lanes that have left electrical idle, then the transmitters idle
(R83, R91). -/
def startSwitch (p : Fin 4) (g : Gauge) (c : Climb) (s : State) : State :=
  let s := modPort p (fun x => squelch (sendSet 0xA5 (gaugeCode g) 16 (leaveIdle x))) s
  enterState p .switch (fun x => { x with
    previous := x.gauge, target := g, climb := c, txIdle := false, rxIdle := false }) s

/-- RECOVERY: retraining from G10 with stored presets up to the gauge and masks in use at the loss (R83, R564). -/
def enterRecovery (p : Fin 4) (s : State) : State :=
  enterAcquire p (fun x => { x with
    lossGauge := x.gauge, lossRx := x.rxMask, lossTx := x.txMask, climb := .recover, gauge := .g10, quick := false
    retried := false, returning := false, recoverSince := s.hubTimer, stepId := x.stepId + 1, txIdle := false, rxIdle := false }) s

/-- RECOVERY begun again at G10 with the same goal. -/
def restartRecovery (p : Fin 4) (s : State) : State :=
  enterAcquire p (fun x => { x with
    climb := .recover, gauge := .g10, rxMask := x.lossRx, txMask := x.lossTx, quick := false, retried := false
    returning := false, stepId := x.stepId + 1 }) s

/-- Every flit not acknowledged sent again, with the current ack, credit and panic (R121). -/
def replayAll (x : Port) : Port := x.link.replay.foldl (fun y f => putFlit f y) x

/-- ACTIVE: a session continued with a replay, or a new one; the first flit is a STATUS flit (R98, R115, R118). A port
that settles below its highest common gauge or width is GAUGE_LIMITED (R86). -/
def enterActive (p : Fin 4) (s : State) : State :=
  let x := s.ports[p].phy
  let limited := (decide (x.climb = .up) || decide (x.climb = .back)) &&
    (decide (x.gauge ≠ x.highest) || decide (x.rxMask ≠ 0xF) || decide (x.txMask ≠ 0xF))
  let s := modLink p (fun l => { l with position := 0, blocks := 0, group := [] })
    (enterState p .active (fun x => { x with climb := .up, quick := false, retried := false, returning := false }) s)
  let s :=
    if s.ports[p].link.session then
      modSend p (fun x => replayAll (putStatus { x with link := { x.link with lastGood := s.hubTimer } })) s
    else modSend p putStatus (startSession p s)
  let s := if limited then raise 0x1011 1 p [] s else s
  pump p s

/-- Training failed: DETECT. A partner whose session went on through a step-up that `PORT_TRAIN` or R101 began is
detached with reason RETRAIN (R139). -/
def failTraining (p : Fin 4) (s : State) : State := toDetect p (portDown p 9 s)

/-! ### Gauge steps (R85) -/

/-- The lowest preset of the mask, and the next above one. -/
def firstPreset (m : BitVec 8) : Nat := ((List.range 8).find? fun i => m.getLsbD i).getD 0

def nextPreset (m : BitVec 8) (i : Nat) : Nat :=
  ((List.range 8).find? fun k => decide (i < k) && m.getLsbD k).getD (firstPreset m)

/-- EQ entered with the preset each receiver asks for: every tap of coef_req at `apply preset` (R90). -/
def enterEq (p : Fin 4) (retry : Bool) (s : State) : State :=
  let m := s.ports[p].phy.latched.presetMask
  enterState p .eq (fun x => { x with quick := false, retried := retry })
    (mapLanes p (fun _ l => { l with
      askedPreset := if retry then nextPreset m l.askedPreset else firstPreset m
      ask := 0x3F
      standing := 0, echo := false
      rxPass := false, txPass := false }) s)

/-- The port settles on its best gauge and mask. -/
def settleGauge (p : Fin 4) (s : State) : State :=
  let x := s.ports[p].phy
  let s := modPhy p (fun x => { x with rxMask := x.bestMask, txMask := x.bestMask }) s
  if x.gauge = x.bestGauge then enterActive p s else startSwitch p x.bestGauge .back s

/-- The step to the next common gauge, or the end of the climb. -/
def stepUp (p : Fin 4) (s : State) : State :=
  let x := s.ports[p].phy
  match nextGauge x x.gauge with
  | some g => startSwitch p g .up (modPhy p (fun x => { x with retried := false }) s)
  | none => settleGauge p s

/-- The next step of RECOVERY, or ACTIVE at the gauge of the loss (R564). -/
def stepRecover (p : Fin 4) (s : State) : State :=
  let x := s.ports[p].phy
  if gaugeCode x.lossGauge ≤ gaugeCode x.gauge then enterActive p s
  else
    match nextGauge x x.gauge with
    | some g => startSwitch p g .recover s
    | none => enterActive p s

/-- Whether a lane of the masks failed its step. -/
def laneFailed (l : Lane) : Bool := !l.locked || !l.rxPass || !l.txPass

/-- The groups of a mask without a failing lane. -/
def passingGroups (x : Port) (m : BitVec 4) : BitVec 4 :=
  BitVec.ofNat 4 ((List.range 4).foldl (fun n g =>
    if m.getLsbD g && ((List.finRange 16).all fun i => decide (i.val / 4 ≠ g) || !laneFailed x.lanes[i])
    then n + 2 ^ g else n) 0)

/-- The coefficients of the lanes that passed, stored for the gauge (R90), and a run in the lane's calibration record
(R531); no occurrence reports the eye that an EQ finds, and its figures are free values. -/
def storeTaps (p : Fin 4) (s : State) : State :=
  let g := gaugeCode s.ports[p].phy.gauge
  let n := s.drawn
  drawOne (mapLanes p (fun i l =>
    if laneFailed l then l
    else
      { l with
        stored := l.stored.set g (some l.taps), storedPresets := l.storedPresets.set g (some l.askedPreset)
        ltuneCount := sat32 l.ltuneCount, ltuneLast := s.hubTimer
        ltuneEyeMui := (Config.freeAt n (2 * i)).toNat % 1001
        ltuneEyeMv := (Config.freeAt n (2 * i + 1)).toNat % 65536 }) s)

/-- The end of a full gauge step, with the result of its CHECK (R85, R98, R564). A fallback whose one full step leaves
too few lanes enters RECOVERY, a switch back fails training: the spec gives neither an end (DESIGN CHOICE). -/
def stepEnd (p : Fin 4) (s : State) : State :=
  let s := storeTaps p s
  let x := s.ports[p].phy
  let m := passingGroups s.ports[p] (x.rxMask &&& x.txMask)
  let rx := passingGroups s.ports[p] x.rxMask
  let tx := passingGroups s.ports[p] x.txMask
  let enough (a : BitVec 4) : Bool := decide (x.latched.widthMin ≤ maskLanes a)
  match x.climb with
  | .up =>
    if x.gauge = .g10 then
      if enough m then
        stepUp p (modPhy p (fun x => { x with rxMask := m, txMask := m, bestGauge := .g10, bestMask := m }) s)
      else failTraining p s
    else if m ≠ x.rxMask &&& x.txMask ∧ !x.retried then enterEq p true s
    else if enough m ∧ gaugeRate x.bestGauge * maskLanes x.bestMask < gaugeRate x.gauge * maskLanes m then
      stepUp p (modPhy p (fun x => { x with rxMask := m, txMask := m, bestGauge := x.gauge, bestMask := m }) s)
    else settleGauge p s
  | .back =>
    if m ≠ x.rxMask &&& x.txMask ∧ !x.retried then enterEq p true s
    else if enough m then enterActive p (modPhy p (fun x => { x with rxMask := m, txMask := m }) s) else failTraining p s
  | .fallback =>
    if enough rx && enough tx then enterActive p (modPhy p (fun x => { x with rxMask := rx, txMask := tx }) s)
    else enterRecovery p s
  | .recover =>
    if (rx ≠ x.rxMask ∨ tx ≠ x.txMask) ∧ !x.retried then enterEq p true s
    else if enough rx && enough tx then stepRecover p (modPhy p (fun x => { x with rxMask := rx, txMask := tx }) s)
    else restartRecovery p s

/-- The groups of the masks whose lanes hold in EQ on both sides (R83). -/
def heldGroups (x : Port) : BitVec 4 :=
  BitVec.ofNat 4 ((List.range 4).foldl (fun n g =>
    if (x.phy.rxMask &&& x.phy.txMask).getLsbD g &&
        ((List.finRange 16).all fun i => decide (i.val / 4 ≠ g) || (x.lanes[i].acked && decide (x.lanes[i].ask = 0)))
    then n + 2 ^ g else n) 0)

/-- Whether a step's EQ and CHECK may run once more (R85, R98): not at G10 on the way up, and not in a fallback. -/
def mayRetry (x : Phy) : Bool :=
  !x.retried && !decide (x.climb = .fallback) && !(decide (x.climb = .up) && decide (x.gauge = .g10))

/-- A step that no lanes are left for. -/
def stepGone (p : Fin 4) (s : State) : State :=
  let x := s.ports[p].phy
  match x.climb with
  | .up => if x.gauge = .g10 then failTraining p s else settleGauge p s
  | .back => failTraining p s
  | .fallback => enterRecovery p s
  | .recover => restartRecovery p s

/-- The timeout of EQ: the step's lanes that do not hold have failed. EQ runs again from the next preset, or the step goes
on to CHECK without the groups of those lanes (R83, R85). -/
def eqFails (p : Fin 4) (s : State) : State :=
  let x := s.ports[p].phy
  let m := heldGroups s.ports[p]
  if mayRetry x then enterEq p true s
  else if m = 0 ∨ maskLanes m < x.latched.widthMin then stepGone p s
  else enterState p .check (fun y => { y with rxMask := m, txMask := m }) s

/-- The timeout of CHECK: lanes not judged, or not acknowledged by the partner, have failed (R83, R85). -/
def checkFails (p : Fin 4) (s : State) : State :=
  let x := s.ports[p].phy
  let s := mapLanes p (fun _ l => { l with rxPass := l.rxPass && x.judged, txPass := l.txPass && l.acked }) s
  if x.quick then enterEq p false s else stepEnd p s

/-- Every lane of the masks has coefficients stored for the gauge. -/
def hasStored (x : Port) : Bool :=
  (List.finRange 16).all fun i =>
    !(maskHas (x.phy.rxMask ||| x.phy.txMask) i) || ((x.lanes[i].stored.getD (gaugeCode x.phy.gauge) none).isSome)

/-- A step with stored presets: they are applied, and the fallback CHECK follows (R564). -/
def enterQuick (p : Fin 4) (s : State) : State :=
  let g := gaugeCode s.ports[p].phy.gauge
  enterState p .check (fun x => { x with quick := true, retried := false })
    (mapLanes p (fun _ l => match l.stored.getD g none with
      | some t => { l with
          taps := t, askedPreset := (l.storedPresets.getD g none).getD l.askedPreset, ask := 0
          rxPass := false, txPass := false }
      | none => { l with rxPass := false, txPass := false }) s)

/-- What follows ALIGN: CAPS once at G10, EQ, or a fallback CHECK. -/
def afterAlign (p : Fin 4) (s : State) : State :=
  let x := s.ports[p].phy
  match x.climb with
  | .up => if x.gauge = .g10 then enterState p .caps id s else enterEq p false s
  | .recover =>
    if x.gauge = .g10 then stepRecover p s
    else if hasStored s.ports[p] then enterQuick p s else enterEq p false s
  | .fallback => if hasStored s.ports[p] then enterQuick p s else enterEq p false s
  | .back => if hasStored s.ports[p] then enterQuick p s else enterEq p false s

/-! ### Events of the training states -/

/-- A repetition of receiver detect in DETECT (R83, R108). -/
def receiverDetect (p : Fin 4) (activity : BitVec 16) (s : State) : State :=
  let x := s.ports[p].phy
  if portLive s p ∧ x.state = .detect then
    let s := passTo (x.since + 1000000) s
    if activity = 0 then
      modPhy p (fun x => { x with since := s.hubTimer, acquireTimeouts := 0, trainFailedRaised := false }) s
    else enterAcquire p (fun x => latchTraining s { x with gauge := .g10, climb := .up, stepId := 0 }) s
  else s

def execReceiverDetect (p : Fin 4) (activity : BitVec 16) (s : State) : Out := .next (receiverDetect p activity s)

/-- ACQUIRE for 12 ms: DETECT, or in RECOVERY G10 again; the third timeout of a run raises TRAIN_FAILED (R83, R108). -/
def acquireTimeout (p : Fin 4) (s : State) : State :=
  let x := s.ports[p].phy
  if portLive s p ∧ x.state = .acquire then
    let s := passTo (x.since + 12000000) s
    if x.climb = .recover then restartRecovery p s
    else
      let n := x.acquireTimeouts + 1
      let s := failTraining p (modPhy p (fun x => { x with acquireTimeouts := n }) s)
      if 3 ≤ n ∧ !x.trainFailedRaised then
        raise 0x1010 1 p [] (modPhy p (fun x => { x with trainFailedRaised := true }) s)
      else s
  else s

def execAcquireTimeout (p : Fin 4) (s : State) : Out := .next (acquireTimeout p s)

/-- A timeout of a state, in ns, with what follows it. -/
def stateTimeout (p : Fin 4) (st : PortState) (ns : Nat) (f : State → State) (s : State) : State :=
  let x := s.ports[p].phy
  if portLive s p ∧ x.state = st then f (passTo (x.since + ns) s) else s

def execAlignTimeout (p : Fin 4) (s : State) : Out := .next (stateTimeout p .align 4000000 (enterAcquire p id) s)

def execCapsTimeout (p : Fin 4) (s : State) : Out := .next (stateTimeout p .caps 4000000 (enterAcquire p id) s)

def execEqTimeout (p : Fin 4) (s : State) : Out := .next (stateTimeout p .eq 16000000 (eqFails p) s)

def execCheckTimeout (p : Fin 4) (s : State) : Out := .next (stateTimeout p .check 8000000 (checkFails p) s)

/-- SWITCH for 4 ms: the step fails and the port returns to the previous gauge (R83). On the way up that gauge is the
best so far, and the step there is the switch back. A return that fails too is the end of what the port climbed for. -/
def switchFails (p : Fin 4) (s : State) : State :=
  let x := s.ports[p].phy
  let back (c : Climb) (s : State) : State := startSwitch p x.previous c (modPhy p (fun y => { y with returning := true }) s)
  if x.returning then
    match x.climb with
    | .up => failTraining p s
    | .back => failTraining p s
    | .fallback => enterRecovery p s
    | .recover => restartRecovery p s
  else
    match x.climb with
    | .up => back .back (modPhy p (fun y => { y with rxMask := y.bestMask, txMask := y.bestMask }) s)
    | c => back c s

def execSwitchTimeout (p : Fin 4) (s : State) : Out := .next (stateTimeout p .switch 4000000 (switchFails p) s)

/-- A gauge that its clocks can hold: all but G106 run from `REFCLK` (R69, R415). -/
def clocked (s : State) (g : Gauge) : Bool := decide (s.device.refclk ≠ 1) || decide (g = .g106)

/-- Lock at the new gauge: ACQUIRE there (R83). -/
def newGaugeLock (p : Fin 4) (s : State) : State :=
  let x := s.ports[p].phy
  if portLive s p ∧ x.state = .switch ∧ clocked s x.target then
    enterAcquire p (fun x => { x with gauge := x.target, stepId := x.stepId + 1, returning := false }) s
  else s

def execNewGaugeLock (p : Fin 4) (s : State) : Out := .next (newGaugeLock p s)

/-- Whether every lane of a mask passes a test. -/
def lanesAll (x : Port) (m : BitVec 4) (f : Lane → Bool) : Bool :=
  (List.finRange 16).all fun i => !maskHas m i || f x.lanes[i]

/-- The lanes of the receive mask judged on their error counts; TS_CHECK carries the verdicts to the partner. -/
def judgeLanes (p : Fin 4) (threshold : Nat) (errors : List Nat) (s : State) : State :=
  let m := s.ports[p].phy.rxMask
  modPort p announce
    (modPhy p (fun x => { x with judged := true })
      (mapLanes p (fun i l =>
        let e := errors.getD i 0
        { l with errCount := min e 65535, rxPass := !maskHas m i || decide (e ≤ threshold)
                 txPass := l.txPass || !maskHas s.ports[p].phy.txMask i }) s))

/-- The end of a fallback CHECK: with every lane of the masks passing on both sides the port goes on, and otherwise a
full step follows (R98, R564). -/
def quickEnd (p : Fin 4) (s : State) : State :=
  let x := s.ports[p]
  let pass := lanesAll x x.phy.rxMask (fun l => l.locked && l.rxPass) && lanesAll x x.phy.txMask (·.txPass)
  if !pass then enterEq p false s
  else if x.phy.climb = .recover then stepRecover p s
  else enterActive p s

/-- CHECK is left once its window is judged and TS_CHECK with ack = 1 has come on every lane (R83). -/
def checkDone (p : Fin 4) (s : State) : State :=
  let x := s.ports[p]
  if x.phy.judged && lanesAll x x.phy.rxMask (·.acked) then (if x.phy.quick then quickEnd p s else stepEnd p s) else s

/-- The 5 ms error count of CHECK (R84). -/
def checkWindowEnd (p : Fin 4) (errors : List Nat) (s : State) : State :=
  let x := s.ports[p].phy
  if portLive s p ∧ x.state = .check ∧ !x.quick ∧ clocked s x.gauge then
    checkDone p (judgeLanes p (gaugeThreshold x.gauge) errors (passTo (x.since + 5000000) s))
  else s

def execCheckWindowEnd (p : Fin 4) (errors : List Nat) (s : State) : Out := .next (checkWindowEnd p errors s)

/-- The 1 ms error count of the fallback CHECK (R98, R564). -/
def fallbackCheckEnd (p : Fin 4) (errors : List Nat) (s : State) : State :=
  let x := s.ports[p].phy
  if portLive s p ∧ x.state = .check ∧ x.quick ∧ clocked s x.gauge then
    checkDone p (judgeLanes p (quickThreshold x.gauge) errors (passTo (x.since + 1000000) s))
  else s

def execFallbackCheckEnd (p : Fin 4) (errors : List Nat) (s : State) : Out := .next (fallbackCheckEnd p errors s)

/-! ### Received ordered sets -/

def osKind (os : BitVec 128) : Nat := bitsOf os.toNat 7 0

def osStep (os : BitVec 128) : Nat := bitsOf os.toNat 71 56

def osAck (os : BitVec 128) : Bool := os.getLsbD 21

/-- A set that R82 keeps: a listed kind and a good CRC. -/
def osGood (os : BitVec 128) : Bool :=
  decide (crc16 0xFFFF (natToBytes 14 os.toNat) = bitsOf os.toNat 127 112) &&
    decide (0xA1 ≤ osKind os) && decide (osKind os ≤ 0xAA)

/-- A set whose step the port has left behind, modulo 65,536 (R80). -/
def osStale (x : Phy) (os : BitVec 128) : Bool :=
  let d := (x.stepId.toNat + 65536 - osStep os) % 65536
  decide (0 < d) && decide (d < 32768)

/-- A set counted on its lane: one of another kind or step begins a new run (R80). -/
def countSet (os : BitVec 128) (l : Lane) : Lane :=
  let same := decide (l.setKind = osKind os) && decide (l.setStep.toNat = osStep os)
  { l with
    sets := if same then min 8 (l.sets + 1) else 1
    setKind := osKind os
    setStep := BitVec.ofNat 16 (osStep os) }

/-- The partner's ack of the state's sets. -/
def noteAck (p : Fin 4) (lane : Fin 16) (ack : Bool) (s : State) : State :=
  modLane p lane (fun l => { l with acked := l.acked || ack }) s

/-- Groups of a port whose four lanes pass a test, retired groups left out. -/
def groupsWith (x : Port) (f : Lane → Bool) : BitVec 4 :=
  BitVec.ofNat 4 ((List.range 4).foldl (fun n g =>
    if !x.phy.retired.getLsbD g && ((List.finRange 16).all fun i => decide (i.val / 4 ≠ g) || f x.lanes[i])
    then n + 2 ^ g else n) 0)

/-- The groups that ACQUIRE may lock: all at the first training at G10, and those of the receive mask afterwards (R83,
R85). -/
def acquireGroups (x : Phy) (locked : BitVec 4) : BitVec 4 :=
  if x.climb = .up ∧ x.gauge = .g10 then locked else locked &&& x.rxMask

/-- TS1 in ACQUIRE and ALIGN: a swapped pair is corrected, on a data lane or the FCK pair (R66, R83). -/
def receiveTs1 (p : Fin 4) (lane : Fin 16) (inverted fckInverted : Bool) (os : BitVec 128) (s : State) : State :=
  let st := s.ports[p].phy.state
  if st = .acquire then
    let s := modPhy p (fun x => { x with fckSwapped := fckInverted })
      (modLane p lane (fun l => { l with
        locked := true, swapped := inverted, partnerLane := bitsOf os.toNat 11 8 }) s)
    let x := s.ports[p]
    let locked := acquireGroups x.phy (groupsWith x (·.locked))
    if x.phy.latched.widthMin ≤ maskLanes locked ∧ lanesAll x locked (fun l => decide (l.sets = 8) && decide (l.setKind = 0xA1)) then
      enterState p .align (fun y => { y with
        rxMask := locked
        txMask := if y.climb = .up ∧ y.gauge = .g10 then locked else y.txMask
        acquireTimeouts := 0, trainFailedRaised := false, loop := none }) s
    else s
  else if st = .align then
    let s := noteAck p lane (osAck os) s
    let x := s.ports[p]
    if lanesAll x x.phy.rxMask (·.acked) then
      let straight := (List.finRange 16).all fun i => !maskHas x.phy.rxMask i || decide (x.lanes[i].partnerLane = i.val)
      let reversed := (List.finRange 16).all fun i => !maskHas x.phy.rxMask i || decide (x.lanes[i].partnerLane = 15 - i.val)
      if straight || reversed then afterAlign p (modPhy p (fun y => { y with reversed := reversed && !straight }) s) else s
    else s
  else s

/-- TS2 in CAPS (R68, R83). -/
def receiveTs2 (p : Fin 4) (lane : Fin 16) (os : BitVec 128) (s : State) : State :=
  if s.ports[p].phy.state = .caps then
    let n := os.toNat
    let s := modPhy p (fun x => { x with
      partnerGauges := BitVec.ofNat 4 (bitsOf n 17 14), partnerFck := bitAt n 18, partnerPrecode := bitAt n 19
      partnerReversal := bitAt n 20 }) (noteAck p lane (osAck os) s)
    let x := s.ports[p]
    if lanesAll x x.phy.rxMask (·.acked) then
      enterEq p false (modPhy p (fun y => { y with highest := highestGauge s p, bestMask := 0, bestGauge := .g10 }) s)
    else s
  else s

/-- The taps of a preset in steps of 1/64 (R89). -/
def presetTaps (g : Gauge) (i : Nat) : Taps :=
  let c : Int × Int × Int :=
    if i = 0 then (0, 0, 0) else if i = 1 then (0, 0, -8) else if i = 2 then (0, 0, -16) else if i = 3 then (0, -4, -8)
    else if i = 4 then (0, -8, -8) else if i = 5 then (0, -8, -16) else if i = 6 then (4, -12, -4) else (4, -12, -12)
  { cm2 := if isNrz g then 0 else c.1, cm1 := c.2.1, cp1 := c.2.2 }

/-- The limits of R88. -/
def tapsLegal (g : Gauge) (t : Taps) : Bool :=
  decide (t.cm2.natAbs ≤ (if isNrz g then 0 else 8)) && decide (t.cm1.natAbs ≤ 16) && decide (t.cp1.natAbs ≤ 24) &&
    decide (t.cm2.natAbs + t.cm1.natAbs + t.cp1.natAbs ≤ 32)

/-- One tap's request: a step taken within the limits, or its limit bit set (R88). -/
def stepTap (g : Gauge) (req bit : Nat) (move : Int → Taps → Taps) (l : Lane) : Lane :=
  if req = 1 ∨ req = 2 then
    let t := move (if req = 1 then 1 else -1) l.taps
    if tapsLegal g t then { l with taps := t, limit := l.limit &&& ~~~(1#3 <<< bit) }
    else { l with limit := l.limit ||| (1#3 <<< bit) }
  else l

/-- The partner's requests applied to the transmitter of a lane (R88 to R90). A preset is a set of all taps, so `apply preset`
on any one tap applies it whole: the spec gives no other sense to the value on one tap alone (DESIGN CHOICE). -/
def applyRequests (g : Gauge) (os : BitVec 128) (l : Lane) : Lane :=
  let n := os.toNat
  let a := bitsOf n 30 29
  let b := bitsOf n 32 31
  let c := bitsOf n 34 33
  if a = 3 ∨ b = 3 ∨ c = 3 then { l with taps := presetTaps g (bitsOf n 28 26), limit := 0 }
  else
    stepTap g c 2 (fun d t => { t with cp1 := t.cp1 + d })
      (stepTap g b 1 (fun d t => { t with cm1 := t.cm1 + d })
        (stepTap g a 0 (fun d t => { t with cm2 := t.cm2 + d }) l))

/-- A TS_EQ set's request, preset and coef_req: applied as it comes, its ack echoed while it stands, and taken as done
where a further copy of it arrives (R90). -/
def takeRequest (g : Gauge) (os : BitVec 128) (l : Lane) : Lane :=
  let q := BitVec.ofNat 9 (bitsOf os.toNat 34 26)
  { (if q = l.standing then l else applyRequests g os l) with standing := q, echo := osAck os }

/-- TS_EQ in EQ: the partner's requests are applied, and the lane's receiver asks its next one. EQ is left when both
sides send ack = 1 with every request at hold (R83, R90). -/
def receiveTsEq (p : Fin 4) (lane : Fin 16) (ask : BitVec 6) (os : BitVec 128) (s : State) : State :=
  let x := s.ports[p].phy
  if x.state = .eq then
    let holds := decide (bitsOf os.toNat 34 29 = 0)
    let s := modLane p lane (fun l => { takeRequest x.gauge os l with ask := ask, acked := osAck os && holds }) s
    if lanesAll s.ports[p] x.rxMask (fun l => l.acked && decide (l.ask = 0) && laneAck x 0xA3 l) then enterState p .check id s
    else s
  else s

/-- TS_CHECK in CHECK: the partner's verdict on a lane of the stack's (R83). -/
def receiveTsCheck (p : Fin 4) (lane : Fin 16) (os : BitVec 128) (s : State) : State :=
  if s.ports[p].phy.state = .check then
    checkDone p (modLane p lane (fun l => { l with txPass := os.getLsbD 38 }) (noteAck p lane (osAck os) s))
  else s

/-- GAUGE_SWITCH at the end of CHECK: the port follows to the target gauge (R81, R83). -/
def receiveGaugeSwitch (p : Fin 4) (os : BitVec 128) (s : State) : State :=
  let x := s.ports[p].phy
  let g := gaugeOf (bitsOf os.toNat 73 72)
  if (x.state = .check ∨ x.state = .active) ∧ gaugeCommon x g ∧ g ≠ x.gauge then
    startSwitch p g (if x.climb = .recover then .recover else if gaugeCode g < gaugeCode x.gauge then .back else .up)
      (modPhy p (fun x => { x with
        bestGauge := if x.state = .active then x.gauge else x.bestGauge
        bestMask := if x.state = .active then x.rxMask &&& x.txMask else x.bestMask }) s)
  else s

/-- Loss of all lanes reported: the partner is detached with reason LANES, and the port trains from DETECT (R100). -/
def lanesLostAll (p : Fin 4) (s : State) : State :=
  toDetect p (portDown p 1 (raise 0x1018 1 p [] s))

/-- The fallback of R98 from G106. -/
def startFallback (p : Fin 4) (s : State) : State :=
  let s := raise 0x1016 1 p [] (modPhy p (fun x => { x with fckLost := true }) s)
  startSwitch p (fallbackGauge s.ports[p].phy) .fallback s

/-- A fallback begun, or while `REFCLK` is absent the loss of all lanes reported (R98, R415). -/
def fallBack (p : Fin 4) (s : State) : State :=
  if s.device.refclk = 1 then
    lanesLostAll p (raise 0x1016 1 p [] (modPhy p (fun x => { x with fckLost := true }) s))
  else startFallback p s

/-- FCK_DOWN at G106: the port falls back with its partner (R98). -/
def receiveFckDown (p : Fin 4) (s : State) : State :=
  let x := s.ports[p].phy
  if x.state = .active ∧ x.gauge = .g106 then fallBack p s else s

/-- LOOP_REQ in ACQUIRE (R81, R102): the far-end loop sends each lane's input back, and a near-end loop, which the table
numbers too, leaves the transmitters idle. That a partner may ask for those is the model's reading (DESIGN CHOICE). -/
def receiveLoop (p : Fin 4) (os : BitVec 128) (s : State) : State :=
  let k := bitsOf os.toNat 73 72
  if s.ports[p].phy.state = .acquire ∧ k < 3 then
    modPort p announce (modPhy p (fun x => { x with loop := some k }) s)
  else s

/-- What a lane in a far-end loop receives goes out on the same lane (R102). -/
def loopBack (x : Phy) (os : BitVec 128) (l : Lane) : Lane := if l.tx = .looped then putSet x os l else l

/-- What a kept set does in the port's state. -/
def actOnSet (p : Fin 4) (lane : Fin 16) (inverted fckInverted : Bool) (ask : BitVec 6) (os : BitVec 128) (s : State) :
    State :=
  let kind := osKind os
  let x := s.ports[p].phy
  if kind = 0xA1 then receiveTs1 p lane inverted fckInverted os s
  else if kind = 0xA2 then receiveTs2 p lane os s
  else if kind = 0xA3 then receiveTsEq p lane ask os s
  else if kind = 0xA4 then receiveTsCheck p lane os s
  else if kind = 0xA5 then receiveGaugeSwitch p os s
  else if kind = 0xA6 then (if x.state = .active then modPhy p (fun x => { x with rxIdle := true }) s else s)
  else if kind = 0xA7 then (if x.state = .active then modPhy p (fun x => { x with rxIdle := false }) s else s)
  else if kind = 0xA8 then receiveFckDown p s
  else if kind = 0xA9 then receiveLoop p os s
  else s

/-- A received ordered set: discarded and counted under R82, ignored where its step is stale or the receivers have no
clock (R69), or counted on its lane (R80) and acted on; the lanes then repeat what the port has come to send. -/
def receiveSet (p : Fin 4) (lane : Fin 16) (inverted fckInverted : Bool) (ask : BitVec 6) (os : BitVec 128) (s : State) :
    State :=
  let x := s.ports[p].phy
  if !portLive s p || !clocked s x.gauge then s
  else if !osGood os then
    modLane p lane (fun l => { l with osDiscard := min 65535 (l.osDiscard + 1), sets := 0 }) s
  else if osStale x os then s
  else
    let s := modLane p lane (fun l => loopBack x os (countSet os l)) s
    modPort p announce (actOnSet p lane inverted fckInverted ask os s)

def execTs1 (p : Fin 4) (lane : Fin 16) (inverted : Swaps) (os : BitVec 128) (s : State) : Out :=
  .next (receiveSet p lane inverted.lane inverted.fck 0 os s)

def execTs2 (p : Fin 4) (lane : Fin 16) (os : BitVec 128) (s : State) : Out :=
  .next (receiveSet p lane false false 0 os s)

def execTsEq (p : Fin 4) (lane : Fin 16) (os : EqSet) (s : State) : Out :=
  .next (receiveSet p lane false false os.ask os.os s)

def execTsCheck (p : Fin 4) (lane : Fin 16) (os : BitVec 128) (s : State) : Out :=
  .next (receiveSet p lane false false 0 os s)

def execGaugeSwitch (p : Fin 4) (lane : Fin 16) (os : BitVec 128) (s : State) : Out :=
  .next (receiveSet p lane false false 0 os s)

def execIdleEnter (p : Fin 4) (lane : Fin 16) (os : BitVec 128) (s : State) : Out :=
  .next (receiveSet p lane false false 0 os s)

def execIdleExit (p : Fin 4) (lane : Fin 16) (os : BitVec 128) (s : State) : Out :=
  .next (receiveSet p lane false false 0 os s)

def execFckDown (p : Fin 4) (lane : Fin 16) (os : BitVec 128) (s : State) : Out :=
  .next (receiveSet p lane false false 0 os s)

def execLoopReq (p : Fin 4) (lane : Fin 16) (os : BitVec 128) (s : State) : Out :=
  .next (receiveSet p lane false false 0 os s)

def execAlign (p : Fin 4) (lane : Fin 16) (os : BitVec 128) (s : State) : Out :=
  .next (receiveSet p lane false false 0 os s)

/-! ### Electrical idle (R91, R139) -/

/-- Whether a transmitter has nothing to send: no flit, no acknowledgement and no credit. -/
def txQuiet (x : Port) : Bool :=
  !x.link.ackOwed && x.link.txMgmt.isEmpty && x.records.isEmpty &&
    (x.link.txData.isEmpty || decide (creditAvailable x.link = 0))

/-- IDLE_ENTER on every active lane, then squelch, once there has been nothing to send for idle_entry_ns. -/
def idleEntry (p : Fin 4) (s : State) : State :=
  let x := s.ports[p]
  if portLive s p ∧ x.phy.state = .active ∧ !x.phy.txIdle ∧ x.phy.idleEntryNs ≠ 0 ∧ txQuiet x then
    modPort p (fun x =>
      let y := squelch (sendSet 0xA6 0 1 x)
      announce { y with phy := { y.phy with txIdle := true } }) s
  else s

def execElectricalIdleEntry (p : Fin 4) (s : State) : Out := .next (idleEntry p s)

/-- An idle direction leaves idle to send a STATUS flit at least every 100 µs; one that is not idle sends one in every
frame (R115, R139). -/
def heartbeatStatus (p : Fin 4) (s : State) : State :=
  if portLive s p ∧ s.ports[p].phy.state = .active then pump p (modSend p leaveIdle s) else s

def execHeartbeatStatus (p : Fin 4) (s : State) : Out := .next (heartbeatStatus p s)

/-! ### Lane loss and re-add (R92 to R97) -/

/-- A group out of the active width counted, and retired at its limit within 24 h (R97). -/
def countLoss (p : Fin 4) (g : Nat) (s : State) : State :=
  let x := s.ports[p].phy
  let recent := (x.losses.filter fun e => s.hubTimer < e.2 + 24 * hourNs) ++ [(g, s.hubTimer)]
  let s := modPhy p (fun x => { x with losses := recent }) s
  if x.flapLimit ≤ (recent.filter fun e => e.1 = g).length ∧ !x.retired.getLsbD g then
    raise 0x1015 1 p [] (modPhy p (fun x => { x with retired := x.retired ||| (1#4 <<< g) }) s)
  else s

/-- A narrowing of the receive direction asked of the partner: the flit that names the mask (R93, R129). It takes the
place of any change asked before (R95, R130). -/
def askNarrow (p : Fin 4) (m : BitVec 4) (s : State) : State :=
  modSend p (fun x =>
    let y := leaveIdle { x with phy := { x.phy with rxMask := m }, link := { x.link with widthAsked := some (m, false) } }
    putLink [widthMessage m false 0] (announce y)) s

/-- A widening of the receive direction waits for its frame (R96). -/
def readdPending (l : LinkState) : Bool := match l.widthAsked with | some (_, true) => true | _ => false

/-- The stable timers of groups that have passed CHECK begun again (R95). -/
def restartStable (now : Nat) (x : Phy) : Phy := { x with stableSince := x.stableSince.map fun _ => now }

/-- A lane of the receive direction lost (R92, R93, R95). A loss cancels a re-add in progress, and the stable timers begin
again; a group that loses its own lock must pass CHECK again. -/
def rxLaneLost (p : Fin 4) (lane : Fin 16) (s : State) : State :=
  let s := modLane p lane (fun l => { l with locked := false }) s
  let x := s.ports[p].phy
  let g := lane.val / 4
  let pending := readdPending s.ports[p].link
  if x.state ≠ .active then s
  else if x.rxMask.getLsbD g then
    let m := x.rxMask &&& ~~~(1#4 <<< g)
    let s := countLoss p g (raise 0x1012 2 (16 * p.val + lane.val) [] (modPhy p (restartStable s.hubTimer) s))
    if m = 0 ∨ maskLanes m < x.latched.widthMin then enterRecovery p s
    else raise 0x1013 1 p [] (askNarrow p m s)
  else
    let s := modPhy p (fun y =>
      let z := if pending then restartStable s.hubTimer y else y
      { z with stable := y.stable &&& ~~~(1#4 <<< g) }) s
    if pending then askNarrow p x.rxMask s else s

/-- Sixteen invalid headers within some 64 consecutive blocks (R76). -/
def blockLockLost (headers : List (BitVec 2)) : Bool :=
  (List.range headers.length).any fun i =>
    decide (16 ≤ (((headers.drop i).take 64).filter fun h => decide (h = 0) || decide (h = 3)).length)

/-- A cause that lasts 400 ns loses the lane (R92). -/
def causeLoses : LossCause → Bool
  | .cdr => true
  | .headers hs => blockLockLost hs
  | .corrected n => decide (32 < n)

/-- A lane loss. A loss on a transmit lane is found by the partner, and reaches the stack as WIDTH_CHANGE (R94). -/
def laneLost (p : Fin 4) (d : Dir) (lane : Fin 16) (cause : LossCause) (s : State) : State :=
  if portLive s p ∧ d = .rx ∧ causeLoses cause then rxLaneLost p lane s else s

def execLaneLost (p : Fin 4) (d : Dir) (lane : LostLane) (s : State) : Out :=
  .next (laneLost p d lane.lane lane.cause s)

/-- WIDTH_CHANGE received (R93, R129, R130). A mask of 0 is taken as a protocol error, and a repeat of a narrowing that
is in force is acted on again: the spec says neither (DESIGN CHOICE). A transmit direction left below width_min enters
RECOVERY (R95); one in electrical idle leaves it for its replay (R115). -/
def receiveWidth (p : Fin 4) (msg : BitVec 128) (s : State) : State :=
  let n := msg.toNat
  let m : BitVec 4 := BitVec.ofNat 4 (bitsOf n 11 8)
  let widen := bitAt n 12
  let x := s.ports[p]
  if !portLive s p ∨ x.phy.state ≠ .active then s
  else if bitsOf n 7 0 ≠ 3 ∨ bitsOf n 127 21 ≠ 0 ∨ m = 0 ∨ (!widen ∧ bitsOf n 20 13 ≠ 0) then raise 0x103A 1 p [] s
  else if widen then
    raise 0x1013 1 p [] (modLink p (fun l => { l with widenAt := some (m, BitVec.ofNat 8 (bitsOf n 20 13)) }) s)
  else if maskLanes m < x.phy.latched.widthMin then enterRecovery p s
  else
    raise 0x1013 1 p [] (modSend p (fun x =>
      let y := fillGroup x
      replayAll (leaveIdle (announce { y with
        phy := { y.phy with txMask := m }, link := { y.link with widenAt := none } }))) s)

def execWidthChange (p : Fin 4) (msg : BitVec 128) (s : State) : Out := .next (receiveWidth p msg s)

/-- A narrowing WIDTH_CHANGE repeated until a good flit arrives at the new width (R130). -/
def widthRepeat (p : Fin 4) (s : State) : State :=
  match s.ports[p].link.widthAsked with
  | some (m, false) =>
    if portLive s p ∧ s.ports[p].phy.state = .active then
      modSend p (fun x => putLink [widthMessage m false 0] (leaveIdle x)) s
    else s
  | _ => s

def execWidthChangeRepeat (p : Fin 4) (s : State) : Out := .next (widthRepeat p s)

/-- An excluded group retrained in the background: it passes CHECK, or is tried again (R96, R97). -/
def groupRetrain (p : Fin 4) (d : Dir) (g : Fin 4) (errors : List Nat) (s : State) : State :=
  let x := s.ports[p].phy
  if portLive s p ∧ d = .rx ∧ x.state = .active ∧ !x.rxMask.getLsbD g ∧ !x.retired.getLsbD g then
    let pass := (List.range 4).all fun i => decide (errors.getD i 0 ≤ gaugeThreshold x.gauge)
    let bit : BitVec 4 := 1#4 <<< g.val
    let s := mapLanes p (fun i l => if i / 4 = g.val then { l with locked := pass } else l) s
    modPhy p (fun x => { x with
      stable := if pass then x.stable ||| bit else x.stable &&& ~~~bit
      stableSince := if pass && !x.stable.getLsbD g then x.stableSince.set g s.hubTimer else x.stableSince }) s
  else s

def execGroupRetrain (p : Fin 4) (d : Dir) (g : Fin 4) (errors : List Nat) (s : State) : Out :=
  .next (groupRetrain p d g errors s)

/-- A group that passed CHECK and held lock for readd_stable_ms asked back: the widening names the frame at which both
sides switch (R96, R129, R130). -/
def laneReadded (p : Fin 4) (d : Dir) (g : Fin 4) (s : State) : State :=
  let x := s.ports[p]
  if portLive s p ∧ d = .rx ∧ x.phy.state = .active ∧ x.phy.stable.getLsbD g ∧ !x.phy.rxMask.getLsbD g then
    let base := match x.link.widthAsked with | some (m, true) => m | _ => x.phy.rxMask
    let m := base ||| (1#4 <<< g.val)
    modSend p (fun x => putLink [widthMessage m true (x.link.partnerFrame + 4)] (leaveIdle { x with
      link := { x.link with widthAsked := some (m, true), switchFrame := x.link.partnerFrame + 4 } }))
      (passTo (x.phy.stableSince.getD g 0 + 1000000 * x.phy.readdStableMs) s)
  else s

/-- A widening of the receive direction takes effect at its frame: LANE_READDED for every lane of the groups that come
back, and WIDTH_CHANGED (R93, R96). -/
def widenReceive (p : Fin 4) (s : State) : State :=
  let x := s.ports[p]
  match x.link.widthAsked with
  | some (m, true) =>
    if (x.link.partnerFrame - x.link.switchFrame).toNat < 128 then
      let back := m &&& ~~~x.phy.rxMask
      let s := modPort p (fun x => announce { x with
        phy := { x.phy with rxMask := m, stable := x.phy.stable &&& ~~~m }
        link := { x.link with widthAsked := none } }) s
      raise 0x1013 1 p []
        ((lanesOf back).foldl (fun s i => raise 0x1014 2 (16 * p.val + i) [] s) s)
    else s
  | _ => s

def execLaneReadded (p : Fin 4) (d : Dir) (g : Fin 4) (s : State) : Out := .next (laneReadded p d g s)

/-! ### Forwarded clock and loss of all lanes -/

/-- Forwarded-clock loss at G106: FCK_DOWN sent 8 times on every active lane, out of electrical idle (R91), and the fallback (R98). -/
def fckLost (p : Fin 4) (s : State) : State :=
  let x := s.ports[p].phy
  if portLive s p ∧ x.state = .active ∧ x.gauge = .g106 then fallBack p (modPort p (fun x => sendSet 0xA8 0 8 (leaveIdle x)) s) else s

def execFckLost (p : Fin 4) (s : State) : Out := .next (fckLost p s)

/-- The forwarded clock good for 1 s: with auto_fck_restore the port steps up to G106 (R101). -/
def fckRestored (p : Fin 4) (s : State) : State :=
  let x := s.ports[p].phy
  if portLive s p ∧ x.fckLost then
    let s := raise 0x1017 1 p [] (modPhy p (fun x => { x with fckLost := false }) s)
    if x.autoFckRestore ∧ x.state = .active ∧ x.gauge ≠ .g106 ∧ gaugeCommon x .g106 then
      startSwitch p .g106 .up (modPhy p (fun x => { x with
        bestGauge := x.gauge, bestMask := x.rxMask &&& x.txMask, retried := false }) s)
    else s
  else s

def execFckRestored (p : Fin 4) (s : State) : Out := .next (fckRestored p s)

/-- No electrical activity for 10 µs outside idle, reported for a port with a link session; one that trains has nothing to
report to the link layer, and goes on in its states (DESIGN CHOICE; R100). -/
def execLanesLostAll (p : Fin 4) (s : State) : Out :=
  .next (if portLive s p ∧ s.ports[p].link.session ∧ !s.ports[p].phy.rxIdle then lanesLostAll p s else s)

/-- RECOVERY for recovery_timeout_ms (R83, R100). -/
def recoveryTimeout (p : Fin 4) (s : State) : State :=
  let x := s.ports[p].phy
  if portLive s p ∧ x.climb = .recover ∧ x.state ≠ .active then
    lanesLostAll p (passTo (x.recoverSince + 1000000 * x.recoveryTimeoutMs) s)
  else s

def execRecoveryTimeout (p : Fin 4) (s : State) : Out := .next (recoveryTimeout p s)

/-- A port disabled: its partner is detached, its transmitters idle and its receivers ignored (R107). A `PORT_TEST` or
`PORT_TRAIN` that runs on it counts nothing more and ends with its COMMAND_DONE: the spec is silent (DESIGN CHOICE). -/
def disablePort (p : Fin 4) (s : State) : State :=
  let s := modPort p squelch (portDown p 8 s)
  enterState p .disabled (fun x => { x with
    enable := false, climb := .up, rxMask := 0, txMask := 0, rxIdle := false, txIdle := false, loop := none
    test := none }) (modPort p (fun x => { x with partnerState := .down, waitingHello := none }) s)

/-- A disabled port enabled: training from DETECT. -/
def enablePort (p : Fin 4) (s : State) : State := toDetect p (modPhy p (fun x => { x with enable := true }) s)

end Sys2Proof.Machine
end

