-- ==== Sys2Proof/Machine/Link.lean ====
section
/-! DEFINITION. The link layer's events: acknowledgement, credit and panic of a good flit (R110, R121, R124, R131),
replay (R121, R122), link messages (R127 to R130), acknowledgement due (R120) and the heartbeat (R139). -/

namespace Sys2Proof.Machine

open Sys2Proof

/-- Flits up to an acknowledged sequence number out of the replay buffer (R121). -/
def ackReplay (ack : Nat) (l : LinkState) : LinkState :=
  match l.replay.findIdx? (fun f => f.seq % 512 = ack) with
  | some i => { l with
      replay := l.replay.drop (i + 1)
      ackedNext := (match l.replay[i]? with | some f => f.seq + 1 | none => l.ackedNext)
      replays := 0 }
  | none => l

/-- Credit units returned since the last good flit (R124). -/
def creditUpdate (credit : Nat) (l : LinkState) : LinkState :=
  { l with
    partnerUnits := l.partnerUnits + (credit + 64 - l.lastCredit.toNat) % 64
    lastCredit := BitVec.ofNat 6 credit }

/-- The partner's panic as the last good flit carries it (R131, R287). -/
def panicUpdate (now : Nat) (panic : Bool) (l : LinkState) : LinkState :=
  { l with
    panicSince := if panic && !l.partnerPanic then now else l.panicSince
    partnerPanic := panic
    panicIgnored := l.panicIgnored && panic }

/-- A flit that passed R113: the heartbeat restarts, and a narrowing is no longer repeated (R130, R139). -/
def goodFlit (now : Nat) (l : LinkState) : LinkState :=
  { l with
    lastGood := now
    widthAsked := match l.widthAsked with | some (_, false) => none | w => w }

/-- The header of a good flit acted on. -/
def receiveHeader (p : Fin 4) (ack credit : Nat) (panic : Bool) (s : State) : State :=
  modLink p (fun l => panicUpdate s.hubTimer panic (creditUpdate credit (ackReplay ack (goodFlit s.hubTimer l))))
    (if s.ports[p].link.partnerPanic ∧ !panic then noteTriggers s else s)

/-- LINK_PROTOCOL (R114). -/
def linkProtocol (p : Fin 4) (s : State) : State := raise 0x103A 1 p [] s

/-- Link messages reach a port that carries flits. -/
def linkUp (s : State) (p : Fin 4) : Bool := portLive s p && decide (s.ports[p].phy.state = .active)

/-! ### Replay -/

/-- A replay of every flit not acknowledged; past four in a row without progress the port enters RECOVERY (R121,
R122). -/
def replayPort (p : Fin 4) (s : State) : State :=
  let x := s.ports[p]
  if x.link.replay.isEmpty then s
  else if 4 ≤ x.link.replays then
    enterRecovery p (raise 0x1036 1 p [] (modLink p (fun l => { l with replays := 0 }) s))
  else
    modSend p (fun x => replayAll (leaveIdle { x with link := { x.link with
      replays := x.link.replays + 1, replayCount := sat32 x.link.replayCount } })) s

/-- The ack has not advanced for replay_timer_ns with flits outstanding (R121). -/
def execReplayTimer (p : Fin 4) (s : State) : Out := .next (if linkUp s p then replayPort p s else s)

/-- A NAK: the flits up to its seq are acknowledged, and the rest are sent again (R121, R127). -/
def receiveNak (p : Fin 4) (msg : BitVec 128) (s : State) : State :=
  let n := msg.toNat
  if !linkUp s p then s
  else if bitsOf n 7 0 ≠ 2 ∨ bitsOf n 127 18 ≠ 0 then linkProtocol p s
  else pump p (replayPort p (modLink p (fun l => ackReplay (bitsOf n 16 8) (goodFlit s.hubTimer l)) s))

def execNak (p : Fin 4) (msg : BitVec 128) (s : State) : Out := .next (receiveNak p msg s)

/-! ### STATUS, acknowledgement and heartbeat -/

/-- A STATUS message: the frame, the credit total, and the partner's sealing flag and salt (R115, R124, R128, R147). A
widening of the receive direction that names the frame takes effect (R129). -/
def receiveStatus (p : Fin 4) (msg : BitVec 128) (s : State) : State :=
  let n := msg.toNat
  if !linkUp s p then s
  else if bitsOf n 7 0 ≠ 1 ∨ bitsOf n 63 47 ≠ 0 ∨ bitsOf n 127 96 ≠ 0 then linkProtocol p s
  else
    let total := bitsOf n 31 16
    pump p (widenReceive p (modLink p (fun l =>
      let l := goodFlit s.hubTimer l
      { l with
        partnerFrame := BitVec.ofNat 8 (bitsOf n 15 8)
        partnerUnits := if l.partnerUnits % 65536 = total then l.partnerUnits
          else l.partnerUnits - l.partnerUnits % 65536 + total
        lastCredit := BitVec.ofNat 6 total
        partnerSealOn := bitAt n 41
        rxSalt := BitVec.ofNat 32 (bitsOf n 95 64) }) s))

def execStatus (p : Fin 4) (msg : BitVec 128) (s : State) : Out := .next (receiveStatus p msg s)

/-- A NULL flit for an accepted flit that nears 8 flit times unacknowledged (R120). -/
def ackDue (p : Fin 4) (s : State) : State :=
  if linkUp s p ∧ s.ports[p].link.ackOwed then
    let s := pump p s
    if s.ports[p].link.ackOwed then modSend p (fun x => putNull (leaveIdle x)) s else s
  else s

def execAckDue (p : Fin 4) (s : State) : Out := .next (ackDue p s)

/-- The heartbeat runs outside SWITCH, RECOVERY and the forwarded-clock fallback (R98, R99, R139). -/
def heartbeatRuns (x : Phy) : Bool :=
  decide (x.state ≠ .switch) && decide (x.climb ≠ .recover) && decide (x.climb ≠ .fallback)

/-- No good flit for 1 ms: the partner is detached with reason HEARTBEAT. -/
def heartbeatTimeout (p : Fin 4) (s : State) : State :=
  let x := s.ports[p]
  if portLive s p ∧ x.partnerState = .attached ∧ heartbeatRuns x.phy then
    detachPort p 0 (passTo (x.link.lastGood + 1000000) s)
  else s

def execHeartbeatTimeout (p : Fin 4) (s : State) : Out := .next (heartbeatTimeout p s)

end Sys2Proof.Machine
end

