-- ==== Sys2Proof/Machine/Tasks.lean ====
section
/-! DEFINITION. Tasks and maintenance activities: tickets (R445), the order of the queue (R534), the conflict matrix
(R533), the stagger of self-tests (R521), the thermal emergency (R535), and the end of a task with COMMAND_DONE. -/

namespace Sys2Proof.Machine

open Sys2Proof

/-- A reason-or-kind item whose code the spec does not number: a free value by event and cause. -/
def itOpenReason (code cause : Nat) : Nat × Nat := itReason (Config.reasonCode code cause % 16)

/-! ### Classes and footprints (R532) -/

/-- The maintenance class of R481: 1 VTRIM, 2 LTUNE, 3 BIST, 4 MBIST, 5 MIGRATE, 6 PPR, 7 REKEY. -/
def workClass (s : State) : Work → Option Nat
  | .portTrain _ => some 2
  | .portTest _ _ => some 2
  | .retune _ _ => some 2
  | .vtrim _ => some 1
  | .wireRepair _ _ _ => some 1
  | .rowRepair _ _ _ => some 6
  | .retire _ => some 5
  | .resize pd _ => if s.partitions[pd].mode = .sealed then some 5 else none
  | .rekey _ => some 7
  | .bist _ _ => some 3
  | .mbist _ => some 4
  | _ => none

/-- The instance that MAINT_STATUS names: kind and number of R453. -/
def workInst : Work → Nat × Nat
  | .portTrain p => (1, p)
  | .portTest p _ => (1, p)
  | .retune p _ => (1, p)
  | .vtrim c => (3, c)
  | .wireRepair c _ _ => (3, c)
  | .rowRepair c b _ => (4, 16 * c.val + b.val)
  | .retire c => (3, c)
  | .resize pd _ => (15, pd)
  | .rekey pd => (15, pd)
  | .bist b _ => blockInst b
  | .mbist b => blockInst b
  | _ => (0, 0)

/-- The block under a self-test. -/
def testedBlock : Work → Option BlockId
  | .bist b _ => some b
  | .mbist b => some b
  | _ => none

/-- The channel that a trim, a repair or a self-test of its controller occupies. -/
def workChannel : Work → Option (Fin 32)
  | .vtrim c => some c
  | .wireRepair c _ _ => some c
  | .rowRepair c _ _ => some c
  | .bist (.channel c) _ => some c
  | .mbist (.channel c) => some c
  | _ => none

/-- The port that a training, a test, a re-tune or a self-test occupies. -/
def workPort : Work → Option (Fin 4)
  | .portTrain p => some p
  | .portTest p _ => some p
  | .retune p _ => some p
  | .bist (.port p) _ => some p
  | .mbist (.port p) => some p
  | _ => none

/-- The slabs of a channel that belong to a granule, in ascending order, those already relocated left out; a reserve slab
that holds another channel's slab belongs to that slab's granule (R376). -/
def mappedSlabs (s : State) (c : Fin 32) : List Nat :=
  (List.range 1024).filter fun sl =>
    (slabGranule s c sl).isSome && !((s.channels[c].reloc).any fun e => e.1 = sl)

/-- Quarters of the lines of a partition: all for CHIP spread. -/
def partitionQuarters (x : Partition) : List (Fin 4) := if x.chip then List.finRange 4 else [x.quarter]

/-- Quarters of a retirement's footprint: the source's, and all where it moves a slab that may go anywhere. -/
def retireQuarters (s : State) (c : Fin 32) : List (Fin 4) :=
  if mappedSlabs s c = [] then [Fin.ofNat 4 (c.val / 8)] else List.finRange 4

def migrateQuarters (s : State) : Work → List (Fin 4)
  | .retire c => retireQuarters s c
  | .resize pd _ => partitionQuarters s.partitions[pd]
  | _ => []

/-- Whether a partition has a slab on a channel. -/
def partitionOnChannel (s : State) (pd : Fin 64) (c : Fin 32) : Bool :=
  (mappedSlabs s c).any fun sl =>
    match slabGranule s c sl with
    | some g => granulePartition s g == some pd
    | none => false

/-! ### Conflicts (R533) -/

/-- A self-test with a copy, in one order. -/
def testMigrates (s : State) (t m : Work) : Bool :=
  match testedBlock t with
  | some b =>
    (match quarterOf b with
     | some q => (migrateQuarters s m).contains q
     | none => false)
  | none => false

/-- A rekey with a copy or with a self-test of a crypto slice. -/
def rekeyMeets (s : State) (pd : Fin 64) : Work → Bool
  | .retire c => partitionOnChannel s pd c
  | .bist (.crypto q) _ => (partitionQuarters s.partitions[pd]).contains q
  | .mbist (.crypto q) => (partitionQuarters s.partitions[pd]).contains q
  | _ => false

/-- Two self-tests: of one block, or of two that share a quarter's slot (R521). -/
def testsMeet (a b : BlockId) : Bool :=
  decide (a = b) ||
    (match quarterOf a, quarterOf b with
     | some p, some q => decide (p = q)
     | _, _ => false)

/-- Two activities that may not run together. -/
def conflicts (s : State) (a b : Work) : Bool :=
  let migrates := decide (workClass s a = some 5) && decide (workClass s b = some 5)
  let channel := match workChannel a, workChannel b with
    | some c, some d => decide (c = d)
    | _, _ => false
  let port := match workPort a, workPort b with
    | some p, some q => decide (p = q)
    | _, _ => false
  let tests := match testedBlock a, testedBlock b with
    | some x, some y => testsMeet x y
    | _, _ => false
  let rekeys := match a, b with
    | .rekey pd, w => rekeyMeets s pd w
    | w, .rekey pd => rekeyMeets s pd w
    | _, _ => false
  migrates || channel || port || tests || rekeys ||
    (decide (workClass s b = some 5) && testMigrates s a b) || (decide (workClass s a = some 5) && testMigrates s b a)

/-- A thermal emergency (R535). -/
def thermalEmergency (s : State) : Bool :=
  s.thermal.flowLow || s.thermal.blind ||
    (List.finRange 17).any fun k => decide ((if k.val = 0 then (880 : Int) else 760) ≤ s.sensors[k].value)

/-- Activities that run. -/
def runningWork (s : State) : List Work := (s.tasks.filter fun t => t.state = .running).map (·.work)

/-- Whether a self-test finds the stack's four slots taken, or the governor below 1.00 (R521). -/
def testWaits (s : State) (w : Work) : Bool :=
  (testedBlock w).isSome &&
    (decide (4 ≤ ((runningWork s).filter fun x => (testedBlock x).isSome).length) || decide (s.thermal.governorPct < 100))

/-- A stack-started copy does not wait for the self-tests and rekeys that it pre-empts (R533, R535). -/
def preempts (a : Task) (b : Work) : Bool :=
  a.byStack && ((testedBlock b).isSome || (match b with | .rekey _ => true | _ => false))

/-- An activity may start behind those ahead of it in the queue (R534, R535). -/
def mayStart (s : State) (ahead : List Task) (t : Task) : Bool :=
  let clash (w : Work) : Bool := conflicts s t.work w && !preempts t w
  (!thermalEmergency s || decide (workClass s t.work = some 1)) && !testWaits s t.work &&
    !(runningWork s).any clash && !(ahead.any fun q => q.state = .queued && clash q.work)

/-! ### Tickets and the queue (R445, R534) -/

/-- Tasks and queued commands that are outstanding for hosts. -/
def outstandingTasks (s : State) : Nat := (s.tasks.filter fun t => t.state ≠ .done ∧ !t.byStack).length

/-- The ticket after one: 1 to 65,535, past 0. -/
def ticketAfter (n : Nat) : Nat := if n = 65535 then 1 else n + 1

/-- How many tickets ago a ticket was issued. -/
def ticketAge (next t : Nat) : Nat := (next + 65535 - t) % 65535

/-- A task put in the list: stack-started activities behind earlier stack-started ones and ahead of every host's; done
tasks are kept until 1,000 more tickets have been issued. -/
def putTask (t : Task) (s : State) : State :=
  let kept := s.tasks.filter fun x => x.state ≠ .done ∨ (x.ticket ≠ 0 ∧ ticketAge s.nextTicket x.ticket ≤ 1000)
  let absorbs (x : Task) : Bool := match t.work with
    | .wireRepair c _ _ => decide (x.state = .queued) && decide (x.work = .vtrim c)
    | _ => false
  { s with tasks :=
      if t.byStack then kept.filter (·.byStack) ++ [t] ++ kept.filter fun x => !x.byStack
      else if kept.any absorbs then
        (kept.takeWhile fun x => !absorbs x) ++ [t] ++ kept.dropWhile fun x => !absorbs x
      else kept ++ [t] }

/-- A new host task under the next ticket. -/
def newTask (s : State) (mb : Fin 6) (opcode : BitVec 16) (state : TaskState) (w : Work) : Task :=
  { ticket := s.nextTicket, opcode := opcode, mb := mb, byStack := false, state := state, paused := false, status := .ok
    progress := 0, result := 0, work := w }

/-- The queued activities of hosts and stack, next to start first. -/
def queuedTasks (s : State) : List Task := s.tasks.filter fun t => t.state = .queued

/-- The place of a ticket in the queue, 1 for the next to start; 0 where it does not wait. -/
def queuePosition (s : State) (ticket : Nat) : Nat :=
  match (queuedTasks s).findIdx? (fun t => t.ticket = ticket) with
  | some i => i + 1
  | none => 0

def isTask (t x : Task) : Bool :=
  decide (x.ticket = t.ticket) && (decide (t.ticket ≠ 0) || (decide (x.work = t.work) && decide (x.state ≠ .done)))

def modTask (t : Task) (f : Task → Task) (s : State) : State :=
  { s with tasks := s.tasks.map fun x => if isTask t x then f x else x }

/-- The end of a task: its final status and result, and COMMAND_DONE for one with a ticket (R445). -/
def endTask (t : Task) (st : KStatus) (result : Word) (s : State) : State :=
  if t.ticket = 0 then { s with tasks := s.tasks.filter fun x => !isTask t x }
  else
    raise 0x9010 20 t.mb [itTicket t.ticket, itTicket t.opcode.toNat, itStatus (kstatusCode st)]
      (modTask t (fun x => { x with state := .done, paused := false, status := st, progress := 100, result := result }) s)

/-- The outstanding tasks that a test selects, ended with one status. -/
def endTasks (sel : Task → Bool) (st : KStatus) (s : State) : State :=
  (s.tasks.filter fun t => t.state ≠ .done && sel t).foldl (fun s t => endTask t st 0 s) s

/-- A block out of its self-test as it was before; a channel that serves leaves the self-refresh of the run, and is held
for its trim (R520). -/
def leaveTest (b : BlockId) (s : State) : State :=
  let s := modBlock b (fun x => { x with testing := false }) s
  match b with
  | .channel c =>
    let x := s.channels[c]
    if x.state = .selfRefresh ∧ !x.heldByCommand ∧ x.retire ≠ .retired ∧ !(blockStopped s b) ∧
        !(quarterOut s (Fin.ofNat 4 (c.val / 8))) then
      exitRefresh true c s
    else s
  | _ => s

/-- BIST_ABORTED and the end of a self-test that was cut; the block returns as it was. Its result, the MISR contents at the
cut or the failing words found by then, is free (R481, R522, R523). -/
def abortTest (cause : Nat) (t : Task) (s : State) : State :=
  let found := Config.freeWord s.drawn
  match t.work with
  | .bist b _ =>
    endTask t .aborted found
      (raiseBlock 0xB012 b [itTicket t.ticket, itOpenReason 0xB012 cause] (leaveTest b (drawOne s)))
  | .mbist b => endTask t .aborted found (leaveTest b (drawOne s))
  | _ => s

/-- MAINT_PREEMPTED for an activity that is ended or paused (R535). -/
def raisePreempted (t : Task) (s : State) : State :=
  raise 0xB017 14 0 [itTicket t.ticket, itReason ((workClass s t.work).getD 0)] s

/-- Every running self-test that a test selects ended ABORTED, pre-empted. -/
def preemptTests (sel : BlockId → Bool) (s : State) : State :=
  (s.tasks.filter fun t => t.state = .running && (match testedBlock t.work with | some b => sel b | none => false)).foldl
    (fun s t => abortTest 2 t (raisePreempted t s)) s

/-- Running copies and rekeys paused, each with its event. -/
def pauseTasks (sel : Task → Bool) (s : State) : State :=
  (s.tasks.filter fun t => t.state = .running && !t.paused && sel t).foldl (fun s t =>
    raisePreempted t (modTask t (fun x => { x with paused := true }) s)) s

/-! ### Resets of blocks and quarters (R425, R536) -/

/-- The blocks that a running task needs: for a table's zeroing its home slice and the channels of its partition, for a
pool's reset the Bobbin slices that serve the partition. -/
def neededBlocks (s : State) : Work → List BlockId
  | .portTrain p => [.port p]
  | .portTest p _ => [.port p]
  | .retune p _ => [.port p]
  | .vtrim c => [.channel c]
  | .wireRepair c _ _ => [.channel c]
  | .rowRepair c _ _ => [.channel c]
  | .bist b _ => [b]
  | .mbist b => [b]
  | .tableDelete td =>
    let qs := partitionQuarters s.partitions[s.tables[td].partition]
    .pointer s.tables[td].home ::
      ((List.finRange 32).filter fun c => qs.contains (Fin.ofNat 4 (c.val / 8))).map BlockId.channel
  | .bufferReset pd => (partitionQuarters s.partitions[pd]).map BlockId.bobbin
  | _ => []

/-- A table whose deletion is cut before it is zeroed stays in service. -/
def keepCutTable (w : Work) (s : State) : State :=
  match w with
  | .tableDelete td => modTable td (fun t => { t with valid := true, quiescing := false }) s
  | _ => s

/-- Running tasks that need a block of a selection: self-tests end ABORTED, the others FAILED (R425). -/
def cutTasks (sel : BlockId → Bool) (s : State) : State :=
  (s.tasks.filter fun t => t.state = .running && (neededBlocks s t.work).any sel).foldl
    (fun s t =>
      if (testedBlock t.work).isSome then abortTest 1 t s else endTask t .failed 0 (keepCutTable t.work s)) s

end Sys2Proof.Machine
end

