-- ==== Sys2Proof/Machine/Fences.lean ====
section
/-! DEFINITION. Containment: block fences and resets (R19 to R21, R183, R215, R244, R271), quarter isolation and reset
(R22, R423, R426, R565), one-sided resets of crossings (R420) and FATAL (R17, R23). -/

namespace Sys2Proof.Machine

open Sys2Proof

/-! ### Lost lines -/

/-- The place of a line as LINE_POISONED and LINE_REFILLED carry it (R321). -/
def locationItems (s : State) (pl : Place) : List (Nat × Nat) :=
  (match lineOwner s pl with
   | some (pd, i) => [itPartition pd, itAddress (64 * i)]
   | none => [itAddress (Config.spareAddress pl.channel pl.bank pl.row pl.line)]) ++
    [itChannel pl.channel, itBank pl.bank, itRow pl.row, itLine pl.line]

/-- A held dirty line lost in its slice's SRAM: the poison pattern in DRAM, its way disabled, COUNTER_LINE_LOST
(R267). -/
def loseKennelLine (k : KennelLine) (s : State) : State :=
  let s := kennelDrop k.pd k.index s
  let s := { s with waysDisabled := s.waysDisabled ++ [(k.set, k.way)] }
  let s := match placeOf s k.pd k.index with
    | some pl => pushWrite pl 0 true s
    | none => s
  raise 0x5012 15 k.pd [itAddress (64 * k.index)] s

/-- A dirty metadata line lost: the lines beneath it go under R347, with SEAL_TREE_FAILED (R350). -/
def loseMetaLine (m : MetaLine) (s : State) : State :=
  let s := { s with sealCache := s.sealCache.filter fun x => !sealKey x m.pd m.granule m.level m.index }
  raise 0x7011 15 m.pd [itCount (m.level - 1), itCount m.granule]
    (modSeal m.pd (fun x => { x with treeFail := sat32 x.treeFail, lost := x.lost ++ [(m.granule, m.level, m.index)] }) s)

/-- A write queue that is the failed element: the poison pattern to each line it held, one event a line; a Kennel copy of
such a line goes too, so that a later read completes DATA_ERROR (R21). -/
def loseQueue (c : Fin 32) (s : State) : State :=
  let es := s.channels[c].writeQueue
  let s := modChannel c (fun x => { x with writeQueue := [] }) s
  es.foldl (fun s e =>
    let pl : Place := { channel := c, bank := e.bank, row := e.row, line := e.line }
    let s := match lineOwner s pl with | some (pd, i) => kennelDrop pd i s | none => s
    raise 0x2022 4 (16 * c.val + e.bank.val) (locationItems s pl ++ [itOpenReason 0x2022 0])
      (modChannel c (fun x => { x with poisonWrittenCount := sat32 x.poisonWrittenCount })
        (storeCoded pl poisonCode s))) s

/-! ### Crossings (R420) -/

/-- The bit of a block in the status registers of R496. -/
def crossingBit : BlockId → Nat
  | .channel c => c
  | .port p => 32 + p
  | .pointer q => 36 + q
  | .bobbin q => 40 + q
  | .counter q => 44 + q
  | .crypto q => 48 + q
  | .kennel k => 52 + k
  | .copy => 60

/-- The hub and the management subsystem as the surviving sides of crossings: instance kind and bit. -/
def hubSide : Nat × Nat := (13, 61)
def managementSide : Nat × Nat := (14, 62)

/-- The sides that a block has crossings with: management, and the hub where the block's clock is not the hub's
(R412, R413). -/
def crossingSides : BlockId → List (Nat × Nat)
  | .channel _ | .port _ => [hubSide, managementSide]
  | _ => [managementSide]

/-- One crossing of a resetting side: the surviving side counts the event and reports what it dropped. -/
def peerReset (side : Nat × Nat) (dropped : Nat) (s : State) : State :=
  raise 0x0019 side.1 0 [itCount dropped]
    (modDevice (fun d => { d with
      peerResets := sat32 d.peerResets, peerResetStatus := d.peerResetStatus ||| (1#64 <<< side.2) }) s)

/-- Every crossing of a resetting side: its surviving sides report, the first of them with the pulses that were pending
toward the side (R420, R421). -/
def peerResets (sides : List (Nat × Nat)) (toward : Nat → Bool) (s : State) : State :=
  let lost := (s.device.pulses.filter fun e => toward e.1).foldl (fun n e => n + e.2) 0
  let s := modDevice (fun d => { d with pulses := d.pulses.filter fun e => !toward e.1 }) s
  match sides with
  | [] => s
  | a :: rest => rest.foldl (fun s b => peerReset b 0 s) (peerReset a lost s)

/-! ### Fences -/

/-- The fence event of a block (R19). -/
def fenceEvent : BlockId → Nat
  | .port _ => 0x1019
  | .channel _ => 0x2016
  | .pointer _ => 0x3015
  | .copy => 0x3016
  | .bobbin _ => 0x4016
  | .counter _ => 0x5013
  | .kennel _ => 0x6017
  | .crypto _ => 0x7017

/-- Queued requests that a test selects ended with one status, in the order the hub presented them within a channel. -/
def endQueued (sel : QueuedReq → Bool) (st : QStatus) (isolated : Bool) (s : State) : State :=
  (List.finRange 32).foldl (fun s c =>
    let q := s.channels[c].requests
    let out := q.filter sel
    if out.isEmpty then s
    else out.foldl (fun s r => completeAs r.job st isolated false 0 [] s) (setRequests c (q.filter fun r => !sel r) s)) s

/-- Every request that needs a block of a selection, queued at whatever controller. -/
def endNeeding (need : BlockId → Bool) (st : QStatus) (isolated : Bool) (s : State) : State :=
  endQueued (fun r => (blocksNeeded s r.job r.req).any need) st isolated s

/-- Every write that waits at a controller's input ended with one status (R21). -/
def endWaiting (c : Fin 32) (st : QStatus) (isolated : Bool) (s : State) : State :=
  s.channels[c].waiting.foldl (fun s x => settleLine x.job st isolated s)
    (modChannel c (fun x => { x with waiting := [] }) (noteTrigger c s))

/-- Every request that needs a controller ended with one status, and every write that waits at its input. -/
def endChannelWork (c : Fin 32) (st : QStatus) (isolated : Bool) (s : State) : State :=
  endWaiting c st isolated (endNeeding (· = .channel c) st isolated s)

/-- All banks of a channel closed. -/
def closeBanks (c : Fin 32) (s : State) : State :=
  modChannel c (fun x => { x with banks := x.banks.map fun b => { b with openRow := none, hitStreak := 0 } }) s

/-- The streams and admissions of the queues of a selection ended ABORTED (R20, R244): a packet that is not written whole
becomes a void cell at once where `void` says so, else as its slice resumes. -/
def abortQueues (sel : Nat → Partition → Bool) (void : Bool) (s : State) : State :=
  watchGates (s.queues.foldl (fun s e =>
    if sel e.1 s.partitions[queuePd s e.1] then
      let s := (queueAt s e.1).streams.foldl (fun s t => completeWith t.job .aborted s) s
      let s := (queueAt s e.1).admissions.foldl (fun s a =>
        endAdmission e.1 a .aborted false (void && !admissionWritten a) s) s
      modQueue e.1 (fun y => { y with streams := [] }) s
    else s) s)

/-- Every line that a Kennel slice holds lost in its SRAM (R267, R350). -/
def loseSlice (k : Fin 8) (s : State) : State :=
  let mine (x : KennelLine) : Bool := decide (kennelSlice x.set = k)
  let mineMeta (m : MetaLine) : Bool := decide (metaSlice m.pd m.granule m.level m.index = k)
  (s.sealCache.filter mineMeta).foldl (fun s m => loseMetaLine m s)
    ((s.kennel.filter mine).foldl (fun s x => loseKennelLine x s) s)

/-- The contents of a block whose SRAM is the failed element: a write queue is poisoned, a Kennel slice loses its lines
(R21, R267). -/
def loseContents (b : BlockId) (s : State) : State :=
  match b with
  | .channel c => loseQueue c s
  | .kennel k => loseSlice k s
  | _ => s

/-- What a fence does to the work and the contents of its block (R20, R21, R244, R271). -/
def fenceEffect (b : BlockId) (sramFailed : Bool) (s : State) : State :=
  match b with
  | .port p => dropPort p 10 s
  | .channel c =>
    let s := endChannelWork c .aborted false s
    let s := modChannel c (fun x => { x with state := if x.state = .retired then .retired else .fenced }) s
    if sramFailed then loseContents b s else s
  | .bobbin q => abortQueues (fun k _ => decide (homeSlice k = q)) false (endNeeding (· = b) .aborted false s)
  | .crypto _ =>
    abortQueues (fun _ x => decide (x.mode ≠ .plain) && (bufferCrypto x).contains b) true
      (endNeeding (· = b) .aborted false s)
  | .kennel k =>
    let mine (x : KennelLine) : Bool := decide (kennelSlice x.set = k)
    let mineMeta (m : MetaLine) : Bool := decide (metaSlice m.pd m.granule m.level m.index = k)
    let s := endNeeding (· = b) .aborted false s
    let t := { s with
      kennel := s.kennel.filter fun x => !(mine x && !x.dirty)
      sealCache := s.sealCache.filter fun m => !(mineMeta m && !m.dirty) }
    if sramFailed then loseContents b t else t
  | _ => endNeeding (· = b) .aborted false s

/-- A block fenced: its accepted requests end ABORTED and its event is raised; the third automatic fence within 24 h
keeps it fenced (R19, R20). A fence made by a command counts for nothing. A block that is already stopped can still lose
its contents (R21). -/
def fenceBlock (b : BlockId) (auto sramFailed : Bool) (s : State) : State :=
  let out := match quarterOf b with | some q => quarterOut s q | none => false
  if blockStopped s b || out || s.device.fatal then (if sramFailed then loseContents b s else s)
  else
    let x := blockAt s b
    let recent := x.fenceTimes.filter fun t => s.hubTimer < t + 24 * hourNs
    let times := if auto then recent ++ [s.hubTimer] else recent
    let stays := auto && decide (3 ≤ times.length)
    let s1 := modBlock b (fun x => { x with
      fenced := true, fenceTimes := times, sramFailed := sramFailed, kept := stays }) s
    let s2 := raiseBlock (fenceEvent b) b (if stays then [itOpenReason (fenceEvent b) 1] else [])
      (fenceEffect b sramFailed s1)
    match b with
    | .kennel _ => recomputeLedger s s2
    | _ => s2

/-! ### FATAL -/

/-- The FATAL record on a port that can still transmit, subscribed or not, its sealing group closed behind it (R23,
R147). -/
def sendFatal (key : List Nat) (r : EventRec) (x : Port) : Port :=
  if x.phy.state = .active then
    closeGroup key (sendSequenced key 2 (slotsOf (recordBytes r)) (leaveIdle { x with records := x.records.filter (· ≠ r) }))
  else x

/-- FATAL (R17, R23): the alert, the record on every port that can transmit, every link quiesced, every layer in
self-refresh with its write queue kept. -/
def fatalNow (cause code : Nat) (s : State) : State :=
  if s.device.fatal then s
  else
    let s := raise 0x001C 0 0 [itReason cause, itEvent code]
      (modDevice (fun d => { d with fatal := true, alertForced := true }) s)
    let s := match s.log.records with
      | r :: _ => (List.finRange 4).foldl (fun s (p : Fin 4) => modSend p (sendFatal (linkKey s p) r) s) s
      | [] => s
    let s := (List.finRange 4).foldl (fun s (p : Fin 4) => dropPort p 11 s) s
    (List.finRange 32).foldl (fun s (c : Fin 32) =>
      closeBanks c (modChannel c (fun x => { x with state := if x.state = .retired then .retired else .selfRefresh })
        (endWaiting c .aborted false s))) (endQueued (fun _ => true) .aborted false s)

/-! ### Isolation -/

/-- An isolation that R423 and R17 count: not one made by a command, nor one that start-up holds. -/
def isolationCounts (cause : BitVec 4) : Bool := decide (cause ≠ 3) && decide (cause ≠ 4)

/-- The engines' work in an isolating quarter: requests that need it complete DATA_ERROR (R22, R245). -/
def isolateBobbin (q : Fin 4) (s : State) : State :=
  watchGates <| s.queues.foldl (fun s e =>
    let x := s.partitions[queuePd s e.1]
    if homeSlice e.1 = q ∨ x.chip ∨ x.quarter = q then
      let s := (queueAt s e.1).streams.foldl (fun s t => completeAs t.job .dataError true false 0 [] s) s
      let s := modQueue e.1 (fun y => { y with streams := [] }) s
      (queueAt s e.1).admissions.foldl (fun s a => endAdmission e.1 a .dataError true true s) s
    else s) s

/-- The orderly stop of one channel: its queue written, its rows closed, its debts paid, and self-refresh by command
(R177, R382). -/
def stopChannel (c : Fin 32) (s : State) : State :=
  modChannel c (fun x => { x with state := .selfRefresh, keeperActed := false }) (payDebts c (closeRows c (drainAll c s)))

/-- A channel that answers commands: it can make an orderly stop. -/
def channelRuns (s : State) (c : Fin 32) : Bool :=
  let x := s.channels[c]
  (decide (x.state = .active) || decide (x.state = .powerDown) || decide (x.state = .trim)) && !blockStopped s (.channel c)

/-- One channel of an isolating quarter: its waiting writes end; where its clock runs it makes the orderly stop that goes
before the quarter's reset, and else its layer keeper puts it in self-refresh (R22, R382, R383). -/
def isolateChannel (q : Fin 4) (c : Fin 32) (s : State) : State :=
  let s := endWaiting c .dataError true s
  if s.quarters[q].pllLocked && channelRuns s c then stopChannel c s
  else
    closeBanks c (modChannel c (fun x => { x with
      clockLost := !s.quarters[q].pllLocked && decide (x.state ≠ .selfRefresh)
      state := if x.state = .retired then .retired else .selfRefresh }) s)

/-- The held lines of a quarter's channels, and the reserve's lines that lie there, written back (R272, R382). -/
def quarterFlush (q : Fin 4) (s : State) : State :=
  sealFlush (fun m => match metaPlace s m.pd m.granule m.level m.index with
    | some pl => decide (placeQuarter pl = q)
    | none => false)
    (kennelFlush (fun k => match placeOf s k.pd k.index with
      | some pl => decide (placeQuarter pl = q)
      | none => false) s)

/-- A quarter that isolates: its port stops, its channels' requests end, its layers enter self-refresh (R22). Where its
clocks run, what the Kennel and the reserve hold for it is written first (R382). -/
def isolateQuarter (q : Fin 4) (cause : BitVec 4) (code : BitVec 16) (s : State) : State :=
  let x := s.quarters[q]
  if x.isolating || decide (x.state = .isolated) || decide (x.state = .heldIsolated) || s.device.fatal then s
  else
    let counted := isolationCounts cause
    let near := (List.finRange 4).any fun k => decide (k ≠ q) &&
      s.quarters[k].isolations.any fun t => decide (s.hubTimer < t + 100000)
    let recent := x.isolations.filter fun t => s.hubTimer < t + 24 * hourNs
    let t := s.hubTimer
    let mark (s : State) : State := modQuarter q (fun y => { y with
      isolating := true, isolatedAt := t, cause := cause.toNat, trigger := code.toNat
      isolations := if counted then recent ++ [t] else recent }) s
    if counted && near then fatalNow 1 code.toNat (mark s)
    else
      let s := mark (if x.pllLocked then quarterFlush q s else s)
      let s := isolateBobbin q (dropPort q 6 s)
      let s := endNeeding (fun b => decide (quarterOf b = some q)) .dataError true s
      (List.finRange 32).foldl (fun s (c : Fin 32) => if c.val / 8 = q.val then isolateChannel q c s else s) s

/-- A block that does not complete its fence within 10 µs isolates its quarter; one of the chip's own is FATAL, as a fault
that more than one quarter shares (R16, R17, R565). -/
def fenceTimeout (b : BlockId) (s : State) : State :=
  match quarterOf b with
  | some q => isolateQuarter q 0 (BitVec.ofNat 16 (fenceEvent b)) s
  | none => fatalNow 0 (fenceEvent b) s

/-- A quarter that does not complete its isolation within 100 µs is FATAL (R16, R17). -/
def isolationTimeout (q : Fin 4) (s : State) : State :=
  let x := s.quarters[q]
  if x.isolating then fatalNow 2 x.trigger (passTo (x.isolatedAt + 100000) s) else s

def execIsolationTimeout (q : Fin 4) (s : State) : Out := .next (isolationTimeout q s)

/-- A block of a quarter. -/
def blockIn (q : Fin 4) (b : BlockId) : Bool := decide (quarterOf b = some q)

/-- The counts and residuals of the bond interfaces stored in MRAM (R387). -/
def bondStore (s : State) : State :=
  { s with bonds := s.bonds.map fun b => { b with storedEq := b.eq, storedResidual := b.residual } }

/-- The bits of a quarter's blocks in the registers of R496. -/
def quarterBit (q : Fin 4) (n : Nat) : Bool :=
  if n < 32 then decide (n / 8 = q.val) else decide (n < 52) && decide (n % 4 = q.val)

/-- The start of a quarter reset, after the orderly stop that its isolation made: the tasks that need it cut, its
crossings reset (R420, R422, R425). -/
def startQuarterReset (q : Fin 4) (s : State) : State :=
  let s := modQuarter q (fun x => { x with state := .resetting, resetCount := sat32 x.resetCount }) s
  peerResets [hubSide, managementSide] (quarterBit q)
    (cutTasks (blockIn q) (if s.quarters[q].pllLocked then bondStore s else s))

/-- Whether some quarter is being reset. -/
def anyResetting (s : State) : Bool := (List.finRange 4).any fun q => s.quarters[q].state = .resetting

/-- The next isolated quarter that waits for its reset, in ascending number (R431); none once a trip has stopped the
stack (R403). -/
def nextQuarterReset (s : State) : State :=
  if anyResetting s || s.thermal.tripped then s
  else
    match (List.finRange 4).find? fun q => s.quarters[q].state = .isolated with
    | some q => startQuarterReset q s
    | none => s

/-- An isolation complete: QUARTER_ISOLATED, and a quarter reset unless the quarter stays isolated; the record is SERVICE
where it stays, and where q_auto_reset is 0 (R22, R423, R565). -/
def quarterIsolated (q : Fin 4) (s : State) : State :=
  let x := s.quarters[q]
  if !x.isolating then s
  else
    let recent := x.isolations.filter fun t => s.hubTimer < t + 24 * hourNs
    let stays := decide (x.cause ≠ 3) && (decide (x.cause = 4) || decide (2 ≤ recent.length) || !x.autoReset)
    let s := modQuarter q (fun y => { y with isolating := false, state := if stays then .heldIsolated else .isolated }) s
    nextQuarterReset (raiseAs 0x001B 2 (if stays || !x.autoReset then 2 else 1) 5 q [itReason x.cause, itEvent x.trigger] s)

def execQuarterIsolated (q : Fin 4) (s : State) : Out := .next (quarterIsolated q s)

/-! ### The end of a reset -/

/-- The admitted packets that a reset left unlinked voided (R244, R246). -/
def voidAdmissions (sel : Nat → Admission → Bool) (s : State) : State :=
  s.queues.foldl (fun s e =>
    ((queueAt s e.1).admissions.filter (sel e.1)).foldl (fun s a => voidPacket e.1 a s) s) s

/-- Admissions whose packets were written whole linked, in order, up to one that still waits to become a void cell; their
requests have already ended (R244, R247). -/
def linkWritten (q : Fin 4) (s : State) : State :=
  s.queues.foldl (fun s e =>
    if homeSlice e.1 = q then
      let whole := (queueAt s e.1).admissions.takeWhile fun a => admissionWritten a && !a.voided
      let s := modQueue e.1 (fun y => { y with
        packets := y.packets + whole.length, admissions := y.admissions.drop whole.length }) s
      modBuffer (queuePd s e.1) (fun b => { b with enqPackets := b.enqPackets + whole.length }) s
    else s) s

/-- A channel that serves again after a stop: every debt is zero and every bank closed (R384). -/
def channelServes (c : Fin 32) (s : State) : State :=
  modChannel c (fun x => { x with
    state := if x.retire = .retired then .retired else if x.heldByCommand then .selfRefresh else .active
    banks := x.banks.map fun b => { b with debt := 0, openRow := none, hitStreak := 0 }
    draining := false, idleSince := s.hubTimer }) s

/-- A channel back from a fence: its write queue is written first (R21), and before it the trim of a shift repair that its
echo test made (R367, R370). -/
def channelBack (c : Fin 32) (s : State) : State :=
  if s.channels[c].trimDue then
    let s := channelServes c s
    if s.channels[c].state = .active then holdTrim c (modChannel c (fun x => { x with rewriteDue := true }) s) else s
  else channelServes c (drainAll c s)

/-- What a block does as it resumes (R20, R21, R244, R271). -/
def resumeEffect (b : BlockId) (s : State) : State :=
  match b with
  | .port p => if s.ports[p].phy.enable then toDetect p s else s
  | .channel c => channelBack c s
  | .bobbin q =>
    linkWritten q (voidAdmissions (fun k a => decide (homeSlice k = q) && (!admissionWritten a || a.voided)) s)
  | .kennel k =>
    sealFlush (fun m => decide (metaSlice m.pd m.granule m.level m.index = k))
      (kennelFlush (fun x => decide (kennelSlice x.set = k)) s)
  | _ => s

/-- A block back in service (R426). -/
def resumeBlock (b : BlockId) (s : State) : State :=
  if !(blockAt s b).resetting then s
  else
    let s1 := modBlock b (fun x => { x with fenced := false, resetting := false, kept := false, sramFailed := false }) s
    let s2 := raiseBlock 0x0015 b [] (resumeEffect b s1)
    match b with
    | .kennel _ => recomputeLedger s s2
    | _ => s2

/-- A block reset begun on a fenced block (R420, R422, R425). -/
def startBlockReset (b : BlockId) (s : State) : State :=
  peerResets (crossingSides b) (· = crossingBit b) (cutTasks (· = b) (modBlock b (fun x => { x with resetting := true, kept := false, testing := false }) s))

/-- A trim recorded in a channel's calibration record (R531). -/
def noteTrim (c : Fin 32) (s : State) : State :=
  modVertical c (fun v => { v with
    vtrimCount := sat32 v.vtrimCount, vtrimLast := s.hubTimer, lastTrimTemp := s.sensors[layerSensor c].value }) s

/-- A channel back from a stop of its clocks: out of self-refresh, KEEPER_ENGAGED where its keeper acted, held for a trim
where one is due, and its queue then written (R177, R384, R385). -/
def channelAwake (begun : Nat) (c : Fin 32) (s : State) : State :=
  let keeper := s.channels[c].keeperActed
  let s := modChannel c (fun x => { x with
    keeperActed := false, clockLost := false, rewriteDue := !x.writeQueue.isEmpty }) (channelServes c s)
  let s := if keeper then raise 0x8017 3 c [] s else s
  if s.channels[c].state = .active then rewriteQueue c (exitRefreshAt begun keeper c s) else s

/-- The patrol passes of a quarter's channels: their clock stood still since the isolation (R325). -/
def passHeld (q : Fin 4) (since : Nat) (s : State) : State :=
  (List.finRange 32).foldl (fun s (c : Fin 32) =>
    if c.val / 8 = q.val then modChannel c (fun y => { y with passStart := y.passStart + (s.hubTimer - since) }) s
    else s) s

/-- The PLL band table of a TRIM image (R501). -/
def pllBands (trim : BitVec 4096) : BitVec 512 := trim.extractLsb' 1484 512

/-- The band that a PLL takes as it locks: the entry of the band table in force that TS0 picks (R405, R508). -/
def lockBand (s : State) : BitVec 8 :=
  s.fuses.bands.extractLsb' (8 * (Config.pllIndex s.sensors[(0 : Fin 17)].value % 64)) 8

/-- The channels of a quarter back in service, each trimmed first where its keeper acted (R272, R325, R385). -/
def quarterChannelsBack (q : Fin 4) (since : Nat) (s : State) : State :=
  let begun := s.hubTimer
  (List.finRange 32).foldl (fun s (c : Fin 32) => if c.val / 8 = q.val then channelAwake begun c s else s)
    (passHeld q since s)

/-- The fenced blocks of a quarter back in service with its reset (R426). -/
def quarterBlocksBack (q : Fin 4) (s : State) : State :=
  ((s.blocks.filter fun e => blockIn q e.1 && (e.2.fenced || e.2.resetting)).map (·.1)).foldl (fun s b =>
    raiseBlock 0x0015 b []
      (modBlock b (fun x => { x with fenced := false, resetting := false, kept := false, testing := false }) s)) s

/-- The policers of a quarter that was away for more than 240 min start full (R262). -/
def quarterPolicers (q : Fin 4) (since : Nat) (s : State) : State :=
  if since + 240 * 60 * secondNs < s.hubTimer then
    (List.finRange 64).foldl (fun s (pd : Fin 64) =>
      if s.partitions[pd].valid ∧ s.partitions[pd].ptype = .counter then fillPolicers pd q s else s) s
  else s

/-- A quarter reset complete (R22, R246, R262, R272, R426, R431). -/
def quarterResetDone (q : Fin 4) (s : State) : State :=
  let x := s.quarters[q]
  if x.state ≠ .resetting then s
  else
    let s := modQuarter q (fun y => { y with state := .inService, pllLocked := true, pllBand := lockBand s }) s
    let s := quarterBlocksBack q (quarterChannelsBack q x.isolatedAt s)
    let s := quarterFlush q (voidAdmissions (fun k _ => decide (homeSlice k = q)) s)
    let s := quarterPolicers q x.isolatedAt s
    let s := raise 0x0014 5 q [] (endTasks (fun t => decide (t.work = .quarterReset q)) .ok s)
    let s := if s.ports[q].phy.enable then toDetect q s else s
    nextQuarterReset (recomputeLedger s s)

end Sys2Proof.Machine
end

