-- ==== Sys2Proof/Machine/Channels.lean ====
section
/-! DEFINITION. Commands of the channel controllers and the events of their scheduling: rows and columns (R157, R159),
skein commands (R184 to R187), refresh (R169 to R171), budgets (R164), fallback and promotion (R161, R163), the write
queue (R165 to R167), parity and read retry (R173 to R175), power-down and self-refresh (R176 to R178). -/

namespace Sys2Proof.Machine

open Sys2Proof

/-- A channel whose controller issues commands: its quarter serves, it is not stopped, retired, trimmed or asleep. -/
def channelIssues (s : State) (c : Fin 32) : Bool :=
  let x := s.channels[c]
  devReady s && !s.device.warm && !quarterOut s (Fin.ofNat 4 (c.val / 8)) && !blockStopped s (.channel c) &&
    !s.device.fatal && (decide (x.state = .active) || decide (x.state = .powerDown))

/-! ### Rows -/

/-- Whether the budget of R164 ever covers one more ACT. -/
def actFits (s : State) (c : Fin 32) : Bool :=
  decide (100 ≤ s.channels[c].actBudget) || decide (s.channels[c].scalePct ≠ 0)

/-- ACT: a precharged bank's row opened at the first legal CCLK, a refresh that must come first before it (R157, R164,
R169). A trigger of fallback that the open row ends is noted (R161). -/
def activate (c : Fin 32) (b : Fin 16) (row : Nat) (s : State) : State :=
  if channelIssues s c ∧ s.channels[c].banks[b].openRow = none ∧ actFits s c then
    openBank { channel := c, bank := b, row := row, line := 0 } (noteTrigger c s)
  else s

def execAct (c : Fin 32) (bank : Fin 16) (row : Fin 65600) (s : State) : Out := .next (activate c bank row s)

/-- The places at which a channel's queued requests need a bank. -/
def bankPlaces (s : State) (c : Fin 32) (b : Fin 16) : List Place :=
  (s.channels[c].requests.map fun q => placesNeeded s q.job q.req).flatten.filter fun pl => pl.channel = c ∧ pl.bank = b

/-- The row slot holds no other eligible command: no queued request of the channel could issue its PRE or ACT now
(R169). -/
def rowSlotFree (s : State) (c : Fin 32) : Bool :=
  !s.channels[c].requests.any fun q =>
    match (placesTouched s q.opcode q.req.hdr).find? fun pl => pl.channel = c with
    | some pl => decide (s.channels[c].banks[pl.bank].openRow ≠ some pl.row) && decide (eligibleAt s c q ≤ s.hubTimer)
    | none => false

/-- Whether R169 lets a REFpb of a bank issue now: forced at a debt of 8; at 4 or more in normal mode where the bank has
queued requests and none hits its open row; and with any debt where it has none and the row slot is free. -/
def refreshDue (s : State) (c : Fin 32) (b : Fin 16) : Bool :=
  let x := s.channels[c]
  let k := x.banks[b]
  let pls := bankPlaces s c b
  decide (8 ≤ k.debt) ||
    (decide (4 ≤ k.debt) && !x.fallback && !pls.isEmpty && !(pls.any fun pl => decide (k.openRow = some pl.row))) ||
    (decide (1 ≤ k.debt) && pls.isEmpty && rowSlotFree s c)

/-- Whether a bank's open row may close now: a queued request or a write not yet issued needs another row of the bank, or
a refresh of the bank is due (R159, R169). -/
def closeDue (s : State) (c : Fin 32) (b : Fin 16) : Bool :=
  let x := s.channels[c]
  match x.banks[b].openRow with
  | none => false
  | some row =>
    (bankPlaces s c b).any (fun pl => pl.row ≠ row) ||
      (x.writeQueue.any fun e => decide (e.bank = b) && e.issued.isNone && decide (e.row ≠ row)) || refreshDue s c b

/-- PRE: a bank's open row closed, for one of the reasons of R159. -/
def precharge (c : Fin 32) (b : Fin 16) (s : State) : State :=
  if channelIssues s c ∧ closeDue s c b then closeRow c b s else s

def execPre (c : Fin 32) (bank : Fin 16) (s : State) : Out := .next (precharge c bank s)

/-- REFpb of a bank: precharged, 8 rows refreshed, and one less of debt (R169). -/
def refreshBank (c : Fin 32) (b : Fin 16) (s : State) : State :=
  if channelIssues s c ∧ refreshDue s c b then refreshNow c b s else s

def execRefpb (c : Fin 32) (bank : Fin 16) (s : State) : Out := .next (refreshBank c bank s)

/-- A bank's refresh timer (R169, R171, R176): the debt rises by 1; at 8 the bank is precharged and refreshed at once.
A channel in power-down is woken for each refresh and returns to it; one in self-refresh or retired has no timer. -/
def refreshTimer (c : Fin 32) (b : Fin 16) (s : State) : State :=
  let x := s.channels[c]
  if x.state = .selfRefresh ∨ x.state = .retired ∨ quarterOut s (Fin.ofNat 4 (c.val / 8)) then s
  else
    let d := min 8 (x.banks[b].debt + 1)
    let s := modChannel c (fun y => { y with debtPeak := max y.debtPeak d }) (modBank c b (fun y => { y with debt := d }) s)
    if !channelIssues s c then s
    else if x.state = .powerDown then modChannel c (fun y => { y with state := .powerDown }) (refreshNow c b s)
    else if d = 8 then refreshNow c b s
    else s

def execRefreshTimer (c : Fin 32) (bank : Fin 16) (s : State) : Out := .next (refreshTimer c bank s)

/-- The next window of 64 CCLK begun: its budgets added at the issue scale in force (R164). -/
def budgetWindow (c : Fin 32) (s : State) : State :=
  creditWindows c (passTo (64 * (s.channels[c].windowAt + 1)) s)

def execBudgetWindow (c : Fin 32) (s : State) : Out := .next (budgetWindow c s)

/-- A NOP word, while an entry whose WRITE has issued waits to leave its queue (R167). -/
def nopWord (c : Fin 32) (s : State) : State :=
  if channelIssues s c ∧ s.channels[c].writeQueue.any (fun e => e.issued.isSome) then
    let s := wakePowerDown c s
    issueWord c .nop (passTo (max (s.hubTimer + 1) (after s.channels[c].wakeAt 0)) s)
  else s

/-! ### Columns -/

/-- The stack byte address of a place, for records that name it. -/
def placeAddress (s : State) (pl : Place) : Nat :=
  match stackLineAt s pl with
  | some sl => 64 * sl
  | none => Config.spareAddress pl.channel pl.bank pl.row pl.line

/-- The counts of a line read from the layer, an uncorrectable one left to its re-read (R175, R310). -/
def observeLine (path : Path) (pl : Place) (s : State) : State :=
  match classifyLine (storedLine s pl) (erasureSet s pl) with
  | .uncorrectable => s
  | _ => (decodeRead { who := .int, address := placeAddress s pl } path pl s).2

/-- Whether the budget of R164 ever covers one more column command. -/
def columnFits (s : State) (c : Fin 32) : Bool :=
  decide (100 ≤ s.channels[c].colBudget) || decide (s.channels[c].scalePct ≠ 0)

/-- A drain serves no read but those of promoted requests (R167). -/
def readServes (s : State) (pl : Place) : Bool :=
  let x := s.channels[pl.channel]
  !x.draining || x.requests.any fun q =>
    (q.promoted || pastAge s pl.channel q.job) && (placesNeeded s q.job q.req).contains pl

/-- The requests of a channel that have reached age_limit_ns promoted, each counted (R163). -/
def markAged (c : Fin 32) (s : State) : State :=
  modChannel c (fun y => { y with
    requests := y.requests.map fun q => if pastAge s c q.job then { q with promoted := true } else q
    promotedCount := sat32Add y.promotedCount (y.requests.filter fun q => !q.promoted && pastAge s c q.job).length }) s

/-- READ: a coded line of the open row on the column wires (R157, R310). One that goes on in a drain for a promoted request
marks it (R163, R167). -/
def columnRead (c : Fin 32) (b : Fin 16) (line : Fin 32) (s : State) : State :=
  match s.channels[c].banks[b].openRow with
  | some row =>
    let pl : Place := { channel := c, bank := b, row := row, line := line }
    if channelIssues s c ∧ columnFits s c ∧ readServes s pl then
      observeLine .column pl (readBurst pl (if s.channels[c].draining then markAged c s else s))
    else s
  | none => s

def execColumnRead (c : Fin 32) (bank : Fin 16) (line : Fin 32) (s : State) : Out := .next (columnRead c bank line s)

/-- WRITE: a write-queue entry of the open row, not yet issued, written to the layer; the entry stays until 16 further
commands (R157, R167). -/
def columnWrite (c : Fin 32) (b : Fin 16) (line : Fin 32) (s : State) : State :=
  match s.channels[c].banks[b].openRow with
  | some row =>
    match wqEntry s { channel := c, bank := b, row := row, line := line } with
    | some e => if channelIssues s c ∧ columnFits s c ∧ e.issued = none then writeEntry c e s else s
    | none => s
  | none => s

/-! ### Skeins (R184, R186, R187) -/

/-- SKRD: the open row, its queued writes written first, moved to the base die, where its lines are corrected or marked
bad (R186). -/
def skeinRead (c : Fin 32) (b : Fin 16) (s : State) : State :=
  match s.channels[c].banks[b].openRow with
  | some row =>
    if channelIssues s c then
      let pl : Place := { channel := c, bank := b, row := row, line := 0 }
      let r := rowRead { who := .int, address := placeAddress s pl } c b row s
      modChannel c (fun y => { y with skeinData := r.1 }) r.2
    else s
  | none => s

def execSkrd (c : Fin 32) (bank : Fin 16) (s : State) : Out := .next (skeinRead c bank s)

/-- SKWR: a row image encoded and written into the open row; every Kennel line of the row is invalidated. -/
def skeinWrite (c : Fin 32) (b : Fin 16) (image : List Line) (s : State) : State :=
  match s.channels[c].banks[b].openRow with
  | some row =>
    if channelIssues s c then
      let pl : Place := { channel := c, bank := b, row := row, line := 0 }
      let s := rowWriteBoth pl (image.map some) s
      match lineOwner s pl with
      | some (pd, i) => kennelDropBlock pd (i / 32) s
      | none => s
    else s
  | none => s

def execSkwr (c : Fin 32) (bank : Fin 16) (image : List Line) (s : State) : Out := .next (skeinWrite c bank image s)

/-! ### Scheduling (R160 to R163) -/

/-- The first moments at which the slack of a channel's requests and waiting writes is below the threshold. -/
def slackMoments (s : State) (c : Fin 32) : List Nat :=
  let x := s.channels[c]
  let moment (j : Job) (est : Nat) : Option Nat :=
    if x.slackThresholdNs = 0 then none
    else (slackEnd j est).map fun (e : Int) => (e + 1 - (x.slackThresholdNs : Int)).toNat
  (x.requests.filterMap fun r => moment r.job (requestEst s r)) ++ x.waiting.filterMap fun w => moment w.job 8

/-- Fallback mode entered as a trigger comes to hold; a write that waits for room with its slack below the threshold
starts a drain (R161, R167). -/
def fallbackEntry (c : Fin 32) (s : State) : State :=
  let ms := slackMoments s c
  if panicTrigger s c || !ms.isEmpty then
    let s := if panicTrigger s c then s else passTo (ms.foldl min (ms.getD 0 0)) s
    modChannel c (fun x => { x with
      fallbackEntries := if x.fallback then x.fallbackEntries else sat32 x.fallbackEntries
      fallback := true, fallbackAt := s.hubTimer, draining := x.draining || waitingLow s c }) s
  else s

def execFallbackEntry (c : Fin 32) (s : State) : Out := .next (fallbackEntry c s)

/-- Normal mode 64 CCLK after the last CCLK in which a trigger held: one that comes to hold on the way keeps the channel in
fallback mode, and a write that waits with low slack starts a drain (R161, R167). -/
def fallbackExit (c : Fin 32) (s : State) : State :=
  let held (s : State) : State :=
    modChannel c (fun x => { x with fallbackAt := s.hubTimer, draining := x.draining || waitingLow s c }) s
  if s.channels[c].fallback then
    if fallbackTrigger s c then held s
    else
      let stop := s.channels[c].fallbackAt + 64
      match (slackMoments s c).filter fun t => decide (t ≤ max stop s.hubTimer) with
      | m :: ms => held (passTo (ms.foldl min m) s)
      | [] => modChannel c (fun x => { x with fallback := false }) (passTo stop s)
  else s

def execFallbackExit (c : Fin 32) (s : State) : Out := .next (fallbackExit c s)

/-- The oldest request not yet promoted reaches age_limit_ns (R163). -/
def agePromotion (c : Fin 32) (s : State) : State :=
  let x := s.channels[c]
  match oldest (x.requests.filter fun r => !r.promoted) with
  | none => s
  | some o =>
    modChannel c (fun y => { y with
      requests := y.requests.map fun q => if q = o then { q with promoted := true } else q
      promotedCount := sat32 y.promotedCount }) (passTo (o.job.arrived + x.ageLimitNs) s)

/-- The first write that waits at a controller's input enters its queue, and its line is settled (R21, R179). -/
def writeQueueEntry (c : Fin 32) (s : State) : State :=
  match s.channels[c].waiting with
  | [] => s
  | w :: ws =>
    let merged := match placeOf s w.pd w.address with | some pl => (wqEntry s pl).isSome | none => false
    if wqFull s c && !merged then s
    else
      let s := modChannel c (fun x => { x with waiting := ws }) (noteTrigger c s)
      match hostWrite (.port w.job.port) w.pd w.address (policerImage s s.partitions[w.pd] w.address w.data) s with
      | (none, s) => settleLine w.job .ok false s
      | (some e, s) => settleLine w.job e.1 e.2 s

/-! ### Parity and retry (R173 to R175) -/

/-- The words that a parity alert finds unexecuted: those issued since tALERT before it, the failing one first. -/
def discardedWords (s : State) (c : Fin 32) : List CmdWord :=
  (s.channels[c].retryBuffer.filter fun e => decide (s.hubTimer ≤ e.2 + 6)).map (·.1)

/-- A bank beside a REFpb that did not execute: its debt has not fallen. -/
def unrefresh (w : CmdWord) (s : State) (c : Fin 32) : State :=
  match w with
  | .refpb b => modBank c (Fin.ofNat 16 b) (fun y => { y with debt := y.debt + 1, refRow := (y.refRow + 8199) % 8200 }) s
  | _ => s

/-- A bank beside a REFpb that executes in a replay, which counts under tFAW and tRREFD (R157, R179). -/
def rerefresh (w : CmdWord) (s : State) (c : Fin 32) : State :=
  match w with
  | .refpb b =>
    modChannel c (fun y => { y with
      acts := (s.hubTimer :: y.acts).take 4, lastRef := some (s.hubTimer, Fin.ofNat 16 b) })
      (modBank c (Fin.ofNat 16 b) (fun y => { y with
        debt := y.debt - 1, refRow := (y.refRow + 1) % 8200, refAt := some s.hubTimer }) s)
  | _ => s

/-- The failing word and every later one discarded by the layer; issued writes wait for 16 clean commands again. -/
def discardWords (c : Fin 32) (ws : List CmdWord) (s : State) : State :=
  modChannel c (fun y => { y with
    execSeq := y.cmdSeq - 1 - BitVec.ofNat 4 ws.length
    cleanRun := 0
    writeQueue := y.writeQueue.map fun e => { e with issued := e.issued.map fun _ => 0 } })
    (ws.foldl (fun s w => unrefresh w s c) s)

/-- The words of the retry buffer that the layer has not executed: those after its last sequence number. -/
def replayWords (x : Channel) : List CmdWord :=
  (x.retryBuffer.drop (x.retryBuffer.length - (x.cmdSeq - 1 - x.execSeq).toNat)).map (·.1)

/-- A replay, within 40 CCLK of the alert: the 16 words reissued in order, and those not yet executed executed. -/
def replayBuffer (c : Fin 32) (s : State) : State :=
  let ws := replayWords s.channels[c]
  let s := passTo (s.hubTimer + 40) s
  modChannel c (fun y => { y with
    execSeq := y.cmdSeq - 1
    retryBuffer := y.retryBuffer.map fun e => (e.1, s.hubTimer - 7) }) (ws.foldl (fun s w => rerefresh w s c) s)

/-- A parity alert (R173, R174): the discarded words are replayed; the third alert in a run holds the channel for a trim,
after which they are; one more within 1 ms of that trim fences the controller. -/
def caParity (c : Fin 32) (s : State) : State :=
  if !channelIssues s c then s
  else
    let x := s.channels[c]
    let s := discardWords c (discardedWords s c)
      (raise 0x2013 3 c [] (modChannel c (fun y => { y with caParityCount := sat32 y.caParityCount }) s))
    let late := match x.alertTrimAt with | some t => decide (s.hubTimer ≤ t + 1000000) | none => false
    if late then
      fenceBlock (.channel c) true false (raise 0x2014 3 c [] (modChannel c (fun y => { y with
        alerts := 0, alertTrimAt := none, echoDue := true }) s))
    else if 2 ≤ x.alerts then holdTrim c (modChannel c (fun y => { y with alerts := 3 }) s)
    else replayBuffer c (modChannel c (fun y => { y with alerts := y.alerts + 1 }) s)

/-- READ_RETRY: a read whose burst reaches the base die with some bits turned, so that the decoder finds it uncorrectable,
and its re-read by PRE, ACT and READ, once (R175, R310). What the re-read corrects is delivered, counted and reported. A
line that the write queue holds is not read from the layer (R166). -/
def readRetry (c : Fin 32) (b : Fin 16) (row : Nat) (burst : BadBurst) (s : State) : State :=
  let pl : Place := { channel := c, bank := b, row := row, line := burst.line }
  let first := storedLine s pl ^^^ burst.turned
  let bad : Bool := match classifyLine first (erasureSet s pl) with | .uncorrectable => true | _ => false
  if channelIssues s c ∧ columnFits s c ∧ (wqEntry s pl).isNone ∧ bad then
    let s := modChannel c (fun y => { y with columnData := first }) (touchBank pl s)
    let s := touchBank pl (closeRow c b s)
    let s := (decodeRead { who := .int, address := placeAddress s pl } .column pl s).2
    match classifyLine (storedLine s pl) (erasureSet s pl) with
    | .poison => s
    | .uncorrectable => s
    | _ => raiseBank 0x2015 c b [] (modChannel c (fun x => { x with readRetryCount := sat32 x.readRetryCount }) s)
  else s

def execReadRetry (c : Fin 32) (bank : Fin 16) (row : Fin 65600) (burst : BadBurst) (s : State) : Out :=
  .next (readRetry c bank row burst s)

/-! ### Power-down and self-refresh -/

/-- A channel with nothing queued and nothing to write, and no maintenance on it. -/
def channelIdle (s : State) (c : Fin 32) : Bool :=
  let x := s.channels[c]
  x.requests.isEmpty && x.writeQueue.isEmpty && x.waiting.isEmpty &&
    !(runningWork s).any fun w => decide (workChannel w = some c)

/-- Power-down after pd_idle_us: what is left in the write queue is drained first, and the open rows close (R159, R167,
R176). -/
def powerDownEntry (c : Fin 32) (s : State) : State :=
  let x := s.channels[c]
  if channelIssues s c ∧ x.state = .active ∧ x.pdIdleUs ≠ 0 ∧ x.requests.isEmpty ∧ x.waiting.isEmpty then
    let s := drainTo c 0 128 s
    if channelIdle s c then
      let s := closeRows c (passTo (s.channels[c].idleSince + 1000 * x.pdIdleUs) s)
      modChannel c (fun y => { y with state := .powerDown, idleSince := s.hubTimer }) s
    else s
  else s

def execPowerDownEntry (c : Fin 32) (s : State) : Out := .next (powerDownEntry c s)

/-- Collie holds an admitted latency target (R178). -/
def targetAdmitted (s : State) : Bool := trimOrder.any fun pk => decide ((classAt s pk).targetAdmitted ≠ 0)

/-- Self-refresh after sr_idle_ms more, with every debt paid first (R177, R178). -/
def selfRefreshEntry (c : Fin 32) (s : State) : State :=
  let x := s.channels[c]
  if channelIssues s c ∧ x.state = .powerDown ∧ x.srIdleMs ≠ 0 ∧ channelIdle s c ∧ !targetAdmitted s then
    let s := passTo (x.idleSince + 1000000 * x.srIdleMs) s
    modChannel c (fun y => { y with state := .selfRefresh }) (payDebts c s)
  else s

def execSelfRefreshEntry (c : Fin 32) (s : State) : Out := .next (selfRefreshEntry c s)

end Sys2Proof.Machine
end

