-- ==== Sys2Proof/Machine/Integrity.lean ====
section
/-! DEFINITION. Terrier and the walk of on-die SRAM: patrol reads (R319 to R325), spot checks (R312, R327), conditional
writes and poison (R321), and words found corrected or uncorrectable (R326). -/

namespace Sys2Proof.Machine

open Sys2Proof

/-! ### Pauses (R325, R533, R535) -/

/-- The channels that a running copy touches: its source and every target, those of the slabs already switched among them,
or the channels of a resize's spread (R532). -/
def copyTouches (s : State) (c : Fin 32) : Bool :=
  match s.mover with
  | some (.slabs k todo _) =>
    decide (k = c) || (todo.any fun t => decide (t.2.1 = c.val)) ||
      s.channels[k].reloc.any fun e => decide (e.2.1 = c.val)
  | some (.granules pd _ _ _) => (partitionQuarters s.partitions[pd]).contains (Fin.ofNat 4 (c.val / 8))
  | none => false

/-- Whether Terrier may read a channel now; it pauses while the cores reboot (R325, R435, R535). -/
def terrierRuns (s : State) (c : Fin 32) : Bool :=
  !quarterOut s (Fin.ofNat 4 (c.val / 8)) && !blockStopped s (.channel c) && !s.device.fatal &&
    decide (s.channels[c].state ≠ .retired) && !s.channels[c].heldByCommand && !thermalEmergency s &&
    !s.firmware.rebooting &&
    !(runningWork s).any (fun w => decide (workChannel w = some c)) && !copyTouches s c

/-! ### Lines -/

/-- LINE_CORRECTED, at most once a second for each channel (R329). -/
def noteCorrected (pl : Place) (s : State) : State :=
  raiseLimitedFor (0x2020, 3, pl.channel.val) 0x2020 4 (16 * pl.channel.val + pl.bank.val) (fun n => [itCount n]) s

/-- The seal-reserve line held for a place. -/
def metaAt (s : State) (pl : Place) : Option MetaLine :=
  s.sealCache.find? fun m => decide (metaPlace s m.pd m.granule m.level m.index = some pl)

/-- The Kennel line held for a place. -/
def kennelAt (s : State) (pl : Place) : Option KennelLine := s.kennel.find? fun k => decide (placeOf s k.pd k.index = some pl)

/-- Whether a place lies in a slab that belongs to no granule. -/
def inFreeSlab (s : State) (pl : Place) : Bool :=
  decide (pl.row < 65536) && (slabGranule s pl.channel (pl.row / 64)).isNone

/-- A line that stays uncorrectable, by the first case of R321 that applies. The source is 0 patrol, 1 spot check. -/
def settleBad (source : Nat) (pl : Place) (s : State) : State :=
  let counted (s : State) : State :=
    noteCorrected pl (modChannel pl.channel (fun c => { c with ceCount := sat32 c.ceCount }) s)
  match kennelAt s pl, metaAt s pl with
  | some k, _ =>
    counted (if k.dirty then kennelWriteBack k s else (partitionWrite .int k.pd k.index k.data s).2)
  | none, some m =>
    counted (if m.dirty then sealFlush (fun x => sealKey x m.pd m.granule m.level m.index) s
      else pushWrite pl m.data false s)
  | none, none =>
    if (wqEntry s pl).isSome then s
    else if inFreeSlab s pl then
      raiseBank 0x2023 pl.channel pl.bank [] (pushWrite pl 0 false s)
    else
      raiseBank 0x2022 pl.channel pl.bank (locationItems s pl ++ [itReason source])
        (pushWrite pl 0 true (modChannel pl.channel (fun c => { c with
          poisonWrittenCount := sat32 c.poisonWrittenCount }) s))

/-- What Terrier does with one line that it has read (R310, R320); the flag marks a line that was corrected or
uncorrectable. -/
def terrierLine (path : Path) (source : Nat) (pl : Place) (s : State) : Bool × State :=
  let ch := pl.channel
  match classifyLine (storedLine s pl) (erasureSet s pl) with
  | .clean _ => (false, s)
  | .erasureCorrected _ => (false, modChannel ch (fun c => { c with erasureFixCount := sat32 c.erasureFixCount }) s)
  | .corrected d errs =>
    let s := countWires pl path errs (modChannel ch (fun c => { c with ceCount := sat32 c.ceCount }) s)
    let s := if (wqEntry s pl).isSome then s else pushWrite pl d false s
    (true, noteCorrected pl s)
  | .poison => (false, modChannel ch (fun c => { c with poisonReadCount := sat32 c.poisonReadCount }) s)
  | .uncorrectable =>
    let s := touchBank pl s
    let s := raiseBank 0x2021 ch pl.bank [itAddress (placeAddress s pl), itRequester (requesterCode .scr)]
      (modChannel ch (fun c => { c with ueCount := sat32 c.ueCount }) s)
    (true, settleBad source pl s)

/-- Self-refresh left for Terrier's reads, at most once an hour (R325). -/
def terrierWake (c : Fin 32) (s : State) : State :=
  let early : Bool := match s.channels[c].patrolWoke with
    | some t => decide (s.hubTimer < t + hourNs)
    | none => false
  if !decide (s.channels[c].state = .selfRefresh) || early then s
  else leaveSelfRefresh c (modChannel c (fun x => { x with patrolWoke := some s.hubTimer }) s)

/-! ### Spot checks (R312) -/

/-- A shift repair of a channel that is proposed, queued or running. -/
def repairPending (s : State) (c : Fin 32) : Bool :=
  !s.channels[c].vertical.suspects.isEmpty ||
    s.tasks.any fun t => decide (t.state ≠ .done) &&
      (match t.work with | .wireRepair k _ _ => decide (k = c) | _ => false)

/-- An entry that waits for a shift repair of its channel, up to 1 s. -/
def spotWaits (s : State) (c : Fin 32) (e : Spot) : Bool :=
  e.bad && repairPending s c && decide (s.hubTimer < e.since + secondNs)

/-- The first entry of a spot queue that need not wait re-read through the column path. -/
def spotCheck (c : Fin 32) (s : State) : State :=
  match s.channels[c].spots.find? fun e => decide (s.channels[c].state = .retired) || !spotWaits s c e with
  | none => s
  | some e =>
    let pl : Place := { channel := c, bank := e.bank, row := e.row, line := e.line }
    let pop (s : State) : State := modChannel c (fun x => { x with spots := x.spots.erase e }) s
    let popped := pop s
    if s.channels[c].state = .retired then
      let t := relocate s pl
      if t.channel = c ∨ quarterOut s (placeQuarter t) then popped
      else (lineRead { who := .scr, address := placeAddress s t } t popped).2
    else if !terrierRuns s c then s
    else
      let woken := terrierWake c s
      if channelAsleep woken c then woken
      else
        let s := endDrain c (pop woken)
        if (wqEntry s pl).isSome then s else (terrierLine .column 1 pl (fetchLine pl s)).2

/-! ### Patrol (R319, R320, R323, R324) -/

/-- The count of a row that is marked suspect. -/
def suspectRow : Nat := 255

/-- ROW_SUSPECT as a row is found bad on row_suspect_passes passes in a row, or more: the row is marked until a pass finds
it good (R323). -/
def noteRow (c : Fin 32) (b : Fin 16) (row : Nat) (bad : Bool) (s : State) : State :=
  let old := sparseGet 0 s.channels[c].banks[b].badRows row
  let marks := bad && decide (old ≠ suspectRow) && decide (s.params.rowSuspectPasses ≤ old + 1)
  let n := if !bad then 0 else if marks ∨ old = suspectRow then suspectRow else old + 1
  let s := modBank c b (fun y => { y with badRows := sparsePut 0 y.badRows row n }) s
  if marks then raiseBank 0x2025 c b [itRow row] s else s

/-- The whole hours of the longest last pass of any channel but those retired, whose pass is closed (R325, R328). -/
def longestPass (s : State) : Nat :=
  (List.finRange 32).foldl (fun n c =>
    if s.channels[c].state = .retired then n else max n (s.channels[c].lastPassMs / 3600000)) 0

/-- SCRUB_PASS_DONE once the last channel has ended its pass; a retired channel's pass is closed (R324, R325). -/
def passCheck (s : State) : State :=
  if (s.channels.all fun x => x.passDone || decide (x.state = .retired)) && s.channels.any (·.passDone) then
    raise 0x2026 0 0 [] { s with channels := s.channels.map fun x => { x with passDone := false } }
  else s

/-- The end of a channel's pass (R324). -/
def endPass (c : Fin 32) (s : State) : State :=
  let s := modChannel c (fun x => { x with
    patrolRow := 0, lastPassMs := (s.hubTimer - x.passStart) / 1000000, passStart := s.hubTimer, passDone := true
    lateRaised := false }) s
  passCheck (modParams (fun p => { p with scrubLastPassH := longestPass s }) s)

/-- The patrol pointer moved on: the banks of a row address in turn, then the next row address. -/
def advancePatrol (c : Fin 32) (s : State) : State :=
  let x := s.channels[c]
  if x.patrolBank + 1 < 16 then modChannel c (fun x => { x with patrolBank := x.patrolBank + 1 }) s
  else
    let s := modChannel c (fun x => { x with patrolBank := 0, patrolRow := x.patrolRow + 1 }) s
    if bankRows ≤ x.patrolRow + 1 then endPass c s else s

/-- A patrol read: the row's queued writes first, then its 32 lines in order, under the row address whose data a spare row
in use holds (R319). A channel in self-refresh is woken for it at most once an hour; one held for a trim waits, and a
drain in progress ends first (R167). -/
def patrolRead (c : Fin 32) (s : State) : State :=
  if !s.params.scrubEnable || !terrierRuns s c then s
  else
    let s := terrierWake c s
    if channelAsleep s c then s
    else
      let b : Fin 16 := Fin.ofNat 16 s.channels[c].patrolBank
      let row := spareRow s.channels[c].banks[b].remap 65 s.channels[c].patrolRow
      let s := closeBank c b row false (endDrain c s)
      let r := (List.finRange 32).foldl (fun (acc : Bool × State) l =>
        let q := terrierLine .skein 0 { channel := c, bank := b, row := row, line := l } acc.2
        (acc.1 || q.1, q.2)) (false, s)
      advancePatrol c (modChannel c (fun x => { x with scrubRows := x.scrubRows + 1 }) (noteRow c b row r.1 r.2))

/-- SCRUB_LATE for a channel whose pass has not ended in 1.1 times the period (R324). -/
def scrubLate (c : Fin 32) (s : State) : State :=
  let x := s.channels[c]
  if x.state = .retired ∨ x.lateRaised ∨ quarterOut s (Fin.ofNat 4 (c.val / 8)) then s
  else
    raise 0x2027 3 c [] (modChannel c (fun x => { x with lateRaised := true })
      (passTo (x.passStart + s.params.scrubPeriodH * hourNs * 11 / 10) s))

def execScrubLate (c : Fin 32) (s : State) : Out := .next (scrubLate c s)

/-! ### On-die SRAM (R326) -/

/-- The kind and number of the block that owns an SRAM word. -/
def sramInst : SramOwner → Nat × Nat
  | .block b => blockInst b
  | .writeQueue c => (3, c)
  | .kennelWay k _ _ => (10, k)
  | .queueDescriptor q => (7, homeSlice q.toNat)
  | .directory _ => (13, 0)
  | .granuleMap _ => (13, 0)
  | .anchor _ _ _ => (13, 0)
  | .management => (14, 0)
  | .freeCache q _ => (7, q)
  | .stash _ _ => (13, 0)

/-- A Kennel way whose word is uncorrectable: a dirty line is lost, a clean one dropped, and the way disabled (R267,
R293, R350). -/
def loseWay (set way : Nat) (s : State) : State :=
  let disable (s : State) : State := { s with waysDisabled := insertUniqueWay (set, way) s.waysDisabled }
  let t := match s.kennel.find? fun k => decide (k.set = set) && decide (k.way = way) with
    | some k => if k.dirty then loseKennelLine k s else disable (kennelDrop k.pd k.index s)
    | none =>
      match s.sealCache.find? (fun m => decide (metaLineSet m = set) && decide (m.way = way)) with
      | some m =>
        disable (if m.dirty then loseMetaLine m s
          else { s with sealCache := s.sealCache.filter fun x => !sealKey x m.pd m.granule m.level m.index })
      | none => disable s
  recomputeLedger s t
where
  insertUniqueWay (w : Nat × Nat) (l : List (Nat × Nat)) : List (Nat × Nat) := if l.contains w then l else l ++ [w]

/-- A hub fault in a granule map entry: it isolates the quarter that the granule lies in, or is FATAL where the granule is
spread over more than one (R17, R19, R154). -/
def loseGranule (g : Nat) (s : State) : State :=
  let e := (granuleEntry s g).toNat
  if !bitAt e 0 then s
  else if bitAt e 1 then fatalNow 0 0x202A s
  else isolateQuarter (Fin.ofNat 4 (bitsOf e 3 2)) 1 0x202A s

end Sys2Proof.Machine
end

