-- ==== Sys2Proof/Machine/Slabs.lean ====
section
/-! DEFINITION. Slabs: the migration reserve (R153), targets of relocated slabs (R376, R377), allocation and release of
granule map entries (R154, R333, R377), and refills with zero rows (R316). -/

namespace Sys2Proof.Machine

open Sys2Proof

/-! ### The migration reserve -/

/-- The first slab of the reserve: 16 slabs for each GiB, at the top of every channel (R153). -/
def reserveFirst (s : State) : Nat := 1024 - s.params.migrationReserveMib / 64

/-- Slabs whose refill is not complete. -/
def refilling (s : State) : List (Nat × Nat) := (s.refills.map (·.slabs)).flatten

/-- Reserve slabs that a relocation entry names: a valid one, or one whose copy has not yet switched it (R378). -/
def relocTargets (s : State) : List (Nat × Nat) :=
  ((List.finRange 32).map fun c => s.channels[c].reloc.map (·.2)).flatten ++
    (match s.mover with | some (.slabs _ todo _) => todo.map (·.2) | _ => [])

/-- Reserve slabs that are not free: named by a relocation entry, or awaiting their refill. -/
def reserveTaken (s : State) : List (Nat × Nat) := relocTargets s ++ refilling s

/-- A channel that may take a slab of another: in service, and not held by `CHANNEL_HOLD`. -/
def targetServes (s : State) (c : Fin 32) : Bool :=
  inService s c && (decide (s.channels[c].retire = .inService) || decide (s.channels[c].retire = .queued))

/-- The free reserve slabs of a channel, lowest first. -/
def freeReserve (s : State) (taken : List (Nat × Nat)) (c : Fin 32) : List Nat :=
  if targetServes s c then
    (List.range 1024).filter fun sl => decide (reserveFirst s ≤ sl) && !taken.contains (c.val, sl)
  else []

/-- P:8001: free reserve slabs on channels in service. -/
def reserveFree (s : State) : Nat :=
  let taken := reserveTaken s
  (List.finRange 32).foldl (fun n c => n + (freeReserve s taken c).length) 0

/-- A choice of R376 among the free reserve slabs: the candidates in the rotation of that choice. -/
def targetIn (s : State) (taken : List (Nat × Nat)) (choice : Nat) (src : Fin 32) (ok : Fin 32 → Bool) :
    Option (Nat × Fin 32 × Nat) :=
  let order : List (Fin 32) := (List.range 32).map fun i => Fin.ofNat 32 (s.rotation.getD choice 0 + i)
  order.findSome? fun c =>
    if c ≠ src ∧ ok c then (freeReserve s taken c).head?.map fun sl => (choice, c, sl) else none

/-- The target of a slab of a channel, with the choice that gave it: its own quarter first and then any channel for a
QUARTER granule, another quarter first and then its own for a CHIP one (R376). -/
def targetFor (s : State) (taken : List (Nat × Nat)) (chip : Bool) (src : Fin 32) : Option (Nat × Fin 32 × Nat) :=
  let near (c : Fin 32) : Bool := decide (c.val / 8 = src.val / 8)
  let first := targetIn s taken (2 * boolNat chip) src fun c => near c != chip
  if first.isSome then first else targetIn s taken (2 * boolNat chip + 1) src fun _ => true

/-- The turn of a choice passed on beyond a target, within that choice alone (R376). -/
def turnTo (choice : Nat) (c : Fin 32) (s : State) : State :=
  { s with rotation := s.rotation.set choice ((c.val + 1) % 32) }

/-- Targets found for slabs in turn, as (channel, slab, target channel, target slab); slabs without one are left out. -/
def placeSlabs (slabs : List (Fin 32 × Nat × Bool)) (s : State) : List (Fin 32 × Nat × Nat × Nat) × State :=
  slabs.foldl (fun acc t =>
    let taken := reserveTaken acc.2 ++ acc.1.map fun x => x.2.2
    match targetFor acc.2 taken t.2.2 t.1 with
    | some (k, tc, ts) => (acc.1 ++ [(t.1, t.2.1, tc.val, ts)], turnTo k tc acc.2)
    | none => acc) ([], s)

/-! ### Relocation -/

/-- A repair recorded in both copies of the repair log (R371, R436). -/
def logRepair (r : Repair) (s : State) : State :=
  { s with repairLog := s.repairLog ++ [r], repairLogB := s.repairLogB ++ [r] }

/-- A relocation entry made valid, after its log entry (R371, R375). -/
def setReloc (c : Fin 32) (sl tc ts : Nat) (s : State) : State :=
  modChannel c (fun x => { x with reloc := sparsePut (0, 0) x.reloc sl (tc, ts) })
    (logRepair (.reloc c sl tc ts) s)

def dropReloc (c : Fin 32) (sl : Nat) (s : State) : State :=
  if (s.channels[c].reloc).any fun e => e.1 = sl then
    modChannel c (fun x => { x with reloc := sparsePut (0, 0) x.reloc sl (0, 0) }) (logRepair (.freed c sl) s)
  else s

/-- A row of zero lines written by SKWR, behind the row's queued writes (R187). -/
def zeroRow (c : Fin 32) (b : Fin 16) (row : Nat) (s : State) : State :=
  let s := closeBank c b row true s
  let a := codedAddr s { channel := c, bank := b, row := row, line := 0 }
  { s with dram := s.dram.filter fun e => decide (e.1 < a) || decide (a + 2304 ≤ e.1) }

/-- The rows of a slab: 64 in each bank. -/
def slabRows (f : Fin 16 → Nat → State → State) (sl : Nat) (s : State) : State :=
  (List.range 1024).foldl (fun s n => f (Fin.ofNat 16 n) (64 * sl + n / 16) s) s

def zeroSlab (s : State) (t : Nat × Nat) : State :=
  slabRows (zeroRow (Fin.ofNat 32 t.1)) t.2 s

/-- A slab filled with the poison pattern (R377, R389). -/
def poisonSlab (t : Nat × Nat) (s : State) : State :=
  slabRows (fun b row s => rowWrite (Fin.ofNat 32 t.1) b row (List.replicate 32 none) s) t.2 s

/-- The spread of the granule that a slab serves. -/
def slabChip (s : State) (c : Fin 32) (sl : Nat) : Bool :=
  match slabGranule s c sl with
  | some g => bitAt (granuleEntry s g).toNat 1
  | none => false

/-- CHANNEL_RETIRED for a channel retired without a copy, once every mapped slab is served (R377). -/
def noteServed (c : Fin 32) (s : State) : State :=
  let copying := match s.mover with | some (.slabs k _ _) => decide (k = c) | _ => false
  if s.channels[c].unserved = [] ∧ !copying then raise 0x8013 3 c [] s else s

/-- Free reserve slabs given to the slabs that nothing serves, in ascending channel and slab order (R377). -/
def serveWaiting : Nat → State → State
  | 0, s => s
  | n + 1, s =>
    let taken := reserveTaken s
    let wants := ((List.finRange 32).map fun c => s.channels[c].unserved.map fun sl => (c, sl)).flatten
    match wants.findSome? (fun t => (targetFor s taken (slabChip s t.1 t.2) t.1).map fun u => (t, u)) with
    | some ((c, sl), (k, tc, ts)) =>
      let s := if s.channels[c].poisonFill then poisonSlab (tc.val, ts) s else s
      let s := setReloc c sl tc ts (turnTo k tc s)
      serveWaiting n (noteServed c (modChannel c (fun x => { x with unserved := x.unserved.filter (· ≠ sl) }) s))
    | none => s

def serveUnserved (s : State) : State :=
  serveWaiting ((List.finRange 32).foldl (fun n c => n + s.channels[c].unserved.length) 0) s

/-! ### Granules -/

/-- The slabs of a granule map entry (R154). -/
def entrySlabs (e : Nat) : List (Fin 32 × Nat) :=
  let sl := bitsOf e 13 4
  if !bitAt e 0 then []
  else if bitAt e 1 then (List.finRange 32).map fun c => (c, sl)
  else ((List.finRange 32).filter fun c => c.val / 8 = bitsOf e 3 2).map (fun c => (List.range 4).map fun i => (c, sl + i))
    |>.flatten

/-- The entry of a granule of a spread and quarter on a slab. -/
def makeEntry (chip : Bool) (q : Nat) (sl : Nat) : Nat := 1 + 2 * boolNat chip + (if chip then 0 else 4 * q) + 16 * sl

/-- Free slab positions of a spread, lowest first: those with no refill to wait for come before the others. -/
def freePositions (s : State) (chip : Bool) (q : Nat) : List Nat :=
  let cands := if chip then List.range (reserveFirst s) else (List.range (reserveFirst s / 4)).map (4 * ·)
  let free := cands.filter fun sl => (entrySlabs (makeEntry chip q sl)).all fun t => (slabOwner s t.1 t.2).isNone
  let busy := refilling s
  let waits (sl : Nat) : Bool := (entrySlabs (makeEntry chip q sl)).any fun t => busy.contains (t.1.val, t.2)
  free.filter (fun sl => !waits sl) ++ free.filter waits

/-- A channel whose slabs take reserve slabs at allocation: retired, retiring or held (R377, R480). -/
def needsReserve (s : State) (c : Fin 32) : Bool :=
  decide (s.channels[c].retire = .retired) || decide (s.channels[c].retire = .migrating) || s.channels[c].heldByCommand

/-- The refills of a selection completed: their slabs hold zero lines and are free; reserve slabs among them go first
to slabs that nothing serves. -/
def finishRefills (sel : Refill → Bool) (s : State) : State :=
  let done := s.refills.filter sel
  let s := (done.map (·.slabs)).flatten.foldl zeroSlab s
  serveUnserved { s with refills := s.refills.filter fun r => !sel r }

/-- A granule given a map entry, after its own refill and those of the slabs it takes (R316); none where no slab, or no reserve slab that it
needs, is free. -/
def allocGranule (chip : Bool) (q g : Nat) (s : State) : Option State :=
  let s := finishRefills (fun f => f.granule = g) s
  match freePositions s chip q with
  | [] => none
  | sl :: _ =>
    let slabs := entrySlabs (makeEntry chip q sl)
    let need := slabs.filter fun t => needsReserve s t.1
    let r := placeSlabs (need.map fun t => (t.1, t.2, chip)) s
    if r.1.length ≠ need.length then none
    else
      let s := finishRefills (fun f => f.slabs.any fun t => slabs.any fun u => t = (u.1.val, u.2)) r.2
      let s := setGranule g (BitVec.ofNat 16 (makeEntry chip q sl)) s
      some (r.1.foldl (fun s t => setReloc t.1 t.2.1 t.2.2.1 t.2.2.2 s) s)

/-- Granules allocated in ascending order; none changes nothing. -/
def allocGranules (chip : Bool) (q : Nat) (gs : List Nat) (s : State) : Option State :=
  gs.foldl (fun o g => o.bind (allocGranule chip q g)) (some s)

/-- A granule out of the map: its slabs await their refill, its relocation entries end, and a copy of its slabs stops
(R316, R377, R488). -/
def releaseGranule (s : State) (g : Nat) : State :=
  let e := granuleEntry s g
  let slabs := entrySlabs e.toNat
  let held (t : Fin 32 × Nat) : Option (Nat × Nat) :=
    match s.channels[t.1].reloc.find? (fun r => r.1 = t.2) with
    | some r => some r.2
    | none => if s.channels[t.1].retire = .retired then none else some (t.1.val, t.2)
  let places := slabs.filterMap held
  let stopped (c : Fin 32) (t : Nat × Nat × Nat) : Bool :=
    places.contains (c.val, t.1) || (decide (s.channels[c].retire = .retired) && slabs.contains (c, t.1))
  let m : Option Mover × List (Nat × Nat) := match s.mover with
    | some (.slabs c todo row) =>
      let left := todo.filter fun t => !stopped c t
      (some (.slabs c left (if todo.head? = left.head? then row else 0)),
        (todo.filter (stopped c)).map (·.2))
    | o => (o, [])
  let s := slabs.foldl (fun s t =>
    modChannel t.1 (fun x => { x with unserved := x.unserved.filter (· ≠ t.2) }) (dropReloc t.1 t.2 s)) s
  setGranule g 0 { s with mover := m.1, refills := s.refills ++ [{ granule := g, slabs := places ++ m.2 }] }

/-- A granule's lines made zero where they are, its map entry kept (R334). -/
def zeroGranule (g : Nat) (s : State) : State :=
  (entrySlabs (granuleEntry s g).toNat).foldl (fun s t =>
    match s.channels[t.1].reloc.find? (fun r => r.1 = t.2) with
    | some r => zeroSlab s r.2
    | none => if s.channels[t.1].retire = .retired then s else zeroSlab s (t.1.val, t.2)) s

/-! ### Refills (R316) -/

/-- Whether the channels of a refill take writes now. -/
def refillRuns (s : State) (r : Refill) : Bool :=
  !s.device.fatal && r.slabs.all fun t =>
    let c : Fin 32 := Fin.ofNat 32 t.1
    !quarterOut s (Fin.ofNat 4 (t.1 / 8)) && !blockStopped s (.channel c) && !s.channels[c].heldByCommand

/-- The oldest refill carried out. -/
def refillNext (s : State) : State :=
  match s.refills with
  | r :: rest =>
    if refillRuns s r then
      serveUnserved (r.slabs.foldl zeroSlab { s with refills := rest })
    else s
  | [] => s

def execGranuleRefill (s : State) : Out := .next (refillNext s)

end Sys2Proof.Machine
end

