-- ==== Sys2Proof/Machine/Movers.lean ====
section
/-! DEFINITION. The internal movers: channel retirement by MIG (R376, R377, R389), the move of a SEALED partition's
metadata granules (R334), and the rekey walk (R361). -/

namespace Sys2Proof.Machine

open Sys2Proof

/-! ### Retirement -/

/-- A stack-started activity put in the queue. -/
def queueStack (w : Work) (s : State) : State :=
  putTask {
    ticket := 0, opcode := 0, mb := 0, byStack := true, state := .queued, paused := false, status := .ok, progress := 0
    result := 0, work := w } s

/-- A channel whose retirement the stack decides: queued, and serving until its turn (R374, R389). -/
def queueRetire (c : Fin 32) (s : State) : State :=
  if s.channels[c].retire = .inService ∧ s.channels[c].state ≠ .retired then
    queueStack (.retire c) (modChannel c (fun x => { x with retire := .queued }) s)
  else s

/-- A clock failure: the channel serves nothing from now on, and its mapped slabs wait for poisoned reserve slabs (R368,
R377, R389). A copy of its own that runs goes on from the first row of its slab with the poison pattern, and only the
slabs beyond it wait. -/
def clockFailure (c : Fin 32) (s : State) : State :=
  if s.channels[c].state = .retired then s
  else
    let slabs := mappedSlabs s c
    let own : List Nat := match s.mover with
      | some (.slabs k todo _) => if k = c then todo.map (·.1) else []
      | _ => []
    let copying := !own.isEmpty
    let t := closeBanks c (endWaiting c .dataError false (endNeeding (· = .channel c) .dataError false s))
    let t := modChannel c (fun x => { x with
      state := .retired, retire := .retired, poisonFill := true, unserved := slabs.filter (!own.contains ·)
      writeQueue := [] }) (if copying then t else logRepair (.retired c) t)
    let t := raise 0x8012 3 c [itCount slabs.length] (recomputeLedger s t)
    if copying then
      passCheck { t with mover := t.mover.map fun m => match m with | .slabs k todo _ => .slabs k todo 0 | m => m }
    else
      let left := t.tasks.filter fun x => !(decide (x.work = .retire c) && decide (x.state ≠ .done) && decide (x.ticket = 0))
      passCheck (queueStack (.retire c) { t with tasks := left })

/-- The end of a retirement (R376). -/
def endRetire (c : Fin 32) (s : State) : State :=
  let s := modChannel c (fun x => { x with state := .retired, retire := .retired, writeQueue := [] })
    { s with mover := none }
  let s := if s.channels[c].poisonFill then noteServed c s else raise 0x8013 3 c [] s
  endTasks (fun t => decide (t.work = .retire c)) .ok (passCheck s)

/-- Whether a partition's rekey shares a slab with the source of a copy. -/
def rekeyOn (s : State) (c : Fin 32) (t : Task) : Bool :=
  match t.work with
  | .rekey pd => partitionOnChannel s pd c
  | _ => false

/-- A retirement begun: targets for every mapped slab, or RESERVE_EXHAUSTED; the ledger first, then the copy (R376,
R377). A stack-started one ends the self-tests of its quarters and pauses rekeys (R535). -/
def startRetire (t : Task) (c : Fin 32) (s : State) : State :=
  let poison := s.channels[c].poisonFill
  let slabs := if poison then s.channels[c].unserved else mappedSlabs s c
  let r := placeSlabs (slabs.map fun sl => (c, sl, slabChip s c sl)) s
  let todo := r.1.map (·.2)
  if todo.length < slabs.length ∧ !poison then
    endTask t .failed 0 (raise 0x8014 0 0 [itChannel c, itCount (slabs.length - todo.length)]
      (modChannel c (fun x => { x with retire := .inService }) s))
  else
    let quarters := retireQuarters s c
    let s := modTask t (fun x => { x with state := .running, paused := false }) r.2
    let s :=
      if t.byStack then
        pauseTasks (rekeyOn s c)
          (preemptTests (fun b => match quarterOf b with | some q => quarters.contains q | none => false) s)
      else s
    let s :=
      if poison then modChannel c (fun x => { x with unserved := slabs.filter fun sl => !todo.any fun u => u.1 = sl }) s
      else
        let m := modChannel c (fun x => { x with retire := .migrating }) (logRepair (.retired c) (leaveSelfRefresh c s))
        raise 0x8012 3 c [itCount slabs.length] (recomputeLedger s m)
    let s := { s with mover := some (.slabs c todo 0) }
    if todo = [] then endRetire c s else s

/-- CHANNEL_RETIRING: the queued retirement of a channel starts as soon as nothing conflicts with it (R534). -/
def channelRetiring (c : Fin 32) (s : State) : State :=
  match s.tasks.find? (fun t => decide (t.work = .retire c) && decide (t.state = .queued)) with
  | some t =>
    let ahead := s.tasks.takeWhile fun x => !isTask t x
    if mayStart s ahead t then startRetire t c s else s
  | none => s

/-! ### The resize of a SEALED partition (R334) -/

/-- Metadata granules of `n` data granules (R333). -/
def metaCount (n : Nat) : Nat := (n + 6) / 7

/-- The end of a resize: the new extent, and the granules beyond it freed. -/
def finishResize (pd : Fin 64) (final : Nat) (s : State) : State :=
  let x := s.partitions[pd]
  let first := x.base + final + metaCount final
  let last := x.base + x.granules + x.metaGranules
  let s := noteCommit [.partition pd]
    (modPartition pd (fun x => { x with granules := final, metaGranules := metaCount final }) { s with mover := none })
  let gone := ((List.range 1024).filter fun g => decide (first ≤ g) && decide (g < last)).filter fun g =>
    bitAt (granuleEntry s g).toNat 0
  endTasks (fun t => decide (t.work = .resize pd final)) .ok (gone.foldl releaseGranule s)

/-- A copy of metadata granules begun, or ended where none moves. -/
def startMetaMove (pd : Fin 64) (todo : List (Nat × Nat)) (final : Nat) (s : State) : State :=
  let s := { s with mover := some (.granules pd todo 0 final) }
  if todo = [] then finishResize pd final s else s

/-- A growth of a SEALED partition begun: its new granules are mapped, and its metadata moves up, highest first. -/
def startGrow (t : Task) (pd : Fin 64) (final : Nat) (s : State) : State :=
  let x := s.partitions[pd]
  let m := metaCount x.granules
  let fresh := (List.range (final + metaCount final - (x.granules + m))).map (x.base + x.granules + m + ·)
  match allocGranules x.chip x.quarter fresh s with
  | none => endTask t .failed 0 s
  | some s' =>
    startMetaMove pd ((List.range m).reverse.map fun k => (x.base + x.granules + k, x.base + final + k)) final
      (modTask t (fun y => { y with state := .running, paused := false }) s')

/-- A shrink of a SEALED partition at its quiesce point: the data granules above the new size leave with their anchors
and metadata slots, and the metadata moves down, lowest first. -/
def shrinkSealed (pd : Fin 64) (final : Nat) (s : State) : State :=
  let x := s.partitions[pd]
  let n := x.granules
  let m := metaCount n
  let keep := x.base + final + metaCount final
  let gone := (List.range (n - final)).map (final + ·)
  let s := { s with
    sealCache := s.sealCache.filter fun k => !(decide (k.pd = pd) && decide (final ≤ k.granule))
    kennel := s.kennel.filter fun k => !(decide (k.pd = pd) && decide (final * granuleLines ≤ k.index)) }
  let s := gone.foldl (fun s d =>
    let s := (List.range slotLines).foldl (fun s i =>
      match (hashPlace s ((x.base + n + d / 7) * granuleLines + d % 7 * slotLines + i)).map (relocate s) with
      | some pl => storeCoded pl 0 (modChannel pl.channel (fun c => { c with
          writeQueue := c.writeQueue.filter fun e => !wqMatches pl e }) s)
      | none => s) s
    let g := x.base + d
    if keep ≤ g then releaseGranule s g else zeroGranule g s) s
  let s := modPartition pd (fun y => { y with
    granules := final, metaGranules := n - final + m
    sealing := { y.sealing with
      anchors := y.sealing.anchors.filter fun e => decide (e.1 / 32 < final)
      anchorsLost := y.sealing.anchorsLost.filter fun e => decide (e / 32 < final)
      lost := y.sealing.lost.filter fun e => decide (e.1 < final)
      quarantined := y.sealing.quarantined.filter fun i => decide (i < final * granuleLines) } }) s
  startMetaMove pd ((List.range (metaCount final)).map fun k => (x.base + n + k, x.base + final + k)) final s

/-! ### The MIG copy -/

/-- Whether a channel takes part in a copy now. -/
def copyServes (s : State) (c : Fin 32) : Bool :=
  !quarterOut s (Fin.ofNat 4 (c.val / 8)) && !blockStopped s (.channel c) && !s.device.fatal &&
    decide (s.channels[c].state ≠ .trim)

/-- A row of one place copied to another with the line code only: bad lines become poison (R376). -/
def copyRow (src dst : Place) (s : State) : State :=
  let r := rowRead { who := .mig, address := placeAddress s src } src.channel src.bank src.row s
  rowWrite dst.channel dst.bank dst.row r.1 r.2

/-- The running copies shown as not paused. -/
def resumeCopies (s : State) : State :=
  { s with tasks := s.tasks.map fun t =>
      if t.state = .running ∧ workClass s t.work = some 5 then { t with paused := false } else t }

/-- The next row of the MIG mover. It pauses between two slabs in a thermal emergency, and while a quarter or a channel
that it needs is out. -/
def migrationCopy (s : State) : State :=
  match (if s.firmware.rebooting then none else s.mover) with
  | none => s
  | some (.slabs c [] _) => endRetire c s
  | some (.slabs c ((sl, tc, ts) :: rest) row) =>
    let t : Fin 32 := Fin.ofNat 32 tc
    let poison := s.channels[c].poisonFill
    if 1024 ≤ row ∨ !copyServes s t ∨ !(poison || copyServes s c) ∨ (row = 0 ∧ thermalEmergency s) then s
    else
      let b : Fin 16 := Fin.ofNat 16 row
      let src : Place := { channel := c, bank := b, row := 64 * sl + row / 16, line := 0 }
      let dst : Place := { channel := t, bank := b, row := 64 * ts + row / 16, line := 0 }
      let s := leaveSelfRefresh t (resumeCopies s)
      let s := if poison then s else leaveSelfRefresh c s
      if channelAsleep s t ∨ (!poison ∧ channelAsleep s c) then s
      else
        let s := if poison then rowWrite t b dst.row (List.replicate 32 none) s else copyRow src dst s
        { s with mover := some (.slabs c ((sl, tc, ts) :: rest) (row + 1)) }
  | some (.granules pd [] _ final) => finishResize pd final s
  | some (.granules pd ((src, dst) :: rest) row final) =>
    match (hashPlace s (src * granuleLines + 32 * row)).map (relocate s),
      (hashPlace s (dst * granuleLines + 32 * row)).map (relocate s) with
    | some a, some b =>
      if 32768 ≤ row ∨ !copyServes s a.channel ∨ !copyServes s b.channel ∨ (row = 0 ∧ thermalEmergency s) then s
      else
        let s := leaveSelfRefresh a.channel (leaveSelfRefresh b.channel (resumeCopies s))
        if channelAsleep s a.channel ∨ channelAsleep s b.channel then s
        else
          let s := copyRow a b s
          { s with mover := some (.granules pd ((src, dst) :: rest) (row + 1) final) }
    | _, _ => s

/-- The switch-over of a slab or of a metadata granule whose last row has been copied. A reserve slab that held another
channel's slab carries that slab's entry with it. -/
def slabSwitchover (s : State) : State :=
  match s.mover with
  | some (.slabs c ((sl, tc, ts) :: rest) row) =>
    if row < 1024 then s
    else
      let s := match relocSource s c sl with
        | some (k, l) => setReloc k l tc ts s
        | none => setReloc c sl tc ts s
      let s := { s with mover := some (.slabs c rest 0) }
      if rest = [] then endRetire c s else s
  | some (.granules pd ((src, _) :: rest) row final) =>
    if row < 32768 then s
    else
      let s := zeroGranule src { s with mover := some (.granules pd rest 0 final) }
      if rest = [] then finishResize pd final s else s
  | _ => s

def execSlabSwitchover (s : State) : Out := .next (slabSwitchover s)

/-! ### Rekeying (R361) -/

/-- The highest level at which a page's path fails, its unreadable lines counted as failing, from a level up. -/
def rekeyFault (pd : Fin 64) (d page : Nat) : Nat → Nat → State → Option Nat × State
  | 0, _, s => (none, s)
  | fuel + 1, level, s =>
    if 4 < level then (none, s)
    else
      let r := pathRaw .rky pd d (5 - level) level (page / 8 ^ (level - 1)) s
      match r.2.1 with
      | none => (pathFault s pd d r.1, r.2.2)
      | some _ =>
        let bad := level + r.1.length
        let up := rekeyFault pd d page fuel (bad + 1) r.2.2
        (some (up.1.getD bad), up.2)

/-- The nodes above a page up to a level replaced by nodes that vouch for none of their children. -/
def clearPath (pd : Fin 64) (d page top : Nat) (s : State) : State :=
  let s := ((List.range 5).filter fun l => 2 ≤ l ∧ l ≤ top).foldl (fun s l =>
    let index := page / 8 ^ (l - 1)
    let line : Line := BitVec.ofNat 512 (2 ^ 512 - 1)
    if (sealHeld s pd d l index).isSome || metaRoom s pd d l index then
      sealStore { pd := pd, granule := d, level := l, index := index, data := line, dirty := true } s
    else pushMeta pd d l index line s) s
  modSeal pd (fun x => { x with
    lost := x.lost.filter fun e =>
      !(decide (e.1 = d) && decide (e.2.1 ≤ top) && decide (1 ≤ e.2.1) && decide (e.2.2 = page / 8 ^ (e.2.1 - 1)))
    anchorsLost := if top = 4 then x.anchorsLost.filter (· ≠ 32 * d + page / 512) else x.anchorsLost }) s

/-- A counter line with major 0 and every minor 127. -/
def quarantinedPage : Line := (List.range 64).foldl (fun l k => setMinor l k 127) 0

/-- The walk ended: the descriptor takes the new slot (R361). -/
def finishRekey (pd : Fin 64) (r : Rekey) (s : State) : State :=
  let s := noteCommit [.partition pd]
    (modPartition pd (fun x => { x with keySlot := r.slot, sealing := { x.sealing with rekey := none } }) s)
  let s := raise 0x7015 15 pd [] s
  (s.tasks.filter fun t => decide (t.work = .rekey pd) && decide (t.state = .running)).foldl (fun s t =>
    endTask t .ok (BitVec.ofNat 64 r.quarantined) s) s

/-- One line of a VEILED partition under the new key: zero stays zero, and poison stays. -/
def rekeyLine (pd : Fin 64) (index : Nat) (oldKey newKey : BitVec 512) (s : State) : State :=
  match storedRead .rky pd index s with
  | (.data l, s) =>
    if l = 0 then s
    else
      match placeOf s pd index with
      | some pl => pushWrite pl (xtsLine false newKey index (xtsLine true oldKey index l)) false s
      | none => s
  | (.fail _ _, s) =>
    match placeOf s pd index with
    | some pl => pushWrite pl 0 true s
    | none => s

/-- Every line of a page quarantined (R361). -/
def noteQuarantinePage (pd : Fin 64) (first : Nat) (s : State) : State :=
  (List.range 64).foldl (fun s k => noteQuarantine pd (first + k) s) s

/-- One page of a SEALED partition under the new key. The pointer moves before the new counter line is put, so that its
path is authenticated under the key that now governs each node. -/
def rekeyPage (pd : Fin 64) (index : Nat) (oldKey newKey : BitVec 512) (s : State) : State :=
  let d := index / granuleLines
  let page := index % granuleLines / 64
  let s := sealMakeRoom pd d (index % granuleLines) s
  let before := s.partitions[pd].sealing.quarantined.length
  let f := rekeyFault pd d page 5 1 s
  let r : Line × State := match f.1 with
    | some top =>
      (quarantinedPage, noteQuarantinePage pd index (clearPath pd d page top f.2))
    | none =>
      match counterLine .rky pd d page f.2 with
      | (.data c, s) => if c = 0 then (0, s) else recryptPage .rky pd d page oldKey newKey c 0 none s
      | (.fail _ _, s) => (quarantinedPage, noteQuarantinePage pd index s)
  let found := r.2.partitions[pd].sealing.quarantined.length - before
  let s := modSeal pd (fun x => { x with
    rekey := x.rekey.map fun k => { k with pointer := index + 64, quarantined := k.quarantined + found } }) r.2
  sealFlush (fun m => decide (m.pd = pd)) (putCounter pd d page r.1 s)

/-- Whether the rekey of a partition goes on now (R533, R535, R362). -/
def rekeyRuns (s : State) (pd : Fin 64) : Bool :=
  let x := s.partitions[pd]
  !thermalEmergency s && !s.thermal.tripped && !s.device.fatal && !s.firmware.rebooting &&
    (partitionQuarters x).all (fun q => !quarterOut s q && !blockStopped s (.crypto q)) &&
    !(s.tasks.any fun t => t.byStack && decide (t.state = .running) &&
      (match t.work with | .retire c => partitionOnChannel s pd c | _ => false)) &&
    !(s.tasks.any fun t => decide (t.work = .rekey pd) && decide (t.state = .queued))

/-- The places that the next line or page of a rekey reads and writes. -/
def rekeyPlaces (s : State) (pd : Fin 64) (index : Nat) : List (Option Place) :=
  if s.partitions[pd].mode = .sealed then
    let d := index / granuleLines
    let page := index % granuleLines / 64
    pageSpots s pd d page ++ (List.range 4).map fun l => metaPlace s pd d (l + 1) (page / 8 ^ l)
  else [placeOf s pd index]

/-- Whether every channel that a rekey needs next takes part: it waits at a fenced controller and during a trim. -/
def rekeyServes (s : State) (pd : Fin 64) (index : Nat) : Bool :=
  (rekeyPlaces s pd index).all fun o => match o with
    | some pl => unserved s pl || copyServes s pl.channel
    | none => true

/-- The next line or page of a rekey. -/
def rekeyStep (pd : Fin 64) (s : State) : State :=
  let x := s.partitions[pd]
  match x.sealing.rekey with
  | none => s
  | some r =>
    if !rekeyRuns s pd || !rekeyServes s pd r.pointer then s
    else
      let s := { s with tasks := s.tasks.map fun t => if t.work = .rekey pd then { t with paused := false } else t }
      let size := x.granules * granuleLines
      let oldKey := (s.keys[Fin.ofNat 64 x.keySlot]).key
      let newKey := (s.keys[Fin.ofNat 64 r.slot]).key
      let s :=
        if size ≤ r.pointer then s
        else if x.mode = .sealed then rekeyPage pd r.pointer oldKey newKey s
        else
          modSeal pd (fun y => { y with rekey := y.rekey.map fun k => { k with pointer := k.pointer + 1 } })
            (rekeyLine pd r.pointer oldKey newKey s)
      match s.partitions[pd].sealing.rekey with
      | some r => if size ≤ r.pointer then finishRekey pd r s else s
      | none => s

/-- The lockout of `KEY_LOAD` ends (R354). -/
def keyLockoutEnd (s : State) : State :=
  match s.fuses.keyLockedUntil with
  | some t => modFuses (fun f => { f with keyLockedUntil := none, unwrapRun := 0 }) (passTo t s)
  | none => s

def execKeyLockoutEnd (s : State) : Out := .next (keyLockoutEnd s)

end Sys2Proof.Machine
end

