-- ==== Sys2Proof/Machine/Repair.lean ====
section
/-! DEFINITION. The vertical interface: trims (R365 to R368, R526, R527), shift repair and erasure (R369 to R374), row
repair (R380), the layer keeper (R383 to R385), and bond wear (R386 to R388). -/

namespace Sys2Proof.Machine

open Sys2Proof

/-! ### Wires and positions (R369, R370) -/

/-- The repair group of a logical wire: its signal wires, its spares, its first logical wire and first position. -/
def wireGroup (path : Path) (wire : Nat) : Nat × Nat × Nat × Nat :=
  match path with
  | .column => (72, 4, 0, 0)
  | .command => (32, 2, 0, 0)
  | .skein => (64, 2, wire / 64 * 64, wire / 64 * 66)

/-- The logical wires of a path. -/
def pathWires : Path → Nat
  | .column => 72
  | .command => 32
  | .skein => 18432

def failedOn (path : Path) (v : Vertical) : List Nat :=
  match path with
  | .column => v.colFailed
  | .skein => v.skFailed
  | .command => v.caFailed

def setFailed (path : Path) (l : List Nat) (v : Vertical) : Vertical :=
  match path with
  | .column => { v with colFailed := l }
  | .skein => { v with skFailed := l }
  | .command => { v with caFailed := l }

/-- The position on which a logical wire travels. -/
def wirePosition (path : Path) (wire : Nat) (v : Vertical) : Nat :=
  let g := wireGroup path wire
  let good := (List.range (g.1 + g.2.1)).filter fun i => !(failedOn path v).contains (g.2.2.2 + i)
  g.2.2.2 + good.getD (wire - g.2.2.1) 0

/-- Failed positions of the group of a wire. -/
def groupFailed (path : Path) (wire : Nat) (v : Vertical) : Nat :=
  let g := wireGroup path wire
  ((failedOn path v).filter fun p => decide (g.2.2.2 ≤ p) && decide (p < g.2.2.2 + g.1 + g.2.1)).length

/-- The marks of a channel (R374). -/
def erasureMarks (v : Vertical) : Nat := v.colErased.length + v.skErased.length

/-- The symbol that a wire carries (R306, R372). -/
def wireSymbol (path : Path) (wire : Nat) : Nat :=
  match path with
  | .column => wire / 2
  | _ => wire % 576 / 16

/-- A wire no longer suspect. -/
def clearSuspect (path : Path) (wire : Nat) (v : Vertical) : Vertical :=
  { v with
    suspects := v.suspects.filter (· ≠ (path, wire))
    hits := v.hits.filter fun h => !(decide (h.1 = path) && decide (h.2.1 = wire)) }

/-- A position marked failed under shift repair, after its log entry: both ends switch on a repair command word (R370,
R371). -/
def shiftPosition (c : Fin 32) (path : Path) (wire pos : Nat) (s : State) : State :=
  raise 0x8010 3 c [itPath (pathCode path), itWire wire]
    (modVertical c (fun v => clearSuspect path wire (setFailed path (insertUnique pos (failedOn path v)) v))
      (issueWord c (.shift path pos) (logRepair (.shift c path pos) s)))

/-- A wire marked as an erasure, after its log entry; the channel's second mark starts its retirement (R372, R374). -/
def eraseWire (c : Fin 32) (path : Path) (wire : Nat) (s : State) : State :=
  let s := logRepair (.erasure c path wire) s
  let s := modVertical c (fun v => clearSuspect path wire
    (if path = .column then { v with colErased := insertUnique wire v.colErased }
     else { v with skErased := insertUnique wire v.skErased })) s
  raise 0x8011 3 c [itPath (pathCode path), itWire wire, itSymbol (wireSymbol path wire)] s

/-- A failed wire repaired, erased, or its channel retired; the outcome is numbered as R480 numbers it. -/
def repairWire (c : Fin 32) (path : Path) (wire : Nat) (s : State) : Nat × State :=
  let v := s.channels[c].vertical
  if groupFailed path wire v < (wireGroup path wire).2.1 then
    (0, shiftPosition c path wire (wirePosition path wire v) s)
  else
    match path with
    | .command => (3, queueRetire c (modVertical c (clearSuspect path wire) s))
    | _ =>
      if v.colErased.contains wire ∧ path = .column ∨ v.skErased.contains wire ∧ path = .skein then (1, s)
      else
        let s := eraseWire c path wire s
        if erasureMarks s.channels[c].vertical = 2 then (2, queueRetire c s) else (1, s)

/-! ### Trims (R526, R527) -/

/-- The window of passing taps around the tap in force: at most 24 taps each way, stopping at the first that fails. -/
def tapWindow (pass : BitVec 64) (start : Nat) : Nat × Nat :=
  let down := ((List.range 24).takeWhile fun i => decide (i < start) && pass.getLsbD (start - 1 - i)).length
  let up := ((List.range 24).takeWhile fun i => decide (start + 1 + i < 64) && pass.getLsbD (start + 1 + i)).length
  (start - down, start + up)

/-- The first longest run of passing taps of a whole sweep, as its first and last tap. -/
def tapSweep (pass : BitVec 64) : Option (Nat × Nat) :=
  (List.range 64).foldl (fun best i =>
    let n := ((List.range 64).takeWhile fun j => decide (i + j < 64) && pass.getLsbD (i + j)).length
    if n = 0 then best
    else
      match best with
      | some (a, b) => if b + 1 - a < n then some (i, i + n - 1) else best
      | none => some (i, i + n - 1)) none

/-- The probe with the narrower window of two. -/
def narrower (a b : TapProbe × Nat) : TapProbe × Nat := if b.2 < a.2 then b else a

/-- The three trim values set, with the eye recorded and VTRIM_MARGIN_LOW below 19 taps. `sweep` is the first trim of a
cold start-up. -/
def setTaps (sweep : Bool) (c : Fin 32) (t : TrimProbe) (s : State) : State :=
  let v := s.channels[c].vertical
  let window (p : TapProbe) (start : Nat) : Nat × Nat :=
    if sweep then (tapSweep p.pass).getD (start, start) else tapWindow p.pass start
  let w1 := window t.cclk v.cclkTap
  let w2 := window t.skclk v.skclkTap
  let w3 := window t.rx v.rxTap
  let width (w : Nat × Nat) : Nat := w.2 + 1 - w.1
  let n := narrower (narrower (t.cclk, width w1) (t.skclk, width w2)) (t.rx, width w3)
  let s := modVertical c (fun v => { v with
    cclkTap := (w1.1 + w1.2) / 2, skclkTap := (w2.1 + w2.2) / 2, rxTap := (w3.1 + w3.2) / 2, vtrimEye := n.2 }) s
  if n.2 < 19 then raise 0xB015 3 c [itPath (pathCode n.1.path), itWire n.1.narrowWire, itCount n.2] s else s

/-- Banks with a debt of 5 or more refreshed down to 4 before a trim (R179). -/
def refreshDown (c : Fin 32) (s : State) : State :=
  (List.finRange 16).foldl (fun s b =>
    (List.range (s.channels[c].banks[b].debt - 4)).foldl (fun s _ => refreshNow c b s) s) s

/-- A channel as its trim ends: it serves, the words that a parity alert discarded are replayed, a forced refresh that
fell due goes first, and the write queue that waited for the trim is written (R169, R174, R385). -/
def leaveTrim (c : Fin 32) (s : State) : State :=
  let x := s.channels[c]
  let s := if x.state = .trim then modChannel c (fun x => { x with state := .active, idleSince := s.hubTimer }) s else s
  let s := if x.alerts = 3 then
      replayBuffer c (modChannel c (fun x => { x with alerts := 0, alertTrimAt := some s.hubTimer }) s)
    else s
  rewriteQueue c
    ((List.finRange 16).foldl (fun s b => if s.channels[c].banks[b].debt = 8 then refreshNow c b s else s) s)

/-- A trim of a channel with what its probes found: 1.6 µs, the taps, and the dead wires repaired at once; the third
failure in a row to find a tap is a clock failure (R367, R368). -/
def trimTaps (c : Fin 32) (t : TrimProbe) (s : State) : State :=
  let s := modChannel c (fun x => { x with trimDue := false }) (noteTrim c (passTo (s.hubTimer + 1600) (refreshDown c s)))
  if t.below90 then
    let s := modVertical c (fun v => { v with trimFails := v.trimFails + 1 }) s
    if 3 ≤ s.channels[c].vertical.trimFails then clockFailure c s else s
  else
    let s := setTaps false c t (modVertical c (fun v => { v with trimFails := 0 }) s)
    t.dead.foldl (fun s w => if w.2 < pathWires w.1 then (repairWire c w.1 w.2 s).2 else s) s

/-- The failed positions of a channel. -/
def positionsFailed (v : Vertical) : Nat := v.colFailed.length + v.skFailed.length + v.caFailed.length

/-- A trim, after which the channel serves again; where it made a shift repair, the trim of that repair comes first
(R367). -/
def applyTrim (c : Fin 32) (t : TrimProbe) (s : State) : State :=
  let failed := positionsFailed s.channels[c].vertical
  let s := trimTaps c t s
  if s.channels[c].state = .retired then s
  else if failed < positionsFailed s.channels[c].vertical then holdTrim c s
  else leaveTrim c s

/-- A trim that has to wait: the cores reboot (R435), or the channel is the source of a copy in the midst of a slab and
is not held for the trim, which runs between two slabs (R389). -/
def trimWaits (s : State) (c : Fin 32) : Bool :=
  s.firmware.rebooting ||
    (match s.mover with
     | some (.slabs k _ row) => decide (k = c) && decide (row ≠ 0) && decide (s.channels[c].state ≠ .trim)
     | _ => false)

/-- A channel that can be trimmed now: it serves or is held for the trim, no other activity holds it, and nothing makes
the trim wait. -/
def trimServes (s : State) (c : Fin 32) : Bool :=
  !trimWaits s c &&
    channelIssues (modChannel c (fun x => { x with state := if x.state = .trim then .active else x.state }) s) c &&
    !(runningWork s).any fun w =>
      decide (workChannel w = some c) && (testedBlock w).isSome ||
        (match w with | .rowRepair k _ _ => decide (k = c) | _ => false)

/-- A serving channel held for the trim that its drift calls for (R367); one that cannot be trimmed yet is looked at again
with the next sample of its layer's sensor. -/
def driftTrim (c : Fin 32) (s : State) : State :=
  if trimDrifted s c && decide (s.channels[c].state ≠ .trim) && trimServes s c then holdTrim c s else s

/-- Host trims of a channel that merge into one just made (R533). -/
def mergeTrims (c : Fin 32) (s : State) : State :=
  endTasks (fun t => decide (t.work = .vtrim c)) (if s.channels[c].state = .retired then .failed else .ok) s

/-- A trim that the stack makes of a channel (R367, R533). -/
def verticalTrim (c : Fin 32) (probe : TrimProbe) (s : State) : State :=
  if trimServes s c then
    let s := applyTrim c probe s
    if s.channels[c].vertical.trimFails = 0 ∨ s.channels[c].state = .retired then mergeTrims c s else s
  else s

/-- A trim that found no tap repeated 1 ms later (R368). -/
def trimRetry (c : Fin 32) (probe : TrimProbe) (s : State) : State :=
  let v := s.channels[c].vertical
  if trimServes s c ∧ v.trimFails ≠ 0 then
    let s := applyTrim c probe (passTo (v.vtrimLast + 1000000) s)
    if s.channels[c].vertical.trimFails = 0 ∨ s.channels[c].state = .retired then mergeTrims c s else s
  else s

/-- A shift repair that the stack starts for a suspect wire with auto_repair = 1, and its trim (R322, R370). -/
def shiftRepair (c : Fin 32) (path : Path) (wire : Nat) (probe : TrimProbe) (s : State) : State :=
  if s.params.autoRepair ∧ s.channels[c].vertical.suspects.contains (path, wire) ∧ trimServes s c then
    mergeTrims c (applyTrim c probe (repairWire c path wire s).2)
  else s

/-! ### Automatic block reset (R20, R373) -/

/-- A command/address position that failed the echo test repaired, its trim owed as the channel resumes, or its channel
retired. -/
def echoPosition (c : Fin 32) (s : State) (pos : Nat) : State :=
  let v := s.channels[c].vertical
  if 34 ≤ pos ∨ v.caFailed.contains pos then s
  else
    let wire := ((List.range pos).filter fun p => !v.caFailed.contains p).length
    if v.caFailed.length < 2 then
      modChannel c (fun x => { x with trimDue := true }) (shiftPosition c .command wire pos s)
    else queueRetire c s

/-- The echo test on the 34 positions of a channel fenced for CA_REPLAY_FAILED, made by its block reset (R373). -/
def echoTest (b : BlockId) (echo : List Nat) (s : State) : State :=
  match b with
  | .channel c =>
    if s.channels[c].echoDue then
      echo.foldl (echoPosition c) (modChannel c (fun x => { x with echoDue := false }) s)
    else s
  | _ => s

/-- Whether a block stays as it is until a command resets it, or cannot be reset yet. -/
def autoResetOpen (s : State) (b : BlockId) : Bool :=
  let x := blockAt s b
  let out := match quarterOf b with | some q => quarterOut s q | none => false
  x.fenced && !x.kept && !x.testing && !x.resetting && !out && !s.device.fatal && !s.thermal.tripped

/-- The reset of a fenced block by Krejo firmware, with the echo test that a parity fence calls for. -/
def autoBlockReset (b : BlockId) (echo : List Nat) (s : State) : State :=
  if autoResetOpen s b then
    startBlockReset b (echoTest b echo s)
  else s

def execAutoBlockReset (b : BlockId) (echo : List Nat) (s : State) : Out := .next (autoBlockReset b echo s)

/-! ### Row repair (R380) -/

/-- A row copied into the lowest free spare row of its bank, and remapped; false where the bank has none. -/
def repairRow (c : Fin 32) (b : Fin 16) (row : Nat) (s : State) : Bool × State :=
  let k := s.channels[c].banks[b]
  if 64 ≤ k.sparesUsed then
    (false, if k.pprExhausted then s
      else raiseBank 0x8016 c b [] (modBank c b (fun y => { y with pprExhausted := true }) s))
  else
    let pl : Place := { channel := c, bank := b, row := row, line := 0 }
    let r := rowRead { who := .int, address := placeAddress s pl } c b row s
    let s := logRepair (.row c b row k.sparesUsed) r.2
    let s := modBank c b (fun y => { y with
      remap := sparsePut 64 y.remap row y.sparesUsed, sparesUsed := y.sparesUsed + 1
      badRows := sparsePut 0 y.badRows row 0 }) s
    (true, raiseBank 0x8015 c b [itRow row] (rowWrite c b row r.1 s))

/-- A repair that the stack starts for a suspect row with auto_ppr = 1; on a retiring channel it is dropped (R533). -/
def postPackageRepair (c : Fin 32) (b : Fin 16) (row : Nat) (s : State) : State :=
  let suspect := decide (s.params.rowSuspectPasses ≤ sparseGet 0 s.channels[c].banks[b].badRows row)
  let busy := (runningWork s).any fun w => decide (workChannel w = some c)
  if s.params.autoPpr ∧ suspect ∧ s.channels[c].retire ≠ .migrating ∧ !busy ∧ channelIssues s c then
    (repairRow c b row (passTo (s.hubTimer + 250) (refreshDown c s))).2
  else s

def execPostPackageRepair (c : Fin 32) (bank : Fin 16) (row : Fin 65600) (s : State) : Out :=
  .next (postPackageRepair c bank row s)

/-! ### The layer keeper (R383) -/

/-- What a layer keeper does to its channel: banks precharged, 8 refreshes of each, self-refresh. -/
def keeperStop (c : Fin 32) (s : State) : State :=
  modChannel c (fun y => { y with
    state := .selfRefresh, keeperActed := true
    banks := y.banks.map fun b => { b with openRow := none, hitStreak := 0, refRow := (b.refRow + 8) % 8200, debt := 0 } }) s

/-- The keeper of a channel whose clock stopped without a self-refresh entry, within 10 µs. -/
def layerKeeper (c : Fin 32) (s : State) : State :=
  let x := s.channels[c]
  if x.state = .retired ∨ x.keeperActed ∨ (x.state = .selfRefresh ∧ !x.clockLost) then s
  else keeperStop c (passTo (s.hubTimer + 10000) s)

def execLayerKeeper (c : Fin 32) (s : State) : Out := .next (layerKeeper c s)

/-! ### Bond wear (R386 to R388) -/

/-- The temperature of a bond interface in units of 1/16 °C. -/
def bondTemp (s : State) (i : Nat) : Int :=
  let t (k : Nat) : Int := s.sensors[(Fin.ofNat 17 k : Fin 17)].value
  let g := i / 5
  match i % 5 with
  | 0 => 2 * t (4 * g)
  | 1 => 2 * t (4 * g + 1)
  | k => t (4 * g + k - 1) + t (4 * g + k)

/-- The integer square root, bit by bit from bit 63 down. -/
def natSqrt (n : Nat) : Nat :=
  (List.range 64).foldl (fun r i => if (r + 2 ^ (63 - i)) * (r + 2 ^ (63 - i)) ≤ n then r + 2 ^ (63 - i) else r) 0

/-- (y / 40)^2.5 for a range of y sixteenths of a degree, in millionths, rounded down; zero below 10 °C. -/
def rangeWear (y : Nat) : Nat := if y < 160 then 0 else natSqrt (y ^ 5 * 10 ^ 12 / 640 ^ 5)

/-- The three-point rainflow count on a residual held newest first: what is left of it and the wear counted. -/
def rainflow : Nat → List Int → Nat → List Int × Nat
  | 0, st, eq => (st, eq)
  | n + 1, st, eq =>
    match st with
    | a :: b :: c :: rest =>
      let x := (a - b).natAbs
      let y := (b - c).natAbs
      if x < y then (st, eq)
      else if rest = [] then rainflow n [a, b] (eq + rangeWear y / 2)
      else rainflow n (a :: rest) (eq + rangeWear y)
    | _ => (st, eq)

/-- A turning point pushed on an interface's residual, which holds at most 64. -/
def pushTurning (z : Int) (x : Bond) : Bond :=
  let r := rainflow 64 (z :: x.residual.reverse) x.eq
  let st := r.1.reverse
  match st with
  | a :: b :: rest =>
    if 64 < st.length then { x with residual := b :: rest, eq := r.2 + rangeWear (a - b).natAbs / 2 }
    else { x with residual := st, eq := r.2 }
  | _ => { x with residual := st, eq := r.2 }

/-- A sample of an interface: a turning point where the direction reverses after a move of at least 2 °C. The first
sample after start-up is pushed as it is. -/
def sampleBond (z : Int) (x : Bond) : Bond :=
  match x.last with
  | none => { pushTurning z x with last := some z, turning := none }
  | some z0 =>
    match x.turning with
    | none =>
      if 32 ≤ (z - z0).natAbs then { x with last := some z, turning := some z, rising := decide (z0 < z) } else x
    | some p =>
      let x := { x with last := some z }
      if (x.rising ∧ p ≤ z) ∨ (!x.rising ∧ z ≤ p) then { x with turning := some z }
      else if 32 ≤ (z - p).natAbs then { pushTurning p x with turning := some z, rising := !x.rising }
      else x

/-- One cycle in the units of `eq`. -/
def wearUnit : Nat := 1000000

/-- BOND_WEAR_80 and BOND_WEAR_95, each once for an interface. -/
def bondEvents (s : State) (i : Fin 20) : State :=
  let x := s.bonds[i]
  let s := if 16000 * wearUnit ≤ x.eq ∧ !x.raised80 then
      raise 0x8018 0 0 [itCount i] (modBond i (fun b => { b with raised80 := true }) s) else s
  if 19000 * wearUnit ≤ x.eq ∧ !x.raised95 then
    raise 0x8019 0 0 [itCount i] (modBond i (fun b => { b with raised95 := true }) s) else s

def bondSample (s : State) : State :=
  let s := (List.finRange 20).foldl (fun s i => modBond i (sampleBond (bondTemp s i)) s) s
  (List.finRange 20).foldl bondEvents s

def execBondSample (s : State) : Out := .next (bondSample s)

def execBondStore (s : State) : Out := .next (bondStore s)

end Sys2Proof.Machine
end

