-- ==== Sys2Proof/Machine/FuseArray.lean ====
section
/-! DEFINITION. The fuse array: its map and blocks (R497, R498, R504), locks and dead fields (R506, R513), and burning its
words (R509 to R511). -/

namespace Sys2Proof.Machine

open Sys2Proof

/-- Fields by number: 0 IDENT, 1 TRIM, 2 REPAIR, 3 KEYWRAP, 4 POLICY, 5 USER. -/
def fuseBlocks (field : Nat) : Nat := if field = 2 then 36 else if field = 4 then 2 else if field = 5 then 4 else 1

/-- Data words of a block. -/
def fuseWords (field : Nat) : Nat :=
  if field = 0 then 4 else if field = 1 then 128 else if field = 2 then 7 else if field = 3 then 8
  else if field = 4 then 1 else 16

/-- The first word of copy 0. -/
def fuseBase (field : Nat) : Nat :=
  if field = 0 then 0x000 else if field = 1 then 0x020 else if field = 2 then 0x0C0 else if field = 3 then 0x009
  else if field = 4 then 0x005 else 0x1E0

/-- The array word of a block's word in a copy; word `fuseWords field` is the check word. -/
def fuseAddr (field copy block word : Nat) : Nat :=
  0x400 * copy + fuseBase field + block * (fuseWords field + 1) + word

/-- The data size F of a field, or of one USER slot. -/
def fuseBytes (field : Nat) : Nat := if field = 5 then 64 else 4 * fuseWords field * fuseBlocks field

/-- The blocks that a command on a field and slot reaches. -/
def fuseRange (field slot : Nat) : List Nat := if field = 5 then [slot] else List.range (fuseBlocks field)

/-- Blocks that may stay blank. -/
def fuseOptional (field block : Nat) : Bool :=
  (decide (field = 2) && decide (32 ≤ block)) || (decide (field = 4) && decide (block = 1)) || decide (field = 5)

def fuseWordAt (s : State) (a : Nat) : FuseWord := sparseGet { low := 0, nominal := 0, high := 0 } s.fuses.words a

def putFuseWord (a : Nat) (w : FuseWord) (s : State) : State :=
  modFuses (fun f => { f with words := sparsePut { low := 0, nominal := 0, high := 0 } f.words a w }) s

/-- The words of a block in a copy, check word last. -/
def fuseBlock (s : State) (field copy block : Nat) : List FuseWord :=
  (List.range (fuseWords field + 1)).map fun w => fuseWordAt s (fuseAddr field copy block w)

/-- Words joined, the first lowest. -/
def joinWords (ws : List (BitVec 32)) : Nat := ws.foldr (fun w n => w.toNat + 2 ^ 32 * n) 0

/-- The check word of a block's data. -/
def fuseCheck (field data : Nat) : Nat := crc32c (natToBytes (4 * fuseWords field) data)

/-- The data of a block at the nominal reference. -/
def fuseData (s : State) (field copy block : Nat) : Nat :=
  joinWords (((fuseBlock s field copy block).take (fuseWords field)).map (·.nominal))

/-- States of a block (R498). -/
inductive BlockState where
  | blank | complete | broken
deriving DecidableEq, Repr

def fuseBlockState (s : State) (field copy block : Nat) : BlockState :=
  let ws := fuseBlock s field copy block
  if ws.all fun w => decide (w.low = 0) then .blank
  else if fuseCheck field (fuseData s field copy block) = (ws.getD (fuseWords field) ⟨0, 0, 0⟩).nominal.toNat then .complete
  else .broken

/-- Weak bits of a word: read 1 at the low reference and 0 at the high one. -/
def weakOf (w : FuseWord) : BitVec 32 := w.low &&& ~~~w.high

def fuseStrong (s : State) (field copy block : Nat) : Bool :=
  (fuseBlock s field copy block).all fun w => decide (weakOf w = 0)

/-- The lock bit of a field's copy, read at the low reference (R504). -/
def fuseLocked (s : State) (field slot copy : Nat) : Bool :=
  (fuseWordAt s (0x400 * copy + 0x3FF)).low.getLsbD (if field = 5 then 5 + slot else field)

/-- Weak bits in both copies of a field, check bits included (R516). -/
def fuseWeakCount (s : State) (field : Nat) : Nat :=
  ((List.range 2).map fun copy =>
    ((List.range (fuseBlocks field)).map fun b =>
      ((fuseBlock s field copy b).map fun w => popcount (weakOf w).toNat 32).sum).sum).sum

/-- A copy locked while a required block of either copy is blank; for USER the slot's own block (R506, R513). -/
def fuseDead (s : State) (field slot : Nat) : Bool :=
  (fuseLocked s field slot 0 || fuseLocked s field slot 1) &&
    (fuseRange field slot).any fun b => (!fuseOptional field b || decide (field = 5)) &&
      (decide (fuseBlockState s field 0 b = .blank) || decide (fuseBlockState s field 1 b = .blank))

/-- The data of one block of an image. -/
def imageBlock (field image block : Nat) : Nat :=
  let w := 32 * fuseWords field
  if field = 5 then image else image / 2 ^ (w * block) % 2 ^ w

/-- Whether an array block meets an image's data: nothing to do, burnt, or refused. -/
def burnFits (s : State) (field copy block data : Nat) : Bool :=
  match fuseBlockState s field copy block with
  | .blank => true
  | .complete => decide (fuseData s field copy block = data)
  | .broken =>
    let want := data + 2 ^ (32 * fuseWords field) * fuseCheck field data
    let have_ := joinWords ((fuseBlock s field copy block).map (·.low))
    decide (have_ &&& want = have_)

/-- Whether a block of an image is burnt at all: an optional blank block with data all zero stays blank, and a complete
one is as it is. -/
def burnActs (s : State) (field copy block data : Nat) : Bool :=
  match fuseBlockState s field copy block with
  | .blank => !(fuseOptional field block && decide (data = 0))
  | .complete => false
  | .broken => true

/-- The words of a burn in order, with what each is to hold. -/
def burnWords (s : State) (field slot copy image : Nat) : List (Nat × BitVec 32) :=
  (fuseRange field slot).flatMap fun b =>
    let data := imageBlock field image b
    if burnActs s field copy b data then
      (List.range (fuseWords field + 1)).map fun w =>
        (fuseAddr field copy b w,
          if w = fuseWords field then BitVec.ofNat 32 (fuseCheck field data)
          else BitVec.ofNat 32 (data / 2 ^ (32 * w)))
    else []

/-- Words burnt with full margin. -/
def burnInto (ws : List (Nat × BitVec 32)) (s : State) : State :=
  ws.foldl (fun s w =>
    let x := fuseWordAt s w.1
    putFuseWord w.1 { low := x.low ||| w.2, nominal := x.nominal ||| w.2, high := x.high ||| w.2 } s) s

/-- The words that a burn or a lock writes. -/
def fuseTargets (s : State) : Work → List (Nat × BitVec 32)
  | .fuseBurn field slot copy image => burnWords s field slot copy (bytesToNat image)
  | .fuseLock field slot copy => [(0x400 * copy + 0x3FF, 1#32 <<< (if field = 5 then 5 + slot else field))]
  | _ => []

/-- The reference words of a block: its selected data and their check word. -/
def referenceWord (field data w : Nat) : BitVec 32 :=
  if w = fuseWords field then BitVec.ofNat 32 (fuseCheck field data) else BitVec.ofNat 32 (data / 2 ^ (32 * w))

/-- The words that a reburn visits in order, each with its reference (R514). -/
def reburnTargets (s : State) (field slot : Nat) : List (Nat × BitVec 32) :=
  let blocks := s.fuses.selected.getD field []
  (List.range 2).flatMap fun copy => (fuseRange field slot).flatMap fun b =>
    match blocks.getD b none with
    | some data => (List.range (fuseWords field + 1)).map fun w => (fuseAddr field copy b w, referenceWord field data w)
    | none => []

/-- The weak bits of words whose reference is 1 made strong (R514). -/
def cureWords (ws : List (Nat × BitVec 32)) (s : State) : State :=
  ws.foldl (fun s t =>
    let w := fuseWordAt s t.1
    let bits := weakOf w &&& t.2
    putFuseWord t.1 { low := w.low, nominal := w.nominal ||| bits, high := w.high ||| bits } s) s

/-- Whether TS0 allows a fuse word to be burnt (R406). -/
def burnTemp (s : State) : Bool :=
  let x := s.sensors[(0 : Fin 17)]
  !x.suspect && decide (80 ≤ x.value) && decide (x.value ≤ 480)

/-- A word that lost its power while its bits were pulsed: which of them are burnt, and how well, is free (R515). -/
def partWord (a : Nat) (bits : BitVec 32) (s : State) : State :=
  let w := fuseWordAt s a
  let low := bits &&& (Config.freeAt s.drawn 1).setWidth 32
  let nominal := low &&& (Config.freeAt s.drawn 2).setWidth 32
  let high := nominal &&& (Config.freeAt s.drawn 3).setWidth 32
  putFuseWord a { low := w.low ||| low, nominal := w.nominal ||| nominal, high := w.high ||| high } s

/-- A burn, lock or reburn ended before its last word by what lies outside it: a number of its words, which the stack
does not tell, is done (R406, R511, R515). `mid` where power is lost during the next word. -/
def cutBurn (mid : Bool) (t : Task) (st : KStatus) (s : State) : State :=
  let cure : Option (List (Nat × BitVec 32)) := match t.work with
    | .fuseReburn field slot => some (reburnTargets s field slot)
    | _ => none
  let ws := cure.getD (fuseTargets s t.work)
  let n := (Config.freeWord s.drawn).toNat % (ws.length + 1)
  let u := if cure.isSome then cureWords (ws.take n) s else burnInto (ws.take n) s
  let u := match (if mid then ws[n]? else none) with
    | some w => partWord w.1 (if cure.isSome then weakOf (fuseWordAt u w.1) &&& w.2 else w.2) u
    | none => u
  endTask t st (BitVec.ofNat 64 ((ws.getD n (0, 0)).1)) (drawOne u)

/-- Every running fuse task cut, before its next word, or with the loss of power during it. -/
def cutBurns (mid : Bool) (st : KStatus) (s : State) : State :=
  (s.tasks.filter fun t => decide (t.state = .running) && (match t.work with
    | .fuseBurn _ _ _ _ => true
    | .fuseLock _ _ _ => true
    | .fuseReburn _ _ => true
    | _ => false)).foldl (fun s t => cutBurn mid t st s) s

end Sys2Proof.Machine
end

