-- ==== Sys2Proof/Machine/Thermal.lean ====
section
/-! DEFINITION. Heat: sensors, their cross-check and substitution (R392 to R396), throttle and warnings (R397 to R399),
the power governor (R400, R401), shutdown (R402, R403), OCLK (R405) and loss of flow (R408). -/

namespace Sys2Proof.Machine

open Sys2Proof

/-! ### Fused corrections (R501) -/

/-- A signed field of a number. -/
def signedAt (n hi lo : Nat) : Int :=
  let v := bitsOf n hi lo
  if bitAt n hi then (v : Int) - (2 ^ (hi + 1 - lo) : Nat) else v

/-- The correction of a sensor in units of 0.125 °C; TRIM at its default and under no override adds 5.0 °C (R507). -/
def sensorOffset (s : State) (k : Fin 17) : Int :=
  signedAt s.fuses.trim.toNat (12 * k.val + 11) (12 * k.val) + (if s.fuses.trimDefault && !s.fuses.trimOverride then 40 else 0)

/-- The estimated power, in units of 0.1 W, that a die's model offset uses. -/
def modelPower (s : State) (k : Nat) : Nat :=
  if k = 0 then s.thermal.powerEstDw else s.thermal.quarterDw.getD ((k - 1) / 4) 0

/-- The model offset m(j, k) of neighbours, in units of 0.125 °C; pair 2 × lower die for the upward direction, the next
for the downward. -/
def modelOffset (s : State) (j k : Nat) : Int :=
  let i := 204 + 16 * (2 * min j k + (if j < k then 0 else 1))
  let n := s.fuses.trim.toNat
  signedAt n (i + 7) i + signedAt n (i + 15) (i + 8) * (modelPower s k : Int) / 125

/-- Model offsets added along the dies from one to another. -/
def offsetAlong (s : State) (j k : Nat) : Int :=
  if j < k then ((List.range (k - j)).map fun i => modelOffset s (j + i) (j + i + 1)).foldl (· + ·) 0
  else ((List.range (j - k)).map fun i => modelOffset s (j - i) (j - i - 1)).foldl (· + ·) 0

/-! ### Readings -/

def sensorAt (s : State) (k : Nat) : Sensor := s.sensors[(Fin.ofNat 17 k : Fin 17)]

/-- The mean of the last 8 samples. -/
def filtered (x : Sensor) : Int := x.samples.foldl (· + ·) 0 / 8

/-- The neighbours of a sensor. -/
def sensorNeighbours (k : Nat) : List Nat := (if k = 0 then [] else [k - 1]) ++ (if k = 16 then [] else [k + 1])

/-- e(k) of R394: the mean over the neighbours that are not SUSPECT. -/
def neighbourEstimate (s : State) (k : Nat) : Option Int :=
  match (sensorNeighbours k).filter fun j => !(sensorAt s j).suspect with
  | [] => none
  | [j] => some (filtered (sensorAt s j) + modelOffset s j k)
  | js => some (js.foldl (fun t j => t + (filtered (sensorAt s j) + modelOffset s j k)) 0 / 2)

/-- The value that stands for a SUSPECT sensor (R395); with no valid sensor in the stack it is a free value. -/
def substituted (s : State) (k : Nat) : Int :=
  match neighbourEstimate s k with
  | some e => e
  | none =>
    let good (j : Nat) : Bool := !(sensorAt s j).suspect
    let at' (j : Nat) : Int := filtered (sensorAt s j) + offsetAlong s j k
    match (List.range k).reverse.find? good, ((List.range 17).filter (k < ·)).find? good with
    | some b, some a => (at' b * ((a - k : Nat) : Int) + at' a * ((k - b : Nat) : Int)) / ((a - b : Nat) : Int)
    | some b, none => at' b + 80
    | none, some a => at' a + 80
    | none, none => ((Config.freeAt s.drawn k).toNat % 1024 : Nat)

/-- The hottest filtered reading of the valid sensors. -/
def hottestValid (s : State) : Option Int :=
  (s.sensors.toList.filter fun x => !x.suspect).foldl (fun o x =>
    match o with
    | some t => some (max t (filtered x))
    | none => some (filtered x)) none

/-- The value in use of a sensor (R395, R396). -/
def valueInUse (s : State) (k : Nat) : Int :=
  let x := sensorAt s k
  let v := if x.suspect then substituted s k else filtered x
  match s.thermal.blind, hottestValid s with
  | true, some h => max v h
  | _, _ => v

/-- The values in use of every sensor brought up to date, with their peaks. -/
def refreshValues (s : State) : State :=
  { s with
    drawn := if s.sensors.all (·.suspect) then s.drawn + 1 else s.drawn
    sensors := s.sensors.mapFinIdx fun k x _ =>
      let v := valueInUse s k
      { x with value := v, peak := max x.peak v } }

/-! ### SUSPECT and BLIND -/

def suspectCount (s : State) : Nat := (s.sensors.toList.filter (·.suspect)).length

/-- A sensor declared SUSPECT, and SENSOR_BLIND from the fifth (R394, R396). -/
def declareSuspect (k : Fin 17) (s : State) : State :=
  if s.sensors[k].suspect then s
  else
    let s := raise 0x8020 18 k [] (modSensor k (fun x => { x with suspect := true, deviating := 0, agreeing := 0 }) s)
    if 5 ≤ suspectCount s ∧ !s.thermal.blind then raise 0x8021 0 0 [] (modThermal (fun t => { t with blind := true }) s)
    else s

/-- How far a sensor's filtered reading is from its estimate. -/
def deviation (s : State) (k : Nat) : Nat :=
  match neighbourEstimate s k with
  | some e => (filtered (sensorAt s k) - e).natAbs
  | none => 0

/-- A sensor whose count has reached 64 and that is not declared yet. -/
def countReached (s : State) (k : Nat) : Bool :=
  !(sensorAt s k).suspect && decide (64 ≤ (sensorAt s k).deviating)

/-- The unbroken run of such sensors below a number, highest first. -/
def reachedBelow (s : State) : Nat → List Nat
  | 0 => []
  | n + 1 => if countReached s n then n :: reachedBelow s n else []

/-- Sensors that reached the count in one cycle judged: the one furthest off is declared, its neighbours among them start
from zero, and the rest are judged in the same way (R394). Of two equally far off it is the lower. -/
def judgeReached : Nat → List (Nat × Nat) → State → State
  | 0, _, s => s
  | n + 1, run, s =>
    match run.foldl (fun (o : Option (Nat × Nat)) x => match o with
        | some y => if y.2 ≤ x.2 then some x else o
        | none => some x) none with
    | none => s
    | some (k, _) =>
      let near (x : Nat × Nat) : Bool := decide (x.1 = k + 1) || decide (x.1 + 1 = k)
      let s := (run.filter near).foldl (fun s x =>
        modSensor (Fin.ofNat 17 x.1) (fun y => { y with deviating := 0 }) s) s
      judgeReached n (run.filter fun x => !near x && decide (x.1 ≠ k)) (declareSuspect (Fin.ofNat 17 k) s)

/-- The count of a sensor's samples that are more than 6 °C from its estimate, in a row (R394). -/
def countDeviation (k : Fin 17) (s : State) : State :=
  if s.sensors[k].suspect then s
  else modSensor k (fun x => { x with deviating := if 48 < deviation s k then x.deviating + 1 else 0 }) s

/-- The cross-check after a sensor's conversion (R394). Sensors that have reached the count are judged together, as soon
as the sensor above the highest of them cannot reach it in this cycle. -/
def crossCheck (k : Fin 17) (s : State) : State :=
  let above := sensorAt s (k.val + 1)
  if countReached s k && decide (k.val ≠ 16) && !above.suspect && decide (above.deviating = 63) then s
  else
    let run := reachedBelow s (if countReached s k then k.val + 1 else k.val)
    judgeReached 17 (run.map fun j => (j, deviation s j)) s

/-! ### What follows a reading -/

/-- Refresh modes of the channels (R170). -/
def refreshMode (s : State) (c : Fin 32) : State :=
  let v := s.sensors[layerSensor c].value
  let x := s.channels[c]
  if !x.hot ∧ 680 < v then raise 0x2011 3 c [] (modChannel c (fun x => { x with hot := true }) s)
  else if x.hot ∧ v < 664 then raise 0x2012 3 c [] (modChannel c (fun x => { x with hot := false }) s)
  else s

/-- THERMAL_WARN, and its rearming 3 °C below the limit (R399). -/
def warnDie (s : State) (k : Fin 17) : State :=
  let limit : Int := 8 * ((if k.val = 0 then s.thermal.warnBase else s.thermal.warnLayer : Nat) : Int)
  let x := s.sensors[k]
  if !x.warned ∧ limit < x.value then raise 0x8022 18 k [] (modSensor k (fun x => { x with warned := true }) s)
  else if x.warned ∧ x.value ≤ limit - 24 then modSensor k (fun x => { x with warned := false }) s
  else s

/-- Since when the stack has been cool enough to clear COOLANT_FLOW_LOW (R408). -/
def flowCool (s : State) : State :=
  let cool := (List.finRange 17).all fun k => decide (s.sensors[k].value ≤ if k.val = 0 then 720 else 600)
  modThermal (fun t => { t with
    flowCoolSince := if t.flowLow && cool then (match t.flowCoolSince with | some x => some x | none => some s.hubTimer)
      else none }) s

/-- The sum of a port's PRBS error counts (R103, R477). -/
def prbsSum (x : Port) : Nat := (x.lanes.toList.map (·.prbsErrors)).foldl (· + ·) 0

/-- The symbols that a lane's checker receives in a test. In the near-end parallel loop they are those of the lane's own
generator, in logic (R102): eight times the pattern's order of bits, and all that follow fit as these do. Elsewhere they
come over pins or a driver and no occurrence delivers them: they are a free value. -/
def testSymbols (g : Gauge) (t : PortTest) (drawn lane : Nat) : List Nat :=
  if t.loop = 0 then
    prbsSymbols g t.pattern t.inverted (8 * (prbsOrder t.pattern).1) (2 ^ (prbsOrder t.pattern).1 - 1)
  else Config.testBits drawn lane

/-- What the checkers of a running test counted on each lane under test: the bit errors in the bits of the symbols that
the lane received at the port's gauge (R103). -/
def countErrors (p : Fin 4) (s : State) : State :=
  match s.ports[p].phy.test with
  | some t =>
    let n := s.drawn
    let g := s.ports[p].phy.gauge
    let errors (i : Nat) : Nat := prbsErrorCount t.pattern t.inverted (symbolBits g (testSymbols g t n i))
    drawOne (mapLanes p (fun i l =>
      if t.lanes.getLsbD i then { l with prbsErrors := sat32Add l.prbsErrors (errors i) } else l) s)
  | none => s

/-- The running test of a port. -/
def testOf (s : State) (p : Fin 4) : List Task :=
  s.tasks.filter fun t => decide (t.state = .running) && (match t.work with | .portTest q _ => decide (q = p) | _ => false)

/-- The end of a port test: the port leaves TEST and enters DETECT. -/
def stopTest (p : Fin 4) (st : KStatus) (s : State) : State :=
  let s := countErrors p s
  let sum := prbsSum s.ports[p]
  let s := if s.ports[p].phy.state = .test then modPort p squelch (toDetect p s) else s
  (testOf s p).foldl (fun s t =>
    endTask t st (BitVec.ofNat 64 sum) s) s

/-- A thermal emergency that has begun: self-tests end, copies and rekeys pause, port tests stop (R535). -/
def watchEmergency (before s : State) : State :=
  if thermalEmergency s ∧ !thermalEmergency before then
    let s := preemptTests (fun _ => true) s
    let moves (t : Task) : Bool := match t.work with
      | .rekey _ => true
      | .retire _ => true
      | .resize _ _ => true
      | _ => false
    let s := pauseTasks moves s
    (List.finRange 4).foldl (fun s (p : Fin 4) =>
      (testOf s p).foldl (fun s t =>
        stopTest p .ok (raisePreempted t s)) s) s
  else s

/-! ### Shutdown (R402, R403) -/

/-- The orderly stop of every channel: held lines and queued writes in the layers, banks closed, self-refresh (R382). A
fenced channel, which takes no command, is stopped by its layer keeper (R383, R403). -/
def orderlyStop (s : State) : State :=
  let s := sealFlush (fun _ => true) (kennelFlush (fun _ => true) s)
  (List.finRange 32).foldl (fun s (c : Fin 32) =>
    let x := s.channels[c]
    if x.state = .retired ∨ x.state = .selfRefresh then s
    else if channelRuns s c then stopChannel c s
    else keeperStop c s) s

/-- Every port silent, its requests without completions. -/
def silencePorts (s : State) : State :=
  (List.finRange 4).foldl (fun s (p : Fin 4) =>
    if s.ports[p].phy.state = .disabled then s
    else
      let s := modPort p (fun x => { x with partnerState := .down, partner := {}, waitingHello := none, draining := false })
        (settlePort p s)
      modPort p squelch (toDetect p s)) s

/-- The latch of a thermal trip: the record with every reading on every attached port, the ports idle, the channels
stopped, every task ended, and no reset brought to its end. -/
def tripNow (k : Fin 17) (s : State) : State :=
  let items := (List.finRange 17).map fun j => itTemp s.sensors[j].value
  let n := s.log.count
  let s := raise 0x8025 18 k items s
  let recs := (s.log.records.take (s.log.count - n)).reverse
  let s := (List.finRange 4).foldl (fun s (p : Fin 4) =>
    if s.ports[p].partnerState = .attached then
      recs.foldl (fun s r => modSend p (sendFatal (linkKey s p) r) s) s
    else s) s
  let s := endTasks (fun _ => true) .aborted (cutBurns false .aborted (orderlyStop (silencePorts s)))
  let s := { s with
    mover := none
    blocks := s.blocks.map fun e => (e.1, { e.2 with testing := false, resetting := false })
    quarters := s.quarters.map fun q => { q with state := if q.state = .resetting then .isolated else q.state }
    firmware := { s.firmware with activating := false } }
  modThermal (fun t => { t with tripped := true, tripCount := t.tripCount + 1 })
    (modDevice (fun d => { d with dev := .tripped, alertForced := true, thermtrip := true }) s)

/-- The comparison of a sensor's raw sample, or of its substituted value, with the trip point. -/
def tripCheck (k : Fin 17) (s : State) : State :=
  let x := s.sensors[k]
  let v := if x.suspect then x.value else x.raw
  let n := if (if k.val = 0 then (920 : Int) else 840) ≤ v then x.hot + 1 else 0
  let s := modSensor k (fun x => { x with hot := n }) s
  if 4 ≤ n ∧ !s.thermal.tripped then tripNow k s else s

/-! ### Event pulses (R417, R418) -/

/-- The block that a crossing's number names as its destination; none for the hub and the management subsystem. -/
def crossingBlock (n : Nat) : Option BlockId :=
  if n < 32 then some (.channel (Fin.ofNat 32 n))
  else if n < 36 then some (.port (Fin.ofNat 4 n))
  else if n < 40 then some (.pointer (Fin.ofNat 4 n))
  else if n < 44 then some (.bobbin (Fin.ofNat 4 n))
  else if n < 48 then some (.counter (Fin.ofNat 4 n))
  else if n < 52 then some (.crypto (Fin.ofNat 4 n))
  else if n < 60 then some (.kennel (Fin.ofNat 8 (n - 52)))
  else if n = 60 then some .copy else none

/-- A crossing whose destination is in reset: its source holds what it counts (R421). -/
def destinationResets (s : State) (n : Nat) : Bool :=
  match crossingBlock n with
  | some b =>
    s.device.warm || (blockAt s b).resetting ||
      (match quarterOf b with | some q => decide (s.quarters[q].state = .resetting) | none => false)
  | none => decide (n = 61) && s.device.warm

/-- The overrun of a crossing: its sticky status, the count P:0020, and CROSSING_OVERRUN of the receiving block, which
names the crossing by its number (R418). -/
def crossingOverrun (n : Nat) (s : State) : State :=
  let s := modDevice (fun d => { d with
    overruns := sat32 d.overruns, overrunStatus := d.overrunStatus ||| (1#64 <<< n) }) s
  match crossingBlock n with
  | some b => raiseBlock 0x0018 b [itCount n] s
  | none => raise 0x0018 (if n = 61 then 13 else 14) 0 [itCount n] s

/-- The pulses of one round trip at a crossing: the first starts a handshake, and the others pend, 15 at most and an
overrun beyond. With the destination in reset none starts, and all pend. -/
def takePulses (s : State) (e : Nat × Nat) : State :=
  if 62 < e.1 ∨ e.2 = 0 then s
  else
    let held := sparseGet 0 s.device.pulses e.1
    let n := if destinationResets s e.1 then held + e.2 else e.2 - 1
    let s := modDevice (fun d => { d with pulses := sparsePut 0 d.pulses e.1 (min 15 n) }) s
    if 15 < n then crossingOverrun e.1 s else s

/-- The pulses that reached the crossings since the last conversion: those that pended before have been delivered, but for
the ones that a reset holds back (R417, R421). -/
def samplePulses (pulses : List (Nat × Nat)) (s : State) : State :=
  pulses.foldl takePulses
    (modDevice (fun d => { d with pulses := d.pulses.filter fun e => destinationResets s e.1 }) s)

/-! ### A sample -/

/-- A reading within the range that the sensors measure: −40 to 150 °C (R392). -/
def measured (v : Int) : Int := max (-320) (min 1200 v)

/-- A fuse burn cut before its next word once TS0 has left its window (R406). -/
def watchBurn (s : State) : State := if burnTemp s then s else cutBurns false .tempRange s

/-- The channels after a sample of a sensor: their refresh modes, the ledger that follows, and the trims that drift calls
for (R170, R294, R367); a trip has stopped them (R403). -/
def sampleChannels (before : State) (k : Fin 17) (s : State) : State :=
  if s.thermal.tripped then s
  else
    let t := (List.finRange 32).foldl refreshMode s
    let t := if (List.finRange 32).any fun c => t.channels[c].hot != before.channels[c].hot then recomputeLedger before t
      else t
    ((List.finRange 32).filter fun c => layerSensor c = k).foldl (fun s c => driftTrim c s) t

/-- A conversion of one sensor: a reading before its fused correction, or an open or shorted diode. -/
def sensorSample (k : Fin 17) (reading : SensorReading) (s : State) : State :=
  let s := samplePulses reading.pulses s
  let t := match reading.raw with
    | none => declareSuspect k s
    | some r =>
      let v := measured (r + sensorOffset s k)
      countDeviation k
        (modSensor k (fun x => { x with samples := (x.samples ++ [v]).drop (x.samples.length + 1 - 8), raw := v }) s)
  let t := refreshValues (crossCheck k t)
  let t := modSensor k (fun x => { x with
    agreeing := if x.suspect ∧ reading.raw.isSome ∧ (x.raw - substituted t k).natAbs ≤ 24 then x.agreeing + 1 else 0 }) t
  let t := sampleChannels s k ((List.finRange 17).foldl warnDie t)
  tripCheck k (watchEmergency s (flowCool (watchBurn t)))

/-- The converter takes TS0 to TS16 in order (R392); a conversion out of its turn does not happen. -/
def execSensorSample (k : Fin 17) (reading : SensorReading) (s : State) : Out :=
  .next (if k = s.thermal.nextSensor then
      sensorSample k reading (modThermal (fun t => { t with nextSensor := Fin.ofNat 17 (k.val + 1) }) s)
    else s)

/-! ### Throttle (R397, R398) -/

/-- The thermal factor of a die in percent. -/
def dieFactor (k : Fin 17) (v : Int) : Nat :=
  let excess := (v - (if k.val = 0 then (800 : Int) else 680)).toNat
  max 40 (100 - (3 * excess + 3) / 4)

/-- The factor of a channel from its layer and the base die, where it takes effect. -/
def channelFactor (s : State) (c : Fin 32) : Nat :=
  let v := min (s.sensors[layerSensor c].factorPct) (s.sensors[(0 : Fin 17)].factorPct)
  let now := s.channels[c].thermalPct
  if v < now ∨ now + 3 ≤ v ∨ v = 100 then v else now

/-- THROTTLE_ON and THROTTLE_OFF of a layer, at most once a second each. -/
def throttleEvents (before s : State) (i : Fin 16) : State :=
  let c : Fin 32 := Fin.ofNat 32 (2 * i.val)
  let old := before.channels[c].thermalPct
  let new := s.channels[c].thermalPct
  if old = 100 ∧ new < 100 then raiseLimited 0x8023 18 (i.val + 1) (fun _ => [itCount new]) s
  else if old < 100 ∧ new = 100 then raiseLimited 0x8024 18 (i.val + 1) (fun _ => []) s
  else s

/-- The factors recomputed; the ledger is judged before a fall takes effect. -/
def throttleRecompute (s : State) : State :=
  let f := { s with sensors := s.sensors.mapFinIdx fun k x h =>
    { x with factorPct := dieFactor ⟨k, h⟩ x.value } }
  let t := { f with channels := f.channels.mapFinIdx fun c x h => { x with thermalPct := channelFactor f ⟨c, h⟩ } }
  (List.finRange 16).foldl (throttleEvents s) (recomputeLedger s t)

def execThrottleRecompute (s : State) : Out := .next (throttleRecompute s)

/-! ### Governor (R400, R401) -/

/-- The cap in force in units of 0.1 W (R408). -/
def capDw (s : State) : Int :=
  10 * ((if s.thermal.flowLow then min s.thermal.powerCapW s.thermal.flowLossCap else s.thermal.powerCapW : Nat) : Int)

/-- g after a window, and how many windows in a row have had room for it to rise. -/
def governorStep (cap p fix : Int) (g calm : Nat) : Nat × Nat :=
  if cap < fix then (10, 0)
  else if cap - 5 < p then
    (if p ≤ fix then 10 else max 10 (((g : Int) * (cap - 5 - fix) / (p - fix)).toNat), 0)
  else if p < cap - 20 then (if 9 ≤ calm then min 100 (g + 2) else g, calm + 1)
  else (g, 0)

/-- One window of the governor with its estimates, in units of 0.1 W. -/
def governorWindow (p fix : Nat) (quarters : List Nat) (s : State) : State :=
  let r := governorStep (capDw s) p fix s.thermal.governorPct s.thermal.calmWindows
  let t := modThermal (fun t => { t with
    powerEstDw := min p 65535, quarterDw := quarters, governorPct := r.1, calmWindows := r.2 }) s
  let t := recomputeLedger s t
  if capDw s < fix then raiseLimited 0x8028 0 0 (fun _ => []) t else t

def execGovernorWindow (powerDw fixedDw : Nat) (quarterDw : List Nat) (s : State) : Out :=
  .next (governorWindow powerDw fixedDw quarterDw s)

/-! ### OCLK and coolant -/

/-- OCLK's trim from TS0 (R405). -/
def execOclkTrim (s : State) : Out :=
  .next (modThermal (fun t => { t with
    oclkTrim := Config.oclkTrim (bitsOf s.fuses.trim.toNat 1483 1228) s.sensors[(0 : Fin 17)].value }) s)

/-- The test of the outlet-side mean against that of 2 s earlier (R408). -/
def flowTest (s : State) : State :=
  let mean : Int := ((List.finRange 17).filter fun k => k.val ≠ 0).foldl (fun t k => t + s.sensors[k].value) 0
  let p := s.thermal.powerEstDw
  let low : Bool := match s.thermal.history[1999]? with
    | some (m, q) => decide (((256 * s.thermal.flowLossRate : Nat) : Int) < 10 * (mean - m)) && !decide (q + 50 < p)
    | none => false
  let t := modThermal (fun t => { t with history := ((mean, p) :: t.history).take 2000 }) s
  if low && !s.thermal.flowLow then
    let t := raise 0x8026 0 0 [] (modThermal (fun t => { t with flowLow := true, flowCoolSince := none }) t)
    watchEmergency s (flowCool (recomputeLedger s t))
  else t

def execFlowTest (s : State) : Out := .next (flowTest s)

/-- COOLANT_FLOW_OK after 60 s of cool readings (R408). -/
def coolantOk (s : State) : State :=
  match s.thermal.flowCoolSince with
  | some t =>
    if s.thermal.flowLow then
      raise 0x8027 0 0 [] (modThermal (fun t => { t with flowLow := false, flowCoolSince := none })
        (passTo (t + 60 * secondNs) s))
    else s
  | none => s

def execCoolantFlowOk (s : State) : Out := .next (coolantOk s)

end Sys2Proof.Machine
end

