-- ==== Sys2Proof/Machine/Window.lean ====
section
/-! DEFINITION. The status window (R490 to R496): the device page, the entries of quarters, ports, channels and sensors,
the ledger, partition and table descriptors (R192), the granule map, and the control page. -/

namespace Sys2Proof.Machine

open Sys2Proof

/-! ### Codes of R432, R181 and R390 -/

def chStateCode : ChState → Nat
  | .active => 0
  | .powerDown => 1
  | .selfRefresh => 2
  | .fenced => 3
  | .trim => 4
  | .retired => 5

def retireCode : RetireState → Nat
  | .inService => 0
  | .queued => 1
  | .migrating => 2
  | .retired => 3

def quarterCode : QuarterState → Nat
  | .inService => 0
  | .isolated => 1
  | .resetting => 2
  | .heldIsolated => 3

def partnerCode : PartnerState → Nat
  | .down => 0
  | .linked => 1
  | .attached => 2
  | .detaching => 3

def ptypeCode : PType → Nat
  | .raw => 0
  | .table => 1
  | .buffer => 2
  | .counter => 3

def modeCode : Mode → Nat
  | .plain => 0
  | .veiled => 1
  | .sealed => 2

/-- cap_c of a channel in MB/s (R294), zero where nothing is left. -/
def capacityMbps (s : State) (c : Fin 32) : Nat := (capacityOf s c / 100).toNat

/-! ### Entries -/

/-- The device page (R492). -/
def devicePage (s : State) : List Byte :=
  let d := s.device
  natToBytes 64 (devStateCode d.dev + identOrder s * 2 ^ 8 + identStepping s * 2 ^ 16 + boolNat d.fatal * 2 ^ 24 +
    boolNat s.thermal.tripped * 2 ^ 25 + boolNat s.thermal.flowLow * 2 ^ 26 + boolNat (decide (d.refclk ≠ 0)) * 2 ^ 27 +
    boolNat s.thermal.blind * 2 ^ 28 + boolNat (alertAsserted s) * 2 ^ 29 + s.thermal.powerEstDw % 65536 * 2 ^ 32 +
    s.thermal.governorPct % 256 * 2 ^ 48 + identSerial s * 2 ^ 64 + s.hubTimer % 2 ^ 64 * 2 ^ 128 +
    s.log.count % 2 ^ 64 * 2 ^ 192 + s.log.ackIndex % 2 ^ 64 * 2 ^ 256 + d.epoch % 2 ^ 32 * 2 ^ 320)

/-- A quarter and port entry (R493). -/
def portEntry (s : State) (q : Fin 4) : List Byte :=
  let x := s.ports[q]
  natToBytes 16 (quarterCode s.quarters[q].state + partnerCode x.partnerState * 2 ^ 4 + gaugeCode x.phy.gauge * 2 ^ 8 +
    x.phy.rxMask.toNat * 2 ^ 10 + x.phy.txMask.toNat * 2 ^ 14 + boolNat x.devicePanic * 2 ^ 18 +
    boolNat x.link.partnerPanic * 2 ^ 19 + boolNat x.link.panicIgnored * 2 ^ 20 + heldSlots x % 65536 * 2 ^ 32 +
    x.partner.identity.toNat * 2 ^ 64)

/-- A channel word (R494). -/
def channelWord (s : State) (c : Fin 32) : List Byte :=
  let x := s.channels[c]
  natToBytes 4 (chStateCode x.state + boolNat x.hot * 2 ^ 3 + min 2 (erasureMarks x.vertical) * 2 ^ 4 +
    retireCode x.retire * 2 ^ 6 + issueScale s c % 128 * 2 ^ 8 + boolNat x.gate * 2 ^ 15)

/-- A sensor word (R494); past TS16 the words are zero. -/
def sensorWord (s : State) (k : Nat) : List Byte :=
  if h : k < 17 then
    let x := s.sensors[k]
    natToBytes 4 ((x.value % 4096).toNat + boolNat x.suspect * 2 ^ 12 + x.factorPct % 128 * 2 ^ 13)
  else natToBytes 4 0

/-- A ledger entry: capacity and committed charge in MB/s. -/
def ledgerEntry (s : State) (c : Fin 32) : List Byte :=
  natToBytes 4 (capacityMbps s c) ++ natToBytes 4 (committedOf s c)

/-- A partition descriptor (R495); one that was never created reads zero. -/
def partitionEntry (s : State) (pd : Fin 64) : List Byte :=
  let x := s.partitions[pd]
  if x.valid then
    natToBytes 32 (1 + ptypeCode x.ptype * 2 + modeCode x.mode * 2 ^ 3 + boolNat x.chip * 2 ^ 5 + x.quarter.val * 2 ^ 6 +
      x.owner.toNat * 2 ^ 8 + x.keySlot % 64 * 2 ^ 12 + boolNat (partitionOrphaned s pd) * 2 ^ 18 +
      boolNat (!x.pendingChanges.isEmpty) * 2 ^ 19 + x.base % 1024 * 2 ^ 32 + x.granules % 2048 * 2 ^ 42 +
      x.quota % 2 ^ 20 * 2 ^ 64 + x.rights.toNat * 2 ^ 96 +
      (if x.mode = .sealed then x.metaGranules % 256 else 0) * 2 ^ 128 +
      (match x.binding with | some b => b.identity.toNat | none => 0) * 2 ^ 192)
  else natToBytes 32 0

/-- A table descriptor (R192). -/
def tableEntry (s : State) (td : Fin 16) : List Byte :=
  let t := s.tables[td]
  if t.valid then
    natToBytes 32 (1 + boolNat t.prefixKind * 2 + t.partition.val * 2 ^ 2 + t.keyLen % 64 * 2 ^ 8 +
      t.bucketLog2 % 32 * 2 ^ 14 + t.home.val * 2 ^ 19 + t.baseBlock % 2 ^ 25 * 2 ^ 21 + t.regionBlocks % 2 ^ 25 * 2 ^ 46 +
      t.dirBase % 2 ^ 18 * 2 ^ 71 + t.dirBits % 32 * 2 ^ 89 + boolNat t.parallelProbe.new * 2 ^ 94 +
      boolNat t.kennelProbe.new * 2 ^ 95 + t.maxDisplace.new % 16 * 2 ^ 96 + t.entryCount % 2 ^ 32 * 2 ^ 128 +
      t.stashCount % 2 ^ 13 * 2 ^ 160 + t.commitSeq.toNat * 2 ^ 192)
  else natToBytes 32 0

/-- The control page: overrun_status and peer_reset_status (R496). -/
def controlPage (s : State) : List Byte :=
  natToBytes 8 (s.device.overrunStatus.toNat % 2 ^ 63) ++ natToBytes 8 (s.device.peerResetStatus.toNat % 2 ^ 63) ++
    natToBytes 48 0

/-! ### Reading -/

/-- One 64 B line of the window, taken whole (R491); offsets that R490 does not list read zero. -/
def windowLine (s : State) (o : Nat) : List Byte :=
  if o = 0 then devicePage s
  else if o = 0x40 then ((List.finRange 4).map (portEntry s)).flatten
  else if 0x80 ≤ o ∧ o < 0x100 then
    ((List.range 16).map fun i => channelWord s (Fin.ofNat 32 ((o - 0x80) / 4 + i))).flatten
  else if 0x100 ≤ o ∧ o < 0x180 then ((List.range 16).map fun i => sensorWord s ((o - 0x100) / 4 + i)).flatten
  else if 0x200 ≤ o ∧ o < 0x300 then
    ((List.range 8).map fun i => ledgerEntry s (Fin.ofNat 32 ((o - 0x200) / 8 + i))).flatten
  else if 0x400 ≤ o ∧ o < 0xC00 then
    ((List.range 2).map fun i => partitionEntry s (Fin.ofNat 64 ((o - 0x400) / 32 + i))).flatten
  else if 0xC00 ≤ o ∧ o < 0xE00 then
    ((List.range 2).map fun i => tableEntry s (Fin.ofNat 16 ((o - 0xC00) / 32 + i))).flatten
  else if 0x1000 ≤ o ∧ o < 0x1800 then
    ((List.range 32).map fun i => natToBytes 2 (granuleEntry s ((o - 0x1000) / 2 + i)).toNat).flatten
  else if o = 0xFC00 then controlPage s
  else natToBytes 64 0

/-- Lines of the window from a 64 B-aligned offset. -/
def windowBytes (s : State) (o lines : Nat) : List Byte :=
  ((List.range lines).map fun i => windowLine s (o + 64 * i)).flatten

/-- A write of 8 bytes to the control page: ones clear, the reserved bits keep zero (R9, R496). -/
def controlWrite (o : Nat) (v : Word) (s : State) : State :=
  modDevice (fun d =>
    if o = 0xFC00 then { d with overrunStatus := d.overrunStatus &&& ~~~v }
    else if o = 0xFC08 then { d with peerResetStatus := d.peerResetStatus &&& ~~~v }
    else d) s

/-- STATUS_READ: the window's lines from its address (R32, R490, R491). -/
def performStatusRead : Perform := fun j r s =>
  complete j .ok 0 (windowBytes s r.hdr.address.toNat (r.hdr.lengthCode.toNat + 1)) s

def execStatusRead (p : Fin 4) (r : Req) (s : State) : Out := .next (receive performStatusRead p opStatusRead r s)

end Sys2Proof.Machine
end

