-- ==== Sys2Proof/Machine/Params.lean ====
section
/-! DEFINITION. Parameters (R472, R489): the instances, values, ranges and effects of the tables R28, R105, R150, R181,
R220, R252, R276, R303, R328, R363, R390, R410, R432, R466, R516, R537 and R562, the cross-rules and the budgets. -/

namespace Sys2Proof.Machine

open Sys2Proof

/-- Whether a number is in a closed range. -/
def within (lo hi n : Nat) : Bool := decide (lo ≤ n) && decide (n ≤ hi)

/-- How many instances a parameter ID has; none where the ID does not exist. -/
def paramCount (id : Nat) : Option Nat :=
  if within 0x0001 0x0006 id || [0x0008, 0x0020, 0x0021, 0x0040, 0x0050, 0x0051, 0x0052].contains id then some 1
  else if within 0x0100 0x0102 id then some 4
  else if within 0x1000 0x100A id || within 0x1020 0x1023 id || within 0x1060 0x1065 id || within 0x1068 0x106B id ||
      within 0x1070 0x1072 id then some 4
  else if within 0x1040 0x1041 id then some 64
  else if within 0x2000 0x2009 id || within 0x2010 0x2015 id || within 0x2018 0x201F id then some 32
  else if within 0x2A10 0x2A14 id || [0x2A16, 0x2A17, 0x2A18, 0x2A1A].contains id then some 1
  else if within 0x3000 0x300B id then some 16
  else if id = 0x3400 then some 4
  else if id = 0x3500 then some 1
  else if within 0x4000 0x4002 id then some 32
  else if within 0x4400 0x440C id then some 64
  else if within 0x4C00 0x4C03 id then some 4
  else if within 0x5000 0x5008 id then some 64
  else if within 0x5800 0x5801 id then some 1
  else if within 0x5C00 0x5C01 id then some 4
  else if within 0x6000 0x6007 id then some 4
  else if within 0x6400 0x640E id || within 0x6800 0x6803 id then some 32
  else if within 0x6B00 0x6B01 id || within 0x6C01 0x6C07 id then some 1
  else if within 0x7000 0x7002 id || within 0x7400 0x7407 id then some 64
  else if within 0x7800 0x7804 id then some 1
  else if id = 0x7C00 then some 4
  else if within 0x8000 0x8004 id then some 1
  else if within 0x8100 0x8106 id then some 32
  else if within 0x8200 0x8203 id then some 17
  else if [0x8260, 0x8261].contains id || within 0x8280 0x8285 id then some 1
  else if within 0x8600 0x8601 id then some 20
  else if within 0x9000 0x9003 id then some 6
  else if id = 0x9004 || id = 0x9100 || within 0x9102 0x9104 id || within 0x9200 0x9205 id || within 0x9300 0x9303 id then
    some 1
  else if within 0xA000 0xA002 id then some 6
  else if id = 0xA100 then some 1
  else if within 0xB000 0xB002 id then some 32
  else if within 0xB400 0xB403 id then some 64
  else if id = 0xBC00 then some 1
  else none

/-- A parameter that exists, with an instance that it has. -/
def paramExists (id inst : Nat) : Bool := match paramCount id with | some n => decide (inst < n) | none => false

/-! ### Values -/

/-- A signed value sign-extended to 64 bits. -/
def signExt (v : Int) : Nat := (v % 2 ^ 64).toNat

def portParam (s : State) (p : Fin 4) (id : Nat) : Nat :=
  let x := s.ports[p]
  match id with
  | 0x1000 => boolNat x.phy.enable
  | 0x1001 => x.phy.gaugeMax
  | 0x1002 => x.phy.widthMin
  | 0x1003 => x.phy.readdStableMs
  | 0x1004 => boolNat x.phy.fckEnable
  | 0x1005 => x.phy.idleEntryNs
  | 0x1006 => x.phy.presetMask.toNat
  | 0x1007 => boolNat x.phy.precodeRequest
  | 0x1008 => boolNat x.phy.autoFckRestore
  | 0x1009 => x.phy.recoveryTimeoutMs
  | 0x100A => x.phy.flapLimit
  | 0x1020 => portStateCode x.phy
  | 0x1021 => gaugeCode x.phy.gauge
  | 0x1022 => x.phy.rxMask.toNat
  | 0x1023 => x.phy.txMask.toNat
  | 0x1060 => x.link.helloTimeoutMs
  | 0x1061 => x.link.eventMinSeverity
  | 0x1062 => boolNat x.link.sealWanted
  | 0x1063 => x.link.sealSlot
  | 0x1064 => x.link.replayTimerNs
  | 0x1065 => x.link.bindLockoutS
  | 0x1068 => x.link.fecCorrected
  | 0x1069 => x.link.crcBad
  | 0x106A => x.link.replayCount
  | 0x106B => x.link.sealFailCount
  | 0x1070 => x.partner.identity.toNat
  | 0x1071 => partnerCode x.partnerState
  | 0x1072 => if x.partnerState = .attached then groupPorts s x.partner.identity else 0
  | 0x6000 => x.holdLimitUs
  | 0x6001 => x.panicHigh
  | 0x6002 => x.panicLow
  | 0x6003 => x.panicMax
  | 0x6004 => heldSlots x
  | 0x6005 => x.busyCount
  | 0x6006 => boolNat x.devicePanic
  | 0x6007 => boolNat x.link.panicIgnored
  | _ => 0

def laneParam (l : Lane) (id : Nat) : Nat :=
  match id with
  | 0x1040 => l.osDiscard
  | 0x1041 => l.prbsErrors
  | 0xB400 => l.ltuneCount
  | 0xB401 => l.ltuneLast
  | 0xB402 => l.ltuneEyeMui
  | 0xB403 => l.ltuneEyeMv
  | _ => 0

/-- Spare rows used in the banks of a channel. -/
def sparesOf (x : Channel) : Nat := x.banks.toList.foldl (fun n b => n + b.sparesUsed) 0

/-- The percentage of a channel's slabs that its migration has switched. -/
def migratePct (s : State) (c : Fin 32) : Nat :=
  let x := s.channels[c]
  if x.retire = .retired then 100
  else
    match s.mover with
    | some (.slabs k todo row) =>
      if k = c then (x.reloc.length * 1024 + row) * 100 / ((x.reloc.length + todo.length) * 1024) else 0
    | _ => 0

def channelParam (s : State) (c : Fin 32) (id : Nat) : Nat :=
  let x := s.channels[c]
  match id with
  | 0x2000 => chStateCode x.state
  | 0x2001 => x.ageLimitNs
  | 0x2002 => x.slackThresholdNs
  | 0x2003 => x.hitStreakMax
  | 0x2004 => x.wqHigh
  | 0x2005 => x.wqLow
  | 0x2006 => x.pdIdleUs
  | 0x2007 => x.srIdleMs
  | 0x2008 => boolNat x.hot
  | 0x2009 => x.debtPeak
  | 0x2010 => x.forcedRefreshCount
  | 0x2011 => x.caParityCount
  | 0x2012 => x.readRetryCount
  | 0x2013 => x.fallbackEntries
  | 0x2014 => x.promotedCount
  | 0x2015 => x.wqForwardCount
  | 0x2018 => x.ceCount
  | 0x2019 => x.erasureFixCount
  | 0x201A => x.ueCount
  | 0x201B => x.poisonReadCount
  | 0x201C => x.poisonWrittenCount
  | 0x201D => x.scrubRows
  | 0x201E => x.vertical.suspects.length
  | 0x201F => x.spotDropped
  | 0x6800 => capacityMbps s c
  | 0x6801 => committedOf s c
  | 0x6802 => issueScale s c
  | 0x6803 => boolNat x.gate
  | 0x8100 => x.vertical.colFailed.length
  | 0x8101 => x.vertical.caFailed.length
  | 0x8102 => x.vertical.skFailed.length
  | 0x8103 => min 2 (erasureMarks x.vertical)
  | 0x8104 => sparesOf x
  | 0x8105 => retireCode x.retire
  | 0x8106 => migratePct s c
  | 0xB000 => x.vertical.vtrimCount
  | 0xB001 => x.vertical.vtrimLast
  | 0xB002 => x.vertical.vtrimEye
  | _ => 0

def tableParam (t : Table) (id : Nat) : Nat :=
  match id with
  | 0x3000 => if t.quiescing then 2 else boolNat t.valid
  | 0x3001 => t.entryCount
  | 0x3002 => t.stashCount
  | 0x3003 => t.lookups
  | 0x3004 => t.kennelHits
  | 0x3005 => t.fullCount
  | 0x3006 => t.dataErrors
  | 0x3007 => t.retries
  | 0x3008 => t.depthCuts
  | 0x3009 => boolNat t.parallelProbe.new
  | 0x300A => boolNat t.kennelProbe.new
  | 0x300B => t.maxDisplace.new
  | _ => 0

def bufferParam (x : Partition) (id : Nat) : Nat :=
  let b := x.buffer
  if !x.valid ∨ x.ptype ≠ .buffer then 0
  else
    match id with
    | 0x4400 => poolCells x
    | 0x4401 => b.used
    | 0x4402 => b.fresh
    | 0x4403 => b.listLen
    | 0x4404 => b.leaked
    | 0x4405 => b.lowPct
    | 0x4406 => b.dropLimit
    | 0x4407 => b.dropThreshold
    | 0x4408 => b.dropPool
    | 0x4409 => b.dropStopped
    | 0x440A => b.enqPackets
    | 0x440B => b.deqPackets
    | 0x440C => b.voidCells
    | _ => 0

def counterParam (x : Partition) (id : Nat) : Nat :=
  let b := x.counter
  if !x.valid ∨ x.ptype ≠ .counter then 0
  else
    match id with
    | 0x5000 => boolNat b.saturate
    | 0x5001 => b.regionBase
    | 0x5002 => b.regionGranules
    | 0x5003 => b.ctrUpdates
    | 0x5004 => b.polUpdates
    | 0x5005 => b.polRed
    | 0x5006 => b.coalesceHits
    | 0x5007 => b.saturated
    | 0x5008 => b.badState
    | _ => 0

def sealParam (x : Partition) (id : Nat) : Nat :=
  let b := x.sealing
  if !x.valid ∨ x.mode = .plain then 0
  else
    match id with
    | 0x7400 => if b.rekey.isSome then 2 else 1
    | 0x7401 => x.metaGranules
    | 0x7402 => b.integrityFail
    | 0x7403 => b.treeFail
    | 0x7404 => b.unwrittenRead
    | 0x7405 => b.pageReencrypt
    | 0x7406 => b.quarantined.length
    | 0x7407 => (match b.rekey with | some r => r.pointer * 100 / (x.granules * granuleLines) | none => 0)
    | _ => 0

def classParam (x : Port) (k : Fin 8) (used id : Nat) : Nat :=
  let c := x.classes[k]
  match id with
  | 0x6400 => c.floor
  | 0x6401 => c.floorBurst
  | 0x6402 => c.ceiling
  | 0x6403 => c.ceilingBurst
  | 0x6404 => c.target
  | 0x6405 => c.scope
  | 0x6406 => c.kennelPd
  | 0x6407 => c.kennelLines
  | 0x6408 => boolNat (decide (c.floor ≠ c.floorAdmitted)) + 2 * boolNat (decide (c.target ≠ c.targetAdmitted)) +
      4 * boolNat (decide (c.kennelLines ≠ c.kennelAdmitted))
  | 0x6409 => c.floorAdmitted
  | 0x640A => c.floorMiss
  | 0x640B => c.targetMiss
  | 0x640C => c.kennelMiss
  | 0x640D => (x.held.filter fun e => e.req.hdr.cls.toNat = k.val).length
  | 0x640E => used
  | _ => 0

/-- What a key slot serves (R353): a partition, for its lines or the target of its rekey, or a port's link sealing. -/
def slotUser (s : State) (k : Nat) : Option (Bool × Nat) :=
  match (List.finRange 64).find? fun pd =>
    let x := s.partitions[pd]
    x.valid && decide (x.mode ≠ .plain) &&
      (decide (x.keySlot = k) || (match x.sealing.rekey with | some r => decide (r.slot = k) | none => false)) with
  | some pd => some (false, pd.val)
  | none =>
    match (List.finRange 4).find? fun p =>
      let l := s.ports[p].link
      (l.sealWanted && decide (l.sealSlot = k)) || (l.session && l.sealOn && decide (l.keySlot = k)) with
    | some p => some (true, p.val)
    | none => none

def keyKindCode : KeyKind → Nat
  | .empty => 0
  | .xts => 1
  | .sealKey => 2
  | .gcm => 3

/-- key_check: bytes 0 to 3 of AES-256 of a zero block under the slot's first 256-bit key (R356). -/
def keyCheck (k : KeySlot) : Nat :=
  if k.kind = .empty then 0 else listNum ((aesEncrypt (numBytes k.key.toNat 0 32) (List.replicate 16 0)).take 4)

def keyParam (s : State) (k : Fin 64) (id : Nat) : Nat :=
  match id with
  | 0x7000 => keyKindCode s.keys[k].kind
  | 0x7001 => (match slotUser s k with | some (port, n) => 2 ^ 6 + 2 ^ 7 * boolNat port + n | none => 0)
  | 0x7002 => keyCheck s.keys[k]
  | _ => 0

def fuseStateCode : FuseState → Nat
  | .good => 0
  | .weak => 1
  | .dead => 2
  | .default => 3
  | .blank => 4

/-- A USER slot is active: the highest-numbered one whose content is selected (R503). -/
def activeUser (s : State) : Nat := ((List.range 4).reverse.find? fun i => (s.fuses.user.getD i none).isSome).getD 0

/-- Terrier's progress in the current pass of a channel, in percent. -/
def patrolPct (x : Channel) : Nat :=
  if x.passDone then 100 else (x.patrolRow * 16 + x.patrolBank) * 100 / (bankRows * 16)

/-- P:2A17: the least progress of any channel that is not retired. -/
def scrubProgress (s : State) : Nat :=
  ((List.finRange 32).filter fun c => s.channels[c].state ≠ .retired).foldl (fun n c => min n (patrolPct s.channels[c])) 100

def deviceParam (s : State) (id : Nat) : Nat :=
  let d := s.device
  match id with
  | 0x0001 => devStateCode d.dev
  | 0x0002 => d.lastCause
  | 0x0003 => d.coldStarts
  | 0x0004 => d.warmResets
  | 0x0005 => d.startup
  | 0x0006 => d.epoch
  | 0x0008 => d.refclk
  | 0x0020 => d.overruns
  | 0x0021 => d.peerResets
  | 0x0040 => s.thermal.powerCapW
  | 0x0050 => d.railState.toNat
  | 0x0051 => d.railFaults
  | 0x0052 => s.sideband.strap.toNat
  | 0x2A10 => s.params.scrubPeriodH
  | 0x2A11 => boolNat s.params.scrubEnable
  | 0x2A12 => s.params.suspectWindowH
  | 0x2A13 => s.params.suspectThreshold
  | 0x2A14 => boolNat s.params.autoRepair
  | 0x2A16 => s.params.scrubLastPassH
  | 0x2A17 => scrubProgress s
  | 0x2A18 => s.params.rowSuspectPasses
  | 0x2A1A => s.params.sramCeCount
  | 0x3500 => s.params.copyBlocks
  | 0x5800 => s.params.ctrFlushUs
  | 0x5801 => s.params.polSweepMin
  | 0x6B00 => s.params.sealReserve
  | 0x6B01 => s.partitions.toList.foldl (fun n x => n + (if x.valid then x.quota else 0)) 0
  | 0x6C01 => s.params.scrubReserve
  | 0x6C02 => s.params.maintReserve
  | 0x6C03 => s.params.restoreHoldS
  | 0x6C04 => s.params.holdPromoteUs
  | 0x6C05 => s.params.gateHigh
  | 0x6C06 => s.params.gateLow
  | 0x6C07 => s.params.missWindowUs
  | 0x7800 => s.params.rekeyRate
  | 0x7801 => s.params.sealMetaHits
  | 0x7802 => s.params.sealMetaMisses
  | 0x7803 => s.fuses.unwrapFails
  | 0x7804 => s.partitions.toList.foldl (fun n x => n + (if x.valid ∧ x.mode = .sealed then x.granules else 0)) 0
  | 0x8000 => s.params.migrationReserveMib
  | 0x8001 => reserveFree s
  | 0x8002 => s.params.migrateRate
  | 0x8003 => s.params.trimDriftC
  | 0x8004 => boolNat s.params.autoPpr
  | 0x8260 => s.thermal.warnLayer
  | 0x8261 => s.thermal.warnBase
  | 0x8280 => s.thermal.flowLossRate
  | 0x8281 => s.thermal.flowLossCap
  | 0x8282 => boolNat s.thermal.flowLow
  | 0x8283 => s.thermal.governorPct
  | 0x8284 => s.thermal.powerEstDw
  | 0x8285 => s.thermal.tripCount
  | 0x9004 => s.params.controlMask.toNat
  | 0x9100 => s.log.count
  | 0x9102 => s.log.alertMin
  | 0x9103 => s.log.ackIndex
  | 0x9104 => s.log.ibiMin
  | 0x9200 => s.firmware.activeBank
  | 0x9201 => s.firmware.patchVersion
  | 0x9202 => s.firmware.minPatchVersion
  | 0x9203 => s.firmware.coreResets
  | 0x9204 => outstandingTasks s
  | 0x9205 => s.firmware.persisted.length
  | 0x9300 => boolNat s.sideband.i3c
  | 0x9301 => s.sideband.dynamicAddress.toNat
  | 0x9302 => s.sideband.pecErrors
  | 0x9303 => s.sideband.maxWrite
  | 0xA100 => activeUser s
  | 0xBC00 => s.params.bistPatterns
  | _ => 0

/-- The rates over the last 1 ms (P:3400, P:4C01, P:4C02, P:5C00, P:7C00) are free values: the model keeps no rates. -/
def quarterParam (s : State) (q : Fin 4) (id : Nat) : Nat :=
  match id with
  | 0x0100 => quarterCode s.quarters[q].state
  | 0x0101 => s.quarters[q].resetCount
  | 0x0102 => boolNat s.quarters[q].autoReset
  | 0x4C00 => runningStreams s q
  | 0x4C03 => s.queues.foldl (fun n e =>
      if homeSlice e.1 = q then n + (e.2.streams.filter fun t => !t.running).length else n) 0
  | 0x3400 => lastMs s.hubTimer s.quarters[q].skeinTimes / 1000
  | 0x4C01 => lastMs s.hubTimer s.quarters[q].enqTimes / 1000
  | 0x4C02 => lastMs s.hubTimer s.quarters[q].deqTimes / 1000
  | 0x5C00 => lastMs s.hubTimer s.quarters[q].counterTimes / 1000
  | 0x7C00 => 64 * lastMs s.hubTimer s.quarters[q].cryptoTimes / 1000000
  | 0x5C01 => (s.kennel.filter fun k => decide (k.use = .counter) && k.dirty &&
      (match placeOf s k.pd k.index with | some pl => decide (placeQuarter pl = q) | none => false)).length
  | _ => 0

def thermalParam (x : Sensor) (id : Nat) : Nat :=
  match id with
  | 0x8200 => signExt x.value
  | 0x8201 => boolNat x.suspect
  | 0x8202 => signExt x.peak
  | 0x8203 => x.factorPct
  | _ => 0

def mailboxParam (x : Mailbox) (id : Nat) : Nat :=
  match id with
  | 0x9000 => boolNat x.busy.isSome
  | 0x9001 => (match x.lastSeq with | some n => n.toNat | none => 0)
  | 0x9002 => x.ignored
  | 0x9003 => x.commands
  | _ => 0

/-- The 8 B value of a parameter that exists (R472). -/
def paramRead (s : State) (id inst : Nat) : Nat :=
  let four : Fin 4 := Fin.ofNat 4 inst
  let chan : Fin 32 := Fin.ofNat 32 inst
  let part : Fin 64 := Fin.ofNat 64 inst
  match paramCount id with
  | some 1 => deviceParam s id
  | some 4 => if within 0x1000 0x1FFF id || within 0x6000 0x6007 id then portParam s four id else quarterParam s four id
  | some 6 =>
    if id = 0xA000 then fuseStateCode (s.fuses.states.getD inst .blank)
    else if id = 0xA001 then boolNat ((decide (inst = 1) && s.fuses.trimOverride) || (decide (inst = 4) && s.fuses.policyOverride))
    else if id = 0xA002 then s.fuses.weakBits.getD inst 0
    else mailboxParam s.mailboxes[(Fin.ofNat 6 inst : Fin 6)] id
  | some 16 => tableParam s.tables[(Fin.ofNat 16 inst : Fin 16)] id
  | some 17 => thermalParam s.sensors[(Fin.ofNat 17 inst : Fin 17)] id
  | some 20 =>
    let b := s.bonds[(Fin.ofNat 20 inst : Fin 20)]
    if id = 0x8600 then b.eq / 10000 else b.eq / 200000000
  | some 32 =>
    if within 0x4000 0x4002 id then
      let x := s.profiles[chan]
      if id = 0x4000 then x.limit.new else if id = 0x4001 then x.minimum.new else x.alpha.new
    else if within 0x6400 0x640E id then
      classParam s.ports[(Fin.ofNat 4 (inst / 8) : Fin 4)] (Fin.ofNat 8 inst)
        (s.kennel.filter fun k => k.owner = some inst).length id
    else channelParam s chan id
  | some 64 =>
    if within 0x1040 0x1041 id || within 0xB400 0xB403 id then
      laneParam (s.ports[(Fin.ofNat 4 (inst / 16) : Fin 4)].lanes[(Fin.ofNat 16 inst : Fin 16)]) id
    else if within 0x4400 0x440C id then bufferParam s.partitions[part] id
    else if within 0x5000 0x5008 id then counterParam s.partitions[part] id
    else if within 0x7000 0x7002 id then keyParam s part id
    else sealParam s.partitions[part] id
  | _ => 0

/-- What reading a parameter changes: a peak cleared, a free value drawn. -/
def paramTouch (id inst : Nat) (s : State) : State :=
  if id = 0x2009 then modChannel (Fin.ofNat 32 inst) (fun x => { x with debtPeak := 0 }) s
  else if id = 0x8202 then modSensor (Fin.ofNat 17 inst) (fun x => { x with peak := x.value }) s
  else s

/-! ### Writing -/

/-- The range of a parameter that can be written; a read-only one takes no value (R472 pass 1). -/
def paramRange (id v : Nat) : Bool :=
  match id with
  | 0x0040 => within 30 72 v
  | 0x0102 => within 0 1 v
  | 0x1000 => within 0 1 v
  | 0x1001 => within 0 3 v
  | 0x1002 => [4, 8, 12, 16].contains v
  | 0x1003 => within 100 60000 v
  | 0x1004 => within 0 1 v
  | 0x1005 => decide (v = 0) || within 200 1000000 v
  | 0x1006 => within 1 255 v
  | 0x1007 => within 0 1 v
  | 0x1008 => within 0 1 v
  | 0x1009 => within 50 1000 v
  | 0x100A => within 1 15 v
  | 0x1060 => within 10 10000 v
  | 0x1061 => within 0 4 v
  | 0x1062 => within 0 1 v
  | 0x1063 => within 0 63 v
  | 0x1064 => within 500 20000 v
  | 0x1065 => within 10 3600 v
  | 0x2001 => within 100 65000 v
  | 0x2002 => within 0 4000 v
  | 0x2003 => within 1 64 v
  | 0x2004 => within 8 63 v
  | 0x2005 => within 0 62 v
  | 0x2006 => within 0 10000 v
  | 0x2007 => within 0 10000 v
  | 0x2A10 => within 1 168 v
  | 0x2A11 => within 0 1 v
  | 0x2A12 => within 1 168 v
  | 0x2A13 => within 2 15 v
  | 0x2A14 => within 0 1 v
  | 0x2A18 => within 2 8 v
  | 0x3009 => within 0 1 v
  | 0x300A => within 0 1 v
  | 0x300B => within 1 8 v
  | 0x4000 => within 1 16777215 v
  | 0x4001 => within 0 65535 v
  | 0x4002 => within 0 15 v
  | 0x4405 => within 0 50 v
  | 0x5000 => within 0 1 v
  | 0x5001 => within 0 1023 v
  | 0x5002 => within 0 32 v
  | 0x5800 => within 10 100000 v
  | 0x5801 => within 1 240 v
  | 0x6000 => within 100 100000 v
  | 0x6001 => within 512 3968 v
  | 0x6002 => within 0 3840 v
  | 0x6003 => decide (v = 0) || within 10 100000 v
  | 0x6B00 => within 0 262144 v && decide (v % 4096 = 0)
  | 0x6C01 => within 100 2000 v
  | 0x6C02 => within 500 8000 v
  | 0x6C03 => within 1 3600 v
  | 0x6C04 => within 1 1000 v
  | 0x6C05 => within 32 127 v
  | 0x6C06 => within 0 126 v
  | 0x6C07 => within 10 10000 v
  | 0x7800 => within 100 8000 v
  | 0x8000 => within 0 8192 v && decide (v % 256 = 0)
  | 0x8002 => within 5 50 v
  | 0x8003 => within 4 16 v
  | 0x8004 => within 0 1 v
  | 0x8260 => within 70 85 v
  | 0x8261 => within 85 100 v
  | 0x8280 => within 5 100 v
  | 0x8281 => within 30 72 v
  | 0x9004 => within 1 63 v
  | 0x9102 => within 0 4 v
  | 0x9104 => within 0 4 v
  | 0x9303 => within 16 260 v
  | 0xBC00 => within 1024 1048576 v && decide (2 ^ Nat.log2 v = v)
  | _ => false

/-- The policer region that a partition has, or will have at its quiesce point. -/
def regionAhead (x : Partition) : Nat × Nat :=
  (x.pendingChanges.reverse.findSome? fun e => match e.1 with | .region b n => some (b, n) | _ => none).getD
    (x.counter.regionBase, x.counter.regionGranules)

/-- A new policer region left to wait for the partition's quiesce point, behind the changes that wait there (R42, R257);
a base and a size of one write make one region. -/
def setRegion (pd : Fin 64) (f : Nat × Nat → Nat × Nat) (s : State) : State :=
  modPartition pd (fun x =>
    let r := f (regionAhead x)
    let kept := match x.pendingChanges.getLast? with
      | some (.region _ _, none) => x.pendingChanges.dropLast
      | _ => x.pendingChanges
    if x.valid ∧ x.ptype = .counter then { x with pendingChanges := kept ++ [(.region r.1 r.2, none)] } else x) s

def writePort (p : Fin 4) (id v : Nat) (s : State) : State :=
  let b := decide (v = 1)
  match id with
  | 0x1000 =>
    if s.ports[p].phy.enable = b then s else if b then enablePort p s else disablePort p s
  | 0x1001 => modPhy p (fun x => { x with gaugeMax := v }) s
  | 0x1002 => modPhy p (fun x => { x with widthMin := v }) s
  | 0x1003 => modPhy p (fun x => { x with readdStableMs := v }) s
  | 0x1004 => modPhy p (fun x => { x with fckEnable := b }) s
  | 0x1005 => modPhy p (fun x => { x with idleEntryNs := v }) s
  | 0x1006 => modPhy p (fun x => { x with presetMask := BitVec.ofNat 8 v }) s
  | 0x1007 => modPhy p (fun x => { x with precodeRequest := b }) s
  | 0x1008 => modPhy p (fun x => { x with autoFckRestore := b }) s
  | 0x1009 => modPhy p (fun x => { x with recoveryTimeoutMs := v }) s
  | 0x100A => modPhy p (fun x => { x with flapLimit := v }) s
  | 0x1060 => modLink p (fun l => { l with helloTimeoutMs := v }) s
  | 0x1061 => modLink p (fun l => { l with eventMinSeverity := v }) s
  | 0x1062 => modLink p (fun l => { l with sealWanted := b }) s
  | 0x1063 => modLink p (fun l => { l with sealSlot := v }) s
  | 0x1064 => modLink p (fun l => { l with replayTimerNs := v }) s
  | 0x1065 => modLink p (fun l => { l with bindLockoutS := v }) s
  | 0x6000 => modPort p (fun x => { x with holdLimitUs := v }) s
  | 0x6001 => modPort p (fun x => { x with panicHigh := v }) s
  | 0x6002 => modPort p (fun x => { x with panicLow := v }) s
  | 0x6003 => modPort p (fun x => { x with panicMax := v }) s
  | _ => s

/-- A channel parameter. A new slack threshold may end a trigger of R161, and a new high mark at or below the length of the
write queue starts a drain (R182). -/
def writeChannel (c : Fin 32) (id v : Nat) (s : State) : State :=
  modChannel c (fun x =>
    match id with
    | 0x2001 => { x with ageLimitNs := v }
    | 0x2002 => { x with slackThresholdNs := v }
    | 0x2003 => { x with hitStreakMax := v }
    | 0x2004 => { x with wqHigh := v, draining := x.draining || decide (v ≤ x.writeQueue.length) }
    | 0x2005 => { x with wqLow := v }
    | 0x2006 => { x with pdIdleUs := v }
    | 0x2007 => { x with srIdleMs := v }
    | _ => x) (if id = 0x2002 then noteTrigger c s else s)

def writeDevice (id v : Nat) (s : State) : State :=
  let b := decide (v = 1)
  match id with
  | 0x0040 => modThermal (fun t => { t with powerCapW := v }) s
  | 0x2A10 => modParams (fun p => { p with scrubPeriodH := v }) s
  | 0x2A11 => modParams (fun p => { p with scrubEnable := b }) s
  | 0x2A12 => modParams (fun p => { p with suspectWindowH := v }) s
  | 0x2A13 => modParams (fun p => { p with suspectThreshold := v }) s
  | 0x2A14 => modParams (fun p => { p with autoRepair := b }) s
  | 0x2A18 => modParams (fun p => { p with rowSuspectPasses := v }) s
  | 0x5800 => modParams (fun p => { p with ctrFlushUs := v }) s
  | 0x5801 => modParams (fun p => { p with polSweepMin := v }) s
  | 0x6B00 => sealFit (modParams (fun p => { p with sealReserve := v }) s)
  | 0x6C01 => modParams (fun p => { p with scrubReserve := v }) s
  | 0x6C02 => modParams (fun p => { p with maintReserve := v }) s
  | 0x6C03 => modParams (fun p => { p with restoreHoldS := v }) s
  | 0x6C04 => modParams (fun p => { p with holdPromoteUs := v }) s
  | 0x6C05 => modParams (fun p => { p with gateHigh := v }) s
  | 0x6C06 => modParams (fun p => { p with gateLow := v }) s
  | 0x6C07 => modParams (fun p => { p with missWindowUs := v }) s
  | 0x7800 => modParams (fun p => { p with rekeyRate := v }) s
  | 0x8000 => serveUnserved (modParams (fun p => { p with migrationReserveMib := v }) s)
  | 0x8002 => modParams (fun p => { p with migrateRate := v }) s
  | 0x8003 => modParams (fun p => { p with trimDriftC := v }) s
  | 0x8004 => modParams (fun p => { p with autoPpr := b }) s
  | 0x8260 => modThermal (fun t => { t with warnLayer := v }) s
  | 0x8261 => modThermal (fun t => { t with warnBase := v }) s
  | 0x8280 => modThermal (fun t => { t with flowLossRate := v }) s
  | 0x8281 => modThermal (fun t => { t with flowLossCap := v }) s
  | 0x9004 => modParams (fun p => { p with controlMask := BitVec.ofNat 6 v }) s
  | 0x9102 => modLog (fun l => { l with alertMin := v }) s
  | 0x9104 => modLog (fun l => { l with ibiMin := v }) s
  | 0x9303 => modSideband (fun b => { b with maxWrite := v, maxRead := v }) s
  | 0xBC00 => modParams (fun p => { p with bistPatterns := v }) s
  | _ => s

/-- One entry of a `PARAM_WRITE` put into effect. A parameter of a partition that has none of its kind keeps reading
zero. -/
def paramWrite (s : State) (e : Nat × Nat × Nat) : State :=
  let id := e.1
  let inst := e.2.1
  let v := e.2.2
  let part : Fin 64 := Fin.ofNat 64 inst
  let x := s.partitions[part]
  match paramCount id with
  | some 1 => writeDevice id v s
  | some 4 =>
    if id = 0x0102 then
      modQuarter (Fin.ofNat 4 inst) (fun (y : Quarter) => { y with autoReset := decide (v = 1) }) s
    else writePort (Fin.ofNat 4 inst) id v s
  | some 16 =>
    modTable (Fin.ofNat 16 inst) (fun t =>
      if id = 0x3009 then { t with parallelProbe := stage t.parallelProbe (decide (v = 1)) s.hubTimer }
      else if id = 0x300A then { t with kennelProbe := stage t.kennelProbe (decide (v = 1)) s.hubTimer }
      else { t with maxDisplace := stage t.maxDisplace v s.hubTimer }) s
  | some 32 =>
    if within 0x4000 0x4002 id then
      modProfile (Fin.ofNat 32 inst) (fun y =>
        if id = 0x4000 then { y with limit := stage y.limit v s.hubTimer }
        else if id = 0x4001 then { y with minimum := stage y.minimum v s.hubTimer }
        else { y with alpha := stage y.alpha v s.hubTimer }) s
    else writeChannel (Fin.ofNat 32 inst) id v s
  | some 64 =>
    if id = 0x4405 then
      if x.valid ∧ x.ptype = .buffer then
        bufferWatch part (modBuffer part (fun b => { b with lowPct := v }) s)
      else s
    else if id = 0x5000 then
      if x.valid ∧ x.ptype = .counter then modCounter part (fun b => { b with saturate := decide (v = 1) }) s else s
    else if id = 0x5001 then setRegion part (fun r => (v, r.2)) s
    else if id = 0x5002 then setRegion part (fun r => (r.1, v)) s
    else s
  | _ => s

/-- A link-sealing slot of a port: it holds a GCM key and serves no other port (R353). -/
def sealSlotFits (s : State) (p : Fin 4) : Bool :=
  let k := s.ports[p].link.sealSlot
  decide (s.keys[Fin.ofNat 64 k].kind = .gcm) &&
    !((List.finRange 4).any fun q => decide (q ≠ p) &&
      ((s.ports[q].link.sealWanted && decide (s.ports[q].link.sealSlot = k)) ||
        (s.ports[q].link.session && s.ports[q].link.sealOn && decide (s.ports[q].link.keySlot = k))))

/-- The policer regions that a write would leave (R257). -/
def regionsFit (s : State) (pd : Fin 64) : Bool :=
  let x := s.partitions[pd]
  let r := regionAhead x
  decide (s.partitions.toList.foldl (fun n y => n + (if y.valid then (regionAhead y).2 else 0)) 0 ≤ 32) &&
    (decide (r.2 = 0) || decide (r.1 + r.2 ≤ x.granules))

/-- The rules on a change of the migration reserve (R378): `s` before it and `t` after it. -/
def reserveFits (s t : State) : Bool :=
  let before := reserveFirst s
  let now := reserveFirst t
  let held := relocTargets s
  let joins := (List.finRange 32).all fun c =>
    (List.range 1024).all fun sl => !(decide (now ≤ sl) && decide (sl < before)) || (slabGranule s c sl).isNone
  let leaves := held.all fun e => !(decide (before ≤ e.2) && decide (e.2 < now))
  let retired := ((List.finRange 32).filter fun c => s.channels[c].retire = .retired).length
  joins && leaves && (decide (now ≤ before) || decide (now * 32 ≤ 32768 - 1024 * retired))

/-- The cross-rules that one entry of a write brings in, in the state the whole write would leave (R472 pass 2). -/
def crossRule (before s : State) (e : Nat × Nat × Nat) : Bool :=
  let inst := e.2.1
  match e.1 with
  | 0x2004 => decide (s.channels[(Fin.ofNat 32 inst : Fin 32)].wqLow < s.channels[(Fin.ofNat 32 inst : Fin 32)].wqHigh)
  | 0x2005 => decide (s.channels[(Fin.ofNat 32 inst : Fin 32)].wqLow < s.channels[(Fin.ofNat 32 inst : Fin 32)].wqHigh)
  | 0x6001 => decide (s.ports[(Fin.ofNat 4 inst : Fin 4)].panicLow + 128 ≤ s.ports[(Fin.ofNat 4 inst : Fin 4)].panicHigh)
  | 0x6002 => decide (s.ports[(Fin.ofNat 4 inst : Fin 4)].panicLow + 128 ≤ s.ports[(Fin.ofNat 4 inst : Fin 4)].panicHigh)
  | 0x6C05 => decide (s.params.gateLow < s.params.gateHigh)
  | 0x6C06 => decide (s.params.gateLow < s.params.gateHigh)
  | 0x5001 => regionsFit s (Fin.ofNat 64 inst)
  | 0x5002 => regionsFit s (Fin.ofNat 64 inst)
  | 0x1062 => decide (e.2.2 = 0) || sealSlotFits s (Fin.ofNat 4 inst)
  | 0x1063 => sealSlotFits s (Fin.ofNat 4 inst)
  | 0x8000 => reserveFits before s
  | _ => true

/-- The budget of one entry, in the state the whole write would leave (R290, R295, R303; R472 pass 3). -/
def budgetRule (before s : State) (e : Nat × Nat × Nat) : Bool :=
  match e.1 with
  | 0x6B00 =>
    decide (s.params.sealReserve ≤ before.params.sealReserve) ||
      decide (s.params.sealReserve + deviceParam s 0x6B01 ≤ 524288)
  | 0x6C01 => decide (s.params.scrubReserve ≤ before.params.scrubReserve) || ledgerFits s
  | 0x6C02 => decide (s.params.maintReserve ≤ before.params.maintReserve) || ledgerFits s
  | _ => true

/-- A whole write: its three passes, and every entry in one step (R472). -/
def writeParams (es : List (Nat × Nat × Nat)) (s : State) : KStatus × State :=
  if !(es.all fun e => paramExists e.1 e.2.1 && paramRange e.1 e.2.2) then (.badParam, s)
  else
    let t := es.foldl paramWrite s
    if !(es.all (crossRule s t)) then (.badParam, s)
    else if !(es.all (budgetRule s t)) then (.oversubscribed, s)
    else if es.any fun e => [0x6B00, 0x6C01, 0x6C02].contains e.1 then (.ok, recomputeLedger s t)
    else (.ok, t)

/-- Parameters that keep their values across cold reset without being named (R438). -/
def alwaysKept : List Nat := [0x8000, 0x6B00, 0x5001, 0x5002, 0x9004]

/-- A parameter that some value could be written to. -/
def paramWritable (id : Nat) : Bool := [0, 1, 4, 8, 30, 70, 85, 100, 512, 1000, 1024].any (paramRange id)

end Sys2Proof.Machine
end

