-- ==== Sys2Proof/Machine/Mailbox.lean ====
section
/-! DEFINITION. Mailboxes: argument fields and reserved bytes (R441, R468), responses and notices (R442, R445, R470), the
command sets and the states that admit them (R404, R428, R430, R451, R469), and starting long commands and maintenance
activities (R445, R534). -/

namespace Sys2Proof.Machine

open Sys2Proof

/-! ### Arguments -/

/-- An argument field of `n` bytes, little-endian (R468). -/
def arg (f : Frame) (start n : Nat) : Nat := natAt f.args start n

/-- Every argument byte outside the named fields is zero, and so are the header's reserved bits (R9, R441, R468). -/
def argsClear (f : Frame) (fields : List (Nat × Nat)) : Bool :=
  decide (f.reserved = 0) &&
    (List.range f.argLength.toNat).all fun i =>
      (fields.any fun e => decide (e.1 ≤ i) && decide (i < e.1 + e.2)) || decide (f.args.getD i 0 = 0)

/-! ### Replies -/

/-- What a command answers: its status, its response data, and for ACCEPTED and QUEUED the ticket and position. -/
structure Reply where
  status : KStatus
  data : List Byte := []
  ticket : Nat := 0
  position : Nat := 0
deriving DecidableEq, Repr

/-- The meaning of a command: its reply and the state after it; without a reply the mailbox stays busy. -/
abbrev Cmd := Fin 6 → Frame → State → Option Reply × State

def answer (st : KStatus) (s : State) : Option Reply × State := (some { status := st }, s)

def answerData (data : List Byte) (s : State) : Option Reply × State := (some { status := .ok, data := data }, s)

def badParam (s : State) : Option Reply × State := answer .badParam s

/-- The response written to its mailbox from byte 0 (R442); the mailbox is free. Bytes beyond it stay as they were. -/
def writeResponse (m : Fin 6) (opcode seq : BitVec 16) (r : Reply) (s : State) : State :=
  let head := opcode.toNat + seq.toNat * 2 ^ 16 + kstatusCode r.status * 2 ^ 32 + r.data.length % 2 ^ 16 * 2 ^ 48 +
    r.ticket % 2 ^ 16 * 2 ^ 64 + r.position % 256 * 2 ^ 80
  modMailbox m (fun x => { x with
    response := memWrite x.response 0 (natToBytes 16 head ++ r.data)
    busy := none, respReady := true, lastStatus := kstatusCode r.status, respSeq := seq }) s

/-- COMMAND_DONE for a command that ends in its mailbox and asked for it (R441, R445). -/
def raiseDone (m : Fin 6) (opcode : BitVec 16) (st : KStatus) (s : State) : State :=
  raise 0x9010 20 m [itTicket 0, itTicket opcode.toNat, itStatus (kstatusCode st)] s

/-- The response of the command that keeps a mailbox busy; ACCEPTED and QUEUED do not end it. -/
def respondTo (m : Fin 6) (r : Reply) (s : State) : State :=
  match s.mailboxes[m].busy with
  | some (seq, opcode) =>
    let t := writeResponse m opcode seq r s
    if s.mailboxes[m].notify ∧ r.status ≠ .accepted ∧ r.status ≠ .queued then raiseDone m opcode r.status t else t
  | none => s

/-! ### Sets and states (R469) -/

/-- The sets of R469. -/
inductive CmdSet where
  | identity | status | sensor | log | query | change
deriving DecidableEq, Repr

/-- Whether the POLICY field leaves debug open (R451, R504). -/
def debugOpen (s : State) : Bool := s.fuses.policy.getLsbD 2

def patchingAllowed (s : State) : Bool := s.fuses.policy.getLsbD 3

/-- The sets that the stack's state admits from a mailbox; an empty list where it does not answer at all. -/
def admittedSets (s : State) (m : Fin 6) : List CmdSet :=
  let base : List CmdSet :=
    if s.thermal.tripped then [.identity, .status, .sensor, .log]
    else
      match s.device.dev with
      | .fuseLoad => []
      | .sram => []
      | .core => [.identity, .status, .log]
      | .dramInit => [.identity, .status, .log]
      | .fill => [.identity, .status, .log]
      | .ready => [.identity, .status, .sensor, .log, .query, .change]
      | .degraded => [.identity, .status, .sensor, .log, .query, .change]
      | .startFailed => [.identity, .status, .log]
      | .tripped => [.identity, .status, .sensor, .log]
  if m.val = 5 ∧ !debugOpen s then base.filter fun t => t ≠ .query ∧ t ≠ .change else base

/-- A mailbox that answers: the cores run, and MB0 to MB3 are behind a stack that serves its ports. -/
def mailboxServes (s : State) (m : Fin 6) : Bool :=
  (!s.device.warm || s.thermal.tripped) && !s.device.rstLow && !(admittedSets s m).isEmpty && (decide (4 ≤ m.val) || devReady s) &&
    !(s.thermal.tripped && (decide (m.val < 4) || (decide (m.val = 5) && !debugOpen s)))

/-! ### The configuration store (R436, R437) -/

/-- A partition's records as one number: descriptor, rights and counter region. -/
def partitionWord (x : Partition) : Nat :=
  if x.valid then
    (1 + 2 * boolNat x.chip + ptypeCode x.ptype * 2 ^ 8 + modeCode x.mode * 2 ^ 16 + x.quarter.val * 2 ^ 24 +
      x.owner.toNat * 2 ^ 32 + x.keySlot % 256 * 2 ^ 40 + x.base % 2 ^ 16 * 2 ^ 48 + x.granules % 2 ^ 16 * 2 ^ 64 +
      x.metaGranules % 2 ^ 16 * 2 ^ 80 + x.quota % 2 ^ 32 * 2 ^ 96 + x.rights.toNat * 2 ^ 128 +
      x.counter.regionBase % 2 ^ 16 * 2 ^ 160 + x.counter.regionGranules % 2 ^ 16 * 2 ^ 176)
  else 0

def storePartition (x : Partition) : List Byte := natToBytes 24 (partitionWord x)

def tableWord (t : Table) : Nat :=
  if t.valid then
    (1 + 2 * boolNat t.prefixKind + t.partition.val * 2 ^ 8 + t.keyLen % 256 * 2 ^ 16 +
      t.bucketLog2 % 256 * 2 ^ 24 + t.home.val * 2 ^ 32 + t.dirBits % 256 * 2 ^ 40 + t.baseBlock % 2 ^ 32 * 2 ^ 64 +
      t.regionBlocks % 2 ^ 32 * 2 ^ 96 + t.dirBase % 2 ^ 32 * 2 ^ 128)
  else 0

def storeTable (t : Table) : List Byte := natToBytes 32 (tableWord t)

/-- The records of the store. -/
def storeRecords : List ConfigRecord :=
  (List.finRange 64).map .partition ++ (List.finRange 16).map .table ++ (List.finRange 64).map .binding ++
    [.feature, .parameters]

/-- Whether a record differs between two states. -/
def recordChanged (a b : State) : ConfigRecord → Bool
  | .partition pd => decide (partitionWord a.partitions[pd] ≠ partitionWord b.partitions[pd])
  | .table td =>
    decide (tableWord a.tables[td] ≠ tableWord b.tables[td]) || decide (a.tables[td].seed1 ≠ b.tables[td].seed1) ||
      decide (a.tables[td].seed2 ≠ b.tables[td].seed2)
  | .binding pd => decide (a.partitions[pd].binding ≠ b.partitions[pd].binding)
  | .feature => decide (a.firmware.features ≠ b.firmware.features)
  | .parameters =>
    decide (a.firmware.persisted ≠ b.firmware.persisted) || decide (a.params.controlMask ≠ b.params.controlMask) ||
      decide (a.params.migrationReserveMib ≠ b.params.migrationReserveMib) ||
      decide (a.params.sealReserve ≠ b.params.sealReserve)

/-- The commit of a change of the configuration store, as a command makes it before it answers: each changed record is
written to copy A and then to copy B with its next generation. None where a record's words take no write: the command
then answers FAILED and the hardware stays as it was (R437). -/
def commitStore (before after : State) : Option State :=
  let rs := storeRecords.filter (recordChanged before after)
  if rs.any before.firmware.stuck.contains then none
  else if rs.isEmpty then some after
  else some (noteCommit rs after)

/-! ### Long commands and activities -/

/-- A new task of a host, answered ACCEPTED; past 32 outstanding the command fails (R445). -/
def accept (m : Fin 6) (opcode : BitVec 16) (w : Work) (begin : Task → State → State) (s : State) :
    Option Reply × State :=
  if 32 ≤ outstandingTasks s then answer .failed s
  else
    let t := newTask s m opcode .running w
    (some { status := .accepted, ticket := t.ticket },
      begin t (putTask t { s with nextTicket := ticketAfter s.nextTicket }))

/-- Whether a change that a mailbox's command waits for still waits at a quiesce point (R42). -/
def changeWaits (m : Fin 6) (s : State) : Bool :=
  s.partitions.any fun x => x.pendingChanges.any fun e => decide (e.2 = some m)

/-- Every change of a mailbox's command that still waits dropped. -/
def dropChanges (m : Fin 6) (s : State) : State :=
  { s with partitions := s.partitions.map fun x =>
      { x with pendingChanges := x.pendingChanges.filter fun e => decide (e.2 ≠ some m) } }

/-- The end of a command that allocated granules. One that met a refill is long: ACCEPTED, with its task ended as the
refill ends (R316, R445, R473); past 32 outstanding it fails and changes nothing. -/
def answerAllocated (m : Fin 6) (opcode : BitVec 16) (pd : Fin 64) (data : List Byte) (before after : State) :
    Reply × State :=
  if before.refills.length ≤ after.refills.length then ({ status := .ok, data := data }, after)
  else if 32 ≤ outstandingTasks before then ({ status := .failed }, before)
  else
    let t := newTask after m opcode .running (.allocation pd)
    ({ status := .accepted, ticket := t.ticket },
      endTask t .ok 0 (putTask t { after with nextTicket := ticketAfter after.nextTicket }))

/-- A maintenance activity: started at once, or queued behind what it conflicts with (R445, R534). -/
def acceptOrQueue (m : Fin 6) (opcode : BitVec 16) (w : Work) (begin : Task → State → State) (s : State) :
    Option Reply × State :=
  if 32 ≤ outstandingTasks s then answer .failed s
  else
    let t := newTask s m opcode .queued w
    if mayStart s (queuedTasks s) t then accept m opcode w begin s
    else
      let u := putTask t { s with nextTicket := ticketAfter s.nextTicket }
      (some { status := .queued, ticket := t.ticket, position := queuePosition u t.ticket }, u)

end Sys2Proof.Machine
end

