-- ==== Sys2Proof/Machine/Partitions.lean ====
section
/-! DEFINITION. The commands on partitions and keys (R473, R474) with the descriptor changes that they leave to a quiesce
point (R42, R155, R257, R266, R334): creation (R41, R222, R290, R353, R355), resize, deletion, owner, quota and rights
(R359), rekey (R361), and the key slots (R353, R354). -/

namespace Sys2Proof.Machine

open Sys2Proof

/-! ### Extents (R334, R474) -/

/-- The new size that a waiting or running resize of a partition names. -/
def resizeAhead (s : State) (pd : Fin 64) : Option Nat :=
  match s.partitions[pd].pendingChanges.reverse.findSome? (fun e => match e.1 with | .resize n => some n | _ => none) with
  | some n => some n
  | none =>
    (s.tasks.filter (fun t => t.state ≠ .done)).findSome? fun t =>
      match t.work with
      | .resize k n => if k = pd then some n else none
      | _ => none

/-- Granules of a range with its metadata (R333). -/
def extentOfSize (mode : Mode) (n : Nat) : Nat := if mode = .sealed then n + metaCount n else n

/-- One past the last granule that a partition holds, or will hold once its resize ends. -/
def extentEnd (s : State) (pd : Fin 64) : Nat :=
  let x := s.partitions[pd]
  x.base + max (x.granules + x.metaGranules) ((resizeAhead s pd).elim 0 (extentOfSize x.mode))

/-- A range of granules ends at or below granule 1,023 and meets no other partition's (R474). -/
def rangeFree (s : State) (skip : Fin 64) (first last : Nat) : Bool :=
  decide (last ≤ 1024) &&
    (List.finRange 64).all fun pd =>
      decide (pd = skip) || !s.partitions[pd].valid ||
        decide (last ≤ s.partitions[pd].base) || decide (extentEnd s pd ≤ first)

/-- Creation's combination of type and mode (R41). -/
def modeAllowed : PType → Mode → Bool
  | .raw, _ => true
  | .table, m => decide (m = .plain)
  | .buffer, m => decide (m ≠ .sealed)
  | .counter, _ => true

def ptypeOf (n : Nat) : PType := if n = 0 then .raw else if n = 1 then .table else if n = 2 then .buffer else .counter

def modeOf (n : Nat) : Mode := if n = 0 then .plain else if n = 1 then .veiled else .sealed

/-- A partition's Collie share of the Kennel (R290). -/
def collieShare (s : State) (pd : Fin 64) : Nat :=
  524288 - s.params.sealReserve -
    (List.finRange 64).foldl (fun n k => if k ≠ pd ∧ s.partitions[k].valid then n + s.partitions[k].quota else n) 0

/-- Kennel shares of port-classes that name a partition (R291). -/
def sharesNaming (s : State) (pd : Fin 64) : Nat :=
  trimOrder.foldl (fun n pk => if (classAt s pk).kennelPd = pd.val then n + (classAt s pk).kennelAdmitted else n) 0

/-- The kind of key that a mode takes (R353). -/
def kindFor : Mode → KeyKind
  | .plain => .empty
  | .veiled => .xts
  | .sealed => .sealKey

/-- A loaded slot of the mode's kind that serves nothing (R353). -/
def slotFits (s : State) (mode : Mode) (k : Nat) : Bool :=
  decide (s.keys[Fin.ofNat 64 k].kind = kindFor mode) && (slotUser s k).isNone

/-- Read and write for each port of an owner mask (R358). -/
def rightsAtCreation (owner : BitVec 4) : BitVec 32 :=
  BitVec.ofNat 32 ((List.range 4).foldl (fun n p => if owner.getLsbD p then n + 3 * 2 ^ (3 * p) else n) 0)

/-- Response data of creation and resize: the PD byte, and the metadata granules. -/
def metaReply (pd n : Nat) : List Byte := natToBytes 2 pd ++ natToBytes 2 n

/-! ### Creation -/

/-- A new partition over mapped granules. -/
def makePartition (x : Partition) (pd : Fin 64) (s : State) : Option State :=
  (allocGranules x.chip x.quarter ((List.range (x.granules + x.metaGranules)).map (x.base + ·)) s).map
    (modPartition pd fun _ => x)

/-- `PARTITION_CREATE` (R41, R222, R290, R333, R353, R355, R474). -/
def cmdPartitionCreate : Cmd := fun mb f s =>
  let pd := arg f 0 1
  let kind := arg f 1 1
  let mode := arg f 2 1
  let chip := arg f 3 1
  let quarter := arg f 4 1
  let owner := arg f 5 1
  let slot := arg f 6 1
  let base := arg f 8 2
  let n := arg f 10 2
  let quota := arg f 12 4
  let p : Fin 64 := Fin.ofNat 64 pd
  let m := modeOf mode
  let count := if mode = 2 then metaCount n else 0
  if !argsClear f [(0, 7), (8, 8)] || !within 0 63 pd || !within 0 3 kind || !within 0 2 mode || !within 0 1 chip ||
      !within 0 (if chip = 1 then 0 else 3) quarter || !within 0 15 owner || !within 0 63 slot || !within 0 1023 base ||
      !within 1 1024 n || s.partitions[p].valid || !rangeFree s p base (base + n + count) then badParam s
  else if !modeAllowed (ptypeOf kind) m || (decide (kind = 2) && decide (768 < n)) then badParam s
  else if collieShare s p < quota then answer .oversubscribed s
  else if m ≠ .plain ∧ !slotFits s m slot then badParam s
  else if m ≠ .plain ∧ s.fuses.keywrap.isNone then answer .locked s
  else
    let x : Partition :=
      { valid := true, ptype := ptypeOf kind, mode := m, chip := decide (chip = 1), quarter := Fin.ofNat 4 quarter
        owner := BitVec.ofNat 4 owner, keySlot := slot, base := base, granules := n, quota := quota
        rights := rightsAtCreation (BitVec.ofNat 4 owner), metaGranules := count }
    match makePartition x p s with
    | none => answer .failed s
    | some t =>
      let r := answerAllocated mb 0x0100 p (metaReply pd count) s t
      (some r.1, r.2)

/-! ### Changes at a quiesce point (R42) -/

/-- Requests to a partition that are past port ingress and not complete. -/
def partitionBusy (s : State) (pd : Fin 64) : Bool :=
  (s.channels.any fun c =>
    (c.requests.any fun r => !unpartitionedOps.contains r.opcode && decide (pdOf r.req.hdr = pd)) ||
      c.waiting.any fun w => decide (w.pd = pd)) ||
    s.queues.any fun e => decide (e.2.partition = pd.val) && (!e.2.admissions.isEmpty || !e.2.streams.isEmpty)

/-- A partition's dirty held lines and metadata written back (R266, R349). -/
def flushPartition (pd : Fin 64) (s : State) : State :=
  sealFlush (fun m => decide (m.pd = pd)) (kennelFlush (fun k => decide (k.pd = pd)) s)

/-- Held lines from a line index up dropped, with the free caches of a partition that empties. -/
def dropLines (pd : Fin 64) (from_ : Nat) (s : State) : State :=
  { s with kennel := s.kennel.filter fun k => !(decide (k.pd = pd) && decide (from_ ≤ k.index)) }

/-- Empty free-cell caches for a partition. -/
def dropCaches (pd : Fin 64) (s : State) : State :=
  (List.range 4).foldl (fun s slice => setFreeCache slice pd [] s) s

/-- A resize of a partition that is not SEALED: granules join or leave at the top of its range. A BUFFER partition that
shrinks holds nothing, and its pool begins again. -/
def resizePlain (pd : Fin 64) (n : Nat) (s : State) : Option State :=
  let x := s.partitions[pd]
  if x.granules ≤ n then
    (allocGranules x.chip x.quarter ((List.range (n - x.granules)).map (x.base + x.granules + ·)) s).map
      (modPartition pd fun y => { y with granules := n })
  else
    let s := ((List.range (x.granules - n)).map (x.base + n + ·)).foldl releaseGranule (dropLines pd (n * granuleLines) s)
    let s := modPartition pd (fun y => { y with granules := n }) s
    some (if x.ptype = .buffer then
      dropCaches pd (modBuffer pd (fun b => { b with
        fresh := 0, listHead := nullCell, listLen := 0
        used := min b.leaked (n * 262144) }) s)
    else s)

/-- A partition deleted: its granules go to their refill, its descriptor with its binding record is cleared, and its key
slot is released. -/
def deletePartition (pd : Fin 64) (s : State) : State :=
  let x := s.partitions[pd]
  let s := { s with sealCache := s.sealCache.filter fun m => m.pd ≠ pd }
  let s := ((List.range (x.granules + x.metaGranules)).map (x.base + ·)).foldl releaseGranule (dropLines pd 0 s)
  dropCaches pd (modPartition pd (fun _ => {}) s)

/-- The owner mask changed: the orphaned state and the binding record end (R144). -/
def setOwner (pd : Fin 64) (mask : BitVec 4) (s : State) : State :=
  modPartition pd (fun x => { x with owner := mask, binding := none }) s

/-- The Kennel quota changed, with lines beyond it evicted (R293). -/
def setQuota (pd : Fin 64) (lines : Nat) (s : State) : State :=
  kennelShrink pd (kennelCount s pd) (modPartition pd (fun x => { x with quota := lines }) s)

/-- A waiting change applied to its descriptor; none where it fails and leaves the descriptor as it was. -/
def applyChange (pd : Fin 64) (c : Change) (s : State) : Option State :=
  let x := s.partitions[pd]
  match c with
  | .owner mask => some (setOwner pd mask s)
  | .quota n => some (setQuota pd n s)
  | .ownerQuota mask n => some (setQuota pd n (setOwner pd mask s))
  | .resize n => if x.mode = .sealed then some (shrinkSealed pd n s) else resizePlain pd n s
  | .delete => some (deletePartition pd s)
  | .region b n => some (modCounter pd (fun y => { y with regionBase := b, regionGranules := n }) s)
  | .rights r => some (modPartition pd (fun y => { y with rights := r }) s)

/-- The response data of a command whose change has been applied. -/
def changeReply (s : State) (pd : Fin 64) : Change → List Byte
  | .resize _ => metaReply 0 s.partitions[pd].metaGranules
  | _ => []

/-- Every queue of a partition is FREE. -/
def queuesFree (s : State) (pd : Fin 64) : Bool :=
  s.queues.all fun e => decide (e.2.partition ≠ pd.val) || decide (e.2.state = .free)

/-- Every queue of a partition keeps an owner mask inside a mask (R228). -/
def queuesWithin (s : State) (pd : Fin 64) (owner : BitVec 4) : Bool :=
  s.queues.all fun e =>
    decide (e.2.partition ≠ pd.val) || decide (e.2.state = .free) || decide (e.2.owner &&& ~~~owner = 0)

/-- A change that the partition's queues no longer allow at its quiesce point (R222, R228, R474). -/
def changeRefused (s : State) (pd : Fin 64) : Change → Bool
  | .resize n =>
    decide (s.partitions[pd].ptype = .buffer) && decide (n < s.partitions[pd].granules) && !queuesFree s pd
  | .owner mask => !queuesWithin s pd mask
  | .ownerQuota mask _ => !queuesWithin s pd mask
  | .delete => !queuesFree s pd
  | _ => false

/-- One change of a partition at its quiesce point, with the response of the command that waited for it, once it was the
last that it waited for (R42, R446). -/
def applyOne (pd : Fin 64) (s : State) (e : Change × Option (Fin 6)) : State :=
  let fail (st : KStatus) : State :=
    match e.2 with
    | some m => respondTo m { status := st } (dropChanges m s)
    | none =>
      match e.1 with
      | .resize n => endTasks (fun t => decide (t.work = .resize pd n)) st s
      | _ => s
  if !s.partitions[pd].valid then fail .failed
  else if changeRefused s pd e.1 then fail .badParam
  else
    match (applyChange pd e.1 s).bind (commitStore s), e.2 with
    | some u, some m =>
      if changeWaits m u then u
      else
        let r := answerAllocated m 0x0101 pd (changeReply u pd e.1) s u
        respondTo m r.1 r.2
    | some u, none => u
    | none, _ => fail .failed

/-- The changes of a partition at its quiesce point, in the order in which they came to wait, after the write-backs of
R266 and R349. -/
def applyPending (pd : Fin 64) (s : State) : State :=
  match s.partitions[pd].pendingChanges with
  | [] => s
  | es => es.foldl (applyOne pd) (flushPartition pd (modPartition pd (fun x => { x with pendingChanges := [] }) s))

/-- A quiesce that did not complete within the port hold limit: the change that came first is dropped and its command fails; a SEALED
shrink's task ends FAILED (R42). -/
def dropPending (pd : Fin 64) (s : State) : State :=
  match s.partitions[pd].pendingChanges with
  | [] => s
  | (c, mb) :: rest =>
    let s := modPartition pd (fun x => { x with pendingChanges := rest }) s
    let s := match c with
      | .resize n => endTasks (fun t => decide (t.work = .resize pd n)) .failed s
      | _ => s
    match mb with
    | some m => respondTo m { status := .failed } (dropChanges m s)
    | none => s

/-- A change left to the partition's quiesce point, its mailbox busy until then. -/
def leaveChange (m : Fin 6) (pd : Fin 64) (c : Change) (s : State) : Option Reply × State :=
  (none, modPartition pd (fun x => { x with pendingChanges := x.pendingChanges ++ [(c, some m)] }) s)

/-! ### Resize -/

/-- The start of a SEALED partition's resize: growth moves its metadata at once, a shrink waits for its quiesce point
(R334). -/
def beginResize (pd : Fin 64) (n : Nat) (t : Task) (s : State) : State :=
  let x := s.partitions[pd]
  if x.granules < n then startGrow t pd n s
  else if n < x.granules then
    modTask t (fun y => { y with state := .running, paused := false })
      (modPartition pd (fun y => { y with pendingChanges := y.pendingChanges ++ [(.resize n, none)] }) s)
  else endTask t .ok 0 s

/-- Table regions and the policer region stay inside a smaller partition (R474). -/
def regionsInside (s : State) (pd : Fin 64) (n : Nat) : Bool :=
  (s.tables.all fun t => !((t.valid || t.quiescing) && decide (t.partition = pd)) || decide (t.baseBlock + t.regionBlocks ≤ n * 32768)) &&
    (let r := regionAhead s.partitions[pd]
     decide (r.2 = 0) || decide (r.1 + r.2 ≤ n))

/-- A rekey of a partition that runs or waits. -/
def rekeying (s : State) (pd : Fin 64) : Bool := s.partitions[pd].sealing.rekey.isSome

/-- `PARTITION_RESIZE` (R42, R222, R334, R474, R488). -/
def cmdPartitionResize : Cmd := fun m f s =>
  let pd : Fin 64 := Fin.ofNat 64 (arg f 0 1)
  let n := arg f 2 2
  let x := s.partitions[pd]
  if !argsClear f [(0, 1), (2, 2)] || !within 0 63 (arg f 0 1) || !within 1 1024 n || !x.valid || rekeying s pd ||
      !rangeFree s pd x.base (x.base + extentOfSize x.mode n) ||
      (decide (x.ptype = .buffer) && (decide (768 < n) || (decide (n < x.granules) && !queuesFree s pd))) ||
      !regionsInside s pd n then badParam s
  else if (resizeAhead s pd).isSome then answer .failed s
  else if n = x.granules then answerData (metaReply 0 x.metaGranules) s
  else if x.mode = .sealed then acceptOrQueue m 0x0101 (.resize pd n) (beginResize pd n) s
  else leaveChange m pd (.resize n) s

/-! ### Delete, modify, rights -/

/-- `PARTITION_DELETE` (R42, R316, R474). -/
def cmdPartitionDelete : Cmd := fun m f s =>
  let pd : Fin 64 := Fin.ofNat 64 (arg f 0 1)
  if !argsClear f [(0, 1)] || !within 0 63 (arg f 0 1) || !s.partitions[pd].valid || rekeying s pd ||
      s.tables.any (fun t => (t.valid || t.quiescing) && decide (t.partition = pd)) || !queuesFree s pd then badParam s
  else if (resizeAhead s pd).isSome then answer .failed s
  else leaveChange m pd .delete s

/-- `PARTITION_MODIFY` (R42, R144, R228, R290, R291, R474). -/
def cmdPartitionModify : Cmd := fun m f s =>
  let pd : Fin 64 := Fin.ofNat 64 (arg f 0 1)
  let fields := arg f 1 1
  let owner : BitVec 4 := BitVec.ofNat 4 (arg f 2 1)
  let quota := arg f 4 4
  if !argsClear f [(0, 3), (4, 4)] || !within 0 63 (arg f 0 1) || !within 0 3 fields || !within 0 15 (arg f 2 1) ||
      !s.partitions[pd].valid || (bitAt fields 0 && !queuesWithin s pd owner) then badParam s
  else if bitAt fields 1 && (decide (collieShare s pd < quota) || decide (quota < sharesNaming s pd)) then
    answer .oversubscribed s
  else if fields = 0 then answer .ok s
  else if fields = 1 then leaveChange m pd (.owner owner) s
  else if fields = 2 then leaveChange m pd (.quota quota) s
  else leaveChange m pd (.ownerQuota owner quota) s

/-- `PARTITION_RIGHTS`: an encrypted partition takes it only from an owner port's mailbox (R358, R359). -/
def cmdPartitionRights : Cmd := fun m f s =>
  let pd : Fin 64 := Fin.ofNat 64 (arg f 0 1)
  let field := arg f 4 4
  let x := s.partitions[pd]
  if !argsClear f [(0, 1), (4, 4)] || !within 0 63 (arg f 0 1) || !x.valid || decide (2 ^ 19 ≤ field) then badParam s
  else if x.mode ≠ .plain ∧ !(decide (m.val < 4) && x.owner.getLsbD m) then answer .denied s
  else leaveChange m pd (.rights (BitVec.ofNat 32 field)) s

/-! ### Rekey and keys -/

/-- `PARTITION_REKEY`: a walk towards a loaded slot of the partition's kind that serves nothing else (R361). -/
def cmdPartitionRekey : Cmd := fun m f s =>
  let pd : Fin 64 := Fin.ofNat 64 (arg f 0 1)
  let slot := arg f 1 1
  let x := s.partitions[pd]
  if !argsClear f [(0, 2)] || !within 0 63 (arg f 0 1) || !within 0 63 slot || !x.valid || decide (x.mode = .plain) ||
      rekeying s pd || (resizeAhead s pd).isSome || !slotFits s x.mode slot then badParam s
  else
    let r := acceptOrQueue m 0x0105 (.rekey pd) (fun _ s => s) s
    if (r.1.map (·.status)) = some .failed then r
    else (r.1, modSeal pd (fun y => { y with rekey := some { slot := slot, pointer := 0, quarantined := 0 } }) r.2)

/-- The key-wrap key of R355: the KEYWRAP secret, the label AIBOR-KW and the serial number through the KDF. -/
def keyWrapKey (s : State) (secret : BitVec 256) : List Nat :=
  kdf256 (numBytes secret.toNat 0 32) [0x41, 0x49, 0x42, 0x4F, 0x52, 0x2D, 0x4B, 0x57] (numBytes (identSerial s) 0 8)

/-- `KEY_LOAD` is locked without a key-wrap key, and in the lockout of R354. -/
def keyLoadLocked (s : State) : Bool :=
  s.fuses.keywrap.isNone || (match s.fuses.keyLockedUntil with | some t => decide (s.hubTimer < t) | none => false)

/-- A failed unwrap: counted, and the eighth in a row starts the lockout (R354). -/
def unwrapFailed (slot : Nat) (s : State) : State :=
  let s := modFuses (fun f => { f with unwrapFails := sat32 f.unwrapFails, unwrapRun := f.unwrapRun + 1 }) s
  if 8 ≤ s.fuses.unwrapRun then
    raise 0x7014 17 slot [] (modFuses (fun f => { f with keyLockedUntil := some (s.hubTimer + 60 * secondNs) }) s)
  else s

/-- Whether an empty slot may take a key of a kind: it serves nothing, or what a cold reset left naming it takes that kind
(R353, R357, R361). -/
def loadFits (s : State) (slot kind : Nat) : Bool :=
  match slotUser s slot with
  | none => true
  | some (false, pd) => decide (kind = keyKindCode (kindFor s.partitions[(Fin.ofNat 64 pd : Fin 64)].mode))
  | some (true, _) => decide (kind = keyKindCode .gcm)

/-- A memory test of arrays that R356 protects runs or waits: it needs every slot empty. -/
def secretsTested (s : State) : Bool :=
  s.tasks.any fun t => decide (t.state ≠ .done) && (match t.work with
    | .mbist (.crypto _) => true
    | .mbist (.kennel _) => true
    | _ => false)

/-- `KEY_LOAD` (R353 to R355); LOCKED while a memory test of the arrays of R356 runs or waits. -/
def cmdKeyLoad : Cmd := fun _ f s =>
  let slot := arg f 0 1
  let kind := arg f 1 1
  let n := if kind = 3 then 40 else 72
  let k : Fin 64 := Fin.ofNat 64 slot
  if !argsClear f [(0, 2), (4, n)] || !within 0 63 slot || !within 1 3 kind || decide (s.keys[k].kind ≠ .empty) ||
      !loadFits s slot kind then badParam s
  else if secretsTested s then answer .locked s
  else
    match s.fuses.keywrap with
    | none => answer .locked s
    | some secret =>
      match keyUnwrap (keyWrapKey s secret) ((bytesAt f.args 4 n).map BitVec.toNat) with
      | none => answer .denied (unwrapFailed slot s)
      | some key =>
        let s := modFuses (fun f => { f with unwrapRun := 0 }) s
        if kind = 1 ∧ key.take 32 = key.drop 32 then badParam s
        else
          answer .ok (modKey k (fun _ => {
            kind := if kind = 1 then .xts else if kind = 2 then .sealKey else .gcm
            key := BitVec.ofNat 512 (listNum key) }) s)

/-- `KEY_CLEAR` (R354, R362). -/
def cmdKeyClear : Cmd := fun _ f s =>
  let slot := arg f 0 1
  if !argsClear f [(0, 1)] || !within 0 63 slot || (slotUser s slot).isSome then badParam s
  else answer .ok (modKey (Fin.ofNat 64 slot) (fun _ => {}) s)

end Sys2Proof.Machine
end

