-- ==== Sys2Proof/Machine/TableCommands.lean ====
section
/-! DEFINITION. The commands on tables and queues (R475, R476, with R192, R193, R214, R225 to R228, R243) and
`COLLIE_SET` (R477, R478, with R278, R279, R291, R295). -/

namespace Sys2Proof.Machine

open Sys2Proof

/-! ### Tables -/

/-- Row blocks of 2 KiB in a granule. -/
def granuleBlocks : Nat := 32768

/-- A table whose region and directory range are taken: valid, or still being zeroed (R476). -/
def tableTaken (t : Table) : Bool := t.valid || t.quiescing

/-- Two half-open ranges that do not meet. -/
def apart (a n b m : Nat) : Bool := decide (a + n ≤ b) || decide (b + m ≤ a)

/-- A region clear of every other table's in its partition (R193). -/
def regionClear (s : State) (pd : Fin 64) (base blocks : Nat) : Bool :=
  s.tables.all fun t => !tableTaken t || decide (t.partition ≠ pd) || apart base blocks t.baseBlock t.regionBlocks

/-- A directory range inside the directory and clear of every other prefix table's (R193). -/
def directoryClear (s : State) (base bits : Nat) : Bool :=
  decide (base + 2 ^ bits ≤ 262144) &&
    s.tables.all fun t => !tableTaken t || !t.prefixKind || apart base (2 ^ bits) t.dirBase (2 ^ t.dirBits)

/-- The fields of a new table in range (R192, R193, R476). -/
def tableFieldsFit (prefixKind : Bool) (keyLen bucketLog2 dirBits dirBase blocks : Nat) : Bool :=
  if prefixKind then [4, 8, 16].contains keyLen && decide (bucketLog2 = 0) && within 10 18 dirBits && decide (blocks ≠ 0)
  else
    within 1 40 keyLen && within 10 23 bucketLog2 && decide (dirBits = 0) && decide (dirBase = 0) &&
      decide (blocks = 2 ^ bucketLog2)

/-- `TABLE_CREATE`; an exact table draws two seeds (R192, R193, R476). The parameters of the descriptor stay as the host
set them. -/
def cmdTableCreate : Cmd := fun _ f s =>
  let td : Fin 16 := Fin.ofNat 16 (arg f 0 1)
  let prefixKind := decide (arg f 1 1 = 1)
  let pd : Fin 64 := Fin.ofNat 64 (arg f 2 1)
  let keyLen := arg f 3 1
  let bucketLog2 := arg f 4 1
  let home := arg f 5 1
  let dirBits := arg f 6 1
  let base := arg f 8 4
  let blocks := arg f 12 4
  let dirBase := arg f 16 4
  let x := s.partitions[pd]
  if !argsClear f [(0, 7), (8, 12)] || !within 0 15 (arg f 0 1) || !within 0 1 (arg f 1 1) || !within 0 63 (arg f 2 1) ||
      !within 0 3 home || tableTaken s.tables[td] || !x.valid || decide (x.ptype ≠ .table) ||
      !tableFieldsFit prefixKind keyLen bucketLog2 dirBits dirBase blocks ||
      decide (x.granules * granuleBlocks < base + blocks) || !regionClear s pd base blocks ||
      (prefixKind && !directoryClear s dirBase dirBits) || (!x.chip && decide (home ≠ x.quarter.val)) then badParam s
  else
    let n := s.drawn
    answer .ok (modTable td (fun t => { t with
      valid := true, prefixKind := prefixKind, partition := pd, keyLen := keyLen, bucketLog2 := bucketLog2
      home := Fin.ofNat 4 home, baseBlock := base, regionBlocks := blocks, dirBase := dirBase, dirBits := dirBits
      entryCount := 0, stashCount := 0, commitSeq := 0, stash := [], stashHigh := false, quiescing := false
      ring := [], reported := []
      seed1 := if prefixKind then 0 else Config.freeSeed n
      seed2 := if prefixKind then 0 else Config.freeSeed (n + 1) })
      (if prefixKind then s else drawOne (drawOne s)))

/-- `TABLE_DELETE`: the table quiesces, then its region is zeroed (R193, R476). -/
def cmdTableDelete : Cmd := fun m f s =>
  let td : Fin 16 := Fin.ofNat 16 (arg f 0 1)
  let t := s.tables[td]
  if !argsClear f [(0, 1)] || !within 0 15 (arg f 0 1) || !t.valid || t.quiescing then badParam s
  else accept m 0x0201 (.tableDelete td) (fun _ s => modTable td (fun t => { t with quiescing := true }) s) s

/-- Requests of a table past port ingress. -/
def tableBusy (s : State) (td : Fin 16) : Bool :=
  s.channels.any fun c => c.requests.any fun r =>
    decide (r.opcode = opLookupExact ∨ r.opcode = opLookupPrefix ∨ r.opcode = opTableUpdate) &&
      decide (tdOf r.req.hdr = td)

/-- A table out of service at its quiesce point: its region and range stay taken while they are zeroed. -/
def retireTable (td : Fin 16) (s : State) : State :=
  let t := s.tables[td]
  if t.valid ∧ t.quiescing ∧ !tableBusy s td then modTable td (fun t => { t with valid := false }) s else s

/-- A table quiesce that did not complete: the table stays, and its task ends FAILED. -/
def keepTable (td : Fin 16) (s : State) : State :=
  let t := s.tables[td]
  if t.valid ∧ t.quiescing then
    endTasks (fun x => decide (x.work = .tableDelete td)) .failed (modTable td (fun t => { t with quiescing := false }) s)
  else s

/-- A row block of a partition written with zero lines (R187, R476). -/
def zeroBlock (pd : Fin 64) (block : Nat) (s : State) : State :=
  match blockPlace s pd block with
  | some pl => if blockLost s pd block then s else kennelDropBlock pd block (zeroRow pl.channel pl.bank pl.row s)
  | none => s

/-- The end of a deletion: the region zeroed, the directory range and stash emptied (R476). -/
def emptyTable (td : Fin 16) (s : State) : State :=
  let t := s.tables[td]
  let s := ((List.range t.regionBlocks).map (t.baseBlock + ·)).foldl (fun s b => zeroBlock t.partition b s) s
  let mine (i : Nat) : Bool := t.prefixKind && decide (t.dirBase ≤ i) && decide (i < t.dirBase + 2 ^ t.dirBits)
  modTable td (fun t => { t with quiescing := false, stash := [], stashCount := 0, entryCount := 0, regionBlocks := 0 })
    { s with directory := s.directory.filter (fun e => !mine e.1), directoryBad := s.directoryBad.filter (fun i => !mine i) }

/-- A quiesced table zeroed, and its record taken from the configuration store (R437, R476). -/
def removeTable (td : Fin 16) (s : State) : State := noteCommit [.table td] (emptyTable td s)

/-- `TABLE_SLOT_RELEASE`: a poisoned slot emptied by one committed write (R214, R476). -/
def cmdTableSlotRelease : Cmd := fun _ f s =>
  let td : Fin 16 := Fin.ofNat 16 (arg f 0 1)
  let target := arg f 1 1
  let slot := arg f 2 1
  let index := arg f 4 4
  let t := s.tables[td]
  let block := if target = 0 then t.baseBlock + index else index
  if !argsClear f [(0, 3), (4, 4)] || !within 0 15 (arg f 0 1) || !within 0 2 target || !within 0 31 slot || !t.valid ||
      t.quiescing || (t.prefixKind != decide (target ≠ 0)) then badParam s
  else if target = 2 then
    if 2 ^ t.dirBits ≤ index ∨ !s.directoryBad.contains (t.dirBase + index) then badParam s
    else
      answer .ok (commitCount td (.directory (t.dirBase + index)) (setDirectory (t.dirBase + index) 0
        (modTable td (fun t => { t with reported := t.reported.filter (· ≠ (t.dirBase + index, 32)) })
          { s with directoryBad := s.directoryBad.filter (· ≠ t.dirBase + index) })))
  else if !inRegion t block || blockLost s t.partition block ||
      ((blockPeek s t.partition block).getD slot none).isSome then badParam s
  else
    answer .ok (modTable td (fun t => { t with reported := t.reported.filter (· ≠ (block, slot)) })
      (commitRow td block (fun i l => if i = slot then some 0 else l) (readRows .mgmt td [block] s)))

/-! ### Queues -/

/-- The queue that a queue command names. -/
def queueArg (f : Frame) : Nat := arg f 0 4

/-- A queue may be owned by a mask of its partition's owners (R228). -/
def ownerSubset (s : State) (pd : Fin 64) (mask : BitVec 4) : Bool := decide (mask &&& ~~~s.partitions[pd].owner = 0)

/-- `QUEUE_CREATE` (R225, R227, R228). -/
def cmdQueueCreate : Cmd := fun _ f s =>
  let q := queueArg f
  let pd : Fin 64 := Fin.ofNat 64 (arg f 4 1)
  let owner : BitVec 4 := BitVec.ofNat 4 (arg f 6 1)
  let x := s.partitions[pd]
  if !argsClear f [(0, 8)] || !within 0 262143 q || !within 0 63 (arg f 4 1) || !within 0 31 (arg f 5 1) ||
      !within 0 15 (arg f 6 1) || !within 1 2 (arg f 7 1) || !x.valid || decide (x.ptype ≠ .buffer) ||
      decide ((queueAt s q).state ≠ .free) || (!x.chip && decide (homeSlice q ≠ x.quarter)) || !ownerSubset s pd owner then
    badParam s
  else if freeCells s pd = 0 then answer .failed s
  else
    match takeCell (homeSlice q) pd s with
    | (none, _) => answer .failed s
    | (some c, s) =>
      answer .ok (modQueue q (fun _ => {
        head := c, tail := c, profile := arg f 5 1, state := if arg f 7 1 = 1 then .active else .stopped
        partition := pd.val, owner := owner }) s)

/-- `QUEUE_MODIFY`: profile, owner mask, and ACTIVE or STOPPED (R227, R228). A BROKEN queue takes no state but through
`QUEUE_RESET`. -/
def cmdQueueModify : Cmd := fun _ f s =>
  let q := queueArg f
  let fields := arg f 4 1
  let owner : BitVec 4 := BitVec.ofNat 4 (arg f 6 1)
  let x := queueAt s q
  if !argsClear f [(0, 8)] || !within 0 262143 q || !within 0 7 fields || !within 0 31 (arg f 5 1) ||
      !within 0 15 (arg f 6 1) || decide (x.state = .free) ||
      (bitAt fields 1 && !ownerSubset s (queuePd s q) owner) ||
      (bitAt fields 2 && (!within 1 2 (arg f 7 1) || decide (x.state = .broken))) then badParam s
  else
    answer .ok (modQueue q (fun y => { y with
      profile := if bitAt fields 0 then arg f 5 1 else y.profile
      owner := if bitAt fields 1 then owner else y.owner
      state := if bitAt fields 2 then (if arg f 7 1 = 1 then .active else .stopped) else y.state }) s)

/-- `QUEUE_DELETE`: an empty queue's spare returns to the pool (R227). -/
def cmdQueueDelete : Cmd := fun _ f s =>
  let q := queueArg f
  let x := queueAt s q
  if !argsClear f [(0, 4)] || !within 0 262143 q || decide (x.state = .free) || decide (x.cells ≠ 0) ||
      !x.streams.isEmpty then badParam s
  else answer .ok (modQueue q (fun _ => {}) (giveCell (homeSlice q) (queuePd s q) s x.tail))

/-- The requests of a queue that is reset: a DEQUEUE that has handed over nothing ends EMPTY, any other and every
unlinked ENQUEUE ABORTED. -/
def endQueueWork (q : Nat) (s : State) : State :=
  let x := queueAt s q
  let s := modQueue q (fun y => { y with streams := [], admissions := [] }) s
  let s := x.streams.foldl (fun s t => completeWith t.job (if t.first then .empty else .aborted) s) s
  x.admissions.foldl (fun s a => if a.ended then s else completeWith a.job .aborted s) s

/-- `QUEUE_RESET`: a BROKEN or ACTIVE queue empty with a new spare, its cells leaked (R243). -/
def cmdQueueReset : Cmd := fun _ f s =>
  let q := queueArg f
  let x := queueAt s q
  let pd := queuePd s q
  if !argsClear f [(0, 4)] || !within 0 262143 q || decide (x.state ≠ .broken ∧ x.state ≠ .active) then badParam s
  else
    match takeCell (homeSlice q) pd s with
    | (none, _) => answer .failed s
    | (some c, s) =>
      let s := modBuffer pd (fun b => { b with leaked := b.leaked + x.cells + 1 }) (endQueueWork q s)
      answer .ok (modQueue q (fun y => { y with
        head := c, tail := c, cells := 0, packets := 0, state := .active }) s)

/-- Queues of a partition that are not FREE, in ascending order. -/
def queuesOf (s : State) (pd : Fin 64) : List Nat :=
  (s.queues.filter fun e => decide (e.2.partition = pd.val) && decide (e.2.state ≠ .free)).map (·.1)

/-- Every queue of a partition given a new spare from cell 0 upward, and the pool begun again above them (R243). -/
def resetBuffer (pd : Fin 64) (s : State) : State :=
  let qs := queuesOf s pd
  let s := (qs.mapIdx fun i q => (i, q)).foldl (fun s e => modQueue e.2 (fun y => { y with head := e.1, tail := e.1 }) s) s
  dropCaches pd (modBuffer pd (fun b => { b with
    used := qs.length, fresh := qs.length, listHead := nullCell, listLen := 0, leaked := 0 }) s)

/-- `BUFFER_RESET`, accepted only while every queue is empty and no DEQUEUE of the partition runs (R243). -/
def cmdBufferReset : Cmd := fun m f s =>
  let pd : Fin 64 := Fin.ofNat 64 (arg f 0 1)
  let x := s.partitions[pd]
  if !argsClear f [(0, 1)] || !within 0 63 (arg f 0 1) || !x.valid || decide (x.ptype ≠ .buffer) ||
      (queuesOf s pd).any (fun q => decide ((queueAt s q).cells ≠ 0) || !(queueAt s q).streams.isEmpty) then badParam s
  else accept m 0x0304 (.bufferReset pd) (fun _ s => bufferWatch pd (resetBuffer pd s)) s

/-! ### COLLIE_SET -/

/-- The response to an OVERSUBSCRIBED setting: the largest value that fits and the quantity it concerns (R477). -/
def oversubscribed (largest quantity : Nat) (s : State) : Option Reply × State :=
  (some { status := .oversubscribed, data := natToBytes 4 largest ++ natToBytes 4 quantity }, s)

/-- The largest floor, or ceiling with a target, that the ledger takes with the rest of the setting unchanged (R295). -/
def largestSetting (s : State) (pk : Fin 4 × Fin 8) : Nat :=
  let c := classAt s pk
  let n := largestCharge s pk c.scope
  if c.target ≠ 0 then (if n < c.floor then 0 else n) else if c.ceiling ≠ 0 then min n c.ceiling else n

/-- The largest Kennel share that a partition's quota leaves a port-class (R291). -/
def largestShare (s : State) (pk : Fin 4 × Fin 8) : Nat :=
  let c := classAt s pk
  s.partitions[(Fin.ofNat 64 c.kennelPd : Fin 64)].quota -
    trimOrder.foldl (fun n k => if k ≠ pk ∧ (classAt s k).kennelPd = c.kennelPd then n + (classAt s k).kennelAdmitted else n) 0

/-- `COLLIE_SET`: the whole setting of one port-class, or nothing (R278, R279, R291, R295, R302, R478). New buckets
start full; contents are clipped to the new bursts. -/
def cmdCollieSet : Cmd := fun _ f s =>
  let p : Fin 4 := Fin.ofNat 4 (arg f 0 1)
  let k : Fin 8 := Fin.ofNat 8 (arg f 1 1)
  let floor := arg f 4 4
  let fb := arg f 8 4
  let ceiling := arg f 12 4
  let cb := arg f 16 4
  let target := arg f 20 4
  let share := arg f 24 4
  if !argsClear f [(0, 28)] || !within 0 3 (arg f 0 1) || !within 0 7 (arg f 1 1) || !within 0 4 (arg f 2 1) ||
      (decide (share ≠ 0) && !within 0 63 (arg f 3 1)) || !within 0 400000 floor || decide (floor % 100 ≠ 0) || !within 64 1048576 fb ||
      !within 0 400000 ceiling || decide (ceiling % 100 ≠ 0) || !within 64 1048576 cb ||
      !(decide (target = 0) || within 300 32752 target) || !within 0 524288 share ||
      (decide (ceiling ≠ 0) && decide (ceiling < floor)) || (decide (target ≠ 0) && decide (ceiling = 0)) ||
      (decide (share ≠ 0) && !s.partitions[(Fin.ofNat 64 (arg f 3 1) : Fin 64)].valid) then badParam s
  else
    let old := refillClass s.hubTimer s.ports[p].classes[k]
    let new : PortClass := { old with
      floor := floor, floorBurst := fb, ceiling := ceiling, ceilingBurst := cb, target := target, scope := arg f 2 1
      kennelPd := arg f 3 1, kennelLines := share, floorAdmitted := floor, targetAdmitted := target
      kennelAdmitted := share
      floorTokens := if old.floor = 0 ∧ floor ≠ 0 then (fb * 65536 : Nat) else min old.floorTokens (fb * 65536 : Nat)
      ceilTokens := if old.ceiling = 0 ∧ ceiling ≠ 0 then (cb * 65536 : Nat) else min old.ceilTokens (cb * 65536 : Nat) }
    let t := modClass p k (fun _ => new) s
    if !ledgerFits t then oversubscribed (largestSetting t (p, k)) (boolNat (decide (target ≠ 0))) s
    else if share ≠ 0 ∧ largestShare t (p, k) < share then oversubscribed (largestShare t (p, k)) 2 s
    else
      let u := recomputeLedger s t
      answer .ok (if target ≠ 0 then (List.finRange 32).foldl (fun s c => leaveRefreshAt u.hubTimer c s) u else u)

end Sys2Proof.Machine
end

