-- ==== Sys2Proof/Machine/PortCommands.lean ====
section
/-! DEFINITION. The commands on ports (R477, R478, with R97, R102 to R104 and R528). -/

namespace Sys2Proof.Machine

open Sys2Proof

/-- The port that byte 0 names. -/
def portArg (f : Frame) : Fin 4 := Fin.ofNat 4 (arg f 0 1)

/-- What `PORT_TRAIN` begins: from ACTIVE the session goes on through SWITCH to G10 and the step-up, from any other
state training restarts from DETECT; no preset is kept, and retired groups and a lockout of R148 are cleared (R478). -/
def beginTrain (p : Fin 4) (_ : Task) (s : State) : State :=
  let s := modPhy p (fun x => { x with retired := 0, losses := [] })
    (modLink p (fun l => { l with authFailed := false })
      (mapLanes p (fun _ l => { l with
        stored := [none, none, none, none], storedPresets := [none, none, none, none] }) s))
  if portLive s p ∧ s.ports[p].phy.state = .active then
    startSwitch p .g10 .up (modPhy p (fun x => latchTraining s { x with retried := false }) (modSend p leaveIdle s))
  else if portLive s p then modPort p squelch (toDetect p (portDown p 9 s))
  else s

/-- `PORT_TRAIN`. -/
def cmdPortTrain : Cmd := fun m f s =>
  let p := portArg f
  if !argsClear f [(0, 1)] || !within 0 3 (arg f 0 1) || !s.ports[p].phy.enable then badParam s
  else acceptOrQueue m 0x0500 (.portTrain p) (beginTrain p) s

/-- What a port reaches at the end of `PORT_TRAIN`: OK with its gauge and masks in ACTIVE, else FAILED. -/
def endTrain (p : Fin 4) (t : Task) (s : State) : State :=
  let x := s.ports[p].phy
  let result := gaugeCode x.gauge + x.rxMask.toNat * 2 ^ 2 + x.txMask.toNat * 2 ^ 6
  if x.state = .active then endTask t .ok (BitVec.ofNat 64 result) s else endTask t .failed 0 s

/-- What `PORT_TEST` begins: with force a partner is detached with reason FORCED, and the port enters TEST, its pins idle
but in the far-end loop, at the gauge where it stood (R102 to R104); without it, one that attached while the command was queued ends it DENIED. -/
def beginTest (p : Fin 4) (test : PortTest) (t : Task) (s : State) : State :=
  if s.ports[p].partnerState = .attached ∧ !test.force then endTask t .denied 0 s
  else if portLive s p then
    let s := modLink p (fun l => { l with session := false }) (portDown p 5 s)
    let s := if test.loop = 2 then s else modPort p squelch s
    enterState p .test (fun x => { x with
      climb := .up, rxMask := 0, txMask := 0, retried := false, returning := false, quick := false, stable := 0
      rxIdle := false, txIdle := false, loop := none, test := some test }) s
  else endTask t .failed 0 s

/-- The test that the arguments name. -/
def testArg (f : Frame) : PortTest :=
  { loop := arg f 2 1, pattern := bitsOf (arg f 3 1) 1 0, inverted := bitAt (arg f 3 1) 2
    lanes := BitVec.ofNat 16 (arg f 4 2), durationMs := arg f 8 4, force := decide (arg f 6 1 = 1) }

/-- Every test of a port that has begun. -/
def testRuns (s : State) (p : Fin 4) : Bool := decide (s.ports[p].phy.state = .test)

/-- `PORT_TEST`: a start is DENIED while a partner is attached unless its force flag is set; a stop answers BAD_PARAM
when no test runs. A start names a port that is not disabled. -/
def cmdPortTest : Cmd := fun m f s =>
  let p := portArg f
  let pattern := arg f 3 1
  if !argsClear f [(0, 7), (8, 4)] || !within 0 3 (arg f 0 1) || !within 0 1 (arg f 1 1) || !within 0 3 (arg f 2 1) ||
      !within 0 7 pattern || decide (bitsOf pattern 1 0 = 3) || !within 0 1 (arg f 6 1) then badParam s
  else if arg f 1 1 = 1 then
    if testRuns s p then answer .ok (stopTest p .ok s) else badParam s
  else if !s.ports[p].phy.enable then badParam s
  else if s.ports[p].partnerState = .attached ∧ arg f 6 1 = 0 then answer .denied s
  else acceptOrQueue m 0x0501 (.portTest p (testArg f)) (beginTest p (testArg f)) s

/-- `LANE_GROUP_RESTORE`: the groups of the mask are no longer retired (R97). -/
def cmdLaneGroupRestore : Cmd := fun _ f s =>
  let p := portArg f
  let mask := BitVec.ofNat 4 (arg f 1 1)
  if !argsClear f [(0, 2)] || !within 0 3 (arg f 0 1) || !within 0 15 (arg f 1 1) then badParam s
  else answer .ok (modPhy p (fun x => { x with
    retired := x.retired &&& ~~~mask
    losses := x.losses.filter fun e => !mask.getLsbD e.1 }) s)

/-- `LANE_RETUNE`: only on a port in ACTIVE (R528). -/
def cmdLaneRetune : Cmd := fun m f s =>
  let p := portArg f
  if !argsClear f [(0, 1), (2, 2)] || !within 0 3 (arg f 0 1) || !linkUp s p then badParam s
  else acceptOrQueue m 0x0503 (.retune p (BitVec.ofNat 16 (arg f 2 2))) (fun _ s => s) s

/-- The least eye of R530, in mUI and mV. -/
def eyeFloor : Gauge → Nat × Nat
  | .g10 => (350, 30)
  | .g25 => (350, 30)
  | .g53 => (200, 15)
  | .g106 => (150, 10)

/-- The end of a re-tune: the eyes recorded, LANE_MARGIN_LOW for each low one, and the NAK that ends the hold
(R528, R530, R531). -/
def endRetune (p : Fin 4) (lanes : BitVec 16) (eyes : List LaneEye) (t : Task) (s : State) : State :=
  let low := eyeFloor s.ports[p].phy.gauge
  let s := eyes.foldl (fun s (e : LaneEye) =>
    if lanes.getLsbD e.lane then
      let s := modLane p e.lane (fun l => { l with
        ltuneCount := sat32 l.ltuneCount, ltuneLast := s.hubTimer, ltuneEyeMui := e.widthMui
        ltuneEyeMv := e.heightMv }) s
      if e.widthMui < low.1 ∨ e.heightMv < low.2 then
        raise 0xB016 2 (16 * p.val + e.lane.val) [itCount e.widthMui, itCount e.heightMv] s
      else s
    else s) s
  let s := if linkUp s p then pump p (modSend p (fun x => putLink [nakMessage x.link false] (leaveIdle x)) s) else s
  endTask t .ok 0 s

end Sys2Proof.Machine
end

