-- ==== Sys2Proof/Machine/Fuses.lean ====
section
/-! DEFINITION. Fuse fields: their layouts (R499 to R503), copy selection (R506, R507), and the commands that read, override,
burn, lock and strengthen them (R483, R508 to R515, with R406). -/

namespace Sys2Proof.Machine

open Sys2Proof

/-! ### Copy selection (R506) -/

/-- A block settled: its state and the data used. -/
def settleBlock (s : State) (field block : Nat) : FuseState × Option Nat :=
  let a := fuseBlockState s field 0 block
  let b := fuseBlockState s field 1 block
  let x := fuseData s field 0 block
  let y := fuseData s field 1 block
  let strong0 := decide (a = .complete) && fuseStrong s field 0 block
  let strong1 := decide (b = .complete) && fuseStrong s field 1 block
  if fuseDead s field block then (.dead, none)
  else if a = .blank ∧ b = .blank then (.blank, none)
  else if a = .complete ∧ b = .complete ∧ x ≠ y then (.default, none)
  else if strong0 && strong1 then (.good, some x)
  else if strong0 then (.weak, some x)
  else if strong1 then (.weak, some y)
  else if a = .complete then (.weak, some x)
  else if b = .complete then (.weak, some y)
  else (.default, none)

/-- How bad a state is, from FIELD_DEAD down. -/
def fuseRank : FuseState → Nat
  | .dead => 4
  | .default => 3
  | .weak => 2
  | .blank => 1
  | .good => 0

/-- The state of one block as its field counts it: a blank POLICY or USER block counts as good. -/
def countedState (field : Nat) (st : FuseState) : FuseState := if st = .blank ∧ (field = 4 ∨ field = 5) then .good else st

def worseState (a b : FuseState) : FuseState := if fuseRank a < fuseRank b then b else a

/-- A field's blocks settled. -/
def settleField (s : State) (field : Nat) : List (FuseState × Option Nat) :=
  (List.range (fuseBlocks field)).map (settleBlock s field)

/-- The policy in force over the complete blocks, the most restrictive of each field; without one, the restrictive
default (R500, R507). -/
def policyOver (blocks : List (Option Nat)) (bad : Bool) : BitVec 32 :=
  let vs := blocks.filterMap id
  if bad ∨ vs = [] then 0
  else
    BitVec.ofNat 32 (vs.foldl (fun m v => min m (v % 4)) 3 + 4 * boolNat (vs.all fun v => bitAt v 2) +
      8 * boolNat (vs.all fun v => bitAt v 3))

/-- The IDENT shadow at its default: ordering code C, the ROM's constants, serial 0. -/
def identDefault : BitVec 128 := (Config.romIdent &&& (0xFFFFFFFFFFFFFF00 : BitVec 128)) ||| 0x43

/-- The TRIM shadow at its default: zero offsets, model and speed bin; energies, OCLK curve, PLL bands and SerDes bias as the
ROM has them (R501, R507). -/
def trimDefault : BitVec 4096 := Config.romTrim &&& ((2 ^ 2508 - 2 ^ 716 : Nat) : BitVec 4096)

/-- Entries of a REPAIR block: kind and the 22 bits beneath it (R502). -/
def repairEntries (data : Nat) : List (Nat × Nat) :=
  (List.range 9).map fun e => (bitsOf data (24 * e + 31) (24 * e + 30), bitsOf data (24 * e + 29) (24 * e + 8))

/-- Channels that defaulted REPAIR blocks keep out of service. -/
def repairKeptOut (s : State) (settled : List (FuseState × Option Nat)) : List Nat :=
  let bad (b : Nat) : Bool := match (settled.getD b (.good, none)).1 with
    | .default => true
    | .dead => true
    | _ => false
  ((List.range 32).filter bad) ++
    (((List.range 4).map (32 + ·)).filter bad).flatMap fun b => [fuseData s 2 0 b % 256 % 32, fuseData s 2 1 b % 256 % 32]

/-- The events of a field or slot that loads weak, at its default or dead. -/
def fuseEvent (field slot : Nat) (st : FuseState) (s : State) : State :=
  let items := [itReason field, itLine slot]
  match st with
  | .weak => raise 0xA010 14 0 items s
  | .default => raise 0xA011 14 0 items s
  | .dead => raise 0xA012 14 0 items s
  | _ => s

/-- The fuse load of phase 1: shadows from the selected copies, states, and the events (R506). -/
def loadFuses (s : State) : State :=
  let fields := (List.range 6).map (settleField s)
  let field (i : Nat) : List (FuseState × Option Nat) := fields.getD i []
  let worst (i : Nat) : FuseState := ((field i).map fun b => countedState i b.1).foldl worseState .good
  let data (i : Nat) : Option Nat := ((field i).getD 0 (.blank, none)).2
  let isDefault (i : Nat) : Bool := decide (worst i = .default) || decide (worst i = .dead)
  let slots := (field 5).map (·.2)
  let slot := ((List.range 4).reverse.find? fun i => (slots.getD i none).isSome).getD 0
  let userState := countedState 5 ((field 5).getD slot (.blank, none)).1
  let states := (List.range 5).map worst ++ [userState]
  let trim := (data 1).elim trimDefault (BitVec.ofNat 4096)
  let policy := policyOver ((field 4).map (·.2)) (isDefault 4)
  let s := modFuses (fun f => { f with
    ident := if isDefault 0 then identDefault else BitVec.ofNat 128 ((data 0).getD 0)
    trim := trim, trimLoaded := trim, bands := pllBands trim, trimOverride := false, trimDefault := isDefault 1
    selected := fields.map fun bs => bs.map (·.2)
    repairOut := repairKeptOut s (field 2)
    keywrap := if isDefault 0 then none else (data 3).map (BitVec.ofNat 256)
    policy := policy, policyLoaded := policy, policyOverride := false
    user := slots.map fun o => o.map (BitVec.ofNat 512)
    states := states, weakBits := (List.range 6).map (fuseWeakCount s) }) s
  let s := (List.range 5).foldl (fun s i => fuseEvent i 0 (worst i) s) s
  (List.range 4).foldl (fun s i => fuseEvent 5 i ((field 5).getD i (.blank, none)).1 s) s

/-- The fields that make a start-up DEGRADED. -/
def fusesDegraded (s : State) : List Nat :=
  (List.range 5).filter fun i => match s.fuses.states.getD i .good with
    | .default => true
    | .dead => true
    | _ => false

/-! ### Arguments -/

/-- Field and slot of a fuse command in range: slot 0 for every field but USER. -/
def fuseArgs (f : Frame) : Bool := within 0 5 (arg f 0 1) && within 0 (if arg f 0 1 = 5 then 3 else 0) (arg f 1 1)

/-- The F bytes that follow byte 8. -/
def fuseImage (f : Frame) : Nat := arg f 8 (fuseBytes (arg f 0 1))

/-- An entry of a REPAIR image in the ranges of R502. -/
def repairEntryLegal (e : Nat × Nat) : Bool :=
  match e.1 with
  | 0 => decide (e.2 = 0)
  | 1 =>
    let pos := bitsOf e.2 19 5
    decide (bitsOf e.2 4 0 = 0) &&
      (match bitsOf e.2 21 20 with
       | 0 => decide (pos ≤ 75)
       | 1 => decide (pos < 66 * 288)
       | 2 => decide (pos ≤ 33)
       | _ => false)
  | 2 => decide (bitsOf e.2 17 1 ≤ 65599) && decide (bitsOf e.2 0 0 = 0)
  | _ => false

/-- A block of a REPAIR image in the ranges of R502: an extension block that is not all zero names a channel and carries at
least one entry. -/
def repairLegal (block data : Nat) : Bool :=
  (repairEntries data).all repairEntryLegal &&
    (decide (block < 32) || decide (data = 0) ||
      decide (data % 256 < 32) && (repairEntries data).any fun e => decide (e.1 ≠ 0))

/-- The reserved fields of the layouts of R499 to R502 are zero in an image, and REPAIR entries lie in their ranges. -/
def imageClear (field image : Nat) : Bool :=
  match field with
  | 0 => decide (bitsOf image 31 27 = 0) && decide (bitsOf image 47 47 = 0)
  | 1 => decide (bitsOf image 4095 2510 = 0)
  | 2 => (List.range 36).all fun b => repairLegal b (imageBlock 2 image b)
  | 4 => (List.range 2).all fun b => decide (imageBlock 4 image b < 16)
  | _ => true

/-! ### FUSE_READ and FUSE_SHADOW_SET -/

/-- A copy's data and weak-bit map as `FUSE_READ` returns them. -/
def fuseCopyBytes (s : State) (field slot copy : Nat) : List Byte :=
  let n := fuseWords field
  let blind := decide (field = 3) || (decide (field = 5) && (s.fuses.user.all fun o => o.isNone))
  let take (g : FuseWord → BitVec 32) : List Byte := (fuseRange field slot).flatMap fun b =>
    ((fuseBlock s field copy b).take n).flatMap fun w => natToBytes 4 (if blind then 0 else (g w).toNat)
  take (·.nominal) ++ take weakOf

/-- Every block of a copy passes its CRC, or is an optional blank one. -/
def copyGood (s : State) (field slot copy : Nat) : Bool :=
  (fuseRange field slot).all fun b => match fuseBlockState s field copy b with
    | .complete => true
    | .blank => fuseOptional field b
    | .broken => false

/-- `FUSE_READ`: the array sensed as it stands. -/
def cmdFuseRead : Cmd := fun _ f s =>
  let field := arg f 0 1
  let slot := arg f 1 1
  if !argsClear f [(0, 2)] || !fuseArgs f then badParam s
  else
    let shadowed := (decide (field = 1) && s.fuses.trimOverride) || (decide (field = 4) && s.fuses.policyOverride)
    let flags := boolNat (copyGood s field slot 0) + 2 * boolNat (copyGood s field slot 1) +
      4 * boolNat (fuseLocked s field slot 0) + 8 * boolNat (fuseLocked s field slot 1) + 16 * boolNat shadowed
    answerData (natToBytes 16 flags ++ fuseCopyBytes s field slot 0 ++ fuseCopyBytes s field slot 1)
      (modFuses (fun x => { x with weakBits := x.weakBits.set field (fuseWeakCount s field) }) s)

/-- FUSE_OVERRIDE (R508). -/
def raiseOverride (field set : Nat) (s : State) : State := raise 0xA015 14 0 [itReason field, itLine 0, itCount set] s

/-- A policy that an image of both blocks gives; an all-zero block 1 is blank. -/
def imagePolicy (image : Nat) : BitVec 32 :=
  let b := imageBlock 4 image 1
  policyOver [some (imageBlock 4 image 0), if b = 0 then none else some b] false

/-- A policy no looser than another in any field. -/
def noLooser (a b : BitVec 32) : Bool :=
  decide (bitsOf a.toNat 1 0 ≤ bitsOf b.toNat 1 0) && (!a.getLsbD 2 || b.getLsbD 2) && (!a.getLsbD 3 || b.getLsbD 3)

/-- `FUSE_SHADOW_SET`: TRIM and POLICY alone can be overridden (R508). -/
def cmdFuseShadowSet : Cmd := fun _ f s =>
  let field := arg f 0 1
  let clear := decide (arg f 2 1 = 1)
  let image := fuseImage f
  if !argsClear f [(0, 3), (8, fuseBytes field)] || !fuseArgs f || !within 0 1 (arg f 2 1) ||
      (clear && decide (image ≠ 0)) || !imageClear field image then badParam s
  else if field = 1 then
    answer .ok (refreshValues (raiseOverride 1 (boolNat !clear)
      (modFuses (fun x => { x with
        trim := if clear then x.trimLoaded else BitVec.ofNat 4096 image, trimOverride := !clear }) s)))
  else if field = 4 then
    if clear then
      answer .ok (raiseOverride 4 0 (modFuses (fun x => { x with policy := x.policyLoaded, policyOverride := false }) s))
    else if noLooser (imagePolicy image) s.fuses.policy then
      answer .ok (raiseOverride 4 1 (modFuses (fun x => { x with policy := imagePolicy image, policyOverride := true }) s))
    else answer .locked s
  else answer .locked s

/-! ### Burning (R509 to R511) -/

/-- A fuse command that runs as a task. -/
def fuseRuns (s : State) : Bool :=
  s.tasks.any fun t => decide (t.state = .running) && (match t.work with
    | .fuseBurn _ _ _ _ => true
    | .fuseLock _ _ _ => true
    | .fuseReburn _ _ => true
    | _ => false)

/-- The refusals that burns, locks and reburns share: another fuse command, `VFUSE`, TS0. -/
def fuseRefusal (s : State) : Option KStatus :=
  if fuseRuns s ∨ !s.fuses.vfuseOk then some .failed else if !burnTemp s then some .tempRange else none

/-- The slot that takes new user data: the lowest blank one that is not locked (R503). -/
def nextUser (s : State) (copy : Nat) : Option Nat :=
  (List.range 4).find? fun i => decide (fuseBlockState s 5 copy i = .blank) && !fuseLocked s 5 i copy && !fuseDead s 5 i

/-- Whether an image may be burnt into a copy (R509). -/
def imageFits (s : State) (field slot copy image : Nat) : Bool :=
  (fuseRange field slot).all fun b =>
    let data := imageBlock field image b
    burnFits s field copy b data &&
      (decide (fuseBlockState s field (1 - copy) b ≠ .complete) || decide (fuseData s field (1 - copy) b = data)) &&
      (decide (field ≠ 2) || decide (32 ≤ b) || decide (data % 256 = b))

/-- `FUSE_BURN`. -/
def cmdFuseBurn : Cmd := fun m f s =>
  let field := arg f 0 1
  let slot := arg f 1 1
  let copy := arg f 2 1
  let image := fuseImage f
  let blank := decide (field = 5) && decide (fuseBlockState s 5 copy slot = .blank)
  if !argsClear f [(0, 3), (8, fuseBytes field)] || !fuseArgs f || !within 0 1 copy || !imageClear field image then badParam s
  else if fuseDead s field slot || (blank && (nextUser s copy).isNone) then answer .failed s
  else if fuseLocked s field slot copy then answer .locked s
  else if !imageFits s field slot copy image || (blank && decide (image ≠ 0) && decide (nextUser s copy ≠ some slot)) then
    badParam s
  else
    match fuseRefusal s with
    | some st => answer st s
    | none => accept m 0x0A02 (.fuseBurn field slot copy (natToBytes (fuseBytes field) image)) (fun _ s => s) s

/-- Every block of both copies fit for a lock (R512). -/
def lockFits (s : State) (field slot : Nat) : Bool :=
  (fuseRange field slot).all fun b =>
    let whole := decide (fuseBlockState s field 0 b = .complete) && decide (fuseBlockState s field 1 b = .complete) &&
      fuseStrong s field 0 b && fuseStrong s field 1 b && decide (fuseData s field 0 b = fuseData s field 1 b)
    let blank := decide (fuseBlockState s field 0 b = .blank) && decide (fuseBlockState s field 1 b = .blank)
    whole || (fuseOptional field b && decide (field ≠ 5) && blank)

/-- `FUSE_LOCK`. -/
def cmdFuseLock : Cmd := fun m f s =>
  let field := arg f 0 1
  let slot := arg f 1 1
  let copy := arg f 2 1
  if !argsClear f [(0, 3)] || !fuseArgs f || !within 0 1 copy then badParam s
  else if fuseDead s field slot || !lockFits s field slot then answer .failed s
  else
    match fuseRefusal s with
    | some st => answer st s
    | none => accept m 0x0A03 (.fuseLock field slot copy) (fun _ s => s) s

/-- A field whose loaded data a reburn can take as its reference (R514). -/
def reburnable (s : State) (field slot : Nat) : Bool :=
  let blocks := s.fuses.selected.getD field []
  if field = 5 then (blocks.getD slot none).isSome
  else
    let st := s.fuses.states.getD field .blank
    decide (st ≠ .default) && decide (st ≠ .dead) && decide (st ≠ .blank) && (blocks.any fun b => b.isSome)

/-- `FUSE_REBURN`. -/
def cmdFuseReburn : Cmd := fun m f s =>
  let field := arg f 0 1
  let slot := arg f 1 1
  if !argsClear f [(0, 2)] || !fuseArgs f then badParam s
  else if fuseDead s field slot || !reburnable s field slot then answer .failed s
  else
    match fuseRefusal s with
    | some st => answer st s
    | none => accept m 0x0A04 (.fuseReburn field slot) (fun _ s => s) s

/-! ### Ends of fuse tasks -/

/-- A word as a stopped burn left it: what both references agree on is so, and what lies between is open. -/
def stopWord (x : BurnStop) (s : State) : State :=
  let w := fuseWordAt s x.word
  let low := w.low ||| x.low ||| x.high
  let high := w.high ||| x.high
  let open_ : BitVec 32 := BitVec.ofNat 32 (Config.freeWord s.drawn).toNat
  drawOne (putFuseWord x.word { low := low, nominal := high ||| (low &&& (w.nominal ||| open_)), high := high } s)

/-- Field, slot and copy as the burn events carry them. -/
def burnItems : Work → List (Nat × Nat)
  | .fuseBurn field slot copy _ => [itReason field, itLine slot, itCount copy]
  | .fuseLock field slot copy => [itReason field, itLine slot, itCount copy]
  | _ => []

/-- The end of a burn or a lock: every word verified, or stopped at one (R510, R512). TS0 has stood in its window at
every sample till now, or the burn would have been cut (R406). -/
def endBurn (t : Task) (stop : Option BurnStop) (s : State) : State :=
  let ws := fuseTargets s t.work
  if !burnTemp s then cutBurn false t .tempRange s
  else
  match stop with
  | some x =>
    if ws.any fun w => decide (w.1 = x.word) then
      let s := stopWord x (burnInto (ws.takeWhile fun w => decide (w.1 ≠ x.word)) s)
      endTask t .failed (BitVec.ofNat 64 x.word) (raise 0xA014 14 0 (burnItems t.work ++ [itCount x.word]) s)
    else endTask t .failed 0 s
  | none =>
    let s := burnInto ws s
    let s := match t.work with
      | .fuseBurn _ _ _ _ => raise 0xA013 14 0 (burnItems t.work) s
      | _ => s
    endTask t .ok 0 s

/-- The end of a reburn: weak bits whose reference is 1 strong in both copies, but for the word that `stop` reports; the
weak bits that are left are the result (R514). -/
def endReburn (field slot : Nat) (t : Task) (stop : Option BurnStop) (s : State) : State :=
  if !burnTemp s then cutBurn false t .tempRange s
  else
    let stopsAt (a : Nat) : Bool := match stop with | some x => decide (x.word = a) | none => false
    let s := cureWords ((reburnTargets s field slot).filter fun w => !stopsAt w.1) s
    let s := match stop with
      | some x => stopWord x s
      | none => s
    let left := ((List.range 2).map fun copy => ((fuseRange field slot).map fun b =>
      ((fuseBlock s field copy b).map fun w => popcount (weakOf w).toNat 32).sum).sum).sum
    endTask t .ok (BitVec.ofNat 64 left) s

end Sys2Proof.Machine
end

