-- ==== Sys2Proof/Machine/Resets.lean ====
section
/-! DEFINITION. Warm and cold resets and the reset pins (R422 to R427, R431), and START_FAILED (R430, R566). -/

namespace Sys2Proof.Machine

open Sys2Proof

/-! ### Warm reset -/

/-- Mailboxes in their request phase cut: the response is ABORTED with the cut command's seq (R425). `keep` is the
mailbox whose `DEVICE_RESET` began the reset. -/
def cutMailboxes (keep : Option (Fin 6)) (s : State) : State :=
  let s := (List.finRange 6).foldl (fun s (m : Fin 6) =>
    if keep = some m then s else respondTo m { status := .aborted } s) s
  let s := modFirmware (fun f => { f with held := [], snapshot := none }) s
  { s with partitions := s.partitions.map fun x =>
      { x with pendingChanges := x.pendingChanges.filter fun e => e.2.isNone } }

/-- Activities that a warm reset leaves in place: retirements, moves and rekeys (R361, R389, R425). -/
def resumesWarm : Work → Bool
  | .retire _ => true
  | .resize _ _ => true
  | .rekey _ => true
  | _ => false

/-- A table whose delete is cut: kept where it had not quiesced or its record cannot be written (R437), and removed where
it had quiesced. -/
def cutDelete (s : State) (td : Fin 16) : State :=
  let t := s.tables[td]
  if !t.quiescing then s
  else if t.valid then keepTable td s
  else if s.firmware.stuck.contains (.table td) then keepCutTable (.tableDelete td) s
  else removeTable td s

/-- Tasks and activities ended by a warm reset (R425, R522, R515). -/
def cutAllTasks (s : State) : State :=
  let s := cutBurns false .aborted s
  let s := (s.tasks.filter fun t => decide (t.state = .running)).foldl (fun s t =>
    if (testedBlock t.work).isSome then abortTest 1 t s
    else match t.work with
      | .portTest p _ => stopTest p .aborted s
      | w => if resumesWarm w then s else endTask t .aborted 0 s) s
  let s := endTasks (fun t => !resumesWarm t.work) .aborted s
  (List.finRange 16).foldl cutDelete s

/-- Every partner detached and every port's transmitters idle (R139, R141). -/
def dropPartners (reason : Nat) (s : State) : State :=
  (List.finRange 4).foldl (fun s (p : Fin 4) => dropPort p reason s) s

/-- A warm reset begun (R422, R424, R425): the orderly stop, the Kennel invalidated but for the dirty lines that a stopped
block or quarter keeps (R271, R272), partners detached, commands cut. -/
def startWarm (cause : Nat) (keep : Option (Fin 6)) (s : State) : State :=
  let s := cutMailboxes keep (cutAllTasks s)
  let s := bondStore (orderlyStop (dropPartners 6 s))
  let s := { s with
    kennel := s.kennel.filter (kennelPinned s), sealCache := s.sealCache.filter (sealPinned s)
    channels := s.channels.map fun c => { c with spots := [] }
    mover := s.mover.map fun m => match m with
      | .slabs c todo _ => .slabs c todo 0
      | .granules pd todo _ final => .granules pd todo 0 final }
  let s := modSideband (fun b => { b with pointer4 := 0, pointer5 := 0, wspTarget := 0, dieTarget := 0 }) s
  let s := modFirmware (fun f => { f with activating := false }) s
  let s := modDevice (fun d => { d with
    warm := true, lastCause := cause, warmResets := sat32 d.warmResets, fatal := false, alertForced := false
    startedAt := s.hubTimer, overrunStatus := 0, peerResetStatus := 0 }) s
  raise 0x0013 0 0 [itReason cause] (peerResets [managementSide] (· ≠ 62) s)

/-- Whether a warm reset may begin: READY, no cold reset, no trip (R427). -/
def warmAllowed (s : State) : Bool := devReady s && !s.device.rstLow && !s.device.warm && !s.thermal.tripped

/-- A quarter as the warm restart leaves it: one that was being reset serves again, its PLL locked afresh; one held
isolated stays so. -/
def warmQuarter (band : BitVec 8) (q : Quarter) : Quarter :=
  if q.state = .heldIsolated then q
  else { q with state := .inService, isolating := false, pllLocked := true, pllBand := band }

/-- A block as the warm restart leaves it: a block kept fenced stays so until `BLOCK_RESET`. -/
def warmBlock (b : Block) : Block :=
  { b with
    fenced := b.kept, resetting := false, testing := false
    sramFailed := b.kept && b.sramFailed }

/-- The held dirty lines that the restart can now write back written and dropped: the restart leaves no clean line. -/
def warmKennel (s : State) : State :=
  let s := sealFlush (fun _ => true) (kennelFlush (fun _ => true) s)
  { s with kennel := s.kennel.filter (·.dirty), sealCache := s.sealCache.filter (·.dirty) }

/-- A quarter that the restart returns to service: its unlinked admissions voided, its policers full after a long absence,
the pass clock of its channels stopped meanwhile (R246, R262, R325). -/
def warmAway (q : Fin 4) (was : Quarter) (s : State) : State :=
  if was.state ≠ .inService ∧ s.quarters[q].state = .inService then
    quarterPolicers q was.isolatedAt (voidAdmissions (fun k _ => decide (homeSlice k = q)) (passHeld q was.isolatedAt s))
  else s

/-- WARM_RESTART_READY: channels out of self-refresh with their queues written, ports in DETECT, and the response of
`DEVICE_RESET` (R384, R385, R426, R480); a TRIM override's PLL bands take effect (R508). The restart holds while `WRST_L` is low or `REFCLK` is lost (R427, R431). -/
def warmReady (s : State) : State :=
  if !s.device.warm || s.device.wrstLow || s.device.rstLow || decide (s.device.refclk = 1) || s.thermal.tripped then s
  else
    let q0 := s.quarters
    let s := modFuses (fun f => { f with bands := pllBands f.trim }) s
    let s := { s with
      quarters := s.quarters.map (warmQuarter (lockBand s))
      blocks := s.blocks.map fun e => (e.1, warmBlock e.2) }
    let s := modDevice (fun d => { d with hubBand := lockBand s, warm := false, startup := (s.hubTimer - d.startedAt) / 10000 }) s
    let begun := s.hubTimer
    let s := (List.finRange 32).foldl (fun s (c : Fin 32) =>
      if quarterOut s (Fin.ofNat 4 (c.val / 8)) ∨ blockStopped s (.channel c) then s
      else channelAwake begun c s) s
    let s := (List.finRange 4).foldl (fun s (p : Fin 4) =>
      if s.ports[p].phy.enable ∧ !quarterOut s p ∧ !blockStopped s (.port p) then toDetect p s else s) s
    let s := warmKennel s
    let s := (List.finRange 4).foldl (fun s q => warmAway q q0[q] s) s
    let s := recomputeLedger s s
    (List.finRange 6).foldl (fun s (m : Fin 6) => respondTo m { status := .ok } s) s

def execWarmRestartReady (s : State) : Out := .next (warmReady s)

/-! ### START_FAILED -/

/-- Start-up failed: the alert, ports idle, DRAM in self-refresh (R430). -/
def failStart (cause rail : Nat) (s : State) : State :=
  let phase := devStateCode s.device.dev
  let s := (List.finRange 4).foldl (fun s (p : Fin 4) =>
    if s.ports[p].phy.state = .disabled then s else modPort p squelch (toDetect p s)) s
  let s := { s with channels := s.channels.map fun c =>
    { c with state := if c.state = .retired then .retired else .selfRefresh } }
  raise 0x0012 0 0 [itReason phase, itReason cause, itCount rail]
    (modDevice (fun d => { d with dev := .startFailed, warm := false, alertForced := true }) s)

/-! ### Cold reset (R424) -/

/-- A partition as MRAM keeps it (R436, R438); an interrupted rekey ends with the new slot (R361). -/
def coldPartition (x : Partition) : Partition :=
  if !x.valid then {}
  else
    { x with
      keySlot := match x.sealing.rekey with | some r => r.slot | none => x.keySlot
      pendingChanges := []
      buffer := {}
      counter := { regionBase := x.counter.regionBase, regionGranules := x.counter.regionGranules }
      sealing := { rekey := x.sealing.rekey } }

/-- A table as MRAM keeps it: an exact table keeps its seeds, and every table starts empty (R437). -/
def coldTable (t : Table) : Table :=
  if !t.valid then {}
  else
    { valid := true, prefixKind := t.prefixKind, partition := t.partition, keyLen := t.keyLen, bucketLog2 := t.bucketLog2
      home := t.home, baseBlock := t.baseBlock, regionBlocks := t.regionBlocks, dirBase := t.dirBase, dirBits := t.dirBits
      seed1 := t.seed1, seed2 := t.seed2 }

/-- A bond interface as MRAM keeps it (R387). -/
def coldBond (b : Bond) : Bond :=
  { eq := b.storedEq, residual := b.storedResidual, storedEq := b.storedEq, storedResidual := b.storedResidual
    raised80 := b.raised80, raised95 := b.raised95 }

/-- The whole of a cold reset: everything at its reset value but MRAM, the fuses, the pins and what the DRAM layers
hold; the layers stay as they are until the fill of phase 5. Of the detachment of the partners (R139) only the records
remain. -/
def coldReset (cause : Nat) (s : State) : State :=
  let r := State.reset
  let told := dropPartners 6 s
  { r with
    pending := s.pending
    drawn := told.drawn
    dram := s.dram
    device := { r.device with
      lastCause := cause, coldStarts := s.device.coldStarts, warmResets := s.device.warmResets, epoch := s.device.epoch
      refclk := s.device.refclk, rstLow := s.device.rstLow, wrstLow := s.device.wrstLow
      railState := s.device.railState, railFaults := s.device.railFaults }
    params := { r.params with
      migrationReserveMib := s.params.migrationReserveMib, sealReserve := s.params.sealReserve
      controlMask := s.params.controlMask }
    partitions := s.partitions.map coldPartition
    granuleMap := s.granuleMap
    tables := s.tables.map coldTable
    bonds := s.bonds.map coldBond
    thermal := { r.thermal with tripCount := s.thermal.tripCount }
    repairLog := s.repairLog, repairLogB := s.repairLogB
    firmware := { r.firmware with
      activeBank := s.firmware.activeBank, previousBank := s.firmware.previousBank
      minPatchVersion := s.firmware.minPatchVersion, bankA := s.firmware.bankA, bankB := s.firmware.bankB
      coreResets := s.firmware.coreResets, persisted := s.firmware.persisted, features := s.firmware.features
      bankBadA := s.firmware.bankBadA, bankBadB := s.firmware.bankBadB
      copyA := s.firmware.copyA, copyB := s.firmware.copyB, stuck := s.firmware.stuck }
    log := { r.log with records := told.log.records, count := told.log.count, ackIndex := told.log.ackIndex }
    sideband := { r.sideband with
      strap := s.sideband.strap, ibis := told.sideband.ibis, tapReset := s.sideband.tapReset, ir := s.sideband.ir
      boundary := s.sideband.boundary, tdo := s.sideband.tdo }
    fuses := { r.fuses with
      words := s.fuses.words, vfuseOk := s.fuses.vfuseOk, vfuseRaised := s.fuses.vfuseRaised }
    salts := s.salts }

/-! ### Pins and power (R404, R422, R427, R548) -/

/-- `VDD_CORE` power-on reset: a cold reset that also clears the trip latch and the TAP. Without power nothing records
the partners that it detaches. -/
def powerOn (s : State) : State :=
  let s := coldReset 0 { cutBurns true .aborted s with ports := State.reset.ports }
  { s with
    sideband := { State.reset.sideband with strap := s.sideband.strap, tapReset := s.sideband.tapReset }
    fuses := { s.fuses with vfuseRaised := none } }

def execPowerOnReset (s : State) : Out := .next (powerOn s)

/-- Sideband, reset pins and TAP while VDD_IO is faulted (R549). -/
def ioFaulted (s : State) : Bool := s.device.railState.getLsbD 4

/-- `RST_L` falling: a cold reset, held while the pin is low. `RST_L` rising: the straps are sampled, the hub timer
starts at 0, and start-up begins (R414, R422, R551). A latched trip makes both edges void (R404). -/
def resetPin (high : Bool) (strap : BitVec 2) (s : State) : State :=
  if s.thermal.tripped then s
  else if high then
    if s.device.rstLow then
      { s with
        hubTimer := 0
        device := { s.device with rstLow := false }
        sideband := { s.sideband with strap := strap } }
    else s
  else if s.device.rstLow then s
  else
    let s := coldReset 1 (cutBurns false .aborted s)
    { s with device := { s.device with rstLow := true } }

def execRstL (high : Bool) (strap : BitVec 2) (s : State) : Out :=
  if ioFaulted s then .fault .ioPinsUndefined else .next (resetPin high strap s)

/-- An edge of `WRST_L` that is ignored: `RST_L` is low, a cold start-up has reached neither READY nor START_FAILED, or
the trip latch holds (R427). -/
def warmIgnored (s : State) : Bool :=
  s.thermal.tripped || s.device.rstLow || !(devReady s || decide (s.device.dev = .startFailed))

/-- `WRST_L` falling: a warm reset, or in START_FAILED a repeat of the whole cold sequence at the rising edge (R427,
R430). The pin's level is followed at an ignored rising edge, which does nothing else. -/
def warmPin (high : Bool) (s : State) : State :=
  if high then
    if !s.device.wrstLow then s
    else
      let t := modDevice (fun d => { d with wrstLow := false }) s
      if warmIgnored s then t
      else if s.device.dev = .startFailed then coldReset 4 t
      else modDevice (fun d => { d with startedAt := s.hubTimer }) t
  else if warmIgnored s then s
  else
    let s := if warmAllowed s then startWarm 2 none s else s
    modDevice (fun d => { d with wrstLow := true }) s

def execWrstL (high : Bool) (s : State) : Out :=
  if ioFaulted s then .fault .ioPinsUndefined else .next (warmPin high s)

end Sys2Proof.Machine
end

