-- ==== Sys2Proof/Machine/Firmware.lean ====
section
/-! DEFINITION. Krejo firmware: patch bundles and banks (R458 to R461), features (R462, R484), and the export and import of
the configuration store (R436, R464, R485). -/

namespace Sys2Proof.Machine

open Sys2Proof

/-! ### Patch bundles (R458, R459) -/

/-- The bytes of a bank's bundle. -/
def bundleBytes (bank : Memory) (start n : Nat) : List Byte := memBytes bank start n

def bundleNat (bank : Memory) (start n : Nat) : Nat := bytesToNat (bundleBytes bank start n)

def bundleVersion (bank : Memory) : Nat := bundleNat bank 16 4

def bundleBody (bank : Memory) : Nat := bundleNat bank 20 4

/-- Every header field and reserved byte (check 1). -/
def headerGood (bank : Memory) : Bool :=
  decide (bundleBytes bank 0 4 = [0x4B, 0x52, 0x4A, 0x50]) && decide (bundleNat bank 4 2 = 1) &&
    decide (bundleNat bank 6 2 = 0) && decide (bundleBytes bank 8 2 = [0x4B, 0x31]) &&
    decide (bundleNat bank 10 2 = Config.romRevision) && decide (bundleNat bank 15 1 = 0) &&
    decide (bundleBody bank ≤ 1048320) && decide (bundleNat bank 24 4 = Config.romLayout) &&
    decide (bundleNat bank 28 1 ≤ 1) && decide (bundleNat bank 29 3 = 0) && allZero (bundleBytes bank 80 80)

/-- The stepping and ordering-code masks against IDENT (check 2). -/
def masksGood (s : State) (bank : Memory) : Bool :=
  bitAt (bundleNat bank 12 2) (identStepping s - 0x41) &&
    bitAt (bundleNat bank 14 1) (if identOrder s = 0x46 then 0 else 1)

/-- The hash of the body (check 4). -/
def bodyGood (bank : Memory) : Bool :=
  decide (sha384 ((bundleBytes bank 256 (bundleBody bank)).map (·.toNat)) = (bundleBytes bank 32 48).map (·.toNat))

/-- The signature over bytes 0 to 159; r and s are fields of the bundle, and little-endian as R8 has every field
(check 5). -/
def signatureGood (bank : Memory) : Bool :=
  ecdsaVerify (Config.romKey (bundleNat bank 28 1)) ((bundleBytes bank 0 160).map (·.toNat)) (bundleNat bank 160 48)
    (bundleNat bank 208 48)

/-- A bank by number: 1 is A, 2 is B. -/
def patchBank (s : State) (n : Nat) : Memory := if n = 1 then s.firmware.bankA else s.firmware.bankB

/-- A bank that holds an uncorrectable word: it fails its signature check (R439). -/
def bankBad (s : State) (n : Nat) : Bool := if n = 1 then s.firmware.bankBadA else s.firmware.bankBadB

/-- The first check of R459 that the bundle of a bank fails, numbered from 1. -/
def bundleFails (s : State) (n : Nat) : Option Nat :=
  let bank := patchBank s n
  if !headerGood bank then some 1
  else if !masksGood s bank then some 2
  else if bundleVersion bank ≤ s.firmware.minPatchVersion then some 3
  else if !bodyGood bank then some 4
  else if bankBad s n || !signatureGood bank then some 5
  else none

/-- A bank fit to run at a start-up: its version is not below `min_patch_version`, which a patch that has completed its
probation equals. -/
def bankRuns (s : State) (n : Nat) : Bool :=
  let bank := patchBank s n
  headerGood bank && masksGood s bank && decide (s.firmware.minPatchVersion ≤ bundleVersion bank) && bodyGood bank &&
    !bankBad s n && signatureGood bank

/-! ### Banks -/

/-- The bank that is not active: B while A is active, otherwise A. -/
def idleBank (s : State) : Nat := if s.firmware.activeBank = 1 then 2 else 1

/-- `PATCH_LOAD`: a piece into the bank that is not active (R484); FAILED, with nothing written, while a bank is being
activated (R488). The piece at offset 0 begins the bank's bundle afresh, in words written anew (R439). -/
def cmdPatchLoad : Cmd := fun _ f s =>
  let offset := arg f 0 4
  let n := arg f 4 2
  if !argsClear f [(0, 6), (8, n)] || !within 1 4072 n || decide (1048576 < offset + n) then badParam s
  else if s.firmware.activating then answer .failed s
  else
    let piece := bytesAt f.args 8 n
    answer .ok (modFirmware (fun x =>
      if idleBank s = 1 then { x with bankA := memWrite x.bankA offset piece, bankBadA := x.bankBadA && decide (offset ≠ 0) }
      else { x with bankB := memWrite x.bankB offset piece, bankBadB := x.bankBadB && decide (offset ≠ 0) }) s)

/-- `PATCH_ACTIVATE`: the loaded bundle checked, or a return to ROM; doorbells are held until the switch (R459, R460). -/
def cmdPatchActivate : Cmd := fun m f s =>
  let rom := decide (arg f 0 1 = 0)
  if !argsClear f [(0, 1)] || !within 0 1 (arg f 0 1) then badParam s
  else
    match (if rom then none else bundleFails s (idleBank s)) with
    | some n => answer .denied (raise 0x9015 14 0 [itReason n] s)
    | none => accept m 0x0901 (.patchActivate rom) (fun _ s => modFirmware (fun x => { x with activating := true }) s) s

/-- The switch of R460: a patch is on probation from here on (R461). A command that still waits at a quiesce point keeps
its mailbox in the request phase, and the activation cannot proceed. -/
def endActivate (rom : Bool) (t : Task) (s : State) : State :=
  let s := modFirmware (fun x => { x with activating := false }) s
  if s.partitions.any fun x => x.pendingChanges.any fun e => e.2.isSome then
    endTask t .failed 0 s
  else if rom then
    endTask t .ok 0 (modFirmware (fun x => { x with
      previousBank := x.activeBank, activeBank := 0, patchVersion := 0, probation := none }) s)
  else
    let n := idleBank s
    let v := bundleVersion (patchBank s n)
    endTask t .ok 0 (raise 0x9013 14 0 [itCount v] (modFirmware (fun x => { x with
      previousBank := x.activeBank, activeBank := n, patchVersion := v, probation := some (s.hubTimer, 0) }) s))

/-- 600 s of probation completed (R461). -/
def patchProbation (s : State) : State :=
  match s.firmware.probation with
  | some (since, _) =>
    modFirmware (fun x => { x with
      probation := none, minPatchVersion := max x.minPatchVersion x.patchVersion }) (passTo (since + 600 * secondNs) s)
  | none => s

def execPatchProbation (s : State) : Out := .next (patchProbation s)

/-- A core reset during probation; the second returns to the previous bank or to ROM (R461). -/
def countProbation (s : State) : State :=
  match s.firmware.probation with
  | some (since, n) =>
    if n = 0 then modFirmware (fun x => { x with probation := some (since, 1) }) s
    else
      let back := s.firmware.previousBank
      let v := if back = 0 then 0 else bundleVersion (patchBank s back)
      raise 0x9014 14 0 [itCount s.firmware.patchVersion] (modFirmware (fun x => { x with
        activeBank := back, previousBank := 0, patchVersion := v, probation := none }) s)
  | none => s

/-- `FEATURE_ENABLE`: on stepping B no feature is supported (R484). -/
def cmdFeatureEnable : Cmd := fun _ _ s => badParam s

/-! ### Export of the configuration store (R436, R485) -/

/-- The content of the store without binding keys, seeds and key material: partitions, granule map, tables, bound
identities, features, the parameters of R438. -/
def storeContent (s : State) : List Byte :=
  (s.partitions.toList.flatMap storePartition) ++
    ((List.range 1024).flatMap fun g => natToBytes 2 (granuleEntry s g).toNat) ++
    (s.tables.toList.flatMap storeTable) ++
    (s.partitions.toList.flatMap fun x => natToBytes 8 (match x.binding with | some b => b.identity.toNat | none => 0)) ++
    natToBytes 8 s.firmware.features.toNat ++ natToBytes 4 s.params.migrationReserveMib ++
    natToBytes 4 s.params.sealReserve ++ natToBytes 1 s.params.controlMask.toNat ++
    natToBytes 2 s.firmware.persisted.length ++
    s.firmware.persisted.flatMap fun e => natToBytes 2 e.1 ++ natToBytes 2 e.2.1 ++ natToBytes 8 e.2.2

/-- The slot of an export or import: loaded with kind GCM. -/
def gcmSlot (s : State) (k : Nat) : Option (List Nat) :=
  let x := s.keys[(Fin.ofNat 64 k : Fin 64)]
  if k < 64 ∧ x.kind = .gcm then some (numBytes x.key.toNat 0 32) else none

/-- The exported record: the store and its CMAC. -/
def exportRecord (key : List Nat) (s : State) : List Byte :=
  let body := Config.recordForm (storeContent s)
  body ++ (cmac key (body.map (·.toNat))).map (BitVec.ofNat 8)

/-- `CONFIG_EXPORT`: offset 0 takes the snapshot that later offsets read for 60 s. -/
def cmdConfigExport : Cmd := fun _ f s =>
  let offset := arg f 4 4
  if !argsClear f [(0, 1), (4, 4)] then badParam s
  else
    match gcmSlot s (arg f 0 1) with
    | none => badParam s
    | some key =>
      let s := if offset = 0 then modFirmware (fun x => { x with snapshot := some (exportRecord key s, s.hubTimer) }) s else s
      match s.firmware.snapshot with
      | some (bs, since) =>
        if since + 60 * secondNs < s.hubTimer then answer .failed s
        else if bs.length ≤ offset then badParam s
        else
          let chunk := (bs.drop offset).take 4064
          answerData (natToBytes 4 bs.length ++ natToBytes 4 offset ++ natToBytes 2 chunk.length ++ natToBytes 6 0 ++
            chunk) s
      | none => answer .failed s

/-- The snapshot lapses 60 s after it was taken. -/
def snapshotExpiry (s : State) : State :=
  match s.firmware.snapshot with
  | some (_, since) => modFirmware (fun x => { x with snapshot := none }) (passTo (since + 60 * secondNs) s)
  | none => s

def execConfigSnapshotExpiry (s : State) : Out := .next (snapshotExpiry s)

/-! ### Import -/

/-- A partition of a record, with an empty binding. -/
def readPartition (bs : List Byte) : Partition :=
  let n := natAt bs 0 24
  if bitAt n 0 then
    { valid := true, chip := bitAt n 1, ptype := ptypeOf (bitsOf n 15 8), mode := modeOf (bitsOf n 23 16)
      quarter := Fin.ofNat 4 (bitsOf n 31 24), owner := BitVec.ofNat 4 (bitsOf n 39 32), keySlot := bitsOf n 47 40
      base := bitsOf n 63 48, granules := bitsOf n 79 64, metaGranules := bitsOf n 95 80, quota := bitsOf n 127 96
      rights := BitVec.ofNat 32 (bitsOf n 159 128)
      counter := { regionBase := bitsOf n 175 160, regionGranules := bitsOf n 191 176 } }
  else {}

/-- A table of a record; an exact table draws fresh seeds (R193). -/
def readTable (draw : Nat) (bs : List Byte) : Table :=
  let n := natAt bs 0 32
  if bitAt n 0 then
    { valid := true, prefixKind := bitAt n 1, partition := Fin.ofNat 64 (bitsOf n 15 8), keyLen := bitsOf n 23 16
      bucketLog2 := bitsOf n 31 24, home := Fin.ofNat 4 (bitsOf n 39 32), dirBits := bitsOf n 47 40
      baseBlock := bitsOf n 95 64, regionBlocks := bitsOf n 127 96, dirBase := bitsOf n 159 128
      seed1 := if bitAt n 1 then 0 else Config.freeSeed draw
      seed2 := if bitAt n 1 then 0 else Config.freeSeed (draw + 1) }
  else {}

/-- The parameters that a record keeps for start-up. -/
def readPersisted (bs : List Byte) (n : Nat) : List (Nat × Nat × Nat) :=
  (List.range n).map fun i => (natAt bs (12 * i) 2, natAt bs (12 * i + 2) 2, natAt bs (12 * i + 4) 8)

/-- The granules that the partitions of a record take, on slabs that are free here; none where they do not fit. -/
def placeGranules (ps : List Partition) (s : State) : Option State :=
  ps.foldl (fun o x => o.bind fun s =>
    if x.valid then allocGranules x.chip x.quarter ((List.range (x.granules + x.metaGranules)).map (x.base + ·)) s
    else some s) (some s)

/-- A record's content put in force whole; none where this stack cannot hold it. -/
def applyStore (bs : List Byte) (s : State) : Option State :=
  let ps := (List.range 64).map fun i => readPartition (bytesAt bs (24 * i) 24)
  let ts := (List.range 16).map fun i => readTable (s.drawn + 2 * i) (bytesAt bs (3584 + 32 * i) 32)
  let tail := 3584 + 512 + 512
  let s := modParams (fun p => { p with
    migrationReserveMib := natAt bs (tail + 8) 4, sealReserve := natAt bs (tail + 12) 4
    controlMask := BitVec.ofNat 6 (natAt bs (tail + 16) 1) })
    (modFirmware (fun x => { x with
      features := BitVec.ofNat 64 (natAt bs tail 8)
      persisted := readPersisted (bs.drop (tail + 19)) (natAt bs (tail + 17) 2) }) s)
  (placeGranules ps s).map fun s => { s with
    partitions := Vector.ofFn fun (i : Fin 64) => ps.getD i {}
    tables := Vector.ofFn fun (i : Fin 16) => ts.getD i {}
    drawn := s.drawn + 32 }

/-- The gathered record: its content where its CMAC holds. -/
def importContent (key : List Nat) (bs : List Byte) : Option (List Byte) :=
  let n := bs.length - 16
  if 16 ≤ bs.length ∧ (bs.drop n).map (·.toNat) = cmac key ((bs.take n).map (·.toNat)) then some (bs.take n) else none

/-- What the last chunk finds: 1 for a CMAC that fails, 2 for a record that this stack cannot hold, or the content. -/
def importResult (key : List Nat) (bs : List Byte) (s : State) : Except Nat (List Byte) :=
  match importContent key bs with
  | none => .error 1
  | some body =>
    let content := Config.recordForm.symm body
    if (applyStore content s).isSome then .ok content else .error 2

/-- `CONFIG_IMPORT`: chunks contiguous from offset 0, checked at the last one (R485). -/
def cmdConfigImport : Cmd := fun m f s =>
  let last := decide (arg f 1 1 = 1)
  let n := arg f 2 2
  let offset := arg f 4 4
  if !argsClear f [(0, 8), (8, n)] || !within 0 1 (arg f 1 1) || !within 1 4068 n || s.partitions.any (·.valid) then
    badParam s
  else
    match gcmSlot s (arg f 0 1) with
    | none => badParam s
    | some key =>
      let next := if offset = 0 then 0 else s.firmware.importNext
      let before := if offset = 0 then [] else s.firmware.importBuffer
      if offset ≠ next then answer .failed s
      else
        let buffer := memWrite before offset (bytesAt f.args 8 n)
        let s := modFirmware (fun x => { x with importNext := offset + n, importBuffer := buffer }) s
        if !last then answer .ok s
        else
          match importResult key (memBytes buffer 0 (offset + n)) s with
          | .error code => (some { status := .denied, data := [BitVec.ofNat 8 code] }, s)
          | .ok content =>
            accept m 0x0904 .configImport (fun _ s => modFirmware (fun x => { x with
              importBuffer := memWrite [] 0 content, importNext := content.length }) s) s

/-- The one commit of an import; FAILED where the stack no longer holds it. -/
def endImport (t : Task) (s : State) : State :=
  let bs := memBytes s.firmware.importBuffer 0 s.firmware.importNext
  let s := modFirmware (fun x => { x with importBuffer := [], importNext := 0 }) s
  if s.partitions.any (·.valid) then endTask t .failed 0 s
  else
    match (applyStore bs s).bind (commitStore s) with
    | some s' => endTask t .ok 0 s'
    | none => endTask t .failed 0 s

end Sys2Proof.Machine
end

