-- ==== Sys2Proof/Machine/Startup.lean ====
section
/-! DEFINITION. Cold start-up (R428 to R430): the fuse load, the SRAM test, the core's reading of MRAM (R437 to R439), the
repairs and trims of phase 4 (R371, R381, R389, R502), the fill (R315), and READY. -/

namespace Sys2Proof.Machine

open Sys2Proof

/-- A failed item of START_DEGRADED (R566). -/
def degradedItem (failure kind num : Nat) (s : State) : State :=
  modDevice (fun d => { d with
    degradedItems := d.degradedItems ++ [BitVec.ofNat 32 (failure * 2 ^ 24 + kind * 2 ^ 16 + num)] }) s

def enterPhase (dev : DevState) (s : State) : State := modDevice (fun d => { d with dev := dev }) s

/-! ### Phases 1 and 2 -/

/-- The cold start-up counted, and its fuses sensed on OCLK: once, whatever else becomes of the phase (R414, R428). -/
def senseFuses (s : State) : State :=
  if s.device.fusesSensed then s
  else
    let s := loadFuses (modDevice (fun d => { d with
      fusesSensed := true, epoch := (d.epoch + 1) % 2 ^ 32, coldStarts := sat32 d.coldStarts }) s)
    (fusesDegraded s).foldl (fun s i => degradedItem 5 0 i s) s

/-- The monitor's word on `REFCLK` in phase 1 (R415). -/
def monitorRefclk (present : Bool) (s : State) : State :=
  if !present then
    if s.device.refclk = 1 then s else raise 0x0016 0 0 [] (modDevice (fun d => { d with refclk := 1 }) s)
  else
    let t := modDevice (fun d => { d with refclk := 0 }) s
    if s.device.refclk = 1 then raise 0x0017 0 0 [] t else t

/-- Phase 1: the fuse load; then without `REFCLK` it waits, and with it the hub PLL and the management PLL lock, each in
the band that TS0 picks (R405, R428). -/
def phaseFuses (r : StartReport) (s : State) : State :=
  let s := monitorRefclk r.refclk (senseFuses s)
  if !r.refclk then s
  else if !r.hubPll then failStart 4 0 s
  else if !r.managementPll then failStart 5 0 s
  else enterPhase .sram (modDevice (fun d => { d with hubBand := lockBand s, managementBand := lockBand s }) s)

/-- Kennel ways whose SRAM failed disabled: a failed item for each of their slices (R293, R429). -/
def loseWays (ws : List (Fin 8 × Fin 4096 × Fin 16)) (s : State) : State :=
  let slices := (List.finRange 8).filter fun k => ws.any fun w => w.1 = k
  let ways := (ws.map fun w => (4096 * w.1.val + w.2.1.val, w.2.2.val)).foldl
    (fun l w => if l.contains w then l else l ++ [w]) s.waysDisabled
  let s := { s with waysDisabled := ways }
  slices.foldl (fun s k =>
    let i := blockInst (.kennel k)
    degradedItem 1 i.1 i.2 s) s

/-- Phase 2: blocks whose SRAM failed stay fenced, and single Kennel ways are disabled (R429, R524). -/
def phaseSram (r : StartReport) (s : State) : State :=
  if r.hubSramBad then failStart 1 0 s
  else
    let s := loseWays r.waysBad s
    enterPhase .core (r.sramBad.foldl (fun s b =>
      let i := blockInst b
      degradedItem (match b with | .kennel _ => 1 | _ => 0) i.1 i.2
        (modBlock b (fun x => { x with fenced := true, kept := true }) s)) s)

/-! ### Phase 3 -/

/-- A partition descriptor that neither copy holds: the partition and its tables are gone, its granules free (R437). -/
def losePartition (pd : Fin 64) (s : State) : State :=
  let x := s.partitions[pd]
  let s := (List.range (x.granules + x.metaGranules)).foldl (fun s i => setGranule (x.base + i) 0 s) s
  { s with
    partitions := s.partitions.set pd {}
    tables := s.tables.map fun t => if t.valid ∧ t.partition = pd then {} else t }

/-- CONFIG_LOST for each record lost. -/
def loseRecord (s : State) : ConfigRecord → State
  | .partition pd => raise 0x9016 15 pd [] (losePartition pd s)
  | .table td => raise 0x9016 16 td [] (modTable td (fun _ => {}) s)
  | .binding pd => raise 0x9016 0 0 [] (modPartition pd (fun x => { x with binding := none }) s)
  | .feature => raise 0x9016 0 0 [] (modFirmware (fun f => { f with features := 0 }) s)
  | .parameters =>
    let d := State.reset.params
    let s := modParams (fun p => { p with
      migrationReserveMib := d.migrationReserveMib, sealReserve := d.sealReserve, controlMask := d.controlMask })
      (modFirmware (fun f => { f with persisted := [] }) s)
    raise 0x9016 0 0 [] ((List.finRange 64).foldl (fun s (pd : Fin 64) =>
      modCounter pd (fun x => { x with regionBase := 0, regionGranules := 0 }) s) s)

/-- The records that neither copy holds intact: those whose CRC fails in both (R437). -/
def lostRecords (r : StartReport) : List ConfigRecord := r.configBadA.filter r.configBadB.contains

/-- The repair log read from a copy whose CRC passes, and REPAIR_LOG_LOST where none does (R371). -/
def readRepairLog (r : StartReport) (s : State) : State :=
  match r.repairBadA, r.repairBadB with
  | false, false => s
  | false, true => { s with repairLogB := s.repairLog }
  | true, false => { s with repairLog := s.repairLogB }
  | true, true => raise 0x801A 14 0 [] { s with repairLog := [], repairLogB := [] }

/-- Records of the log ring whose word is uncorrectable become invalid records with code 0 (R439). -/
def loseLogRecords (counts : List Nat) (s : State) : State :=
  let lose (n i : Nat) (e : EventRec) : EventRec := if counts.contains (n - 1 - i) then { e with code := 0 } else e
  modLog (fun l => { l with records := l.records.mapIdx (lose l.count) }) s

/-- A persistent counter at its safe value, with MRAM_ERROR (R439). With log_count at zero the ring is filled anew from its
first record. -/
def safeCounter (s : State) (c : MramCounter) : State :=
  let t := match c with
    | .salt p => { s with salts := s.salts.set p (s.salts[p] + 65536) }
    | .bond i => modBond i (fun b => { b with eq := 20000 * 1000000, storedEq := 20000 * 1000000 }) s
    | .minPatchVersion => modFirmware (fun f => { f with minPatchVersion := 4294967295 }) s
    | .rekeyPointer pd =>
      modSeal pd (fun x => { x with rekey := x.rekey.map fun k => { k with pointer := 0 } }) s
    | .coldStartCount => modDevice (fun d => { d with coldStarts := 0 }) s
    | .warmResetCount => modDevice (fun d => { d with warmResets := 0 }) s
    | .tripCount => modThermal (fun x => { x with tripCount := 0 }) s
    | .railFaultCount => modDevice (fun d => { d with railFaults := 0 }) s
    | .coreResetCount => modFirmware (fun f => { f with coreResets := 0 }) s
    | .epoch => modDevice (fun d => { d with epoch := 0 }) s
    | .logCount => modLog (fun l => { l with records := [], count := 0, ackIndex := 0 }) s
    | .ackIndex => modLog (fun l => { l with ackIndex := 0 }) s
    | .activeBank => modFirmware (fun f => { f with activeBank := 0 }) s
  raise 0x9017 14 0 [itOpenReason 0x9017 (match c with
    | .salt _ => 0 | .bond _ => 1 | .minPatchVersion => 2 | .rekeyPointer _ => 3 | _ => 4)] t

/-- The patch that runs from here on: the active bank where it is fit, else the other where it is, else ROM (R429,
R459). -/
def choosePatch (s : State) : State :=
  let a := s.firmware.activeBank
  let use (n : Nat) (s : State) : State := modFirmware (fun f => { f with
    activeBank := n, previousBank := 0, patchVersion := if n = 0 then 0 else bundleVersion (patchBank s n)
    probation := none }) s
  if !patchingAllowed s || decide (a = 0) then use 0 s
  else if bankRuns s a then use a s
  else
    let s := degradedItem 4 14 0 (raise 0x9015 14 0 [itReason ((bundleFails s a).getD 3)] s)
    let other := if a = 1 then 2 else 1
    if patchBank s other ≠ [] ∧ bankRuns s other then use other s else use 0 s

/-- The parameters that `PARAM_PERSIST` named, in force again (R438). -/
def applyPersisted (s : State) : State := s.firmware.persisted.foldl paramWrite s

/-- What phase 3 finds in MRAM: records, counters, the log ring, the patch banks and the repair log (R371, R437, R439). -/
def readMram (r : StartReport) (s : State) : State :=
  let s := modFirmware (fun f => { f with
    bankBadA := f.bankBadA || r.bankBadA, bankBadB := f.bankBadB || r.bankBadB, stuck := r.stuck }) s
  readRepairLog r (r.mramErrors.foldl safeCounter ((lostRecords r).foldl loseRecord (loseLogRecords r.logBad s)))

/-- Phase 3: the ROM and lockstep checks, MRAM, the patch, the kept parameters. -/
def phaseCore (r : StartReport) (s : State) : State :=
  let s := modFirmware (fun f => { f with romGood := r.romOk }) s
  if !r.romOk then failStart 2 0 s
  else if !r.lockstepOk then failStart 3 0 s
  else
    enterPhase .dramInit (applyPersisted (choosePatch (readMram r s)))

/-! ### Phase 4 -/

/-- A row repaired onto the lowest free spare of its bank, as start-up rebuilds the latches (R381). -/
def latchRow (c : Fin 32) (b : Fin 16) (row : Nat) (s : State) : State :=
  let k := s.channels[c].banks[b]
  if k.sparesUsed < 64 then
    modBank c b (fun y => { y with remap := sparsePut 64 y.remap row y.sparesUsed, sparesUsed := y.sparesUsed + 1 }) s
  else s

/-- The entries of the REPAIR blocks that serve a channel, its own block first (R502). -/
def channelEntries (s : State) (c : Fin 32) : List (Nat × Nat) :=
  let blocks := s.fuses.selected.getD 2 []
  let block (b : Nat) : Option Nat := blocks.getD b none
  (match block c.val with | some d => repairEntries d | none => []) ++
    ((List.range 4).map (32 + ·)).flatMap fun b =>
      match block b with
      | some d => if d % 256 = c.val then repairEntries d else []
      | none => []

/-- The path of a number. -/
def pathOf (n : Nat) : Path := if n = 0 then .column else if n = 1 then .skein else .command

/-- One fuse entry: a position failed, or a row repaired. -/
def applyEntry (c : Fin 32) (s : State) (e : Nat × Nat) : State :=
  if e.1 = 1 then
    let path := pathOf (bitsOf e.2 21 20)
    modVertical c (fun v => setFailed path (insertUnique (bitsOf e.2 19 5) (failedOn path v)) v) s
  else if e.1 = 2 then latchRow c (Fin.ofNat 16 (bitsOf e.2 21 18)) (bitsOf e.2 17 1) s
  else s

/-- A log entry replayed; one that repeats a fuse entry is skipped (R371, R375, R502). -/
def replayEntry (s : State) : Repair → State
  | .shift c path pos =>
    modVertical (Fin.ofNat 32 c) (fun v => setFailed path (insertUnique pos (failedOn path v)) v) s
  | .erasure c path wire =>
    modVertical (Fin.ofNat 32 c) (fun v =>
      if path = .column then { v with colErased := insertUnique wire v.colErased }
      else { v with skErased := insertUnique wire v.skErased }) s
  | .retired _ => s
  | .reloc c sl tc ts =>
    modChannel (Fin.ofNat 32 c) (fun x => { x with reloc := sparsePut (0, 0) x.reloc sl (tc, ts) }) s
  | .freed c sl => modChannel (Fin.ofNat 32 c) (fun x => { x with reloc := sparsePut (0, 0) x.reloc sl (0, 0) }) s
  | .row c b row _ =>
    if (channelEntries s (Fin.ofNat 32 c)).any fun e =>
        decide (e.1 = 2) && decide (bitsOf e.2 21 18 = b) && decide (bitsOf e.2 17 1 = row) then s
    else latchRow (Fin.ofNat 32 c) (Fin.ofNat 16 b) row s

/-- Relocation entries of slabs that no granule holds dropped: their partition's record was lost. -/
def dropOrphanRelocs (s : State) : State :=
  (List.finRange 32).foldl (fun s (c : Fin 32) =>
    modChannel c (fun x => { x with reloc := x.reloc.filter fun e => (slabOwner s c e.1).isSome }) s) s

/-- The repair log holds the channel's retirement. -/
def retiredInLog (s : State) (c : Fin 32) : Bool := s.repairLog.any fun e => decide (e = .retired c.val)

/-- Channels that the repair log holds as retired, or with two marks (R374, R389). -/
def loggedRetired (s : State) (c : Fin 32) : Bool :=
  retiredInLog s c || decide (2 ≤ erasureMarks s.channels[c].vertical)

/-- A channel out of service for this start-up. -/
def markRetired (c : Fin 32) (s : State) : State :=
  modChannel c (fun x => { x with state := .retired, retire := .retired, poisonFill := false }) s

/-- The slabs of a retired channel switched at once to reserve slabs; what finds none is served by nothing (R377,
R389). -/
def switchSlabs (c : Fin 32) (s : State) : State :=
  let slabs := mappedSlabs s c
  let r := placeSlabs (slabs.map fun sl => (c, sl, slabChip s c sl)) s
  let s := r.1.foldl (fun s t =>
    match relocSource s c t.2.1 with
    | some (k, l) => setReloc k l t.2.2.1 t.2.2.2 s
    | none => setReloc c t.2.1 t.2.2.1 t.2.2.2 s) r.2
  let left := slabs.filter fun sl => !r.1.any fun t => t.2.1 = sl
  let s := modChannel c (fun x => { x with unserved := left }) s
  if left = [] then s else raise 0x8014 0 0 [itChannel c, itCount left.length] s

/-- Channels retired by this start-up: their slabs, the failed item and CHANNEL_RETIRED. `log` appends a retirement that
the log did not hold. -/
def retireCold (cs : List (Fin 32)) (log : Bool) (s : State) : State :=
  let s := cs.foldl (fun s c => markRetired c (if log then logRepair (.retired c) s else s)) s
  cs.foldl (fun s c =>
    let s := degradedItem 2 3 c.val (switchSlabs c s)
    if s.channels[c].unserved = [] then raise 0x8013 3 c [] s else s) s

/-- A retirement that an earlier run decided and did not finish, brought to its end: a channel with two marks whose turn
had not come, or one whose copy the cold reset cut. Its slabs switch at once, and CHANNEL_RETIRED follows once each has
its reserve slab (R376, R377, R389). -/
def finishRetirement (s : State) (c : Fin 32) : State :=
  let open_ := !retiredInLog s c || !(mappedSlabs s c).isEmpty
  let s := switchSlabs c (if retiredInLog s c then s else logRepair (.retired c) s)
  if open_ && s.channels[c].unserved.isEmpty then raise 0x8013 3 c [] s else s

/-- The first trim of a channel, over all taps, and its dead wires repaired; a shift repair owes the trim that follows it
(R367, R368, R526). -/
def firstTrim (s : State) (e : Fin 32 × TrimProbe) : State :=
  if s.channels[e.1].state = .retired then s
  else
    let before := positionsFailed s.channels[e.1].vertical
    let s := setTaps true e.1 e.2 (noteTrim e.1 s)
    let s := e.2.dead.foldl (fun s w => if w.2 < pathWires w.1 then (repairWire e.1 w.1 w.2 s).2 else s) s
    modChannel e.1 (fun x => { x with
      trimDue := decide (before < positionsFailed s.channels[e.1].vertical) }) s

/-- A quarter whose PLL failed to lock, held isolated (R429). -/
def holdQuarter (q : Fin 4) (s : State) : State :=
  degradedItem 3 5 q.val (raiseAs 0x001B 2 2 5 q [itReason 4, itEvent 0]
    (modQuarter q (fun x => { x with state := .heldIsolated, pllLocked := false, cause := 4, trigger := 0 }) s))

/-- Phase 4: PLLs, repairs, trims, retirements. -/
def phaseDram (r : StartReport) (s : State) : State :=
  let s := (List.finRange 4).foldl (fun s (q : Fin 4) =>
    if r.quarterPll.getLsbD q then modQuarter q (fun x => { x with pllBand := lockBand s }) s else holdQuarter q s) s
  let s := (List.finRange 32).foldl (fun s (c : Fin 32) => (channelEntries s c).foldl (applyEntry c) s) s
  let s := dropOrphanRelocs (s.repairLog.foldl replayEntry s)
  let old := (List.finRange 32).filter (loggedRetired s)
  let s := old.foldl (fun s c => markRetired c s) s
  let s := old.foldl finishRetirement s
  let s := retireCold ((List.finRange 32).filter fun c =>
    s.fuses.repairOut.contains c.val && decide (s.channels[c].state ≠ .retired)) false s
  let s := retireCold ((List.finRange 32).filter fun c =>
    (r.channelsBad.contains c || r.trims.any fun e => decide (e.1 = c) && e.2.below90) &&
      decide (s.channels[c].state ≠ .retired)) true s
  enterPhase .fill (r.trims.foldl firstTrim s)

/-! ### Phases 5 to 7 -/

/-- Every row of every channel in service zero, spare rows included (R315). -/
def fillDram (s : State) : State :=
  let size := 16 * bankRows * 32 * 72
  { s with dram := s.dram.filter fun e =>
      let c : Fin 32 := Fin.ofNat 32 (e.1 / size)
      decide (s.channels[c].state = .retired) || quarterOut s (Fin.ofNat 4 (c.val / 8)) || blockStopped s (.channel c) }

/-- An interrupted rekey ended by the fill (R361). -/
def endRekeys (s : State) : State :=
  (List.finRange 64).foldl (fun s (pd : Fin 64) =>
    if s.partitions[pd].valid ∧ s.partitions[pd].sealing.rekey.isSome then
      raise 0x7015 15 pd [] (noteCommit [.partition pd] (modSeal pd (fun x => { x with rekey := none }) s))
    else s) s

/-- A channel that serves from here on, after the trim that its start-up still owes it. -/
def serveFirst (s : State) (c : Fin 32) : State :=
  if s.channels[c].trimDue && decide (s.channels[c].state = .active) then holdTrim c s else s

/-- READY: START_READY, or START_DEGRADED with the failed items; every enabled port enters DETECT (R428). -/
def reachReady (s : State) : State :=
  let items := s.device.degradedItems
  let s := modDevice (fun d => { d with
    dev := if items = [] then .ready else .degraded, startup := (s.hubTimer - d.startedAt) / 10000 }) s
  let s := if items = [] then raise 0x0010 0 0 [itCount s.device.startup] s
    else raise 0x0011 0 0 (itCount items.length :: items.map fun w => itCount w.toNat) s
  let s := { s with channels := s.channels.map fun c => { c with passStart := s.hubTimer, idleSince := s.hubTimer } }
  let s := (List.finRange 32).foldl serveFirst s
  let s := (List.finRange 4).foldl (fun s (p : Fin 4) =>
    if s.ports[p].phy.enable ∧ !quarterOut s p ∧ !blockStopped s (.port p) then toDetect p s else s) s
  recomputeLedger s s

/-- Phase 5: the fill; a channel that fenced during it is retired as in phase 4. -/
def phaseFill (r : StartReport) (s : State) : State :=
  let s := retireCold (r.channelsBad.filter fun c => decide (s.channels[c].state ≠ .retired)) true s
  reachReady (endRekeys (fillDram { s with refills := [] }))

/-- STARTUP_PHASE: the current phase ends as reported. -/
def startupPhase (r : StartReport) (s : State) : State :=
  if s.device.rstLow || s.thermal.tripped then s
  else
    let run (f : StartReport → State → State) : State :=
      let s := passTo (s.hubTimer + r.elapsedNs) s
      if !r.hubPll then failStart 4 0 s else if !r.managementPll then failStart 5 0 s else f r s
    match s.device.dev with
    | .fuseLoad => phaseFuses r (passTo (s.hubTimer + r.elapsedNs) s)
    | .sram => run phaseSram
    | .core => run phaseCore
    | .dramInit => run phaseDram
    | .fill => run phaseFill
    | _ => s

def execStartupPhase (r : StartReport) (s : State) : Out := .next (startupPhase r s)

/-- `REFCLK` absent for 1 s in phase 1, or at the PLL lock of a warm restart (R428, R431). -/
def refclkTimeout (s : State) : State :=
  if s.device.refclk ≠ 1 ∨ s.device.rstLow ∨ s.thermal.tripped then s
  else if s.device.dev = .fuseLoad then failStart 0 0 (passTo (s.device.startedAt + secondNs) s)
  else if s.device.warm ∧ !s.device.wrstLow then failStart 7 0 (passTo (s.device.startedAt + secondNs) s)
  else s

def execRefclkWaitTimeout (s : State) : Out := .next (refclkTimeout s)

end Sys2Proof.Machine
end

