-- ==== Sys2Proof/Machine/Service.lean ====
section
/-! DEFINITION. The commands on channels, sensors and resets (R479, R480, with R376, R377, R395, R422, R423). -/

namespace Sys2Proof.Machine

open Sys2Proof

/-! ### Channels -/

/-- The channel that byte 0 names. -/
def chanArg (f : Frame) : Fin 32 := Fin.ofNat 32 (arg f 0 1)

def chanRetired (s : State) (c : Fin 32) : Bool := decide (s.channels[c].state = .retired)

/-- `VTRIM`. -/
def cmdVtrim : Cmd := fun m f s =>
  let c := chanArg f
  if !argsClear f [(0, 1)] || !within 0 31 (arg f 0 1) || chanRetired s c then badParam s
  else acceptOrQueue m 0x0600 (.vtrim c) (fun _ s => s) s

/-- The end of a trim: OK where it found its taps, FAILED where it did not; the trims that merged into it end with it
(R368, R533). One that has to wait goes on. -/
def endVtrim (c : Fin 32) (probe : TrimProbe) (t : Task) (s : State) : State :=
  if trimWaits s c then s
  else if trimServes s c then
    let s := applyTrim c probe s
    endTasks (fun x => decide (x.work = .vtrim c))
      (if s.channels[c].vertical.trimFails = 0 ∧ s.channels[c].state ≠ .retired then .ok else .failed) s
  else endTask t .failed 0 s

/-- `WIRE_REPAIR`: BAD_PARAM for a wire beyond its path. -/
def cmdWireRepair : Cmd := fun m f s =>
  let c := chanArg f
  let path := pathOf (arg f 1 1)
  let wire := arg f 2 2
  if !argsClear f [(0, 4)] || !within 0 31 (arg f 0 1) || !within 0 2 (arg f 1 1) || decide (pathWires path ≤ wire) ||
      chanRetired s c then badParam s
  else acceptOrQueue m 0x0601 (.wireRepair c path wire) (fun _ s => s) s

/-- The end of a wire repair: OK, with the outcome as its result, and the trim that completes it (R370, R480). -/
def endWireRepair (c : Fin 32) (path : Path) (wire : Nat) (probe : TrimProbe) (t : Task) (s : State) : State :=
  if trimWaits s c then s
  else if trimServes s c then
    let r := repairWire c path wire s
    mergeTrims c (endTask t .ok (BitVec.ofNat 64 r.1) (applyTrim c probe r.2))
  else endTask t .failed 0 s

/-- `ROW_REPAIR`: BAD_PARAM on a retired channel, and on the source of a migration (R389, R533). -/
def cmdRowRepair : Cmd := fun m f s =>
  let c := chanArg f
  let row := arg f 4 4
  if !argsClear f [(0, 2), (4, 4)] || !within 0 31 (arg f 0 1) || !within 0 15 (arg f 1 1) || !within 0 65599 row ||
      chanRetired s c || decide (s.channels[c].retire = .migrating) then badParam s
  else acceptOrQueue m 0x0602 (.rowRepair c (Fin.ofNat 16 (arg f 1 1)) row) (fun _ s => s) s

/-- The end of a row repair: FAILED when the bank has no free spare row (R380). -/
def endRowRepair (c : Fin 32) (b : Fin 16) (row : Nat) (t : Task) (s : State) : State :=
  if channelIssues s c then
    let r := repairRow c b row (passTo (s.hubTimer + 250) (refreshDown c s))
    endTask t (if r.1 then .ok else .failed) 0 r.2
  else endTask t .failed 0 s

/-- The retirement of a channel that waits or runs. -/
def retirement (s : State) (c : Fin 32) : Option Task :=
  s.tasks.find? fun t => decide (t.work = .retire c) && decide (t.state ≠ .done)

/-- Whether the reserve takes every mapped slab of a channel (R377). -/
def reserveTakes (s : State) (c : Fin 32) : Bool :=
  let slabs := mappedSlabs s c
  decide ((placeSlabs (slabs.map fun sl => (c, sl, slabChip s c sl)) s).1.length = slabs.length)

/-- A retirement under way joined: its ticket, given to one that the stack started. -/
def joinRetirement (m : Fin 6) (t : Task) (s : State) : Option Reply × State :=
  let ticket := if t.ticket = 0 then s.nextTicket else t.ticket
  let s := if t.ticket = 0 then
      modTask t (fun x => { x with ticket := ticket, opcode := 0x0603, mb := m })
        { s with nextTicket := ticketAfter s.nextTicket }
    else s
  if t.state = .queued then (some { status := .queued, ticket := ticket, position := queuePosition s ticket }, s)
  else (some { status := .accepted, ticket := ticket }, s)

/-- `CHANNEL_RETIRE`: BAD_PARAM on a retired channel, FAILED when R377 stops it, and a retirement under way is joined. -/
def cmdChannelRetire : Cmd := fun m f s =>
  let c := chanArg f
  if !argsClear f [(0, 1)] || !within 0 31 (arg f 0 1) || chanRetired s c then badParam s
  else
    match retirement s c with
    | some t => joinRetirement m t s
    | none =>
      let t := newTask s m 0x0603 .queued (.retire c)
      if mayStart s (queuedTasks s) t && !reserveTakes s c then
        let slabs := mappedSlabs s c
        let placed := (placeSlabs (slabs.map fun sl => (c, sl, slabChip s c sl)) s).1.length
        answer .failed (raise 0x8014 0 0 [itChannel c, itCount (slabs.length - placed)] s)
      else
        let r := acceptOrQueue m 0x0603 (.retire c) (fun t s => startRetire t c s) s
        (r.1, if (r.2.tasks.any fun x => decide (x.work = .retire c) && decide (x.state = .queued)) then
            modChannel c (fun x => { x with retire := .queued }) r.2
          else r.2)

/-- Whether a slab of a channel belongs to a granule. -/
def channelMapped (s : State) (c : Fin 32) : Bool :=
  (List.range 1024).any fun sl => (slabOwner s c sl).isSome || (relocSource s c sl).isSome

/-- A channel held: in self-refresh with its queue written, retired in the ledger (R480). -/
def holdChannel (c : Fin 32) (s : State) : State :=
  let t := if channelIssues s c then stopChannel c s else s
  recomputeLedger s (modChannel c (fun x => { x with
    heldByCommand := true, state := if x.state = .active ∨ x.state = .powerDown then .selfRefresh else x.state }) t)

/-- A held channel released: its free reserve slabs go to slabs that nothing serves (R377). -/
def releaseChannel (c : Fin 32) (s : State) : State :=
  serveUnserved (recomputeLedger s (leaveSelfRefresh c (modChannel c (fun x => { x with heldByCommand := false }) s)))

/-- `CHANNEL_HOLD`: only for a channel none of whose slabs belongs to a granule. -/
def cmdChannelHold : Cmd := fun _ f s =>
  let c := chanArg f
  let hold := decide (arg f 1 1 = 1)
  if !argsClear f [(0, 2)] || !within 0 31 (arg f 0 1) || !within 0 1 (arg f 1 1) || (hold && channelMapped s c) then
    badParam s
  else if hold then answer .ok (if s.channels[c].heldByCommand then s else holdChannel c s)
  else answer .ok (if s.channels[c].heldByCommand then releaseChannel c s else s)

/-! ### Sensors -/

/-- Samples of a sensor in one second (R392). -/
def samplesPerSecond : Nat := 4000

/-- `SENSOR_RESTORE`: FAILED unless the raw reading has been within 3 °C of its estimate for 1 s (R395). A sensor that is
not SUSPECT stays as it is. -/
def cmdSensorRestore : Cmd := fun _ f s =>
  let k : Fin 17 := Fin.ofNat 17 (arg f 0 1)
  let x := s.sensors[k]
  if !argsClear f [(0, 1)] || !within 0 16 (arg f 0 1) then badParam s
  else if !x.suspect then answer .ok s
  else if x.agreeing < samplesPerSecond then answer .failed s
  else
    let s := modSensor k (fun x => { x with suspect := false, deviating := 0, agreeing := 0 }) s
    answer .ok (refreshValues (modThermal (fun t => { t with blind := t.blind && decide (5 ≤ suspectCount s) }) s))

/-! ### Resets -/

/-- `DEVICE_RESET`: the warm reset; the mailbox stays busy until READY (R425, R480). -/
def cmdDeviceReset : Cmd := fun m f s =>
  if !argsClear f [] then badParam s
  else (none, startWarm 3 (some m) s)

/-- A quarter reset begun: isolation first where the quarter serves; one that is held isolated is reset in its turn
(R422, R423). -/
def beginQuarterReset (q : Fin 4) (s : State) : State :=
  let x := s.quarters[q]
  match x.state with
  | .inService => if x.isolating then s else isolateQuarter q 3 0 s
  | .heldIsolated => nextQuarterReset (modQuarter q (fun x => { x with state := .isolated }) s)
  | .isolated => nextQuarterReset s
  | .resetting => s

/-- `QUARTER_RESET`: FAILED while the stack is FATAL. -/
def cmdQuarterReset : Cmd := fun m f s =>
  let q : Fin 4 := Fin.ofNat 4 (arg f 0 1)
  if !argsClear f [(0, 1)] || !within 0 3 (arg f 0 1) then badParam s
  else if s.device.fatal then answer .failed s
  else accept m 0x0701 (.quarterReset q) (fun _ s => beginQuarterReset q s) s

/-- A quarter reset that did not bring its quarter back: held isolated again, FAILED (R429, R430). -/
def quarterResetFails (q : Fin 4) (t : Task) (s : State) : State :=
  let s := if s.quarters[q].state = .resetting then
      modQuarter q (fun x => { x with state := .heldIsolated }) s else s
  nextQuarterReset (endTask t .failed 0 s)

/-- The kinds of block that `BLOCK_RESET` and `BIST_RUN` name. -/
def blockArg (f : Frame) : Option BlockId :=
  if [1, 3, 6, 7, 8, 9, 10, 12].contains (arg f 0 1) then blockNamed (arg f 0 1) (arg f 2 2) else none

/-- `BLOCK_RESET`: the block is fenced first, then reset; FAILED while its quarter is out or the stack is FATAL, and one
that is being reset goes on as it is (R422, R431). -/
def cmdBlockReset : Cmd := fun _ f s =>
  match blockArg f with
  | none => badParam s
  | some b =>
    if !argsClear f [(0, 1), (2, 2)] then badParam s
    else if s.device.fatal || (match quarterOf b with | some q => quarterOut s q | none => false) then answer .failed s
    else if (blockAt s b).resetting then answer .ok s
    else
      let found := (List.range 34).filter fun p => (Config.freeAt s.drawn p).getLsbD 0
      answer .ok (startBlockReset b (echoTest b found (drawOne (fenceBlock b false false s))))

end Sys2Proof.Machine
end

