-- ==== Sys2Proof/Machine/Maint.lean ====
section
/-! DEFINITION. Maintenance and self-test: the commands of R481, logic and memory BIST (R518 to R525), the start of queued
activities (R534), and the ends of tasks (R445). -/

namespace Sys2Proof.Machine

open Sys2Proof

/-! ### Self-tests -/

/-- A slice's streams brought to their last packet, and its admitted packets linked (R519). -/
def drainBobbin (q : Fin 4) (s : State) : State :=
  s.queues.foldl (fun s e =>
    if homeSlice e.1 = q then
      let s := (List.range (queueAt s e.1).admissions.length).foldl (fun s _ => linkPacket e.1 s) s
      let s := modQueue e.1 (fun y => { y with
        streams := y.streams.map fun t => if t.running then { t with remaining := 1 } else t }) s
      handoverStep e.1 s
    else s) s

/-- What a block does before its run, without ending a request; a port, which no run finds attached, idles its lanes
(R518, R519). -/
def drainBlock (b : BlockId) (s : State) : State :=
  match b with
  | .channel c =>
    if channelIssues s c then
      stopChannel c s
    else s
  | .bobbin q => drainBobbin q s
  | .kennel k =>
    sealFlush (fun m => decide (metaSlice m.pd m.granule m.level m.index = k))
      (kennelFlush (fun x => decide (kennelSlice x.set = k)) s)
  | .port p => if portLive s p then dropPort p 9 s else s
  | _ => s

/-- A run begun: the block drains, then takes no work until the run ends (R519, R520). -/
def beginTestRun (b : BlockId) (s : State) : State :=
  let t := modBlock b (fun x => { x with testing := true }) (drainBlock b s)
  match b with
  | .kennel _ => recomputeLedger s t
  | _ => t

/-- A block that answers `BIST_RUN` (R518). -/
def bistAllowed (s : State) (b : BlockId) : Bool :=
  match b with
  | .port p => decide (s.ports[p].partnerState ≠ .attached) && decide (s.ports[p].phy.state ≠ .test)
  | .channel c => !chanRetired s c
  | _ => true

/-- The pattern count of a run: a power of two from 1,024 to 1,048,576, 0 for the default. -/
def bistPatterns (s : State) (n : Nat) : Option Nat :=
  if n = 0 then some s.params.bistPatterns
  else if (List.range 11).any fun i => decide (n = 2 ^ (10 + i)) then some n else none

/-- `BIST_RUN`. -/
def cmdBistRun : Cmd := fun m f s =>
  match blockArg f, bistPatterns s (arg f 4 4) with
  | some b, some n =>
    if !argsClear f [(0, 1), (2, 6)] || !bistAllowed s b then badParam s
    else acceptOrQueue m 0x0800 (.bist b n) (fun _ s => beginTestRun b s) s
  | _, _ => badParam s

/-- Whether the arrays of a block can be rebuilt after a memory test; none where the block kind has no such test
(R525). -/
def mbistAllowed (s : State) : BlockId → Option KStatus
  | .port p => if s.ports[p].partnerState ≠ .attached ∧ s.ports[p].phy.state ≠ .test then none else some .badParam
  | .channel c => if chanRetired s c ∨ s.channels[c].heldByCommand then none else some .badParam
  | .kennel _ => if s.keys.any fun k => decide (k.kind ≠ .empty) then some .locked else none
  | .crypto _ => if s.keys.any fun k => decide (k.kind ≠ .empty) then some .locked else none
  | .copy => none
  | _ => some .badParam

/-- `MBIST_RUN`. -/
def cmdMbistRun : Cmd := fun m f s =>
  match blockArg f with
  | none => badParam s
  | some b =>
    if !argsClear f [(0, 1), (2, 2)] then badParam s
    else
      match mbistAllowed s b with
      | some st => answer st s
      | none => acceptOrQueue m 0x0801 (.mbist b) (fun _ s => beginTestRun b s) s

/-- A block back after a run: a port in DETECT, a controller out of self-refresh and trimmed, which meets a trim queued
behind the run (R520, R523, R533). -/
def afterTest (b : BlockId) (s : State) : State :=
  let t := modBlock b (fun x => { x with testing := false }) s
  match b with
  | .port p => if t.ports[p].phy.enable ∧ !blockStopped t b then toDetect p t else t
  | .channel c =>
    let x := t.channels[c]
    let t :=
      if x.state = .selfRefresh ∧ !blockStopped t b ∧ !x.heldByCommand ∧ !quarterOut t (Fin.ofNat 4 (c.val / 8)) ∧
          !t.device.fatal then exitRefresh true c t else t
    endTasks (fun x => decide (x.work = .vtrim c) && decide (x.state = .queued)) .ok t
  | .kennel _ => recomputeLedger s t
  | _ => t

/-- A block left fenced by a run that it failed. -/
def failTest (b : BlockId) (s : State) : State :=
  modBlock b (fun x => { x with testing := false, fenced := true, kept := true }) s

/-- The end of a logic BIST (R522, R523). One that applied no pattern never started, and its result is 0. -/
def endBist (b : BlockId) (patterns : Nat) (m : Measure) (t : Task) (s : State) : State :=
  match m with
  | .bist complete applied signature late =>
    let i := blockInst b
    let valid := complete && decide (applied = patterns) && !late
    let result := if applied = 0 then 0 else signature
    if valid && decide (signature = Config.goldenSignature i.1 i.2 patterns) then
      endTask t .ok signature (raiseBlock 0xB010 b [itTicket t.ticket] (afterTest b s))
    else if valid then
      endTask t .failed signature (raiseBlock 0xB011 b
        [itTicket t.ticket, itCount (signature.toNat % 2 ^ 32), itCount (signature.toNat / 2 ^ 32)] (failTest b s))
    else
      endTask t .aborted result
        (raiseBlock 0xB012 b [itTicket t.ticket, itOpenReason 0xB012 (if late then 3 else 0)] (afterTest b s))
  | _ => endTask t .aborted 0 (raiseBlock 0xB012 b [itTicket t.ticket, itOpenReason 0xB012 0] (afterTest b s))

/-- What a memory test leaves in a block's arrays (R525). -/
def clearArrays (b : BlockId) (s : State) : State :=
  match b with
  | .channel c => modChannel c (fun x => { x with writeQueue := [], spots := [] }) s
  | .kennel k =>
    { s with
      kennel := s.kennel.filter fun x => decide (kennelSlice x.set ≠ k)
      sealCache := s.sealCache.filter fun m => decide (metaSlice m.pd m.granule m.level m.index ≠ k) }
  | _ => s

/-- Failing ways of a slice disabled; which they are the command does not tell (R293). -/
def disableWays (k : Fin 8) (n : Nat) (s : State) : State :=
  let d := s.drawn
  let way (i : Nat) : Nat × Nat :=
    (4096 * k.val + (Config.freeAt d (2 * i)).toNat % 4096, (Config.freeAt d (2 * i + 1)).toNat % 16)
  let ways := (List.range n).foldl (fun l i => if l.contains (way i) then l else l ++ [way i]) s.waysDisabled
  drawOne { s with waysDisabled := ways }

/-- The end of a memory BIST: `failing` words found, `repaired` of them onto redundancy (R525). -/
def endMbist (b : BlockId) (failing repaired : Nat) (t : Task) (s : State) : State :=
  let s := clearArrays b s
  let left := failing - repaired
  if left = 0 then
    let s := if failing = 0 then s else raiseBlock 0xB013 b [itCount failing] s
    endTask t .ok (BitVec.ofNat 64 failing) (afterTest b s)
  else
    let s := raiseBlock 0xB014 b [itCount left] s
    endTask t .failed (BitVec.ofNat 64 left) (match b with
      | .kennel k => afterTest b (disableWays k left s)
      | _ => failTest b s)

/-! ### Reports (R481, R531) -/

/-- `CAL_REPORT`. -/
def cmdCalReport : Cmd := fun _ f s =>
  let target := arg f 0 1
  let n := arg f 2 2
  if !argsClear f [(0, 1), (2, 2)] || !within 0 1 target || !within 0 (if target = 0 then 31 else 63) n then badParam s
  else if target = 0 then
    let v := s.channels[(Fin.ofNat 32 n : Fin 32)].vertical
    answerData (natToBytes 8 v.vtrimCount ++ natToBytes 8 v.vtrimLast ++ natToBytes 4 (v.vtrimEye % 65536) ++
      natToBytes 3 (v.cclkTap % 256 + v.skclkTap % 256 * 2 ^ 8 + v.rxTap % 256 * 2 ^ 16) ++ natToBytes 9 0) s
  else
    let l := s.ports[(Fin.ofNat 4 (n / 16) : Fin 4)].lanes[(Fin.ofNat 16 n : Fin 16)]
    answerData (natToBytes 8 l.ltuneCount ++ natToBytes 8 l.ltuneLast ++
      natToBytes 4 (l.ltuneEyeMui % 65536 + l.ltuneEyeMv % 65536 * 2 ^ 16) ++ natToBytes 12 0) s

/-- An entry of `MAINT_STATUS`. -/
def maintEntry (s : State) (t : Task) : List Byte :=
  let i := workInst t.work
  natToBytes 8 (t.ticket + (workClass s t.work).getD 0 * 2 ^ 16 + boolNat (decide (t.state = .running)) * 2 ^ 24 +
    i.1 * 2 ^ 32 + i.2 * 2 ^ 48)

/-- `MAINT_STATUS`: the activities that run or wait, in queue order, 32 at most. -/
def cmdMaintStatus : Cmd := fun _ f s =>
  let ts := (s.tasks.filter fun t => decide (t.state ≠ .done) && (workClass s t.work).isSome).take 32
  if !argsClear f [] then badParam s else answerData (natToBytes 8 ts.length ++ ts.flatMap (maintEntry s)) s

/-- A queued activity withdrawn: its partition or channel is as it was. -/
def withdraw (t : Task) (s : State) : State :=
  let s := match t.work with
    | .rekey pd => modSeal pd (fun x => { x with rekey := none }) s
    | .retire c => modChannel c (fun x => { x with retire := if x.retire = .queued then .inService else x.retire }) s
    | _ => s
  endTask t .aborted 0 s

/-- `MAINT_CANCEL`: BAD_PARAM for a running activity or an unknown ticket (R482). -/
def cmdMaintCancel : Cmd := fun _ f s =>
  let ticket := arg f 0 2
  match s.tasks.find? (fun t => decide (t.ticket = ticket) && decide (ticket ≠ 0) && decide (t.state = .queued)) with
  | some t => if !argsClear f [(0, 2)] then badParam s else answer .ok (withdraw t s)
  | none => badParam s

/-! ### MAINT_START -/

/-- A queued activity started. -/
def startWork (t : Task) (s : State) : State :=
  let run := modTask t (fun x => { x with state := .running, paused := false }) s
  match t.work with
  | .portTrain p => beginTrain p t run
  | .portTest p test => beginTest p test t run
  | .retire c => startRetire t c s
  | .resize pd n => beginResize pd n t s
  | .bist b _ => beginTestRun b run
  | .mbist b => beginTestRun b run
  | _ => run

/-- The first queued activity that conflicts with nothing running and nothing ahead of it (R534). -/
def nextWork (s : State) : Option Task :=
  (queuedTasks s).find? fun t => mayStart s ((queuedTasks s).takeWhile fun x => !isTask t x) t

/-- MAINT_START. The start of maintenance stops while the cores reboot (R435). -/
def maintStart (s : State) : State :=
  if s.firmware.rebooting || s.device.warm || s.device.fatal || !devReady s then s
  else
    match nextWork s with
    | some t => startWork t s
    | none => s

def execMaintStart (s : State) : Out := .next (maintStart s)

/-! ### COMMAND_DONE -/

/-- The trim probe that an end reports. -/
def probeOf : Measure → Option TrimProbe
  | .trim p => some p
  | _ => none

/-- The end of a running task. Retirements, moves, rekeys and the reset of the stack end by their own steps, and so does
a quarter reset that succeeds. -/
def endWork (t : Task) (m : Measure) (s : State) : State :=
  match t.work with
  | .portTrain p => endTrain p t s
  | .portTest p _ => stopTest p .ok s
  | .retune p lanes => endRetune p lanes (match m with | .retune es => es | _ => []) t s
  | .vtrim c =>
    (match probeOf m with
     | some probe => endVtrim c probe t s
     | none => endTask t .failed 0 s)
  | .wireRepair c path wire =>
    (match probeOf m with
     | some probe => endWireRepair c path wire probe t s
     | none => endTask t .failed 0 s)
  | .rowRepair c b row => endRowRepair c b row t s
  | .tableDelete td =>
    if s.tables[td].valid then s
    else if s.firmware.stuck.contains (.table td) then endTask t .failed 0 (keepCutTable t.work s)
    else endTask t .ok 0 (removeTable td s)
  | .bufferReset _ => endTask t .ok 0 s
  | .quarterReset q => quarterResetFails q t s
  | .bist b n => endBist b n m t s
  | .mbist b => (match m with
    | .mbist failing repaired => endMbist b failing repaired t s
    | _ => endTask t .aborted 0 (afterTest b s))
  | .patchActivate rom => endActivate rom t s
  | .configImport => endImport t s
  | .fuseBurn _ _ _ _ => endBurn t (match m with | .burn stop => stop | _ => none) s
  | .fuseLock _ _ _ => endBurn t (match m with | .burn stop => stop | _ => none) s
  | .fuseReburn field slot => endReburn field slot t (match m with | .burn stop => stop | _ => none) s
  | _ => s

/-- COMMAND_DONE of a ticket that runs; while the cores reboot every task waits (R435). -/
def commandDone (ticket : BitVec 16) (m : Measure) (s : State) : State :=
  if s.firmware.rebooting || s.device.warm then s
  else
    match s.tasks.find? (fun t => decide (t.ticket = ticket.toNat) && decide (t.ticket ≠ 0) && decide (t.state = .running)) with
    | some t => endWork t m s
    | none => s

end Sys2Proof.Machine
end

