-- ==== Sys2Proof/Machine/Queries.lean ====
section
/-! DEFINITION. Identity, status, log and parameter commands (R471, R472), and the memory and window commands (R486,
R487). -/

namespace Sys2Proof.Machine

open Sys2Proof

/-! ### Identity and status (R471) -/

/-- The IDENT fields of R499 past those of HELLO_ACK. -/
def identJtag (s : State) : Nat := bitsOf s.fuses.ident.toNat 26 16

def identMipi (s : State) : Nat := bitsOf s.fuses.ident.toNat 46 32

def identPart (s : State) : Nat := bitsOf s.fuses.ident.toNat 63 48

/-- The 64 B of `IDENTIFY`. The supported feature mask is zero on stepping B (R462). -/
def identityData (s : State) : List Byte :=
  natToBytes 1 (identOrder s) ++ natToBytes 1 (identStepping s) ++ natToBytes 2 Config.romRevision ++
    natToBytes 4 s.firmware.patchVersion ++ natToBytes 8 (identSerial s) ++ natToBytes 2 (identMipi s) ++
    natToBytes 2 (identPart s) ++ natToBytes 8 0 ++ natToBytes 8 s.firmware.features.toNat ++
    natToBytes 1 s.firmware.activeBank ++ natToBytes 1 (s.fuses.policy.toNat % 16) ++ natToBytes 26 0

/-- `IDENTIFY`. -/
def cmdIdentify : Cmd := fun _ f s => if !argsClear f [] then badParam s else answerData (identityData s) s

/-- `DEVICE_STATUS`: bytes 0x0000 to 0x00FF of the window. -/
def cmdDeviceStatus : Cmd := fun _ f s => if !argsClear f [] then badParam s else answerData (windowBytes s 0 4) s

/-- `SENSOR_READ`: bytes 0x0100 to 0x017F of the window. -/
def cmdSensorRead : Cmd := fun _ f s => if !argsClear f [] then badParam s else answerData (windowBytes s 0x100 2) s

/-- How far a task is, in percent. -/
def taskProgress (s : State) (t : Task) : Nat :=
  if t.state = .done then 100
  else
    match t.work with
    | .retire c => min 100 (migratePct s c)
    | .rekey pd => if t.state = .running then min 100 (sealParam s.partitions[pd] 0x7407) else 0
    | _ => t.progress

/-- The task that a ticket still names: any until 1,000 more have been issued (R445). -/
def taskNamed (s : State) (ticket : Nat) : Option Task :=
  s.tasks.find? fun t => decide (ticket ≠ 0) && decide (t.ticket = ticket) &&
    (decide (t.state ≠ .done) || decide (ticketAge s.nextTicket t.ticket ≤ 1000))

/-- The 16 B of `TASK_STATUS`. -/
def taskData (s : State) (ticket : Nat) : List Byte :=
  match taskNamed s ticket with
  | none => natToBytes 16 (3 * 2 ^ 16)
  | some t =>
    let state := match t.state with | .queued => 0 | .running => 1 | .done => 2
    natToBytes 16 (t.opcode.toNat + state * 2 ^ 16 + (if t.state = .done then kstatusCode t.status else 0) * 2 ^ 24 +
      taskProgress s t * 2 ^ 32 + queuePosition s t.ticket % 256 * 2 ^ 40 + t.result.toNat * 2 ^ 64)

/-- `TASK_STATUS`. -/
def cmdTaskStatus : Cmd := fun _ f s =>
  if !argsClear f [(0, 2)] then badParam s else answerData (taskData s (arg f 0 2)) s

/-! ### The log (R455, R456) -/

/-- The record of a log_count that the ring still holds. -/
def recordNamed (s : State) (n : Nat) : List Byte :=
  match s.log.records[s.log.count - 1 - n]? with
  | some r => recordBytes r
  | none => natToBytes 32 0

/-- The response of `LOG_READ`: from the first record wanted, or the oldest that remains. -/
def logData (s : State) (first wanted : Nat) : List Byte :=
  let oldest := s.log.count - s.log.records.length
  let start := max first oldest
  let n := min wanted (s.log.count - start)
  natToBytes 8 start ++ natToBytes 4 (min (start - first) 4294967295) ++ natToBytes 2 n ++ natToBytes 2 0 ++
    (List.range n).flatMap fun i => recordNamed s (start + i)

/-- `LOG_READ`. -/
def cmdLogRead : Cmd := fun _ f s =>
  if !argsClear f [(0, 10)] then badParam s else answerData (logData s (arg f 0 8) (arg f 8 2)) s

/-- `ALERT_ACK`: never backward, never past log_count (R472). -/
def cmdAlertAck : Cmd := fun _ f s =>
  if !argsClear f [(0, 8)] then badParam s
  else answer .ok (modLog (fun l => { l with ackIndex := max l.ackIndex (min (arg f 0 8) l.count) }) s)

/-! ### Parameters (R472, R438) -/

/-- The entries of `PARAM_READ`: ID and instance. -/
def readEntries (f : Frame) : List (Nat × Nat) :=
  (List.range (arg f 0 2)).map fun i => (arg f (4 + 4 * i) 2, arg f (6 + 4 * i) 2)

/-- Entries read in order; what a read clears is clear for the next. -/
def readParams (es : List (Nat × Nat)) (s : State) : List Byte × State :=
  es.foldl (fun (acc : List Byte × State) e =>
    (acc.1 ++ natToBytes 8 (paramRead acc.2 e.1 e.2), paramTouch e.1 e.2 acc.2)) ([], s)

/-- `PARAM_READ`. -/
def cmdParamRead : Cmd := fun _ f s =>
  let es := readEntries f
  if !argsClear f [(0, 2), (4, 4 * es.length)] || !(es.all fun e => paramExists e.1 e.2) then badParam s
  else
    let r := readParams es s
    answerData r.1 r.2

/-- The entries of `PARAM_WRITE`: ID, instance and value. -/
def writeEntries (f : Frame) : List (Nat × Nat × Nat) :=
  (List.range (arg f 0 2)).map fun i => (arg f (4 + 12 * i) 2, arg f (6 + 12 * i) 2, arg f (8 + 12 * i) 8)

/-- The kept parameter instances with the values they have. -/
def keepParams (s : State) : State :=
  modFirmware (fun x => { x with persisted := x.persisted.map fun e => (e.1, e.2.1, paramRead s e.1 e.2.1) }) s

/-- The policer regions that a write has left to their quiesce points, made the wait of its mailbox (R42, R446). -/
def claimRegions (m : Fin 6) (s : State) : State :=
  { s with partitions := s.partitions.map fun x =>
      { x with pendingChanges := x.pendingChanges.map fun e => match e with
        | (.region b n, none) => (.region b n, some m)
        | e => e } }

/-- `PARAM_WRITE`. A mailbox writes P:9004 only with its own bit, which the command set asks for. A write of a policer
region ends at the partition's quiesce point, and holds the order till then. -/
def cmdParamWrite : Cmd := fun m f s =>
  let es := writeEntries f
  if !argsClear f [(0, 2), (4, 12 * es.length)] then badParam s
  else
    let r := writeParams es s
    if r.1 ≠ .ok then answer r.1 s
    else
      let t := claimRegions m (keepParams r.2)
      if changeWaits m t then (none, t) else answer .ok t

/-- `PARAM_PERSIST`: 256 instances past those that R438 names. -/
def cmdParamPersist : Cmd := fun _ f s =>
  let id := arg f 0 2
  let inst := arg f 2 2
  let isIt (e : Nat × Nat × Nat) : Bool := decide (e.1 = id) && decide (e.2.1 = inst)
  if !argsClear f [(0, 5)] || !within 0 1 (arg f 4 1) || !paramExists id inst || !paramWritable id then badParam s
  else if arg f 4 1 = 1 then
    answer .ok (modFirmware (fun x => { x with persisted := x.persisted.filter fun e => !isIt e }) s)
  else if alwaysKept.contains id || s.firmware.persisted.any isIt then answer .ok s
  else if 256 ≤ s.firmware.persisted.length then badParam s
  else answer .ok (modFirmware (fun x => { x with persisted := x.persisted ++ [(id, inst, paramRead s id inst)] }) s)

/-! ### Memory (R360, R487) -/

/-- The requester of a mailbox's memory commands. -/
def memRequester (m : Fin 6) : Requester := if m.val = 5 then .dbg else .mgmt

/-- DBG without debug_view, on a partition whose lines are encrypted (R358, R360). -/
def debugBlind (s : State) (m : Fin 6) (pd : Fin 64) : Bool :=
  let x := s.partitions[pd]
  decide (m.val = 5) && decide (x.mode ≠ .plain) && !x.rights.getLsbD 18

/-- The requester's right (0 read, 1 write) and the partition's key (R43 step 3, R357, R358). -/
def memRight (s : State) (m : Fin 6) (pd : Fin 64) (right : Nat) : Bool :=
  let x := s.partitions[pd]
  hasRight x (requesterCode (memRequester m)) right && keyPresent s x

/-- The partition, first line and line count that a memory command names; none where they do not fit. -/
def memExtent (s : State) (f : Frame) (write : Bool) : Option (Fin 64 × List Nat) :=
  let pd : Fin 64 := Fin.ofNat 64 (arg f 0 1)
  let n := arg f 1 1
  let a := arg f 4 8
  let x := s.partitions[pd]
  let typed := if write then decide (x.ptype = .raw ∨ x.ptype = .counter) else decide (x.ptype ≠ .buffer)
  if decide (64 ≤ arg f 0 1) || !x.valid || !typed || decide (a % 64 ≠ 0) || decide (x.granules * granuleLines < a / 64 + n) then
    none
  else some (pd, (List.range n).map fun i => a / 64 + i)

/-- Channels of a command's lines out of self-refresh before it runs (R177). -/
def wakeLines (pd : Fin 64) (lines : List Nat) (s : State) : State :=
  lines.foldl (fun s i =>
    match placeOf s pd i with
    | some pl => if channelAsleep s pl.channel then leaveSelfRefresh pl.channel s else s
    | none => s) s

/-- A line that a stopped block or a waiting change would hold at a port (R20, R42). -/
def memHeld (s : State) (pd : Fin 64) (i : Nat) : Bool :=
  let x := s.partitions[pd]
  let stopped (b : BlockId) : Bool :=
    blockStopped s b && (match quarterOf b with | some q => !quarterOut s q | none => true)
  !x.pendingChanges.isEmpty ||
    (match placeOf s pd i with
     | some pl =>
       stopped (.channel pl.channel) || (decide (x.mode ≠ .plain) && stopped (.crypto (placeQuarter pl)))
     | none => false) ||
    (match kennelHeld s pd i with
     | some k => k.dirty && stopped (.kennel (kennelSlice k.set))
     | none => false) ||
    (decide (x.mode = .sealed) && (pathSlices s pd i).any stopped)

/-- FAILED with the QTL status and the first failing address (R487). -/
def memFails (st : QStatus) (line : Nat) (s : State) : Option Reply × State :=
  (some { status := .failed, data := natToBytes 8 (qstatusCode st) ++ natToBytes 8 (64 * line) }, s)

/-- One line of a `MEM_READ`. -/
def memReadLine (m : Fin 6) (pd : Fin 64) (i : Nat) (s : State) : LineResult × State :=
  if debugBlind s m pd then storedRead (memRequester m) pd i s
  else
    let r := hostRead (memRequester m) none pd i s
    (r.1, r.2.2)

/-- The lines of a `MEM_READ`: the data, and the first failing line. -/
def memReadLines (m : Fin 6) (pd : Fin 64) :
    List Nat → List Byte → Option (QStatus × Nat) → State → List Byte × Option (QStatus × Nat) × State
  | [], d, bad, s => (d, bad, s)
  | i :: is, d, bad, s =>
    match memReadLine m pd i s with
    | (.data l, s) => memReadLines m pd is (d ++ lineBytes l) bad s
    | (.fail st _, s) => memReadLines m pd is d (match bad with | some e => some e | none => some (st, i)) s

/-- The drains that hold a read of lines back finished (R167). -/
def endDrains (pd : Fin 64) (lines : List Nat) (s : State) : State :=
  lines.foldl (fun s i => match placeOf s pd i with
    | some pl => endDrain pl.channel s
    | none => s) s

/-- `MEM_READ`. A line that would be held ends it BUSY. -/
def cmdMemRead : Cmd := fun m f s =>
  match memExtent s f false with
  | none => badParam s
  | some (pd, lines) =>
    if !argsClear f [(0, 2), (4, 8)] then badParam s
    else if partitionOrphaned s pd then memFails .orphaned (arg f 4 8 / 64) s
    else if !memRight s m pd 0 then answer .denied s
    else
      match lines.find? (memHeld s pd) with
      | some i => memFails .busy i s
      | none =>
        let r := memReadLines m pd lines [] none (endDrains pd lines (wakeLines pd lines s))
        match r.2.1 with
        | some (st, i) => memFails st i r.2.2
        | none => answerData r.1 r.2.2

/-- The lines of a `MEM_WRITE`, each settled by itself: the first failing line. -/
def memWriteLines (m : Fin 6) (pd : Fin 64) (f : Frame) :
    List (Nat × Nat) → Option (QStatus × Nat) → State → Option (QStatus × Nat) × State
  | [], bad, s => (bad, s)
  | (k, i) :: is, bad, s =>
    let l := lineOf (bytesAt f.args (12 + 64 * k) 64)
    match hostWrite (memRequester m) pd i (policerImage s s.partitions[pd] i l) s with
    | (none, s) => memWriteLines m pd f is bad s
    | (some e, s) => memWriteLines m pd f is (match bad with | some b => some b | none => some (e.1, i)) s

/-- `MEM_WRITE`. -/
def cmdMemWrite : Cmd := fun m f s =>
  match memExtent s f true with
  | none => badParam s
  | some (pd, lines) =>
    if !argsClear f [(0, 2), (4, 8 + 64 * lines.length)] then badParam s
    else if partitionOrphaned s pd then memFails .orphaned (arg f 4 8 / 64) s
    else if !memRight s m pd 1 || debugBlind s m pd then answer .denied s
    else
      match lines.find? (memHeld s pd) with
      | some i => memFails .busy i s
      | none =>
        let r := memWriteLines m pd f (lines.mapIdx fun k i => (k, i)) none (wakeLines pd lines s)
        match r.1 with
        | some (st, i) => memFails st i r.2
        | none => answer .ok r.2

/-! ### The window (R486, R496) -/

/-- `WINDOW_READ`. -/
def cmdWindowRead : Cmd := fun _ f s =>
  let o := arg f 0 2
  let n := arg f 2 2
  if !argsClear f [(0, 4)] || decide (o % 64 ≠ 0) || decide (n % 64 ≠ 0) || !within 64 4032 n || decide (65536 < o + n) then
    badParam s
  else answerData (windowBytes s o (n / 64)) s

/-- `WINDOW_WRITE`: only the control page. -/
def cmdWindowWrite : Cmd := fun _ f s =>
  let o := arg f 0 2
  if !argsClear f [(0, 2), (4, 8)] || !(decide (o = 0xFC00) || decide (o = 0xFC08)) then badParam s
  else answer .ok (controlWrite o (BitVec.ofNat 64 (arg f 4 8)) s)

end Sys2Proof.Machine
end

