-- ==== Sys2Proof/Machine/Krejo.lean ====
section
/-! DEFINITION. Krejo commands: the catalogue of R471 to R486 by opcode with required lengths, sets and meanings, the checks
of R443, doorbells (R440 to R446), and the MAILBOX request (R34, R440). -/

namespace Sys2Proof.Machine

open Sys2Proof

/-- A command of the catalogue: the arg_length that its arguments require, none where they fit no layout (R468); its
set; and its meaning. -/
structure CmdSpec where
  length : Frame → Option Nat
  set : CmdSet
  run : Cmd

/-- A layout of one length. -/
def fixedLength (n : Nat) (_ : Frame) : Option Nat := some n

/-- A layout with a count of `size` bytes at `at_`: `base` bytes and `each` for each counted thing. -/
def countedLength (at_ size lo hi base each : Nat) (f : Frame) : Option Nat :=
  if within lo hi (arg f at_ size) then some (base + each * arg f at_ size) else none

/-- `KEY_LOAD`: by kind. -/
def keyLength (f : Frame) : Option Nat := if arg f 1 1 = 3 then some 44 else if within 1 2 (arg f 1 1) then some 76 else none

/-- A fuse image behind 8 bytes. -/
def fuseLength (f : Frame) : Option Nat := if within 0 5 (arg f 0 1) then some (8 + fuseBytes (arg f 0 1)) else none

/-! ### The catalogue -/

/-- Identity, status, log and parameters (R471). -/
def statusSpec (opcode : Nat) : Option CmdSpec :=
  match opcode with
  | 0x0001 => some { length := fixedLength 0, set := .identity, run := cmdIdentify }
  | 0x0002 => some { length := fixedLength 0, set := .status, run := cmdDeviceStatus }
  | 0x0003 => some { length := fixedLength 2, set := .status, run := cmdTaskStatus }
  | 0x0004 => some { length := countedLength 8 2 1 127 10 0, set := .log, run := cmdLogRead }
  | 0x0005 => some { length := fixedLength 8, set := .change, run := cmdAlertAck }
  | 0x0006 => some { length := fixedLength 0, set := .sensor, run := cmdSensorRead }
  | 0x0010 => some { length := countedLength 0 2 1 255 4 4, set := .status, run := cmdParamRead }
  | 0x0011 => some { length := countedLength 0 2 1 64 4 12, set := .change, run := cmdParamWrite }
  | 0x0012 => some { length := fixedLength 5, set := .change, run := cmdParamPersist }
  | _ => none

/-- Partitions and keys (R473). -/
def partitionSpec (opcode : Nat) : Option CmdSpec :=
  match opcode with
  | 0x0100 => some { length := fixedLength 32, set := .change, run := cmdPartitionCreate }
  | 0x0101 => some { length := fixedLength 4, set := .change, run := cmdPartitionResize }
  | 0x0102 => some { length := fixedLength 1, set := .change, run := cmdPartitionDelete }
  | 0x0103 => some { length := fixedLength 8, set := .change, run := cmdPartitionModify }
  | 0x0104 => some { length := fixedLength 8, set := .change, run := cmdPartitionRights }
  | 0x0105 => some { length := fixedLength 2, set := .change, run := cmdPartitionRekey }
  | 0x0110 => some { length := keyLength, set := .change, run := cmdKeyLoad }
  | 0x0111 => some { length := fixedLength 1, set := .change, run := cmdKeyClear }
  | _ => none

/-- Tables, queues and Collie (R475, R477). -/
def engineSpec (opcode : Nat) : Option CmdSpec :=
  match opcode with
  | 0x0200 => some { length := fixedLength 32, set := .change, run := cmdTableCreate }
  | 0x0201 => some { length := fixedLength 1, set := .change, run := cmdTableDelete }
  | 0x0202 => some { length := fixedLength 8, set := .change, run := cmdTableSlotRelease }
  | 0x0300 => some { length := fixedLength 8, set := .change, run := cmdQueueCreate }
  | 0x0301 => some { length := fixedLength 8, set := .change, run := cmdQueueModify }
  | 0x0302 => some { length := fixedLength 4, set := .change, run := cmdQueueDelete }
  | 0x0303 => some { length := fixedLength 4, set := .change, run := cmdQueueReset }
  | 0x0304 => some { length := fixedLength 1, set := .change, run := cmdBufferReset }
  | 0x0400 => some { length := fixedLength 32, set := .change, run := cmdCollieSet }
  | _ => none

/-- Ports, channels, resets and maintenance (R477, R479, R481). -/
def serviceSpec (opcode : Nat) : Option CmdSpec :=
  match opcode with
  | 0x0500 => some { length := fixedLength 1, set := .change, run := cmdPortTrain }
  | 0x0501 => some { length := fixedLength 12, set := .change, run := cmdPortTest }
  | 0x0502 => some { length := fixedLength 2, set := .change, run := cmdLaneGroupRestore }
  | 0x0503 => some { length := fixedLength 4, set := .change, run := cmdLaneRetune }
  | 0x0600 => some { length := fixedLength 1, set := .change, run := cmdVtrim }
  | 0x0601 => some { length := fixedLength 4, set := .change, run := cmdWireRepair }
  | 0x0602 => some { length := fixedLength 8, set := .change, run := cmdRowRepair }
  | 0x0603 => some { length := fixedLength 1, set := .change, run := cmdChannelRetire }
  | 0x0604 => some { length := fixedLength 2, set := .change, run := cmdChannelHold }
  | 0x0605 => some { length := fixedLength 1, set := .change, run := cmdSensorRestore }
  | 0x0700 => some { length := fixedLength 1, set := .change, run := cmdDeviceReset }
  | 0x0701 => some { length := fixedLength 1, set := .change, run := cmdQuarterReset }
  | 0x0702 => some { length := fixedLength 4, set := .change, run := cmdBlockReset }
  | 0x0800 => some { length := fixedLength 8, set := .change, run := cmdBistRun }
  | 0x0801 => some { length := fixedLength 4, set := .change, run := cmdMbistRun }
  | 0x0802 => some { length := fixedLength 4, set := .status, run := cmdCalReport }
  | 0x0803 => some { length := fixedLength 0, set := .status, run := cmdMaintStatus }
  | 0x0804 => some { length := fixedLength 2, set := .change, run := cmdMaintCancel }
  | _ => none

/-- Patches, configuration, fuses, memory and the window (R483, R486). -/
def firmwareSpec (opcode : Nat) : Option CmdSpec :=
  match opcode with
  | 0x0900 => some { length := countedLength 4 2 1 4072 8 1, set := .change, run := cmdPatchLoad }
  | 0x0901 => some { length := fixedLength 1, set := .change, run := cmdPatchActivate }
  | 0x0902 => some { length := fixedLength 2, set := .change, run := cmdFeatureEnable }
  | 0x0903 => some { length := fixedLength 8, set := .query, run := cmdConfigExport }
  | 0x0904 => some { length := countedLength 2 2 1 4068 8 1, set := .change, run := cmdConfigImport }
  | 0x0A00 => some { length := fixedLength 2, set := .status, run := cmdFuseRead }
  | 0x0A01 => some { length := fuseLength, set := .change, run := cmdFuseShadowSet }
  | 0x0A02 => some { length := fuseLength, set := .change, run := cmdFuseBurn }
  | 0x0A03 => some { length := fixedLength 3, set := .change, run := cmdFuseLock }
  | 0x0A04 => some { length := fixedLength 2, set := .change, run := cmdFuseReburn }
  | 0x0B00 => some { length := countedLength 1 1 1 63 12 0, set := .query, run := cmdMemRead }
  | 0x0B01 => some { length := countedLength 1 1 1 63 12 64, set := .change, run := cmdMemWrite }
  | 0x0B02 => some { length := fixedLength 4, set := .status, run := cmdWindowRead }
  | 0x0B03 => some { length := fixedLength 12, set := .change, run := cmdWindowWrite }
  | _ => none

/-- The command that K1 defines for an opcode. -/
def cmdSpec (opcode : Nat) : Option CmdSpec :=
  if opcode < 0x0100 then statusSpec opcode
  else if opcode < 0x0200 then partitionSpec opcode
  else if opcode < 0x0500 then engineSpec opcode
  else if opcode < 0x0900 then serviceSpec opcode
  else firmwareSpec opcode

/-! ### The checks of R443 -/

/-- LOCKED beyond the stack's state: patching turned off (R459), and `KEY_LOAD` without its wrap key or in its lockout
(R354, R355). -/
def opcodeLocked (opcode : Nat) (s : State) : Bool :=
  ((decide (opcode = 0x0900) || decide (opcode = 0x0901)) && !patchingAllowed s) ||
    (decide (opcode = 0x0110) && keyLoadLocked s)

/-- Steps 1 to 5 of R443, and the reserved bits of the header (step 6): the first failure, or the command. -/
def checkCommand (s : State) (m : Fin 6) (opcode : BitVec 16) (f : Frame) : Except KStatus CmdSpec :=
  if 4080 < f.argLength.toNat then .error .badLength
  else
    match cmdSpec opcode.toNat with
    | none => .error .badOpcode
    | some c =>
      if c.length f ≠ some f.argLength.toNat then .error .badLength
      else if !(admittedSets s m).contains c.set || opcodeLocked opcode.toNat s then .error .locked
      else if c.set = .change ∧ !(s.params.controlMask.getLsbD m) then .error .denied
      else if f.reserved ≠ 0 then .error .badParam
      else .ok c

/-- A command run in the execution context of its mailbox, which it keeps busy: checked, then executed, and what it changes
of the configuration store committed to both copies before it answers (R437). -/
def runCommand (m : Fin 6) (opcode : BitVec 16) (f : Frame) (s : State) : State :=
  match checkCommand s m opcode f with
  | .error st => respondTo m { status := st } s
  | .ok c =>
    let r := c.run m f s
    match (if c.set = .change then commitStore s r.2 else some r.2), r.1 with
    | some t, some reply => respondTo m reply t
    | some t, none => t
    | none, _ => respondTo m { status := .failed } s

/-! ### Order and holding (R435, R446, R460) -/

/-- Commands that change the configuration store, Collie or key slots. -/
def orderedOpcode (opcode : Nat) : Bool :=
  within 0x0100 0x0111 opcode || [0x0011, 0x0012, 0x0200, 0x0201, 0x0400, 0x0902, 0x0904].contains opcode

/-- A command that waits at a quiesce point and holds the order for those behind it. -/
def orderWaits (s : State) : Bool :=
  s.partitions.any fun x => x.pendingChanges.any fun e => e.2.isSome

/-- A command that may not begin: the cores reboot or switch banks, or an earlier one holds the order. `PATCH_LOAD` is
not held for a switch, which it would disturb: it answers FAILED (R488). -/
def mustHold (s : State) (opcode : Nat) : Bool :=
  s.firmware.rebooting || (s.firmware.activating && decide (opcode ≠ 0x0900)) ||
    (orderedOpcode opcode && (orderWaits s || s.firmware.held.any fun h => orderedOpcode h.opcode.toNat))

/-- A command begun, or put behind those that hold it. -/
def beginCommand (h : HeldCommand) (s : State) : State :=
  if mustHold s h.opcode.toNat then modFirmware (fun x => { x with held := x.held ++ [h] }) s
  else runCommand h.mb h.opcode h.frame s

/-- Held commands begun in the order of their doorbells, as far as they may. -/
def runHeld (s : State) : State :=
  s.firmware.held.foldl (fun s h => beginCommand h s) (modFirmware (fun x => { x with held := [] }) s)

/-! ### Doorbells -/

/-- The header and arguments that a request buffer holds (R441). -/
def frameOf (buffer : Memory) : BitVec 16 × Frame :=
  let head := bytesToNat (memBytes buffer 0 16)
  (BitVec.ofNat 16 head,
    { seq := BitVec.ofNat 16 (head / 2 ^ 16), argLength := BitVec.ofNat 16 (head / 2 ^ 32), notify := bitAt head 48,
      reserved := BitVec.ofNat 79 (head / 2 ^ 49), args := memBytes buffer 16 4080 })

/-- The bytes of a header and its arguments. -/
def frameBytes (opcode : BitVec 16) (f : Frame) : List Byte :=
  natToBytes 16 (opcode.toNat + f.seq.toNat * 2 ^ 16 + f.argLength.toNat * 2 ^ 32 + boolNat f.notify * 2 ^ 48 +
    f.reserved.toNat * 2 ^ 49) ++ f.args.take 4080

/-- A doorbell that finds a command in the request buffer (R443, R444): ignored while the mailbox is busy, the stored
response presented again for the last seq, and otherwise the command begun. -/
def doorbell (m : Fin 6) (opcode : BitVec 16) (f : Frame) (s : State) : State :=
  let x := s.mailboxes[m]
  if !mailboxServes s m then s
  else if x.busy.isSome then modMailbox m (fun x => { x with ignored := sat32 x.ignored }) s
  else if x.lastSeq = some f.seq then modMailbox m (fun x => { x with respReady := true }) s
  else
    beginCommand { mb := m, opcode := opcode, frame := f }
      (modMailbox m (fun x => { x with
        lastSeq := some f.seq, busy := some (f.seq, opcode), notify := f.notify, commands := sat32 x.commands }) s)

/-- A doorbell for what the request buffer holds. -/
def ringDoorbell (m : Fin 6) (s : State) : State :=
  let c := frameOf s.mailboxes[m].request
  doorbell m c.1 c.2 s

/-- A whole command through a mailbox: the frame in its request buffer, then the doorbell. -/
def command (opcode : BitVec 16) (m : Fin 6) (f : Frame) (s : State) : State :=
  if mailboxServes s m then
    doorbell m opcode f (modMailbox m (fun x => { x with request := memWrite x.request 0 (frameBytes opcode f) }) s)
  else s

/-! ### MAILBOX requests (R34, R37, R440) -/

/-- The in-band mailbox of a port. -/
def portMailbox (p : Fin 4) : Fin 6 := Fin.ofNat 6 p.val

/-- A response buffer read; reading its header clears resp_ready (R448). -/
def readResponse (m : Fin 6) (start n : Nat) (s : State) : List Byte × State :=
  (memBytes s.mailboxes[m].response start n,
    if start < 16 ∧ n ≠ 0 then modMailbox m (fun x => { x with respReady := false }) s else s)

/-- MAILBOX: a write of the request buffer, with the doorbell, or a read of the response buffer. -/
def performMailbox : Perform := fun j r s =>
  let m := portMailbox j.port
  let a := r.hdr.address.toNat
  let n := 64 * (r.hdr.lengthCode.toNat + 1)
  if auxF r.hdr 0 0 = 1 then
    let d := readResponse m a n s
    complete j .ok 0 d.1 d.2
  else
    let s := modMailbox m (fun x => { x with request := memWrite x.request a (bytesAt r.payload 0 n) }) s
    completeWith j .ok (if auxF r.hdr 1 1 = 1 then ringDoorbell m s else s)

def execMailbox (p : Fin 4) (r : Req) (s : State) : Out := .next (receive performMailbox p opMailbox r s)

/-! ### The commands, each with its opcode -/

def execIdentify (mb : Fin 6) (f : Frame) (s : State) : Out := .next (command 0x0001 mb f s)

def execDeviceStatus (mb : Fin 6) (f : Frame) (s : State) : Out := .next (command 0x0002 mb f s)

def execTaskStatus (mb : Fin 6) (f : Frame) (s : State) : Out := .next (command 0x0003 mb f s)

def execLogRead (mb : Fin 6) (f : Frame) (s : State) : Out := .next (command 0x0004 mb f s)

def execAlertAck (mb : Fin 6) (f : Frame) (s : State) : Out := .next (command 0x0005 mb f s)

def execSensorRead (mb : Fin 6) (f : Frame) (s : State) : Out := .next (command 0x0006 mb f s)

def execParamRead (mb : Fin 6) (f : Frame) (s : State) : Out := .next (command 0x0010 mb f s)

def execParamWrite (mb : Fin 6) (f : Frame) (s : State) : Out := .next (command 0x0011 mb f s)

def execParamPersist (mb : Fin 6) (f : Frame) (s : State) : Out := .next (command 0x0012 mb f s)

def execPartitionCreate (mb : Fin 6) (f : Frame) (s : State) : Out := .next (command 0x0100 mb f s)

def execPartitionResize (mb : Fin 6) (f : Frame) (s : State) : Out := .next (command 0x0101 mb f s)

def execPartitionDelete (mb : Fin 6) (f : Frame) (s : State) : Out := .next (command 0x0102 mb f s)

def execPartitionModify (mb : Fin 6) (f : Frame) (s : State) : Out := .next (command 0x0103 mb f s)

def execPartitionRights (mb : Fin 6) (f : Frame) (s : State) : Out := .next (command 0x0104 mb f s)

def execPartitionRekey (mb : Fin 6) (f : Frame) (s : State) : Out := .next (command 0x0105 mb f s)

def execKeyLoad (mb : Fin 6) (f : Frame) (s : State) : Out := .next (command 0x0110 mb f s)

def execKeyClear (mb : Fin 6) (f : Frame) (s : State) : Out := .next (command 0x0111 mb f s)

def execTableCreate (mb : Fin 6) (f : Frame) (s : State) : Out := .next (command 0x0200 mb f s)

def execTableDelete (mb : Fin 6) (f : Frame) (s : State) : Out := .next (command 0x0201 mb f s)

def execTableSlotRelease (mb : Fin 6) (f : Frame) (s : State) : Out := .next (command 0x0202 mb f s)

def execQueueCreate (mb : Fin 6) (f : Frame) (s : State) : Out := .next (command 0x0300 mb f s)

def execQueueModify (mb : Fin 6) (f : Frame) (s : State) : Out := .next (command 0x0301 mb f s)

def execQueueDelete (mb : Fin 6) (f : Frame) (s : State) : Out := .next (command 0x0302 mb f s)

def execQueueReset (mb : Fin 6) (f : Frame) (s : State) : Out := .next (command 0x0303 mb f s)

def execBufferReset (mb : Fin 6) (f : Frame) (s : State) : Out := .next (command 0x0304 mb f s)

def execCollieSet (mb : Fin 6) (f : Frame) (s : State) : Out := .next (command 0x0400 mb f s)

def execPortTrain (mb : Fin 6) (f : Frame) (s : State) : Out := .next (command 0x0500 mb f s)

def execPortTest (mb : Fin 6) (f : Frame) (s : State) : Out := .next (command 0x0501 mb f s)

def execLaneGroupRestore (mb : Fin 6) (f : Frame) (s : State) : Out := .next (command 0x0502 mb f s)

def execLaneRetune (mb : Fin 6) (f : Frame) (s : State) : Out := .next (command 0x0503 mb f s)

def execVtrim (mb : Fin 6) (f : Frame) (s : State) : Out := .next (command 0x0600 mb f s)

def execWireRepair (mb : Fin 6) (f : Frame) (s : State) : Out := .next (command 0x0601 mb f s)

def execRowRepair (mb : Fin 6) (f : Frame) (s : State) : Out := .next (command 0x0602 mb f s)

def execChannelRetire (mb : Fin 6) (f : Frame) (s : State) : Out := .next (command 0x0603 mb f s)

def execChannelHold (mb : Fin 6) (f : Frame) (s : State) : Out := .next (command 0x0604 mb f s)

def execSensorRestore (mb : Fin 6) (f : Frame) (s : State) : Out := .next (command 0x0605 mb f s)

def execDeviceReset (mb : Fin 6) (f : Frame) (s : State) : Out := .next (command 0x0700 mb f s)

def execQuarterReset (mb : Fin 6) (f : Frame) (s : State) : Out := .next (command 0x0701 mb f s)

def execBlockReset (mb : Fin 6) (f : Frame) (s : State) : Out := .next (command 0x0702 mb f s)

def execBistRun (mb : Fin 6) (f : Frame) (s : State) : Out := .next (command 0x0800 mb f s)

def execMbistRun (mb : Fin 6) (f : Frame) (s : State) : Out := .next (command 0x0801 mb f s)

def execCalReport (mb : Fin 6) (f : Frame) (s : State) : Out := .next (command 0x0802 mb f s)

def execMaintStatus (mb : Fin 6) (f : Frame) (s : State) : Out := .next (command 0x0803 mb f s)

def execMaintCancel (mb : Fin 6) (f : Frame) (s : State) : Out := .next (command 0x0804 mb f s)

def execPatchLoad (mb : Fin 6) (f : Frame) (s : State) : Out := .next (command 0x0900 mb f s)

def execPatchActivate (mb : Fin 6) (f : Frame) (s : State) : Out := .next (command 0x0901 mb f s)

def execFeatureEnable (mb : Fin 6) (f : Frame) (s : State) : Out := .next (command 0x0902 mb f s)

def execConfigExport (mb : Fin 6) (f : Frame) (s : State) : Out := .next (command 0x0903 mb f s)

def execConfigImport (mb : Fin 6) (f : Frame) (s : State) : Out := .next (command 0x0904 mb f s)

def execFuseRead (mb : Fin 6) (f : Frame) (s : State) : Out := .next (command 0x0A00 mb f s)

def execFuseShadowSet (mb : Fin 6) (f : Frame) (s : State) : Out := .next (command 0x0A01 mb f s)

def execFuseBurn (mb : Fin 6) (f : Frame) (s : State) : Out := .next (command 0x0A02 mb f s)

def execFuseLock (mb : Fin 6) (f : Frame) (s : State) : Out := .next (command 0x0A03 mb f s)

def execFuseReburn (mb : Fin 6) (f : Frame) (s : State) : Out := .next (command 0x0A04 mb f s)

def execMemRead (mb : Fin 6) (f : Frame) (s : State) : Out := .next (command 0x0B00 mb f s)

def execMemWrite (mb : Fin 6) (f : Frame) (s : State) : Out := .next (command 0x0B01 mb f s)

def execWindowRead (mb : Fin 6) (f : Frame) (s : State) : Out := .next (command 0x0B02 mb f s)

def execWindowWrite (mb : Fin 6) (f : Frame) (s : State) : Out := .next (command 0x0B03 mb f s)

end Sys2Proof.Machine
end

