-- ==== Sys2Proof/Machine/Release.lean ====
section
/-! DEFINITION. Requests that waited: the release of held requests (R281 to R285), the queues of the controllers served
(R162) after each event that lets a request go on, the exit of a channel from self-refresh (R177), and quiesce points
(R42, R193). -/

namespace Sys2Proof.Machine

open Sys2Proof

/-- The meaning of a request past ingress, by its opcode. -/
def performOf (op : BitVec 6) : Perform :=
  if op = opNop then performNop
  else if op = opRead then performRead
  else if op = opWrite then performWrite
  else if op = opWriteMask then performWriteMask
  else if atomicOps.contains op then performAtomic op
  else if op = opLookupExact then performLookupExact
  else if op = opLookupPrefix then performLookupPrefix
  else if op = opTableUpdate then performTableUpdate
  else if op = opCtrUpdate then performCtrUpdate
  else if op = opPolUpdate then performPolUpdate
  else if op = opCtrRead then performCtrRead
  else if op = opEnqueue then performEnqueue
  else if op = opDequeue then performDequeue
  else if op = opQueueQuery then performQueueQuery
  else if op = opSkeinCopy then performSkeinCopy
  else if op = opRowFill then performRowFill
  else if op = opMailbox then performMailbox
  else if op = opStatusRead then performStatusRead
  else performReserved

/-! ### The controllers' queues (R158, R162) -/

/-- A request that needs a block under test waits until the run ends (R519). -/
def testHolds (s : State) (q : QueuedReq) : Bool := (blocksNeeded s q.job q.req).any fun b => (blockAt s b).testing

/-- The next request of a channel's queue that need not wait in it any longer, by the choice of R162. -/
def nextRequest (s : State) (c : Fin 32) : Option QueuedReq :=
  pickRequest s c (s.channels[c].requests.filter fun q => decide (waitChannel s q.job q.req ≠ some c) && !testHolds s q)

/-- One request of a channel's queue presented again. -/
def serveOne (c : Fin 32) (q : QueuedReq) (s : State) : State :=
  present (performOf q.opcode) q (setRequests c (s.channels[c].requests.filter (· ≠ q)) s)

/-- Up to a number of queued requests served, of the lowest channel that has one to serve. -/
def serveRounds : Nat → State → State
  | 0, s => s
  | n + 1, s =>
    match (List.finRange 32).findSome? (fun c => (nextRequest s c).map fun q => (c, q)) with
    | some (c, q) => serveRounds n (serveOne c q s)
    | none => s

/-- Every queued request that need not wait any longer served. A request that a further channel makes wait moves at most
once to each. -/
def serveReady (s : State) : State :=
  serveRounds (33 * s.channels.toList.foldl (fun n x => n + x.requests.length) 0) s

/-! ### Held requests -/

/-- The held requests of a port evaluated in order of arrival, behind those that stay held (R284); in SWITCH or RECOVERY
they wait (R99). -/
def releaseHeld (p : Fin 4) (s : State) : State :=
  if linkHolds s p then s
  else
    panicCheck p (s.ports[p].held.foldl (fun s e => evaluate (performOf e.opcode) p e s)
      (modPort p (fun x => { x with held := [] }) s))

def execHeldRelease (p : Fin 4) (s : State) : Out := .next (releaseHeld p (serveReady s))

/-- A request that the gate has held for hold_promote_us passes regardless of the gate (R282). -/
def gatePromote (p : Fin 4) (tag : BitVec 14) (s : State) : State :=
  match s.ports[p].held.find? (fun e => e.req.hdr.tag = tag ∧ e.reason = .gate) with
  | none => s
  | some e =>
    let s := passTo (e.job.arrived + 1000 * s.params.holdPromoteUs) s
    releaseHeld p (modPort p (fun x => { x with
      held := x.held.map fun h => if h.req.hdr.tag = tag then { h with passGate := true } else h }) s)

def execGatePromote (p : Fin 4) (tag : BitVec 14) (s : State) : Out := .next (gatePromote p tag s)

/-- REQUEST_BUSY: the hold limit of a held request reached; what may go on in that tick passes first (R285, R302). -/
def holdLimit (p : Fin 4) (tag : BitVec 14) (s : State) : State :=
  match s.ports[p].held.find? (fun e => e.req.hdr.tag = tag) with
  | none => s
  | some e =>
    requestBusy p tag (releaseHeld p (serveReady (passTo (e.job.arrived + 1000 * s.ports[p].holdLimitUs) s)))

def execRequestBusy (p : Fin 4) (tag : BitVec 14) (s : State) : Out := .next (holdLimit p tag s)

/-! ### Events that let queued requests go on -/

/-- SELF_REFRESH_EXIT: the channel a request waits for leaves self-refresh and serves it. -/
def selfRefreshExit (c : Fin 32) (s : State) : State :=
  if s.channels[c].requests.isEmpty then s else leaveSelfRefresh c s

def execSelfRefreshExit (c : Fin 32) (s : State) : Out := .next (serveReady (selfRefreshExit c s))

def execNopWord (c : Fin 32) (s : State) : Out := .next (serveReady (nopWord c s))

def execColumnWrite (c : Fin 32) (bank : Fin 16) (line : Fin 32) (s : State) : Out :=
  .next (serveReady (columnWrite c bank line s))

def execWriteQueueEntry (c : Fin 32) (s : State) : Out := .next (serveReady (writeQueueEntry c s))

def execAgePromotion (c : Fin 32) (s : State) : Out := .next (serveReady (agePromotion c s))

def execCaParity (c : Fin 32) (s : State) : Out := .next (serveReady (caParity c s))

def execVerticalTrim (c : Fin 32) (probe : TrimProbe) (s : State) : Out := .next (serveReady (verticalTrim c probe s))

def execTrimRetry (c : Fin 32) (probe : TrimProbe) (s : State) : Out := .next (serveReady (trimRetry c probe s))

def execShiftRepair (c : Fin 32) (path : Path) (wire : Nat) (probe : TrimProbe) (s : State) : Out :=
  .next (serveReady (shiftRepair c path wire probe s))

def execBlockFence (b : BlockId) (sramFailed : Bool) (s : State) : Out :=
  .next (serveReady (fenceBlock b true sramFailed s))

def execFenceTimeout (b : BlockId) (s : State) : Out := .next (serveReady (fenceTimeout b s))

def execBlockResume (b : BlockId) (s : State) : Out := .next (serveReady (resumeBlock b s))

def execQuarterIsolation (q : Fin 4) (cause : BitVec 4) (code : BitVec 16) (s : State) : Out :=
  .next (serveReady (isolateQuarter q cause code s))

def execQuarterResetDone (q : Fin 4) (s : State) : Out := .next (serveReady (quarterResetDone q s))

/-! The commands of internal movers have rank 8 and no deadline: every request that can go on goes before them (R160). -/

def execSpotCheck (c : Fin 32) (s : State) : Out := .next (serveReady (spotCheck c (serveReady s)))

def execPatrolRead (c : Fin 32) (s : State) : Out := .next (serveReady (patrolRead c (serveReady s)))

def execChannelRetiring (c : Fin 32) (s : State) : Out := .next (serveReady (channelRetiring c s))

def execMigrationCopy (s : State) : Out := .next (serveReady (migrationCopy (serveReady s)))

def execRekeyStep (pd : Fin 64) (s : State) : Out := .next (serveReady (rekeyStep pd (serveReady s)))

/-! ### Quiesce points (R42, R193) -/

/-- QUIESCE_POINT: requests past ingress are complete, and the change that waited applies. -/
def quiescePoint (t : QuiesceTarget) (s : State) : State :=
  match t with
  | .partition pd => if partitionBusy s pd then s else runHeld (applyPending pd s)
  | .table td => retireTable td s

def execQuiescePoint (t : QuiesceTarget) (s : State) : Out := .next (quiescePoint t s)

/-- QUIESCE_TIMEOUT: the command that waited ends FAILED, the descriptor unchanged. -/
def quiesceTimeout (t : QuiesceTarget) (s : State) : State :=
  match t with
  | .partition pd => runHeld (dropPending pd s)
  | .table td => keepTable td s

def execQuiesceTimeout (t : QuiesceTarget) (s : State) : Out := .next (quiesceTimeout t s)

end Sys2Proof.Machine
end

