-- ==== Sys2Proof/Machine/Clocks.lean ====
section
/-! DEFINITION. `REFCLK` and the PLLs (R415, R433), the management cores (R435), the end of a second of the log (R457), the
end of tasks (R445), and the rails (R549, R562, R563). -/

namespace Sys2Proof.Machine

open Sys2Proof

/-! ### REFCLK and PLLs -/

/-- `REFCLK` lost: every PLL in holdover. A port in ACTIVE below G106 has no clock it can meet R69 with: its lanes lose lock
and it enters RECOVERY (R415). -/
def refclkLost (s : State) : State :=
  if s.device.refclk = 1 then s
  else
    (List.finRange 4).foldl (fun s p =>
      if portLive s p ∧ s.ports[p].phy.state = .active ∧ s.ports[p].phy.gauge ≠ .g106 then enterRecovery p s else s)
      (raise 0x0016 0 0 [] (modDevice (fun d => { d with refclk := 1 }) s))

def execRefclkLost (s : State) : Out := .next (refclkLost s)

/-- `REFCLK` back in range for 10 ms: the PLLs slew back. -/
def refclkRestored (s : State) : State :=
  if s.device.refclk = 1 then raise 0x0017 0 0 [] (modDevice (fun d => { d with refclk := 2 }) s) else s

def execRefclkRestored (s : State) : Out := .next (refclkRestored s)

/-- The PLLs locked again. -/
def holdoverReturnLock (s : State) : State :=
  if s.device.refclk = 2 then modDevice (fun d => { d with refclk := 0 }) s else s

def execHoldoverReturnLock (s : State) : Out := .next (holdoverReturnLock s)

/-- PLL_UNLOCK in service: a quarter PLL isolates its quarter, the hub or management PLL is FATAL (R433, R565). Start-up
reports a PLL that does not lock in its own phases. -/
def pllUnlock (pll : Pll) (s : State) : State :=
  if !devReady s then s
  else
    match pll with
    | .quarter q =>
      if s.quarters[q].pllLocked then
        isolateQuarter q 2 0x001A (raise 0x001A 5 q [] (modQuarter q (fun x => { x with pllLocked := false }) s))
      else s
    | .hub => fatalNow 4 0x001A (raiseAs 0x001A 3 (eventSeverity 0x001A) 0 0 [] s)
    | .management => fatalNow 4 0x001A (raiseAs 0x001A 3 (eventSeverity 0x001A) 0 0 [] s)

def execPllUnlock (pll : Pll) (s : State) : Out := .next (pllUnlock pll s)

/-! ### The management cores (R435) -/

/-- The cores run firmware. -/
def coresRun (s : State) : Bool :=
  !s.device.warm && !s.device.rstLow && !s.thermal.tripped && decide (s.device.dev ≠ .fuseLoad) && decide (s.device.dev ≠ .sram)

/-- Both cores reset: commands in their request phase are lost, and a patch on probation counts the reset. -/
def coreReset (code : Nat) (s : State) : State :=
  let s := if s.firmware.rebooting then s
    else
      { modFirmware (fun x => { x with held := [] }) s with
        partitions := s.partitions.map fun x =>
          { x with pendingChanges := x.pendingChanges.filter fun e => e.2.isNone } }
  countProbation (raise code 14 0 [] (modFirmware (fun x => { x with
    rebooting := true, coreResets := sat32 x.coreResets }) s))

/-- LOCKSTEP_RESET: a second mismatch within 1 s of the first is FATAL. -/
def lockstepReset (s : State) : State :=
  if !coresRun s then s
  else
    let again := match s.firmware.lockstepAt with
      | some t => decide (s.hubTimer ≤ t + secondNs)
      | none => false
    let s := coreReset 0x9011 (modFirmware (fun x => { x with lockstepAt := some s.hubTimer }) s)
    if again then fatalNow 3 0x9011 s else s

def execLockstepReset (s : State) : Out := .next (lockstepReset s)

/-- WATCHDOG_RESET. -/
def watchdogReset (s : State) : State := if coresRun s then coreReset 0x9012 s else s

def execWatchdogReset (s : State) : Out := .next (watchdogReset s)

/-- A command that the reset of the cores cut in its request phase ends FAILED. -/
def failCut (s : State) (m : Fin 6) : State :=
  if s.firmware.held.any fun h => decide (h.mb = m) then s else respondTo m { status := .failed } s

/-- CORE_REBOOT_DONE: the FAILED responses, then the doorbells that rang meanwhile. -/
def coreRebootDone (s : State) : State :=
  if s.firmware.rebooting && s.firmware.romGood then
    runHeld ((List.finRange 6).foldl failCut (modFirmware (fun x => { x with rebooting := false }) s))
  else s

def execCoreRebootDone (s : State) : Out := .next (coreRebootDone s)

/-! ### Uncorrectable words of on-die SRAM (R326) -/

/-- A word of a slice's free-cell cache: the entries it held are lost to the pool (R242). -/
def loseFreeCache (slice : Fin 4) (pd : Fin 64) (s : State) : State :=
  let n := (freeCache s slice pd).length
  raise 0x4012 15 pd [] (bufferWatch pd (setFreeCache slice pd []
    (modBuffer pd (fun b => { b with leaked := b.leaked + n, used := b.used + n }) s)))

/-- A stash set: its entries are lost, and the home slice fences (R215). -/
def loseStash (td : Fin 16) (set : Nat) (s : State) : State :=
  let n := (sparseGet [] s.tables[td].stash set).length
  fenceBlock (.pointer s.tables[td].home) true true (modTable td (fun t => { t with
    stash := sparsePut [] t.stash set [], stashCount := t.stashCount - n, entryCount := t.entryCount - n }) s)

/-- The rule of the owner of an uncorrectable word (R326). A controller's own word fences it with its write queue good, and
a word of the management subsystem resets its cores (R19). -/
def ownerRule (o : SramOwner) (s : State) : State :=
  match o with
  | .block b => fenceBlock b true (match b with | .channel _ => false | _ => true) s
  | .writeQueue c => fenceBlock (.channel c) true true s
  | .kennelWay k set way => loseWay (4096 * k.val + set.val) way s
  | .queueDescriptor q => breakQueue q.toNat nullCell s
  | .directory i => { s with directoryBad := insertUnique i.val s.directoryBad }
  | .anchor pd g n =>
    raise 0x7016 15 pd [itCount g]
      (modSeal pd (fun x => { x with anchorsLost := insertUnique (32 * g.val + n.val) x.anchorsLost }) s)
  | .granuleMap g => loseGranule g.val s
  | .management => watchdogReset s
  | .freeCache slice pd => loseFreeCache slice pd s
  | .stash td set => loseStash td set s

/-- One word of the walk. -/
def sramWalk (o : SramOwner) (f : SramFinding) (s : State) : State :=
  let i := sramInst o
  match f with
  | .clean => s
  | .corrected =>
    raiseLimitedFor (0x2029, 0, 0) 0x2029 19 (256 * i.1 + i.2) (fun n => [itCount n])
      (modParams (fun p => { p with sramCeCount := sat32 p.sramCeCount }) s)
  | .uncorrectable => ownerRule o (raise 0x202A i.1 i.2 [] s)

def execSramWalk (owner : SramOwner) (finding : SramFinding) (s : State) : Out := .next (sramWalk owner finding s)

/-! ### Tasks and the log -/

/-- COMMAND_DONE: the task ends, and requests and commands that waited for it go on (R460, R519). -/
def execCommandDone (ticket : BitVec 16) (m : Measure) (s : State) : Out :=
  .next (runHeld (serveReady (commandDone ticket m s)))

/-- EVENT_SUPPRESSED: the aligned second ends, with one record for each code that has records withheld. -/
def eventSuppressed (s : State) : State :=
  if s.log.suppressed.isEmpty then s else rollSecond (passTo ((s.log.second + 1) * secondNs) s)

def execEventSuppressed (s : State) : Out := .next (eventSuppressed s)

/-! ### Rails (R549) -/

def railFaulted (s : State) (r : Rail) : Bool := s.device.railState.getLsbD (railCode r)

def setRail (r : Rail) (faulted : Bool) (s : State) : State :=
  modDevice (fun d =>
    let bit : BitVec 8 := 1#8 <<< railCode r
    { d with railState := if faulted then d.railState ||| bit else d.railState &&& ~~~bit }) s

/-- A rail whose fault the stack does not survive: FATAL, and START_FAILED before READY. -/
def vitalFault (r : Rail) (s : State) : State :=
  if s.thermal.tripped ∨ s.device.rstLow then s
  else if devReady s then fatalNow 5 0x0030 s
  else if s.device.dev = .startFailed then s
  else failStart 6 (railCode r) s

/-- Every port without its lanes: one with a link session reports the loss (R100). -/
def losePorts (s : State) : State :=
  (List.finRange 4).foldl (fun s (p : Fin 4) =>
    if s.ports[p].phy.state = .disabled then s
    else if s.ports[p].link.session then lanesLostAll p s
    else toDetect p s) s

/-- RAIL_FAULT, raised as the rail becomes faulted. -/
def railFault (r : Rail) (mv : Nat) (s : State) : State :=
  if railFaulted s r then s
  else
    let s := raise 0x0030 0 0 [itReason (railCode r), itCount mv]
      (setRail r true (modDevice (fun d => { d with railFaults := sat32 d.railFaults }) s))
    match r with
    | .vddSd => losePorts s
    | .vddSdh => losePorts s
    | .vddIo => s
    | .vfuse => modFuses (fun f => { f with vfuseOk := false }) (cutBurns false .failed s)
    | .vddCore => vitalFault r (cutBurns false .failed s)
    | .vddSram => vitalFault r (cutBurns false .failed s)
    | .vddDram => vitalFault r (cutBurns false .failed s)
    | .vpp => vitalFault r (cutBurns false .failed s)

def execRailFault (rail : Rail) (millivolts : Nat) (s : State) : Out := .next (railFault rail millivolts s)

/-- VFUSE above 0.3 V with no burn running: reported once an hour. -/
def vfusePresent (mv : Nat) (s : State) : State :=
  let due := match s.fuses.vfuseRaised with
    | some t => decide (t + hourNs ≤ s.hubTimer)
    | none => true
  if due && decide (300 < mv) && !fuseRuns s then
    raise 0x0031 0 0 [itReason (railCode .vfuse), itCount mv] (modFuses (fun f => { f with vfuseRaised := some s.hubTimer }) s)
  else s

def execVfusePresent (millivolts : Nat) (s : State) : Out := .next (vfusePresent millivolts s)

/-- RAIL_RETURN: with both SerDes rails back the ports train from DETECT, and the pins of VDD_IO are valid again. -/
def railReturn (r : Rail) (s : State) : State :=
  if !railFaulted s r then s
  else
    let t := setRail r false s
    let t := if r = .vfuse then modFuses (fun f => { f with vfuseOk := true }) t else t
    if !serdesUp s && serdesUp t then
      (List.finRange 4).foldl (fun s (p : Fin 4) => if portLive s p then toDetect p s else s) t
    else t

def execRailReturn (rail : Rail) (s : State) : Out := .next (railReturn rail s)

end Sys2Proof.Machine
end

