-- ==== Sys2Proof/Machine/Flits.lean ====
section
/-! DEFINITION. Reception of flits (R109 to R115, R118 to R120, R123 to R125): correction and check, sequence and NAK, the
parsing of requests (R30, R31), MGMT and LINK messages (R127, R133, R140), and sealing groups (R147, R148). -/

namespace Sys2Proof.Machine

open Sys2Proof

/-! ### Requests in slots -/

/-- An ENQUEUE's header goes on as it arrives, with what has arrived of its payload; any other request once it is whole
(R31, R114, R232). A request may span flits. -/
def parseRequests (p : Fin 4) : Nat → State → State
  | 0, s => s
  | n + 1, s =>
    match s.ports[p].link.rxSlots, s.ports[p].link.rxFilling with
    | [], _ => s
    | w :: ws, some (tag, k) =>
      let s := modLink p (fun l => { l with rxSlots := ws, rxFilling := if k ≤ 1 then none else some (tag, k - 1) }) s
      parseRequests p n (panicCheck p (arrivePayload p tag (slotBytes w) s))
    | w :: ws, none =>
      let c := slotHeader w
      let k := payloadSlots c.1 c.2
      if ws.length < k ∧ c.1 ≠ opEnqueue then s
      else
        let r : Req := { hdr := c.2, payload := (ws.take k).flatMap slotBytes }
        let left := k - ws.length
        let fills := if portServes s p && !tagOutstanding s.ports[p] c.2.tag then some c.2.tag else none
        let s := modLink p (fun l => { l with
          rxSlots := ws.drop k, rxFilling := if left = 0 then none else some (fills, left) }) s
        parseRequests p n (ingress (performOf c.1) p c.1 r s)

/-- Slots that the stack's receive buffer has granted to the partner in this session (R123, R124). -/
def slotsGranted (x : Port) : Nat := if x.partner.role = 0 then 4096 + 128 * creditUnits x.link else 0

/-- The slots of an accepted DATA flit (R114, R125). -/
def receiveData (p : Fin 4) (slots : List (BitVec 128)) (s : State) : State :=
  let x := s.ports[p]
  if x.partnerState ≠ .attached then linkProtocol p s
  else if slotsGranted x < x.link.slotsTaken + slots.length then detachPort p 3 s
  else
    parseRequests p (x.link.rxSlots.length + slots.length) (modLink p (fun l => { l with
      slotsTaken := l.slotsTaken + slots.length, rxSlots := l.rxSlots ++ slots }) s)

/-! ### Messages -/

/-- The messages of an accepted MGMT flit: HELLO of four slots, DETACH of one; any other message is a protocol error
and the rest of the flit is ignored. -/
def receiveMgmt (p : Fin 4) : Nat → List (BitVec 128) → State → State
  | 0, _, s => s
  | _ + 1, [], s => s
  | n + 1, w :: ws, s =>
    if bitsOf w.toNat 7 0 = 0x10 ∧ 3 ≤ ws.length then
      receiveMgmt p n (ws.drop 3) (receiveHello p (BitVec.ofNat 512 (listNum ((w :: ws.take 3).flatMap fun v =>
        (slotBytes v).map BitVec.toNat))) s)
    else if w = 0x12 then receiveMgmt p n ws (receiveDetach p s)
    else linkProtocol p s

/-- A link message with a defined code and reserved fields of zero, at its slot: STATUS stands in slot 0 only (R114,
R127 to R129). -/
def messageGood (slot : Nat) (w : BitVec 128) : Bool :=
  let n := w.toNat
  let code := bitsOf n 7 0
  if code = 1 then decide (slot = 0) && decide (bitsOf n 63 47 = 0) && decide (bitsOf n 127 96 = 0)
  else if code = 2 then decide (bitsOf n 127 18 = 0)
  else if code = 3 then
    decide (bitsOf n 127 21 = 0) && decide (bitsOf n 11 8 ≠ 0) && (bitAt n 12 || decide (bitsOf n 20 13 = 0))
  else false

/-- One message of a LINK flit at its slot (R127). -/
def receiveMessage (p : Fin 4) (slot : Nat) (w : BitVec 128) (s : State) : State :=
  let code := bitsOf w.toNat 7 0
  if code = 1 ∧ slot = 0 then receiveStatus p w s
  else if code = 2 then receiveNak p w s
  else if code = 3 then receiveWidth p w s
  else linkProtocol p s

/-! ### Sequence -/

/-- A further NAK may go: a flit has been accepted, or 1,000 ns have passed (R119). -/
def nakDue (now : Nat) (l : LinkState) : Bool :=
  match l.nakAt with
  | some t => decide (t + 1000 ≤ now)
  | none => true

/-- A NAK naming the last accepted seq (R119, R127). -/
def sendNak (p : Fin 4) (reason : Bool) (s : State) : State :=
  if nakDue s.hubTimer s.ports[p].link then
    modSend p (fun x =>
      let y := leaveIdle x
      putLink [nakMessage y.link reason] { y with link := { y.link with nakAt := some s.hubTimer } }) s
  else s

/-- What an accepted flit carries is acted on. -/
def executeFlit (p : Fin 4) (s : State) (f : Flit) : State :=
  if f.count = 0 then s
  else if f.ftype = 1 then receiveData p (f.slots.take f.count) s
  else receiveMgmt p 15 (f.slots.take f.count) s

/-! ### Sealing groups (R147, R148) -/

/-- A group whose tag failed: NAK with reason 1 from the group's first flit; the second failure of the same group
detaches the partner. -/
def groupFails (p : Fin 4) (first : Nat) (s : State) : State :=
  let again := s.ports[p].link.tagFailed
  let s := modLink p (fun l => { l with
    sealFailCount := sat32 l.sealFailCount, rxGroup := [], rxNext := first, tagFailed := true, nakAt := none }) s
  if again then
    raise 0x1037 1 p [] (detachPort p 4 (modLink p (fun l => { l with authFailed := true, tagFailed := false }) s))
  else sendNak p true s

/-- The TAG flit of a group: every flit executes if the tag verifies, and none otherwise. -/
def receiveTag (p : Fin 4) (slots : List (BitVec 128)) (s : State) : State :=
  let l := s.ports[p].link
  match l.rxGroup with
  | [] => linkProtocol p s
  | g :: gs =>
    let key := linkKey s p
    let extent := (slots.getD 1 0).toNat
    let tag := groupTag key l.rxSalt g.seq (g :: gs)
    if (slots.getD 0 0).toNat = tag ∧ extent = g.seq % 512 + gs.length * 2 ^ 9 then
      let plain := sealFlits key l.rxSalt g.seq (g :: gs)
      plain.foldl (executeFlit p) (modLink p (fun l => { l with rxGroup := [], tagFailed := false }) s)
    else groupFails p g.seq s

/-! ### A flit -/

/-- A sequenced flit accepted into sequence. Sealed flits wait for their tag. -/
def acceptFlit (p : Fin 4) (f : Flit) (s : State) : State :=
  let l := s.ports[p].link
  let sealed := l.sealOn && l.partnerSealOn
  let s := modLink p (fun l => { l with rxNext := l.rxNext + 1, nakAt := none, ackOwed := true }) s
  let s := if (f.ftype ≠ 3 ∧ f.count = 0) ∨ (f.ftype = 3 ∧ (f.count ≠ 2 ∨ !sealed)) then linkProtocol p s else s
  if f.ftype = 3 then (if sealed && decide (f.count = 2) then receiveTag p f.slots s else s)
  else if sealed then modLink p (fun l => { l with rxGroup := l.rxGroup ++ [f] }) s
  else executeFlit p s f

/-- A flit that is corrected and whose CRC holds (R110, R111, R114, R119). -/
def goodFlitIn (p : Fin 4) (bs : List Byte) (s : State) : State :=
  let h := natAt bs 0 4
  let ftype := bitsOf h 2 0
  let count := bitsOf h 7 4
  let seq := bitsOf h 16 8
  let slots := (List.range 15).map fun i => BitVec.ofNat 128 (natAt bs (4 + 16 * i) 16)
  let s := receiveHeader p (bitsOf h 25 17) (bitsOf h 31 26) (bitAt h 3) s
  if ftype = 0 then (if count ≠ 0 ∨ seq ≠ 0 then linkProtocol p s else s)
  else if ftype = 4 then
    if count = 0 ∨ seq ≠ 0 ∨ !((slots.take count).mapIdx messageGood).all id then linkProtocol p s
    else ((slots.take count).mapIdx fun i w => (i, w)).foldl (fun s e => receiveMessage p e.1 e.2 s) s
  else if 4 < ftype then linkProtocol p s
  else
    let next := s.ports[p].link.rxNext
    let d := (seq + 512 - next % 512) % 512
    if d = 0 then acceptFlit p { ftype := ftype, seq := next, count := count, slots := slots } s
    else if 256 ≤ d then s
    else sendNak p false s

/-- A narrowing of the receive direction waits for a good flit at the new width (R130). -/
def narrowPending (l : LinkState) : Bool := match l.widthAsked with | some (_, false) => true | _ => false

/-- A re-tune of the port's lanes holds receipt: flits are discarded without a NAK (R528). It waits for the narrowing of a
lane loss (R95). -/
def retuneHolds (s : State) (p : Fin 4) : Bool :=
  !narrowPending s.ports[p].link && s.tasks.any fun t => decide (t.state = .running) && (match t.work with | .retune q _ => decide (q = p) | _ => false)

/-- A flit received while the port is ACTIVE: corrected by FEC, then checked by its CRC (R112, R113). -/
def receiveFlit (p : Fin 4) (flit : List Byte) (s : State) : State :=
  if !linkUp s p || retuneHolds s p then s
  else
    match fecFlit flit with
    | none => sendNak p false (modLink p (fun l => { l with crcBad := sat32 l.crcBad }) s)
    | some (bs, fixed) =>
      if crc32c (bs.take 244) ≠ natAt bs 244 4 then
        sendNak p false (modLink p (fun l => { l with crcBad := sat32 l.crcBad }) s)
      else
        pump p (goodFlitIn p bs (if fixed then modLink p (fun l => { l with fecCorrected := sat32 l.fecCorrected }) s else s))

/-- NULL_FLIT. -/
def execNullFlit (p : Fin 4) (flit : List Byte) (s : State) : Out := .next (receiveFlit p flit s)

/-- DATA_FLIT. -/
def execDataFlit (p : Fin 4) (flit : List Byte) (s : State) : Out := .next (receiveFlit p flit s)

/-- TAG_FLIT. -/
def execTagFlit (p : Fin 4) (flit : List Byte) (s : State) : Out := .next (receiveFlit p flit s)

end Sys2Proof.Machine
end

