-- ==== Sys2Proof/Machine/Sideband.lean ====
section
/-! DEFINITION. The sideband of MB4 and the registers of MB4 and MB5 (R447, R448), the common command codes of I3C, and the
TAP (R450, R451). While VDD_IO is faulted the pins are undefined (R549). -/

namespace Sys2Proof.Machine

open Sys2Proof

/-- A command of the sideband pins or the TAP; the pins are undefined while VDD_IO is faulted. -/
def pinCommand (f : State → State) (s : State) : Out := if ioFaulted s then .fault .ioPinsUndefined else .next (f s)

/-- What a transfer or code answered. -/
def sbAnswer (bs : List Byte) (s : State) : State := modSideband (fun b => { b with answer := bs, nacked := false }) s

def sbNack (s : State) : State := modSideband (fun b => { b with answer := [], nacked := true }) s

/-- The mailbox behind a register access: MB5 through MBOX, MB4 otherwise. -/
def registerMailbox (jtag : Bool) : Fin 6 := if jtag then 5 else 4

/-- The stack answers on its registers: it is not held in cold reset, and a tripped stack keeps MB5 closed with debug
(R404). -/
def registersAnswer (jtag : Bool) (s : State) : Bool :=
  !s.device.rstLow && !(jtag && s.thermal.tripped && !debugOpen s)

/-- A transfer that answers whatever the stack's state: a read of IDENT_SHORT (R448). -/
def answersAlways (code : BitVec 8) : RegisterData → Bool
  | .read _ => decide (code = 0x10)
  | .write _ => false

/-- A register transfer: nothing where the stack does not answer, and a count where the PEC of an SMBus transaction fails
(R447). -/
def transfer (jtag pecOk : Bool) (code : BitVec 8) (data : RegisterData) (f : State → State) (s : State) : State :=
  if !registersAnswer jtag s && !(answersAlways code data && !s.device.rstLow) then sbNack s
  else if !jtag && !s.sideband.i3c && !pecOk then sbNack (modSideband (fun b => { b with pecErrors := sat32 b.pecErrors }) s)
  else f s

/-! ### Registers (R448) -/

/-- MB_POINTER of a mailbox: [12:0] the offset, up to 4,096, [15] the buffer. -/
def pointerOf (s : State) (jtag : Bool) : BitVec 16 := if jtag then s.sideband.pointer5 else s.sideband.pointer4

def setPointer (jtag : Bool) (v : BitVec 16) (s : State) : State :=
  modSideband (fun b => if jtag then { b with pointer5 := v } else { b with pointer4 := v }) s

/-- The bytes of one transfer: 4 through MBOX, 255 in an SMBus block, and an I3C length with its register code. -/
def transferLimit (s : State) (jtag write : Bool) : Nat :=
  if jtag then 4
  else if s.sideband.i3c then min 256 ((if write then s.sideband.maxWrite else s.sideband.maxRead) - 1)
  else 255

/-- MB_DATA at the pointer, which advances by each byte and stops at the end of the buffer. The response buffer is the
stack's to write. -/
def transferData (jtag write : Bool) (count : Nat) (bytes : List Byte) (s : State) : State :=
  let m := registerMailbox jtag
  let ptr := pointerOf s jtag
  let start := ptr.toNat % 8192
  let asked := min count (transferLimit s jtag write)
  let n := min asked (4096 - start)
  let response := ptr.getLsbD 15
  let r : List Byte × State :=
    if write then
      ([], if response then s
        else modMailbox m (fun x => { x with request := memWrite x.request start (bytesAt bytes 0 n) }) s)
    else if response then readResponse m start n s
    else (memBytes s.mailboxes[m].request start n, s)
  let s := setPointer jtag (BitVec.ofNat 16 (start + n + boolNat response * 2 ^ 15)) r.2
  modSideband (fun b => { b with answer := r.1, nacked := decide (n < asked) && !b.i3c && !jtag }) s

def execMbData (jtag pecOk write : Bool) (count : Nat) (bytes : List Byte) (s : State) : Out :=
  pinCommand (transfer jtag pecOk 0x03 (if write then .write bytes else .read count)
    (transferData jtag write count bytes)) s

/-- MB_DOORBELL: writing 0x01 rings; other values do nothing. -/
def doorbellRegister (jtag : Bool) (value : Byte) (s : State) : State :=
  sbAnswer [] (if value = 1 then ringDoorbell (registerMailbox jtag) s else s)

def execMbDoorbell (jtag pecOk : Bool) (value : Byte) (s : State) : Out :=
  pinCommand (transfer jtag pecOk 0x00 (.write [value]) (doorbellRegister jtag value)) s

/-- A register written. WSP_TARGET and DIE_TARGET are reached through MBOX alone, and ignore writes while debug is
closed. -/
def writeRegister (jtag : Bool) (code : BitVec 8) (bytes : List Byte) (s : State) : State :=
  if code = 0x00 then doorbellRegister jtag (bytes.getD 0 0) s
  else if code = 0x02 then
    if bytes.length < 2 then sbNack s
    else sbAnswer [] (setPointer jtag (BitVec.ofNat 16 (natAt bytes 0 2) &&& 0x8FFF) s)
  else if code = 0x03 then transferData jtag true bytes.length bytes s
  else if code = 0x20 ∨ code = 0x21 then
    if !jtag then modSideband (fun b => { b with answer := [], nacked := !b.i3c }) s
    else if !debugOpen s then sbAnswer [] s
    else
      sbAnswer [] (modSideband (fun b =>
        if code = 0x20 then { b with wspTarget := BitVec.ofNat 32 (natAt bytes 0 3) }
        else { b with dieTarget := bytes.getD 0 0 }) s)
  else sbNack s

/-- IDENT_SHORT: ordering code, stepping and serial number, in the places IDENTIFY gives them. -/
def identShort (s : State) : List Byte :=
  natToBytes 1 (identOrder s) ++ natToBytes 1 (identStepping s) ++ natToBytes 6 0 ++ natToBytes 8 (identSerial s)

/-- ALERT_STATUS (R448). -/
def alertStatus (s : State) : List Byte := natToBytes 8 ((oldestAlert s).getD s.log.count)

/-- The bytes of a register that a read returns, and none where the register is not one to read. -/
def registerBytes (jtag : Bool) (code : BitVec 8) (s : State) : Option (List Byte) :=
  if code = 0x01 then some (natToBytes 4 (mbStatusWord s (registerMailbox jtag)))
  else if code = 0x02 then some (natToBytes 2 (pointerOf s jtag).toNat)
  else if code = 0x04 then some (alertStatus s)
  else if code = 0x10 then some (identShort s)
  else if code = 0x20 ∧ jtag then some (natToBytes 4 (if debugOpen s then s.sideband.wspTarget.toNat else 0))
  else if code = 0x21 ∧ jtag then some [if debugOpen s then s.sideband.dieTarget else 0]
  else none

/-- A register read, up to a number of bytes. WSP_TARGET and DIE_TARGET over the sideband are NAKed under SMBus, and end an
I3C transfer. -/
def readRegister (jtag : Bool) (code : BitVec 8) (count : Nat) (s : State) : State :=
  if code = 0x03 then transferData jtag false count [] s
  else
    match registerBytes jtag code s with
    | some bs => sbAnswer (bs.take (min count (transferLimit s jtag false))) s
    | none =>
      if code = 0x20 ∨ code = 0x21 then modSideband (fun b => { b with answer := [], nacked := !b.i3c }) s else sbNack s

/-- A register written or read. -/
def accessRegister (jtag : Bool) (code : BitVec 8) (data : RegisterData) (s : State) : State :=
  match data with
  | .write bytes => writeRegister jtag code bytes s
  | .read count => readRegister jtag code count s

def execRegisterWrite (jtag pecOk : Bool) (code : BitVec 8) (data : RegisterData) (s : State) : Out :=
  pinCommand (transfer jtag pecOk code data (accessRegister jtag code data)) s

/-! ### Common command codes of I3C (R447) -/

/-- The static address. -/
def staticAddress (s : State) : Nat := 0x58 + s.sideband.strap.toNat

/-- An I3C code on a target that the stack's reset does not hold. -/
def cccCommand (f : State → State) (s : State) : Out := pinCommand (fun s => if s.device.rstLow then sbNack s else f s) s

/-- A dynamic address assigned: I3C mode. -/
def assignAddress (a : BitVec 7) (s : State) : State :=
  sbAnswer [] (modSideband (fun b => { b with i3c := true, dynamicAddress := a }) s)

/-- ENTDAA takes part while the target has no dynamic address. -/
def execEntdaa (address : BitVec 7) (s : State) : Out :=
  cccCommand (fun s => if s.sideband.i3c ∨ address = 0 then sbNack s else assignAddress address s) s

/-- SETDASA names the static address. -/
def execSetdasa (static address : BitVec 7) (s : State) : Out :=
  cccCommand (fun s =>
    if s.sideband.i3c ∨ static.toNat ≠ staticAddress s ∨ address = 0 then sbNack s else assignAddress address s) s

/-- SETNEWDA changes a dynamic address. -/
def execSetnewda (address : BitVec 7) (s : State) : Out :=
  cccCommand (fun s => if !s.sideband.i3c ∨ address = 0 then sbNack s else assignAddress address s) s

/-- RSTDAA: back to SMBus mode. -/
def execRstdaa (s : State) : Out :=
  cccCommand (fun s => sbAnswer [] (modSideband (fun b => { b with i3c := false, dynamicAddress := 0 }) s)) s

/-- A code that needs I3C mode. -/
def inI3c (f : State → State) (s : State) : State := if s.sideband.i3c then f s else sbNack s

/-- The highest severity among records that wait for an in-band interrupt. -/
def pendingSeverity (s : State) : Nat :=
  s.log.ibiPending.foldl (fun n c =>
    match s.log.records[s.log.count - 1 - c]? with
    | some r => max n r.severity
    | none => n) 0

/-- In-band interrupts enabled; one goes out for the records that wait. -/
def enableIbi (s : State) : State :=
  let s := modSideband (fun b => { b with ibiEnabled := true }) s
  if s.log.ibiPending.isEmpty then s
  else
    modLog (fun l => { l with ibiPending := [] })
      (modSideband (fun b => { b with ibis := b.ibis ++ [ibiByte s (pendingSeverity s)] }) s)

/-- ENEC with its interrupt event bit. -/
def execEnec (events : BitVec 8) (s : State) : Out :=
  cccCommand (inI3c fun s => sbAnswer [] (if events.getLsbD 0 then enableIbi s else s)) s

/-- DISEC with its interrupt event bit. -/
def execDisec (events : BitVec 8) (s : State) : Out :=
  cccCommand (inI3c fun s =>
    sbAnswer [] (if events.getLsbD 0 then modSideband (fun b => { b with ibiEnabled := false }) s else s)) s

/-- The provisional ID (R447). -/
def provisionalId (s : State) : Nat := identMipi s * 2 ^ 33 + identPart s * 2 ^ 16 + s.sideband.strap.toNat

/-- GETPID, most significant byte first. -/
def execGetpid (s : State) : Out := cccCommand (inI3c fun s => sbAnswer (natToBytes 6 (provisionalId s)).reverse s) s

def execGetbcr (s : State) : Out := cccCommand (inI3c fun s => sbAnswer [0x06] s) s

def execGetdcr (s : State) : Out := cccCommand (inI3c fun s => sbAnswer [0x00] s) s

/-- GETSTATUS: the two bytes of the target status, for which the spec gives no layout, are free. -/
def execGetstatus (s : State) : Out :=
  cccCommand (inI3c fun s => drawOne (sbAnswer (natToBytes 2 (Config.freeWord s.drawn).toNat) s)) s

/-- GETMWL, most significant byte first. -/
def execGetmwl (s : State) : Out := cccCommand (inI3c fun s => sbAnswer (natToBytes 2 s.sideband.maxWrite).reverse s) s

/-- GETMRL, most significant byte first. -/
def execGetmrl (s : State) : Out := cccCommand (inI3c fun s => sbAnswer (natToBytes 2 s.sideband.maxRead).reverse s) s

/-- SETMWL within 16 to 260. -/
def execSetmwl (length : BitVec 16) (s : State) : Out :=
  cccCommand (inI3c fun s =>
    if within 16 260 length.toNat then sbAnswer [] (modSideband (fun b => { b with maxWrite := length.toNat }) s) else sbNack s) s

/-- SETMRL within 16 to 260. -/
def execSetmrl (length : BitVec 16) (s : State) : Out :=
  cccCommand (inI3c fun s =>
    if within 16 260 length.toNat then sbAnswer [] (modSideband (fun b => { b with maxRead := length.toNat }) s) else sbNack s) s

/-! ### The TAP (R450, R451) -/

/-- A TAP instruction with what its data register then shifts out; nothing while `TRST_L` holds the TAP. -/
def tapCommand (code : BitVec 8) (f : State → BitVec 48 × State) (s : State) : Out :=
  pinCommand (fun s =>
    if s.sideband.tapReset then s
    else
      let r := f (modSideband (fun b => { b with ir := code }) s)
      modSideband (fun b => { b with tdo := r.1 }) r.2) s

/-- The 1-bit bypass register. -/
def bypassBit (tdi : Bool) : BitVec 48 := BitVec.ofNat 48 (boolNat tdi)

/-- The last bit shifted into a register that acts as BYPASS. -/
def lastBit (cells : BitVec 12) : BitVec 48 := bypassBit (cells.getLsbD 11)

def execBypass (tdi : Bool) (s : State) : Out := tapCommand 0xFF (fun s => (bypassBit tdi, s)) s

/-- The 32-bit IDCODE. -/
def idcodeWord (s : State) : Nat := (identStepping s - 0x41) % 16 * 2 ^ 28 + 0x1664 * 2 ^ 12 + identJtag s * 2 + 1

def execIdcode (s : State) : Out := tapCommand 0x01 (fun s => (BitVec.ofNat 48 (idcodeWord s), s)) s

/-- SAMPLE/PRELOAD: the cells are preloaded; the levels sampled at the pins are the board's. -/
def execSamplePreload (cells : BitVec 12) (s : State) : Out :=
  tapCommand 0x02 (fun s =>
    (BitVec.ofNat 48 ((Config.freeWord s.drawn).toNat % 4096), drawOne (modSideband (fun b => { b with boundary := cells }) s))) s

/-- EXTEST: the cells reach the pins only while `RST_L` is low; otherwise BYPASS. -/
def execExtest (cells : BitVec 12) (s : State) : Out :=
  tapCommand 0x03 (fun s =>
    if s.device.rstLow then
      (BitVec.ofNat 48 ((Config.freeWord s.drawn).toNat % 4096), drawOne (modSideband (fun b => { b with boundary := cells }) s))
    else (lastBit cells, s)) s

/-- CLAMP: the preloaded cells hold the pins while `RST_L` is low; its data register is the bypass bit. -/
def execClamp (tdi : Bool) (s : State) : Out := tapCommand 0x04 (fun s => (bypassBit tdi, s)) s

/-- HIGHZ: the pins float while `RST_L` is low; its data register is the bypass bit. -/
def execHighz (tdi : Bool) (s : State) : Out := tapCommand 0x05 (fun s => (bypassBit tdi, s)) s

/-- The boundary cells that drive the pins: EXTEST and CLAMP while `RST_L` is low. -/
def boundaryDrives (s : State) : Option (BitVec 12) :=
  if s.device.rstLow && !s.sideband.tapReset && (decide (s.sideband.ir = 0x03) || decide (s.sideband.ir = 0x04)) then
    some s.sideband.boundary
  else none

/-- The pins float: HIGHZ while `RST_L` is low. -/
def boundaryFloats (s : State) : Bool := s.device.rstLow && !s.sideband.tapReset && decide (s.sideband.ir = 0x05)

/-- MBOX: a register of R448 read or written for MB5 through the 48-bit data register. -/
def mboxScan (dr : BitVec 48) (s : State) : BitVec 48 × State :=
  let n := dr.toNat
  let code := BitVec.ofNat 8 (n / 2 ^ 32)
  let data : RegisterData :=
    if bitAt n 47 then .write (natToBytes (if code = 0x00 ∨ code = 0x21 then 1 else if code = 0x02 then 2 else 4) n)
    else .read 4
  if bitsOf n 46 40 ≠ 0 then (dr, s)
  else
    let t := transfer true true code data (accessRegister true code data) s
    (if bitAt n 47 || t.sideband.nacked then dr else BitVec.ofNat 48 (natAt t.sideband.answer 0 4 + code.toNat * 2 ^ 32), t)

def execMbox (dr : BitVec 48) (s : State) : Out := tapCommand 0x20 (mboxScan dr) s

/-- The block whose wrapper WSP_SELECT connects: it is fenced, its quarter is isolated, or start-up failed (R451). -/
def wspBlock (s : State) : Option BlockId :=
  let n := s.sideband.wspTarget.toNat
  if debugOpen s then blockNamed (bitsOf n 7 0) (bitsOf n 23 8) else none

def wspConnects (s : State) (b : BlockId) : Bool :=
  (blockAt s b).fenced || decide (s.device.dev = .startFailed) ||
    (match quarterOf b with
     | some q => decide (s.quarters[q].state = .isolated) || decide (s.quarters[q].state = .heldIsolated)
     | none => false)

/-- A block whose wrapper reaches the arrays of R356: the key slots and the anchor table of a crypto slice, the seal reserve
of a Kennel slice. -/
def holdsSecrets : BlockId → Bool
  | .crypto _ => true
  | .kennel _ => true
  | _ => false

/-- WSP_SELECT: BYPASS without a target; a wrapper in functional mode shows a status of 0; one that reaches the arrays of
R356 shifts out zeros, and what another connected wrapper shifts out is free. -/
def execWspSelect (tdi : Bool) (s : State) : Out :=
  tapCommand 0x30 (fun s =>
    match wspBlock s with
    | none => (bypassBit tdi, s)
    | some b =>
      if wspConnects s b && !holdsSecrets b then ((Config.freeWord s.drawn).setWidth 48, drawOne s) else (0, s)) s

/-- The layer that DIE_TARGET names while debug is open. -/
def dieLayer (s : State) : Option Nat :=
  let n := s.sideband.dieTarget.toNat
  if debugOpen s ∧ within 1 16 n then some n else none

/-- Both channels of a layer are retired, or held in self-refresh by command (R451). -/
def dieConnects (s : State) (layer : Nat) : Bool :=
  [2 * layer - 2, 2 * layer - 1].all fun c =>
    let x := s.channels[(Fin.ofNat 32 c : Fin 32)]
    decide (x.state = .retired) || (x.heldByCommand && decide (x.state = .selfRefresh))

/-- DIE_SELECT: BYPASS where it connects no layer; what a connected layer's TAP shifts out is free. -/
def execDieSelect (tdi : Bool) (s : State) : Out :=
  tapCommand 0x38 (fun s =>
    match dieLayer s with
    | some k => if dieConnects s k then ((Config.freeWord s.drawn).setWidth 48, drawOne s) else (bypassBit tdi, s)
    | none => (bypassBit tdi, s)) s

/-- TRST_L: asserted, or left open on its pull-down, it holds the TAP in reset (R551). -/
def execTrstL (asserted : Bool) (s : State) : Out :=
  pinCommand (fun s =>
    modSideband (fun b => if asserted then { b with tapReset := true, ir := 0x01, tdo := 0 } else { b with tapReset := false }) s) s

end Sys2Proof.Machine
end

