-- ==== Sys2Proof/Machine/Idle.lean ====
section
/-! DEFINITION. What the block does while no command waits. -/

namespace Sys2Proof.Machine

open Sys2Proof

/-- A nanosecond of the hub timer, and what every port's flit packer can send by then; the timer stands still while
`RST_L` is low (R414). -/
def idle (s : State) : State :=
  if s.device.rstLow then s
  else (List.finRange 4).foldl (fun s (p : Fin 4) => pump p s) { s with hubTimer := s.hubTimer + 1 }

end Sys2Proof.Machine
end

