-- ==== Sys2Proof/Machine/Dispatch.lean ====
section
/-! DEFINITION. The dispatch of a command to its meaning: one arm for each row of the table of operations and events. -/

namespace Sys2Proof.Machine

open Sys2Proof

/-- The effect of a command on everything but the queue. -/
def exec (i : Instr) (s : State) : Host.Outcome State Fault Refusal :=
  match i with
  | .nop p r => Sys2Proof.Machine.execNop p r s
  | .fenceComplete p tag => Sys2Proof.Machine.execFenceComplete p tag s
  | .read p r => Sys2Proof.Machine.execRead p r s
  | .write p r => Sys2Proof.Machine.execWrite p r s
  | .writeMask p r => Sys2Proof.Machine.execWriteMask p r s
  | .atomAdd p r => Sys2Proof.Machine.execAtomAdd p r s
  | .atomFadd p r => Sys2Proof.Machine.execAtomFadd p r s
  | .atomSwap p r => Sys2Proof.Machine.execAtomSwap p r s
  | .atomCas p r => Sys2Proof.Machine.execAtomCas p r s
  | .atomPadd128 p r => Sys2Proof.Machine.execAtomPadd128 p r s
  | .lookupExact p r => Sys2Proof.Machine.execLookupExact p r s
  | .lookupPrefix p r => Sys2Proof.Machine.execLookupPrefix p r s
  | .tableUpdate p r => Sys2Proof.Machine.execTableUpdate p r s
  | .ctrUpdate p r => Sys2Proof.Machine.execCtrUpdate p r s
  | .polUpdate p r => Sys2Proof.Machine.execPolUpdate p r s
  | .ctrRead p r => Sys2Proof.Machine.execCtrRead p r s
  | .enqueue p r => Sys2Proof.Machine.execEnqueue p r s
  | .packetLink q => Sys2Proof.Machine.execPacketLink q s
  | .dequeue p r => Sys2Proof.Machine.execDequeue p r s
  | .streamStart q => Sys2Proof.Machine.execStreamStart q s
  | .dequeueHandover q => Sys2Proof.Machine.execDequeueHandover q s
  | .queueQuery p r => Sys2Proof.Machine.execQueueQuery p r s
  | .skeinCopy p r => Sys2Proof.Machine.execSkeinCopy p r s
  | .rowFill p r => Sys2Proof.Machine.execRowFill p r s
  | .mailbox p r => Sys2Proof.Machine.execMailbox p r s
  | .statusRead p r => Sys2Proof.Machine.execStatusRead p r s
  | .reservedOpcode p opcode r => Sys2Proof.Machine.execReservedOpcode p opcode r s
  | .quiescePoint t => Sys2Proof.Machine.execQuiescePoint t s
  | .quiesceTimeout t => Sys2Proof.Machine.execQuiesceTimeout t s
  | .blockFence b sramFailed => Sys2Proof.Machine.execBlockFence b sramFailed s
  | .fenceTimeout b => Sys2Proof.Machine.execFenceTimeout b s
  | .autoBlockReset b echo => Sys2Proof.Machine.execAutoBlockReset b echo s
  | .quarterIsolation q cause code => Sys2Proof.Machine.execQuarterIsolation q cause code s
  | .quarterIsolated q => Sys2Proof.Machine.execQuarterIsolated q s
  | .isolationTimeout q => Sys2Proof.Machine.execIsolationTimeout q s
  | .quarterResetDone q => Sys2Proof.Machine.execQuarterResetDone q s
  | .receiverDetect p activity => Sys2Proof.Machine.execReceiverDetect p activity s
  | .acquireTimeout p => Sys2Proof.Machine.execAcquireTimeout p s
  | .alignTimeout p => Sys2Proof.Machine.execAlignTimeout p s
  | .capsTimeout p => Sys2Proof.Machine.execCapsTimeout p s
  | .eqTimeout p => Sys2Proof.Machine.execEqTimeout p s
  | .checkTimeout p => Sys2Proof.Machine.execCheckTimeout p s
  | .switchTimeout p => Sys2Proof.Machine.execSwitchTimeout p s
  | .newGaugeLock p => Sys2Proof.Machine.execNewGaugeLock p s
  | .checkWindowEnd p errors => Sys2Proof.Machine.execCheckWindowEnd p errors s
  | .fallbackCheckEnd p errors => Sys2Proof.Machine.execFallbackCheckEnd p errors s
  | .ts1 p lane inverted os => Sys2Proof.Machine.execTs1 p lane inverted os s
  | .ts2 p lane os => Sys2Proof.Machine.execTs2 p lane os s
  | .tsEq p lane os => Sys2Proof.Machine.execTsEq p lane os s
  | .tsCheck p lane os => Sys2Proof.Machine.execTsCheck p lane os s
  | .gaugeSwitch p lane os => Sys2Proof.Machine.execGaugeSwitch p lane os s
  | .idleEnter p lane os => Sys2Proof.Machine.execIdleEnter p lane os s
  | .idleExit p lane os => Sys2Proof.Machine.execIdleExit p lane os s
  | .fckDown p lane os => Sys2Proof.Machine.execFckDown p lane os s
  | .loopReq p lane os => Sys2Proof.Machine.execLoopReq p lane os s
  | .align p lane os => Sys2Proof.Machine.execAlign p lane os s
  | .electricalIdleEntry p => Sys2Proof.Machine.execElectricalIdleEntry p s
  | .heartbeatStatus p => Sys2Proof.Machine.execHeartbeatStatus p s
  | .laneLost p d lane => Sys2Proof.Machine.execLaneLost p d lane s
  | .widthChange p msg => Sys2Proof.Machine.execWidthChange p msg s
  | .widthChangeRepeat p => Sys2Proof.Machine.execWidthChangeRepeat p s
  | .groupRetrain p d group errors => Sys2Proof.Machine.execGroupRetrain p d group errors s
  | .laneReadded p d group => Sys2Proof.Machine.execLaneReadded p d group s
  | .fckLost p => Sys2Proof.Machine.execFckLost p s
  | .fckRestored p => Sys2Proof.Machine.execFckRestored p s
  | .lanesLostAll p => Sys2Proof.Machine.execLanesLostAll p s
  | .recoveryTimeout p => Sys2Proof.Machine.execRecoveryTimeout p s
  | .nullFlit p flit => Sys2Proof.Machine.execNullFlit p flit s
  | .dataFlit p flit => Sys2Proof.Machine.execDataFlit p flit s
  | .tagFlit p flit => Sys2Proof.Machine.execTagFlit p flit s
  | .status p msg => Sys2Proof.Machine.execStatus p msg s
  | .nak p msg => Sys2Proof.Machine.execNak p msg s
  | .ackDue p => Sys2Proof.Machine.execAckDue p s
  | .replayTimer p => Sys2Proof.Machine.execReplayTimer p s
  | .heartbeatTimeout p => Sys2Proof.Machine.execHeartbeatTimeout p s
  | .hello p msg => Sys2Proof.Machine.execHello p msg s
  | .helloTimeout p => Sys2Proof.Machine.execHelloTimeout p s
  | .bindLockoutEnd p => Sys2Proof.Machine.execBindLockoutEnd p s
  | .detach p => Sys2Proof.Machine.execDetach p s
  | .detachAck p => Sys2Proof.Machine.execDetachAck p s
  | .eventOverflow p => Sys2Proof.Machine.execEventOverflow p s
  | .act c bank row => Sys2Proof.Machine.execAct c bank row s
  | .pre c bank => Sys2Proof.Machine.execPre c bank s
  | .refpb c bank => Sys2Proof.Machine.execRefpb c bank s
  | .columnRead c bank line => Sys2Proof.Machine.execColumnRead c bank line s
  | .columnWrite c bank line => Sys2Proof.Machine.execColumnWrite c bank line s
  | .skrd c bank => Sys2Proof.Machine.execSkrd c bank s
  | .skwr c bank image => Sys2Proof.Machine.execSkwr c bank image s
  | .nopWord c => Sys2Proof.Machine.execNopWord c s
  | .refreshTimer c bank => Sys2Proof.Machine.execRefreshTimer c bank s
  | .budgetWindow c => Sys2Proof.Machine.execBudgetWindow c s
  | .fallbackExit c => Sys2Proof.Machine.execFallbackExit c s
  | .agePromotion c => Sys2Proof.Machine.execAgePromotion c s
  | .writeQueueEntry c => Sys2Proof.Machine.execWriteQueueEntry c s
  | .caParity c => Sys2Proof.Machine.execCaParity c s
  | .readRetry c bank row line => Sys2Proof.Machine.execReadRetry c bank row line s
  | .powerDownEntry c => Sys2Proof.Machine.execPowerDownEntry c s
  | .selfRefreshEntry c => Sys2Proof.Machine.execSelfRefreshEntry c s
  | .selfRefreshExit c => Sys2Proof.Machine.execSelfRefreshExit c s
  | .counterFlush pd line => Sys2Proof.Machine.execCounterFlush pd line s
  | .policerSweep pd late => Sys2Proof.Machine.execPolicerSweep pd late s
  | .heldRelease p => Sys2Proof.Machine.execHeldRelease p s
  | .gatePromote p tag => Sys2Proof.Machine.execGatePromote p tag s
  | .requestBusy p tag => Sys2Proof.Machine.execRequestBusy p tag s
  | .partnerPanicStuck p => Sys2Proof.Machine.execPartnerPanicStuck p s
  | .missWindow => Sys2Proof.Machine.execMissWindow s
  | .guaranteeRestored => Sys2Proof.Machine.execGuaranteeRestored s
  | .spotCheck c => Sys2Proof.Machine.execSpotCheck c s
  | .patrolRead c => Sys2Proof.Machine.execPatrolRead c s
  | .scrubLate c => Sys2Proof.Machine.execScrubLate c s
  | .sramWalk owner finding => Sys2Proof.Machine.execSramWalk owner finding s
  | .granuleRefill => Sys2Proof.Machine.execGranuleRefill s
  | .rekeyStep pd => Sys2Proof.Machine.execRekeyStep pd s
  | .keyLockoutEnd => Sys2Proof.Machine.execKeyLockoutEnd s
  | .verticalTrim c probe => Sys2Proof.Machine.execVerticalTrim c probe s
  | .trimRetry c probe => Sys2Proof.Machine.execTrimRetry c probe s
  | .shiftRepair c path wire probe => Sys2Proof.Machine.execShiftRepair c path wire probe s
  | .channelRetiring c => Sys2Proof.Machine.execChannelRetiring c s
  | .migrationCopy => Sys2Proof.Machine.execMigrationCopy s
  | .slabSwitchover => Sys2Proof.Machine.execSlabSwitchover s
  | .postPackageRepair c bank row => Sys2Proof.Machine.execPostPackageRepair c bank row s
  | .layerKeeper c => Sys2Proof.Machine.execLayerKeeper c s
  | .bondSample => Sys2Proof.Machine.execBondSample s
  | .bondStore => Sys2Proof.Machine.execBondStore s
  | .sensorSample k raw => Sys2Proof.Machine.execSensorSample k raw s
  | .throttleRecompute => Sys2Proof.Machine.execThrottleRecompute s
  | .governorWindow powerDw fixedDw quarterDw => Sys2Proof.Machine.execGovernorWindow powerDw fixedDw quarterDw s
  | .flowTest => Sys2Proof.Machine.execFlowTest s
  | .coolantFlowOk => Sys2Proof.Machine.execCoolantFlowOk s
  | .oclkTrim => Sys2Proof.Machine.execOclkTrim s
  | .refclkLost => Sys2Proof.Machine.execRefclkLost s
  | .refclkRestored => Sys2Proof.Machine.execRefclkRestored s
  | .pllUnlock pll => Sys2Proof.Machine.execPllUnlock pll s
  | .powerOnReset => Sys2Proof.Machine.execPowerOnReset s
  | .rstL high strap => Sys2Proof.Machine.execRstL high strap s
  | .wrstL high => Sys2Proof.Machine.execWrstL high s
  | .startupPhase report => Sys2Proof.Machine.execStartupPhase report s
  | .refclkWaitTimeout => Sys2Proof.Machine.execRefclkWaitTimeout s
  | .lockstepReset => Sys2Proof.Machine.execLockstepReset s
  | .watchdogReset => Sys2Proof.Machine.execWatchdogReset s
  | .coreRebootDone => Sys2Proof.Machine.execCoreRebootDone s
  | .patchProbation => Sys2Proof.Machine.execPatchProbation s
  | .eventSuppressed => Sys2Proof.Machine.execEventSuppressed s
  | .commandDone ticket m => Sys2Proof.Machine.execCommandDone ticket m s
  | .maintStart => Sys2Proof.Machine.execMaintStart s
  | .identify mb f => Sys2Proof.Machine.execIdentify mb f s
  | .deviceStatus mb f => Sys2Proof.Machine.execDeviceStatus mb f s
  | .taskStatus mb f => Sys2Proof.Machine.execTaskStatus mb f s
  | .logRead mb f => Sys2Proof.Machine.execLogRead mb f s
  | .alertAck mb f => Sys2Proof.Machine.execAlertAck mb f s
  | .sensorRead mb f => Sys2Proof.Machine.execSensorRead mb f s
  | .paramRead mb f => Sys2Proof.Machine.execParamRead mb f s
  | .paramWrite mb f => Sys2Proof.Machine.execParamWrite mb f s
  | .paramPersist mb f => Sys2Proof.Machine.execParamPersist mb f s
  | .partitionCreate mb f => Sys2Proof.Machine.execPartitionCreate mb f s
  | .partitionResize mb f => Sys2Proof.Machine.execPartitionResize mb f s
  | .partitionDelete mb f => Sys2Proof.Machine.execPartitionDelete mb f s
  | .partitionModify mb f => Sys2Proof.Machine.execPartitionModify mb f s
  | .partitionRights mb f => Sys2Proof.Machine.execPartitionRights mb f s
  | .partitionRekey mb f => Sys2Proof.Machine.execPartitionRekey mb f s
  | .keyLoad mb f => Sys2Proof.Machine.execKeyLoad mb f s
  | .keyClear mb f => Sys2Proof.Machine.execKeyClear mb f s
  | .tableCreate mb f => Sys2Proof.Machine.execTableCreate mb f s
  | .tableDelete mb f => Sys2Proof.Machine.execTableDelete mb f s
  | .tableSlotRelease mb f => Sys2Proof.Machine.execTableSlotRelease mb f s
  | .queueCreate mb f => Sys2Proof.Machine.execQueueCreate mb f s
  | .queueModify mb f => Sys2Proof.Machine.execQueueModify mb f s
  | .queueDelete mb f => Sys2Proof.Machine.execQueueDelete mb f s
  | .queueReset mb f => Sys2Proof.Machine.execQueueReset mb f s
  | .bufferReset mb f => Sys2Proof.Machine.execBufferReset mb f s
  | .collieSet mb f => Sys2Proof.Machine.execCollieSet mb f s
  | .portTrain mb f => Sys2Proof.Machine.execPortTrain mb f s
  | .portTest mb f => Sys2Proof.Machine.execPortTest mb f s
  | .laneGroupRestore mb f => Sys2Proof.Machine.execLaneGroupRestore mb f s
  | .laneRetune mb f => Sys2Proof.Machine.execLaneRetune mb f s
  | .vtrim mb f => Sys2Proof.Machine.execVtrim mb f s
  | .wireRepair mb f => Sys2Proof.Machine.execWireRepair mb f s
  | .rowRepair mb f => Sys2Proof.Machine.execRowRepair mb f s
  | .channelRetire mb f => Sys2Proof.Machine.execChannelRetire mb f s
  | .channelHold mb f => Sys2Proof.Machine.execChannelHold mb f s
  | .sensorRestore mb f => Sys2Proof.Machine.execSensorRestore mb f s
  | .deviceReset mb f => Sys2Proof.Machine.execDeviceReset mb f s
  | .quarterReset mb f => Sys2Proof.Machine.execQuarterReset mb f s
  | .blockReset mb f => Sys2Proof.Machine.execBlockReset mb f s
  | .bistRun mb f => Sys2Proof.Machine.execBistRun mb f s
  | .mbistRun mb f => Sys2Proof.Machine.execMbistRun mb f s
  | .calReport mb f => Sys2Proof.Machine.execCalReport mb f s
  | .maintStatus mb f => Sys2Proof.Machine.execMaintStatus mb f s
  | .maintCancel mb f => Sys2Proof.Machine.execMaintCancel mb f s
  | .patchLoad mb f => Sys2Proof.Machine.execPatchLoad mb f s
  | .patchActivate mb f => Sys2Proof.Machine.execPatchActivate mb f s
  | .featureEnable mb f => Sys2Proof.Machine.execFeatureEnable mb f s
  | .configExport mb f => Sys2Proof.Machine.execConfigExport mb f s
  | .configImport mb f => Sys2Proof.Machine.execConfigImport mb f s
  | .fuseRead mb f => Sys2Proof.Machine.execFuseRead mb f s
  | .fuseShadowSet mb f => Sys2Proof.Machine.execFuseShadowSet mb f s
  | .fuseBurn mb f => Sys2Proof.Machine.execFuseBurn mb f s
  | .fuseLock mb f => Sys2Proof.Machine.execFuseLock mb f s
  | .fuseReburn mb f => Sys2Proof.Machine.execFuseReburn mb f s
  | .memRead mb f => Sys2Proof.Machine.execMemRead mb f s
  | .memWrite mb f => Sys2Proof.Machine.execMemWrite mb f s
  | .windowRead mb f => Sys2Proof.Machine.execWindowRead mb f s
  | .windowWrite mb f => Sys2Proof.Machine.execWindowWrite mb f s
  | .mbData jtag pecOk write count bytes => Sys2Proof.Machine.execMbData jtag pecOk write count bytes s
  | .registerWrite jtag pecOk code bytes => Sys2Proof.Machine.execRegisterWrite jtag pecOk code bytes s
  | .entdaa address => Sys2Proof.Machine.execEntdaa address s
  | .setdasa static address => Sys2Proof.Machine.execSetdasa static address s
  | .setnewda address => Sys2Proof.Machine.execSetnewda address s
  | .rstdaa => Sys2Proof.Machine.execRstdaa s
  | .enec events => Sys2Proof.Machine.execEnec events s
  | .disec events => Sys2Proof.Machine.execDisec events s
  | .getpid => Sys2Proof.Machine.execGetpid s
  | .getbcr => Sys2Proof.Machine.execGetbcr s
  | .getdcr => Sys2Proof.Machine.execGetdcr s
  | .getstatus => Sys2Proof.Machine.execGetstatus s
  | .getmwl => Sys2Proof.Machine.execGetmwl s
  | .getmrl => Sys2Proof.Machine.execGetmrl s
  | .setmwl length => Sys2Proof.Machine.execSetmwl length s
  | .setmrl length => Sys2Proof.Machine.execSetmrl length s
  | .bypass tdi => Sys2Proof.Machine.execBypass tdi s
  | .idcode => Sys2Proof.Machine.execIdcode s
  | .samplePreload cells => Sys2Proof.Machine.execSamplePreload cells s
  | .extest cells => Sys2Proof.Machine.execExtest cells s
  | .clamp tdi => Sys2Proof.Machine.execClamp tdi s
  | .highz tdi => Sys2Proof.Machine.execHighz tdi s
  | .mbox dr => Sys2Proof.Machine.execMbox dr s
  | .wspSelect tdi => Sys2Proof.Machine.execWspSelect tdi s
  | .dieSelect tdi => Sys2Proof.Machine.execDieSelect tdi s
  | .railFault rail millivolts => Sys2Proof.Machine.execRailFault rail millivolts s
  | .vfusePresent millivolts => Sys2Proof.Machine.execVfusePresent millivolts s
  | .mbDoorbell jtag pecOk value => Sys2Proof.Machine.execMbDoorbell jtag pecOk value s
  | .railReturn rail => Sys2Proof.Machine.execRailReturn rail s
  | .warmRestartReady => Sys2Proof.Machine.execWarmRestartReady s
  | .blockResume b => Sys2Proof.Machine.execBlockResume b s
  | .detachCleanupDone p => Sys2Proof.Machine.execDetachCleanupDone p s
  | .configSnapshotExpiry => Sys2Proof.Machine.execConfigSnapshotExpiry s
  | .fallbackEntry c => Sys2Proof.Machine.execFallbackEntry c s
  | .trstL asserted => Sys2Proof.Machine.execTrstL asserted s
  | .holdoverReturnLock => Sys2Proof.Machine.execHoldoverReturnLock s

end Sys2Proof.Machine
end

