-- ==== Sys2Proof/Safety.lean ====
section
/-! DEFINITION. What the claims are stated in: a safe step, the canonical form of a state's sparse parts, a request that
passes its port, and a management command that its mailbox accepts. -/

namespace Sys2Proof.Safety

open Sys2Proof Sys2Proof.Machine

/-! ### Safe steps -/

/-- A step that ends in a next state. -/
def Completes (o : Out) : Prop := ∃ t, o = .next t

/-- The commands that arrive through a ball or a TAP of the `VDD_IO` domain (R549, R551). -/
def usesPins : Instr → Bool
  | .mbData _ _ _ _ _ | .registerWrite _ _ _ _ | .mbDoorbell _ _ _ | .entdaa _ | .setdasa _ _ | .setnewda _ | .rstdaa
  | .enec _ | .disec _ | .getpid | .getbcr | .getdcr | .getstatus | .getmwl | .getmrl | .setmwl _ | .setmrl _
  | .bypass _ | .idcode | .samplePreload _ | .extest _ | .clamp _ | .highz _ | .mbox _ | .wspSelect _ | .dieSelect _
  | .trstL _ | .rstL _ _ | .wrstL _ => true
  | _ => false

/-! ### The canonical form -/

/-- Every sparse part of a state in canonical form: keys strictly rising and no listed value equal to what an unlisted
key reads as. -/
def canonical (s : State) : Bool :=
  memWf s.dram && sparseWf 0 s.granuleMap && sparseWf {} s.queues && sparseWf 0 s.directory && sparseWf [] s.freeCaches &&
    sparseWf { low := 0, nominal := 0, high := 0 } s.fuses.words

/-! ### Requests -/

/-- A request's slots taken and its tag outstanding (R50, R124). -/
def entered (p : Fin 4) (op : BitVec 6) (r : Req) (s : State) : State :=
  modPort p (fun x => { x with outstanding := x.outstanding ++ [(r.hdr.tag, r.hdr.cls.toNat)] })
    (modLink p (fun l => { l with slotsTaken := l.slotsTaken + requestSlots op r }) s)

/-- The port serves requests and the tag is free (R50, R51, R125, R140). -/
def arrives (p : Fin 4) (r : Req) (s : State) : Bool := portServes s p && !tagOutstanding s.ports[p] r.hdr.tag

/-- No descriptor change waits on what the request names (R42). -/
def unquiesced (p : Fin 4) (op : BitVec 6) (r : Req) (s : State) : Bool := !quiesceHolds (entered p op r s) op r.hdr

/-- The job of a request as it is received. -/
def newJob (p : Fin 4) (op : BitVec 6) (r : Req) (s : State) : Job := jobOf (entered p op r s) p op r s.hubTimer

/-- A request that has left its port's ingress: its class's debits made, its slots free and its number taken at the
hub. -/
def numbered (p : Fin 4) (op : BitVec 6) (r : Req) (c : PortClass) (s : State) : State :=
  { freeSlots p (requestSlots op r) (modClass p (Fin.ofNat 8 r.hdr.cls.toNat) (fun _ => c) (entered p op r s)) with
    presented := s.presented + 1 }

/-- The job of an admitted request, with the hub's number. -/
def admittedJob (p : Fin 4) (op : BitVec 6) (r : Req) (s : State) : Job :=
  { newJob p op r s with order := s.presented }

/-- The state in which a request that waits for no channel is performed: `numbered`, and its promotion counted where its
age has reached the limit of its channel (R163). -/
def admitted (p : Fin 4) (op : BitVec 6) (r : Req) (c : PortClass) (s : State) : State :=
  match promotes (numbered p op r c s) { opcode := op, req := r, job := admittedJob p op r s, promoted := false } with
  | some k => countPromoted k (numbered p op r c s)
  | none => numbered p op r c s

/-- A request that passes the checks of R43 and that Collie lets pass with class state `c`, and that waits for no
channel and behind no earlier request. A fence waits for earlier requests and is not meant. -/
def passes (p : Fin 4) (op : BitVec 6) (r : Req) (c : PortClass) (s : State) : Bool :=
  arrives p r s && unquiesced p op r s && decide (checkRequest (entered p op r s) p op r = none) && !isFence op r &&
    decide (decideRequest (entered p op r s) p s.ports[p].held r (newJob p op r s) false = .pass c) &&
    decide (waitChannel (numbered p op r c s) (admittedJob p op r s) r = none)

/-- A request that passes is performed on the admitted state, and the port's panic is looked at. -/
def performed (perform : Perform) (p : Fin 4) (op : BitVec 6) (r : Req) (c : PortClass) (s : State) : State :=
  panicCheck p (perform (admittedJob p op r s) r (admitted p op r c s))

/-- A request that a check refuses ends with its status and is not charged (R43). -/
def refused (p : Fin 4) (op : BitVec 6) (r : Req) (st : QStatus) (s : State) : State :=
  panicCheck p (completeWith { newJob p op r s with charge := 0 } st (freeSlots p (requestSlots op r) (entered p op r s)))

/-! ### Ordered sets -/

/-- A received ordered set that its port acts on: the port is live with its gauge's clock running, the set is good and
its step is not stale (R82). -/
def setHeard (p : Fin 4) (os : BitVec 128) (s : State) : Bool :=
  portLive s p && clocked s s.ports[p].phy.gauge && osGood os && !osStale s.ports[p].phy os

/-! ### Links -/

/-- The replay buffer of a port in order: it holds exactly the flits sent and not acknowledged, with consecutive sequence
numbers from the oldest, at most 256 (R118, R121). -/
def replayInOrder (l : LinkState) : Bool :=
  decide (l.ackedNext ≤ l.txNext) && decide (l.replay.length ≤ 256) &&
    decide (l.replay.map (·.seq) = (List.range (l.txNext - l.ackedNext)).map (l.ackedNext + ·))

/-! ### Management commands -/

/-- The state in which a command that came through a mailbox runs: its frame in the request buffer, the mailbox busy
with it (R440, R443). -/
def begun (opcode : BitVec 16) (m : Fin 6) (f : Frame) (s : State) : State :=
  modMailbox m (fun x => { x with
    request := memWrite x.request 0 (frameBytes opcode f)
    lastSeq := some f.seq, busy := some (f.seq, opcode), notify := f.notify, commands := sat32 x.commands }) s

/-- The mailbox answers, holds no command, has not served this seq, and nothing holds the command back (R443, R435,
R446, R460). -/
def taken (opcode : BitVec 16) (m : Fin 6) (f : Frame) (s : State) : Bool :=
  mailboxServes s m && s.mailboxes[m].busy.isNone && decide (s.mailboxes[m].lastSeq ≠ some f.seq) &&
    !mustHold s opcode.toNat

/-- A command taken that passes steps 1 to 5 of R443. -/
def accepted (opcode : BitVec 16) (m : Fin 6) (f : Frame) (s : State) : Bool :=
  taken opcode m f s && (match checkCommand s m opcode f with | .ok _ => true | .error _ => false)

/-- What a command that answers at once leaves: its response written and its mailbox free (R442). -/
def answered (m : Fin 6) (data : List Byte) (s : State) : Out := .next (respondTo m { status := .ok, data := data } s)

/-- Room for one more task of a host (R445). -/
def roomForTask (s : State) : Bool := decide (outstandingTasks s < 32)

/-- The configuration store takes what a change command left, no record that it writes being stuck: `v` is `t` with the
generations of the changed records raised in both copies (R436, R437). -/
def stored (before t v : State) : Prop := commitStore before t = some v

/-- A task listed under the next ticket and its operation begun (R445). -/
def taskBegun (m : Fin 6) (opcode : BitVec 16) (w : Work) (begin_ : Task → State → State) (s : State) : State :=
  let t := newTask s m opcode .running w
  begin_ t (putTask t { s with nextTicket := ticketAfter s.nextTicket })

/-- What a command that starts a long operation leaves: ACCEPTED with a new ticket, its task running and the operation
begun (R445). -/
def startsTask (m : Fin 6) (opcode : BitVec 16) (w : Work) (begin_ : Task → State → State) (s : State) : Out :=
  .next (respondTo m { status := .accepted, ticket := s.nextTicket } (taskBegun m opcode w begin_ s))

/-- A maintenance activity that conflicts with nothing running and nothing ahead of it (R534). -/
def activityOpen (m : Fin 6) (opcode : BitVec 16) (w : Work) (s : State) : Bool :=
  roomForTask s && mayStart s (queuedTasks s) (newTask s m opcode .queued w)

/-- What a command leaves that waits at a quiesce point of its partition: nothing but the change that waits, behind those
already there (R42). -/
def waits (m : Fin 6) (pd : Fin 64) (c : Change) (s : State) : Out :=
  .next (modPartition pd (fun x => { x with pendingChanges := x.pendingChanges ++ [(c, some m)] }) s)

end Sys2Proof.Safety
end

