-- ==== Sys2Proof/Certificates/Slice0/Obligations.lean ====
section
/-! DEFINITION. The statements about the block: what each command does where its conditions hold, what stays as it was, and
the invariants of every step. -/

open Sys2Proof Sys2Proof.Machine Sys2Proof.Safety

/-! ### Requests -/

/-- A request that fails a check of R43 completes at once with that check's status, its slots freed and nothing of it
performed. R33, R35: a request whose opcode the table of R32 does not define completes UNSUPPORTED. R51: a request
whose tag is outstanding on its port completes at once, UNSUPPORTED with dup_tag set; the request that holds the tag
stays outstanding. The model's own readings in it: log entry 14. Shown to complete here: reservedOpcode. -/
def Obligations.RequestsRefusedAtTheirPort : Prop :=
  (∀ (p : Fin 4) (r : Req) (st : QStatus) (s : State), arrives p r s = true →
     let out (op : BitVec 6) : Out := .next (refused p op r st s)
     let fails (op : BitVec 6) : Prop := unquiesced p op r s = true ∧ checkRequest (entered p op r s) p op r = some st
     (fails opNop → exec (.nop p r) s = out opNop) ∧
     (fails opRead → exec (.read p r) s = out opRead) ∧
     (fails opWrite → exec (.write p r) s = out opWrite) ∧
     (fails opWriteMask → exec (.writeMask p r) s = out opWriteMask) ∧
     (fails opAtomAdd → exec (.atomAdd p r) s = out opAtomAdd) ∧
     (fails opAtomFadd → exec (.atomFadd p r) s = out opAtomFadd) ∧
     (fails opAtomSwap → exec (.atomSwap p r) s = out opAtomSwap) ∧
     (fails opAtomCas → exec (.atomCas p r) s = out opAtomCas) ∧
     (fails opAtomPadd → exec (.atomPadd128 p r) s = out opAtomPadd) ∧
     (fails opLookupExact → exec (.lookupExact p r) s = out opLookupExact) ∧
     (fails opLookupPrefix → exec (.lookupPrefix p r) s = out opLookupPrefix) ∧
     (fails opTableUpdate → exec (.tableUpdate p r) s = out opTableUpdate) ∧
     (fails opCtrUpdate → exec (.ctrUpdate p r) s = out opCtrUpdate) ∧
     (fails opPolUpdate → exec (.polUpdate p r) s = out opPolUpdate) ∧
     (fails opCtrRead → exec (.ctrRead p r) s = out opCtrRead) ∧
     (fails opEnqueue → exec (.enqueue p r) s = out opEnqueue) ∧
     (fails opDequeue → exec (.dequeue p r) s = out opDequeue) ∧
     (fails opQueueQuery → exec (.queueQuery p r) s = out opQueueQuery) ∧
     (fails opSkeinCopy → exec (.skeinCopy p r) s = out opSkeinCopy) ∧
     (fails opRowFill → exec (.rowFill p r) s = out opRowFill) ∧
     (fails opMailbox → exec (.mailbox p r) s = out opMailbox) ∧
     (fails opStatusRead → exec (.statusRead p r) s = out opStatusRead)) ∧
  (∀ (p : Fin 4) (op : BitVec 6) (r : Req) (s : State), arrives p r s = true → definedOps.contains op = false →
     unquiesced p op r s = true → exec (.reservedOpcode p op r) s = .next (refused p op r .unsupported s)) ∧
  (∀ (p : Fin 4) (op : BitVec 6) (perform : Perform) (r : Req) (s : State), portServes s p = true →
     tagOutstanding s.ports[p] r.hdr.tag = true →
     ∃ u, receive perform p op r s =
         handOver p
           { opcode := op, tag := r.hdr.tag, status := .unsupported, last := true, dupTag := true, kennel := false
             late := false, result := 0, data := [] } u ∧
       u.ports[p].outstanding = s.ports[p].outstanding ∧ u.ports[p].dupTags = s.ports[p].dupTags + 1 ∧ u.dram = s.dram)

/-- R50, R61: NOP completes at once, or with fence = 1, as it is received, waits for every request received earlier on
its port; no fence waits any longer for a tag whose completion has been sent, and completions are sent in their order;
FENCE_COMPLETE sends the completion of a fence that waits for none, and nothing of one that still waits. Shown to
complete here: nop, fenceComplete. -/
def Obligations.NopAndItsFence : Prop :=
  (∀ (p : Fin 4) (r : Req) (c : PortClass) (s : State), passes p opNop r c s = true →
    exec (.nop p r) s = .next (panicCheck p (completeWith (admittedJob p opNop r s) .ok (admitted p opNop r c s)))) ∧
  (∀ (p : Fin 4) (r : Req) (s : State), arrives p r s = true → checkRequest (entered p opNop r s) p opNop r = none →
    auxF r.hdr 0 0 = 1 →
    let j := newJob p opNop r s
    let u := freeSlots p (requestSlots opNop r) (entered p opNop r s)
    let waits := (u.ports[p].outstanding.map (·.1)).filter (· ≠ j.tag) ++ u.ports[p].sending.filterMap (·.1)
    (waits = [] → exec (.nop p r) s = .next (panicCheck p (completeWith j .ok u))) ∧
    (waits ≠ [] → exec (.nop p r) s = .next (panicCheck p (modPort p (fun x => { x with
      fences := x.fences ++ [{ job := j, waits := waits }] }) u)))) ∧
  (∀ (j : Job) (st : QStatus) (isolated kennel : Bool) (result : Word) (data : List Byte) (s : State),
    let t := completeAs j st isolated kennel result data s
    ∃ sent : List (Option (BitVec 14)),
      s.ports[j.port].sending.map (·.1) ++ [some j.tag] = sent ++ t.ports[j.port].sending.map (·.1) ∧
      t.ports[j.port].fences = s.ports[j.port].fences.map fun f => { f with
        waits := f.waits.filter fun g => !sent.contains (some g) }) ∧
  ∀ (p : Fin 4) (tag : BitVec 14) (s : State),
    (∀ f, s.ports[p].fences.find? (fun g => g.job.tag = tag ∧ g.waits = []) = some f →
      exec (.fenceComplete p tag) s =
        .next (completeWith f.job .ok (modPort p (fun x => { x with fences := x.fences.eraseP (fun g => g.job.tag = tag) }) s))) ∧
    (s.ports[p].fences.find? (fun g => g.job.tag = tag ∧ g.waits = []) = none → exec (.fenceComplete p tag) s = .next s)

/-- R32, R59: READ returns its lines in address order, or the first failure of one, and counts one Kennel miss of its
port-class where a line was served without caching; WRITE completes once every line has entered its write queue, and
stays open while lines wait for room; WRITE_MASK merges the bytes of its mask into the line it reads. The model's own
readings in it: log entries 16, 81. Shown to complete here: read, write, writeMask. -/
def Obligations.ReadsAndWritesComplete : Prop :=
  ∀ (p : Fin 4) (r : Req) (c : PortClass) (s : State),
    (passes p opRead r c s = true →
      let j := admittedJob p opRead r s
      let res := readLines (.port p) (some (ownerOf j)) (pdOf r.hdr) (linesTouched opRead r.hdr)
        { data := [], failed := none, kennel := true } (admitted p opRead r c s)
      let t := if res.1.uncached then countKennelMiss res.2 (pdOf r.hdr) (some (ownerOf j)) else res.2
      (res.1.failed = none → exec (.read p r) s =
        .next (panicCheck p (completeAs j .ok false res.1.kennel 0 res.1.data t))) ∧
      ∀ st iso, res.1.failed = some (st, iso) →
        exec (.read p r) s = .next (panicCheck p (completeAs j st iso false 0 [] t))) ∧
    (passes p opWrite r c s = true →
      let j := admittedJob p opWrite r s
      let is := linesTouched opWrite r.hdr
      let ls := is.mapIdx fun k i => (i, lineOf (bytesAt r.payload (64 * k) 64))
      ∀ n t, writeLines j (pdOf r.hdr) ls 0 none (admitted p opWrite r c s) = (n, none, t) →
        exec (.write p r) s =
          if n = 0 then .next (panicCheck p (completeWith j .ok t))
          else .next (panicCheck p (modPort p (fun x => { x with
            openWrites := x.openWrites ++ [{ job := j, remaining := n, status := .ok, isolated := false }] }) t))) ∧
    (passes p opWriteMask r c s = true → natAt r.payload 0 8 ≠ 2 ^ 64 - 1 →
      let j := admittedJob p opWriteMask r s
      let pd := pdOf r.hdr
      let i := r.hdr.address.toNat / 64
      let merge := mergeMask (natAt r.payload 0 8) (lineOf (bytesAt r.payload 16 64))
      ∀ old t, updateLine (.port p) pd i (halfRead (.port p) pd i) merge (admitted p opWriteMask r c s) = (.data old, t) →
        exec (.writeMask p r) s =
          .next (panicCheck p (completeWith j .ok (match kennelHit t pd i with
            | some k => kennelUpdate k (merge old) false t
            | none => kennelDrop pd i t))))

/-- R38, R268: an atomic changes the line at its channel to what R38 makes of the old one, drops a Kennel copy, and
returns the old word, or 0 for ATOM_ADD and ATOM_PADD128. R38: what an atomic makes of a word at an 8 B offset: a sum
modulo 2^64, the operand, or the operand where the old word equals the comparand; every bit outside the word, or the
pair of words of ATOM_PADD128, keeps its value. Shown to complete here: atomAdd, atomFadd, atomSwap, atomCas,
atomPadd128. -/
def Obligations.AtomicsAddSwapAndCompare : Prop :=
  (∀ (p : Fin 4) (r : Req) (c : PortClass) (op : BitVec 6) (i : Instr) (s : State),
     (op, i) ∈ [(opAtomAdd, Instr.atomAdd p r), (opAtomFadd, .atomFadd p r), (opAtomSwap, .atomSwap p r),
       (opAtomCas, .atomCas p r), (opAtomPadd, .atomPadd128 p r)] →
     passes p op r c s = true →
     let pd := pdOf r.hdr
     let n := r.hdr.address.toNat / 64
     let off := r.hdr.address.toNat % 64
     let new := atomicLine op off (natAt r.payload 0 8) (natAt r.payload 8 8)
     ∀ old t, updateLine (.port p) pd n (partitionRead (.port p) pd n) new (admitted p op r c s) = (.data old, t) →
       exec i s = .next (panicCheck p (complete (admittedJob p op r s) .ok
         (if op = opAtomAdd ∨ op = opAtomPadd then 0 else BitVec.ofNat 64 (lineGet old (8 * off) 64)) []
         (kennelDrop pd n t)))) ∧
  (∀ (w : Nat) (a b : Nat) (old : Line), w < 8 → a < 2 ^ 64 → b < 2 ^ 64 →
     let word (l : Line) (k : Nat) : Nat := lineGet l (64 * k) 64
     let sum := (word old w + a) % 2 ^ 64
     (word (atomicLine opAtomAdd (8 * w) a b old) w = sum) ∧ (word (atomicLine opAtomFadd (8 * w) a b old) w = sum) ∧
     (word (atomicLine opAtomSwap (8 * w) a b old) w = a) ∧
     (word (atomicLine opAtomCas (8 * w) a b old) w = if word old w = a then b else word old w) ∧
     (∀ op ∈ [opAtomAdd, opAtomFadd, opAtomSwap, opAtomCas], ∀ k, k < 8 → k ≠ w →
       word (atomicLine op (8 * w) a b old) k = word old k) ∧
     (w % 2 = 0 →
       word (atomicLine opAtomPadd (8 * w) a b old) w = sum ∧
       word (atomicLine opAtomPadd (8 * w) a b old) (w + 1) = (word old (w + 1) + b) % 2 ^ 64 ∧
       ∀ k, k < 8 → k ≠ w → k ≠ w + 1 → word (atomicLine opAtomPadd (8 * w) a b old) k = word old k))

/-- R189, R190: SKEIN_COPY copies its blocks in ascending order and completes OK, or DATA_ERROR with COPY_POISONED for
the first bad source line; ROW_FILL writes its pattern four times to every line of its blocks. The model's own
readings in it: log entries 16, 21. Shown to complete here: skeinCopy, rowFill. -/
def Obligations.RowBlocksCopiedAndFilled : Prop :=
  ∀ (p : Fin 4) (r : Req) (c : PortClass) (s : State),
    (passes p opSkeinCopy r c s = true →
      let u := admitted p opSkeinCopy r c s
      let j := admittedJob p opSkeinCopy r s
      let n := auxF r.hdr 47 36 + 1
      let srcs := blockList (auxF r.hdr 35 0) n
      let dsts := blockList r.hdr.address.toNat n
      ((srcs ++ dsts).any fun b => blockLost u (pdOf r.hdr) b) = false →
      (∀ t, copyBlocksLoop (.port p) (pdOf r.hdr) (srcs.zip dsts) none u = (none, t) →
        exec (.skeinCopy p r) s = .next (panicCheck p (completeWith j .ok t))) ∧
      ∀ a t, copyBlocksLoop (.port p) (pdOf r.hdr) (srcs.zip dsts) none u = (some a, t) →
        exec (.skeinCopy p r) s =
          .next (panicCheck p (completeWith j .dataError (raise 0x3014 12 0 [itAddress a] t)))) ∧
    (passes p opRowFill r c s = true →
      let u := admitted p opRowFill r c s
      let pat := bytesAt r.payload 0 16
      let dsts := blockList r.hdr.address.toNat (auxF r.hdr 11 0 + 1)
      (dsts.any fun b => blockLost u (pdOf r.hdr) b) = false →
      exec (.rowFill p r) s = .next (panicCheck p (completeWith (admittedJob p opRowFill r s) .ok
        (dsts.foldl (fun s b => countCopied (blockWrite (pdOf r.hdr) b
          (List.replicate 32 (some (lineOf (pat ++ pat ++ pat ++ pat)))) s)) u))))

/-- R198 to R208: a lookup reads its rows and completes OK with the result of the entry or node it finds, or with
result valid = 0 where it finds none. R201, R204, R210, R211, R214: TABLE_UPDATE reads the rows of its key, inserts an
entry into the preferred or the lowest free slot of its first bucket that has one, counts it and answers changed; a
delete of a key that is not there answers EMPTY; a directory entry written answers 1 and counts a commit. The model's
own readings in it: log entries 30, 31, 97, 109, 110. Shown to complete here: lookupExact, lookupPrefix, tableUpdate.
-/
def Obligations.LookupsAndTableUpdates : Prop :=
  (∀ (p : Fin 4) (r : Req) (c : PortClass) (s : State),
     let td := tdOf r.hdr
     let counted (u : State) : State := modTable td (fun t => { t with lookups := t.lookups + 1 }) u
     (passes p opLookupExact r c s = true →
       let u := admitted p opLookupExact r c s
       let j := admittedJob p opLookupExact r s
       let x := u.tables[td]
       let key := natAt r.payload 0 x.keyLen
       let found := exactSearch u td key s.hubTimer
       let t := readRows (.port p) td found.2 (counted u)
       (∀ pl, blockPlace u x.partition (x.baseBlock + (keyHash x key).b2) = some pl → channelWaits u j pl.channel = false) →
       (found.1 = .miss → exec (.lookupExact p r) s = .next (panicCheck p (complete j .ok 0 [] t))) ∧
       (∀ e, found.1 = .stash e → exec (.lookupExact p r) s =
         .next (panicCheck p (complete j .ok (BitVec.ofNat 64 (3 + entryFlags e * 2 ^ 8 + entryGen e * 2 ^ 24))
           (natToBytes 16 (entryResult e)) t))) ∧
       (∀ slot e, found.1 = .bucket true slot e → exec (.lookupExact p r) s =
         .next (panicCheck p (complete j .ok (BitVec.ofNat 64 (5 + slot * 2 ^ 3 + entryFlags e * 2 ^ 8 + entryGen e * 2 ^ 24))
           (natToBytes 16 (entryResult e)) t)))) ∧
     (passes p opLookupPrefix r c s = true →
       let u := admitted p opLookupPrefix r c s
       let j := admittedJob p opLookupPrefix r s
       let found := prefixSearch u td (natAt r.payload 0 u.tables[td].keyLen)
       let t := readRows (.port p) td found.2 (counted u)
       (found.1 = .node none false → exec (.lookupPrefix p r) s =
         .next (panicCheck p (complete j .ok (BitVec.ofNat 64 (found.2.length * 2 ^ 3)) [] t))) ∧
       ∀ e, found.1 = .node (some e) false → exec (.lookupPrefix p r) s =
         .next (panicCheck p (complete j .ok (BitVec.ofNat 64 (1 + found.2.length * 2 ^ 3 + nodeLength e * 2 ^ 8 +
           lineGet e 320 16 * 2 ^ 16)) (natToBytes 16 (lineGet e 192 128)) t)))) ∧
  (∀ (p : Fin 4) (r : Req) (c : PortClass) (s : State), passes p opTableUpdate r c s = true →
     let u := admitted p opTableUpdate r c s
     let j := admittedJob p opTableUpdate r s
     let td := tdOf r.hdr
     let x := u.tables[td]
     let img := lineOf r.payload
     quarterOut u x.home = false →
     (x.prefixKind = false →
       let h := keyHash x (entryKey x.keyLen img)
       let own := [x.baseBlock + h.b1, x.baseBlock + h.b2]
       let v := readRows (.port p) td own u
       let t := v.tables[td]
       firstLost u x.partition own = none → t.prefixKind = false → findEntry v t (entryKey t.keyLen img) = none →
       (auxF r.hdr 5 4 = 0 → t.entryCount ≠ 2 ^ (t.bucketLog2 + 5) → t.entryCount ≠ 268435456 →
         let k := keyHash t (entryKey t.keyLen img)
         ∀ i, freeSlot (blockPeek v t.partition (t.baseBlock + k.b1)) = some i →
         let pref := match (blockPeek v t.partition (t.baseBlock + k.b1)).getD k.slot none with
           | some l => !entryValid l
           | none => false
         exec (.tableUpdate p r) s = .next (panicCheck p (complete j .ok 1 []
           (setEntryCount td (t.entryCount + 1) (commitWrite td
             (.row (t.baseBlock + k.b1) (if pref then k.slot else i) (imageEntry img 0)) v))))) ∧
       (auxF r.hdr 5 4 = 1 → exec (.tableUpdate p r) s = .next (panicCheck p (completeWith j .empty v)))) ∧
     (x.prefixKind = true → auxF r.hdr 6 6 = 1 → auxF r.hdr 5 4 = 0 →
       let i := x.dirBase + auxF r.hdr 29 12
       let e : BitVec 64 := BitVec.ofNat 64 (natAt r.payload 0 8)
       u.directoryBad.contains i = false → directoryEntry u i = 0 →
       bitsOf e.toNat 1 0 ≠ 0 → x.entryCount < prefixLimit →
       exec (.tableUpdate p r) s = .next (panicCheck p (complete j .ok 1 []
         (commitCount td (.directory i) (setDirectory i e (setEntryCount td (x.entryCount + 1) u)))))))

/-- R255, R256, R261, R264, R274: a counter request takes its issue slots, changes its line where it is held or at its
channel, counts itself, and completes with its result: 0 for CTR_UPDATE, the colour for POL_UPDATE, the counters'
bytes for CTR_READ. R262, R266: COUNTER_FLUSH writes back a held line that is dirty, no earlier than ctr_flush_us
after it became so; a sweep of a COUNTER partition refills the policers of its region. The model's own readings in it:
log entry 35. Shown to complete here: ctrUpdate, polUpdate, ctrRead, counterFlush, policerSweep. -/
def Obligations.CountersCompleteAndFlush : Prop :=
  (∀ (p : Fin 4) (r : Req) (c : PortClass) (s : State),
     let pd := pdOf r.hdr
     let a := r.hdr.address.toNat
     (passes p opCtrUpdate r c s = true →
       let u := admitted p opCtrUpdate r c s
       let j := admittedJob p opCtrUpdate r s
       ∀ d t, counterOp j pd (a / 64) (counterChange u.partitions[pd].counter.saturate (a % 64) (auxF r.hdr 47 32)
           (auxF r.hdr 31 0)) (noteSlots pd (a / 64) 1 u) = (.done 0 d, t) →
         exec (.ctrUpdate p r) s = .next (panicCheck p
           (completeWith j .ok (modCounter pd (fun c => { c with ctrUpdates := c.ctrUpdates + 1 }) t)))) ∧
     (passes p opPolUpdate r c s = true →
       let u := admitted p opPolUpdate r c s
       let j := admittedJob p opPolUpdate r s
       ∀ colour d t, colour < 3 → counterOp j pd (a / 64) (policerChange (tickNow u) (a % 64) (auxF r.hdr 13 0)
           (auxF r.hdr 15 14)) (noteSlots pd (a / 64) 2 u) = (.done (BitVec.ofNat 64 colour) d, t) →
         exec (.polUpdate p r) s =
           .next (panicCheck p (complete j .ok (BitVec.ofNat 64 colour) [] (modCounter pd (fun c => { c with
             polUpdates := c.polUpdates + 1, polRed := if colour = 2 then c.polRed + 1 else c.polRed }) t)))) ∧
     (passes p opCtrRead r c s = true →
       let u := admitted p opCtrRead r c s
       let j := admittedJob p opCtrRead r s
       ∀ d t, counterOp j pd (a / 64) (counterRead (a % 64) (r.hdr.lengthCode.toNat + 1)
           (decide (auxF r.hdr 0 0 = 1))) (noteSlots pd (a / 64) 1 u) = (.done 0 d, t) →
         exec (.ctrRead p r) s = .next (panicCheck p (complete j .ok 0 d t)))) ∧
  ((∀ (pd : Fin 64) (line : BitVec 30) (k : KennelLine) (s : State), kennelHit s pd line.toNat = some k → k.dirty = true →
     exec (.counterFlush pd line) s =
       .next (kennelWriteBack k (passTo (k.dirtySince + 1000 * s.params.ctrFlushUs) s))) ∧
   ∀ (pd : Fin 64) (s : State), s.partitions[pd].valid = true → s.partitions[pd].ptype = .counter →
     exec (.policerSweep pd false) s =
       .next ((policerLines s.partitions[pd]).foldl (sweepLine (mapPolicers (policerRefill (s.hubTimer / 16 % 2 ^ 40))) pd) s))

/-- R254, R255: CTR_UPDATE adds its increments to the packet and byte fields of its counter, modulo 2^64 or stopping
at 2^64 − 1, and leaves the other words of the line. R261: after its refill a policer holds at most its burst sizes; a
green packet debits the committed bucket, and no bucket goes below zero or above its size. R281: neither bucket of a
port-class holds more than its burst size after a refill, and what a passing request of charge n leaves is the
refilled bucket or n bytes less. -/
def Obligations.CountersAndBucketsStayInBounds : Prop :=
  (∀ (saturate : Bool) (k packets bytes : Nat) (l : Line), k < 4 →
     let word (x : Line) (i : Nat) : Nat := lineGet x (64 * i) 64
     let sum (old inc : Nat) : Nat := if saturate then min (old + inc) (2 ^ 64 - 1) else (old + inc) % 2 ^ 64
     let new := (counterChange saturate (16 * k) packets bytes l).1
     word new (2 * k) = sum (word l (2 * k)) packets ∧ word new (2 * k + 1) = sum (word l (2 * k + 1)) bytes ∧
       ∀ i, i < 8 → i ≠ 2 * k → i ≠ 2 * k + 1 → word new i = word l i) ∧
  (∀ (now len colour : Nat) (p : Policer), policerRuns p = true →
     let q := policerRefill now p
     let r := policerColour len colour q
     q.tc ≤ p.cbs * 65536 ∧ q.tx ≤ p.xbs * 65536 ∧ r.1 ≤ 2 ∧ r.2.tc ≤ q.tc ∧ r.2.tx ≤ q.tx ∧
       (r.1 = 0 → len * 65536 ≤ q.tc ∧ r.2.tc = q.tc - len * 65536) ∧
       (r.1 = 2 → r.2 = q) ∧
       (p.aware = true → colour ≤ 2 → colour ≤ r.1)) ∧
  (∀ (now charge : Nat) (gated : Bool) (c : PortClass),
     let d := refillClass now c
     d.floorTokens ≤ ((c.floorBurst * 65536 : Nat) : Int) ∧ d.ceilTokens ≤ ((c.ceilingBurst * 65536 : Nat) : Int) ∧
     ∀ e, chargeClass d charge gated = .pass e →
       (e.floorTokens = d.floorTokens ∨ e.floorTokens = d.floorTokens - ((charge * 65536 : Nat) : Int) ∧ 0 ≤ e.floorTokens) ∧
       (e.ceilTokens = d.ceilTokens ∨ e.ceilTokens = d.ceilTokens - ((charge * 65536 : Nat) : Int) ∧ 0 ≤ d.ceilTokens) ∧
       (d.ceiling ≠ 0 → 0 ≤ d.ceilTokens) ∧ (gated = true → ((charge * 65536 : Nat) : Int) ≤ d.floorTokens))

/-- R232 to R239: ENQUEUE that the drop rule drops completes DROPPED and counts it; an admitted one takes its cells
and stands at the tail; DEQUEUE waits at its queue; QUEUE_QUERY answers the descriptor. R234 to R238: the oldest
admission whose lines are written is linked and its ENQUEUE completes OK; the waiting DEQUEUE that arrived first of
its slice starts, one of an empty queue completes EMPTY; a running stream hands over the packet at the head. The
model's own readings in it: log entries 32, 33. Shown to complete here: enqueue, dequeue, queueQuery, packetLink,
streamStart, dequeueHandover. -/
def Obligations.QueuesServeTheirRequests : Prop :=
  (∀ (p : Fin 4) (r : Req) (c : PortClass) (s : State),
     let q := queueOf r.hdr
     let pd := pdOf r.hdr
     (passes p opEnqueue r c s = true →
       let u := admitted p opEnqueue r c s
       let j := admittedJob p opEnqueue r s
       let n := packetCells (auxF r.hdr 31 18)
       bobbinIsolated u q = false → (queueAt u q).state ≠ .broken →
       (∀ f, dropRule u q n s.hubTimer = some f →
         exec (.enqueue p r) s = .next (panicCheck p (completeWith j .dropped (modBuffer pd f u)))) ∧
       (dropRule u q n s.hubTimer = none → ∀ cells t, takeCells (homeSlice q) pd n u = (cells, t) → cells.length = n →
         let spare := cells.getD (n - 1) 0
         let a : Admission := { job := j, length := auxF r.hdr 31 18, cells := (queueAt t q).tail :: cells.take (n - 1), spare := spare
                                admitted := t.hubTimer, payload := r.payload.take (auxF r.hdr 31 18), written := 0
                                ended := false, voided := false }
         exec (.enqueue p r) s = .next (panicCheck p (writeAdmission q a (modQueue q (fun y => { y with
           tail := spare, cells := y.cells + n, admissions := y.admissions ++ [a] })
           (modQuarter (homeSlice q) (fun x => { x with enqTimes := noteTime t.hubTimer x.enqTimes }) t)))))) ∧
     (passes p opDequeue r c s = true →
       let u := admitted p opDequeue r c s
       let budget := auxF r.hdr 31 18
       let packets := decide (auxF r.hdr 32 32 = 1)
       bobbinIsolated u q = false → (queueAt u q).state ≠ .broken →
       exec (.dequeue p r) s = .next (panicCheck p (watchGates (modQueue q (fun y => { y with
         streams := y.streams ++ [{ job := admittedJob p opDequeue r s, byPackets := packets
                                    remaining := if packets then budget else 256 * budget
                                    first := true, running := false }] }) u)))) ∧
     (passes p opQueueQuery r c s = true → quarterOut (admitted p opQueueQuery r c s) (homeSlice q) = false →
       exec (.queueQuery p r) s = .next (panicCheck p (complete (admittedJob p opQueueQuery r s) .ok 0
         (queueDescriptor (queueAt (admitted p opQueueQuery r c s) q)) (admitted p opQueueQuery r c s))))) ∧
  (∀ (q : BitVec 18) (s : State),
     let n := q.toNat
     let slice := homeSlice n
     (blockStopped s (.bobbin slice) = false → quarterOut s slice = false →
       let u := settleVoids n s
       ∀ b bs, (queueAt u n).admissions = b :: bs →
         let v := writeAdmission n b u
         ∀ a rest, (queueAt v n).admissions = a :: rest → admissionWritten a = true → a.voided = false → a.ended = false →
         let t := modQueue n (fun y => { y with admissions := rest, packets := y.packets + 1 }) v
         let t := modBuffer (queuePd t n) (fun b => { b with enqPackets := b.enqPackets + 1 }) t
         exec (.packetLink q) s = .next (skim n (complete a.job .ok
           (BitVec.ofNat 64 ((queueAt t n).packets + (queueAt t n).cells * 2 ^ 24 + packetCells a.length * 2 ^ 48)) [] t))) ∧
     (blockStopped s (.bobbin slice) = false →
       let u := skim n (settleVoids n s)
       ∀ t rest, (queueAt u n).streams = t :: rest → t.running = false → runningStreams u slice < 512 →
         earlierStream u n t = false → bobbinIsolated u n = false → (queueAt u n).state ≠ .broken →
         exec (.streamStart q) s =
           if (queueAt u n).packets = 0 then .next (endStream n t .empty false u)
           else .next (watchGates (modQueue n (fun y => { y with streams := { t with running := true } :: rest }) u))) ∧
     (blockStopped s (.bobbin slice) = false → bobbinIsolated s n = false → (queueAt s n).state ≠ .broken →
       (queueAt s n).packets ≠ 0 → cellsReady s (queuePd s n) [(queueAt s n).head] = true →
       ∀ t rest cells next len time bytes u, (queueAt s n).streams = t :: rest → t.running = true →
         readPacket (.port t.job.port) n s = (.whole cells next len time bytes, u) →
         cellsReady s (queuePd s n) cells = true → packetCredit s t.job.port len = true →
         exec (.dequeueHandover q) s = .next (handPacket n t cells next len time bytes u)))

/-- R34, R440, R490: MAILBOX reads the response buffer, or writes the request buffer and rings the doorbell if it is
told to; STATUS_READ answers the window's lines from its address. The model's own readings in it: log entry 106. Shown
to complete here: mailbox, statusRead. -/
def Obligations.MailboxAndWindowRequests : Prop :=
  ∀ (p : Fin 4) (r : Req) (c : PortClass) (s : State),
    (passes p opMailbox r c s = true →
      let u := admitted p opMailbox r c s
      let j := admittedJob p opMailbox r s
      let m : Fin 6 := Fin.ofNat 6 p.val
      let a := r.hdr.address.toNat
      let n := 64 * (r.hdr.lengthCode.toNat + 1)
      (auxF r.hdr 0 0 = 1 → 16 ≤ a → exec (.mailbox p r) s =
        .next (panicCheck p (complete j .ok 0 (memBytes u.mailboxes[m].response a n) u))) ∧
      (auxF r.hdr 0 0 = 1 → a < 16 → exec (.mailbox p r) s =
        .next (panicCheck p (complete j .ok 0 (memBytes u.mailboxes[m].response a n)
          (modMailbox m (fun x => { x with respReady := false }) u)))) ∧
      (auxF r.hdr 0 0 = 0 → auxF r.hdr 1 1 = 0 → exec (.mailbox p r) s = .next (panicCheck p (completeWith j .ok
        (modMailbox m (fun x => { x with request := memWrite x.request a (bytesAt r.payload 0 n) }) u)))) ∧
      (auxF r.hdr 0 0 = 0 → auxF r.hdr 1 1 = 1 → exec (.mailbox p r) s =
        .next (panicCheck p (completeWith j .ok (ringDoorbell m
          (modMailbox m (fun x => { x with request := memWrite x.request a (bytesAt r.payload 0 n) }) u)))))) ∧
    (passes p opStatusRead r c s = true →
      exec (.statusRead p r) s = .next (panicCheck p (complete (admittedJob p opStatusRead r s) .ok 0
        (windowBytes (admitted p opStatusRead r c s) r.hdr.address.toNat (r.hdr.lengthCode.toNat + 1))
        (admitted p opStatusRead r c s))))

/-- R99, R282, R284, R285, R287: held requests are evaluated in order of arrival, and wait while their port is in
SWITCH or RECOVERY; one that the gate held for hold_promote_us passes regardless of it; at hold_limit_us the port's
held requests are evaluated, and one that stays held completes BUSY unexecuted; a partner panic that lasts
panic_max_us is ignored. R298, R301: GUARANTEE_RESTORED restores, in the reverse of the trim order, the trimmed
guarantees whose room has lasted restore_hold_s; the end of a miss window judges each port-class in turn. The model's
own readings in it: log entries 37, 82. Shown to complete here: heldRelease, gatePromote, requestBusy,
partnerPanicStuck, guaranteeRestored, missWindow. -/
def Obligations.HeldRequestsAndGuarantees : Prop :=
  (∀ (p : Fin 4) (s : State),
     (let u := serveReady s
      exec (.heldRelease p) s = if linkHolds u p then .next u
       else .next (panicCheck p (u.ports[p].held.foldl (fun s e => evaluate (performOf e.opcode) p e s)
         (modPort p (fun x => { x with held := [] }) u)))) ∧
     (∀ tag e, s.ports[p].held.find? (fun e => e.req.hdr.tag = tag ∧ e.reason = .gate) = some e →
       exec (.gatePromote p tag) s = .next (releaseHeld p (modPort p (fun x => { x with
         held := x.held.map fun h => if h.req.hdr.tag = tag then { h with passGate := true } else h })
         (passTo (e.job.arrived + 1000 * s.params.holdPromoteUs) s)))) ∧
     (∀ tag e, s.ports[p].held.find? (fun e => e.req.hdr.tag = tag) = some e →
       let u := releaseHeld p (serveReady (passTo (e.job.arrived + 1000 * s.ports[p].holdLimitUs) s))
       (u.ports[p].held.find? (fun e => e.req.hdr.tag = tag) = none → exec (.requestBusy p tag) s = .next u) ∧
       ∀ f, u.ports[p].held.find? (fun e => e.req.hdr.tag = tag) = some f →
         exec (.requestBusy p tag) s = .next (panicCheck p (completeWith { f.job with charge := 0 }
           .busy (raiseLimited 0x6016 1 p (fun n => [itCount n]) (freeSlots p (requestSlots f.opcode f.req)
             (modPort p (fun x => { x with
               held := x.held.eraseP fun h => h.req.hdr.tag = tag, busyCount := sat32 x.busyCount })
               (passTo (f.job.arrived + 1000 * u.ports[p].holdLimitUs) u))))))) ∧
     (s.ports[p].link.partnerPanic = true → s.ports[p].link.panicIgnored = false → s.ports[p].panicMax ≠ 0 →
       exec (.partnerPanicStuck p) s = .next (raise 0x6015 1 p [] (modLink p (fun l => { l with panicIgnored := true })
         (noteTriggers (passTo (s.ports[p].link.panicSince + 1000 * s.ports[p].panicMax) s)))))) ∧
  ((∀ (t : Nat) (s : State), firstRoom s = some t →
     exec .guaranteeRestored s =
       .next (noteRooms false (trimOrder.reverse.foldl restoreClass (passTo (t + s.params.restoreHoldS * secondNs) s)))) ∧
   ∀ s, exec .missWindow s = .next (trimOrder.foldl windowClass s))

/-! ### Containment -/

/-- R19, R20: a block that serves is fenced with its event, its accepted work ended by the effect of its kind; the
third fence within 24 h keeps it fenced and says so; a fence of a Kennel slice makes the ledger anew. R20, R426: a
block whose reset ends serves again: it is unfenced, it takes up its work and BLOCK_RESUMED is raised. The model's own
readings in it: log entry 38. Shown to complete here: blockFence, blockResume. -/
def Obligations.BlocksFenceAndResume : Prop :=
  (∀ (b : BlockId) (sramFailed : Bool) (s : State), blockStopped s b = false → s.device.fatal = false →
     (∀ q, quarterOf b = some q → quarterOut s q = false) →
     let recent := (blockAt s b).fenceTimes.filter fun t => s.hubTimer < t + 24 * 3600 * 1000000000
     let stays := decide (2 ≤ recent.length)
     let u := fenceEffect b sramFailed (modBlock b (fun x => { x with
       fenced := true, fenceTimes := recent ++ [s.hubTimer], sramFailed := sramFailed, kept := stays }) s)
     let t := raiseBlock (fenceEvent b) b (if stays then [itOpenReason (fenceEvent b) 1] else []) u
     exec (.blockFence b sramFailed) s = .next (serveReady (match b with | .kennel _ => recomputeLedger s t | _ => t))) ∧
  (∀ (b : BlockId) (s : State), (blockAt s b).resetting = true →
     let u := raiseBlock 0x0015 b [] (resumeEffect b (modBlock b (fun x => { x with
       fenced := false, resetting := false, kept := false, sramFailed := false }) s))
     exec (.blockResume b) s = .next (serveReady (match b with | .kennel _ => recomputeLedger s u | _ => u)))

/-- R16, R17: a fence that does not complete isolates the block's quarter, or is FATAL where the block belongs to
none; an isolation that does not complete within 100 µs is FATAL with the event that triggered it. R17: two counted
isolations within 100 µs of each other are FATAL; R22, R382: an isolation writes what the Kennel and the reserve hold
for the quarter, stops its port, ends its work and stops its channels; R423, R565: one that completes raises
QUARTER_ISOLATED, SERVICE where the quarter stays isolated or q_auto_reset is 0, and waits for its reset, which starts
at once where no other runs, or stays isolated at the second one within 24 h. The model's own readings in it: log
entries 39, 75, 117. Shown to complete here: fenceTimeout, isolationTimeout, quarterIsolation, quarterIsolated,
quarterResetDone. -/
def Obligations.QuartersIsolateAndReset : Prop :=
  ((∀ (b : BlockId) (q : Fin 4) (s : State), quarterOf b = some q →
     exec (.fenceTimeout b) s = .next (serveReady (isolateQuarter q 0 (BitVec.ofNat 16 (fenceEvent b)) s))) ∧
   (∀ (b : BlockId) (s : State), quarterOf b = none →
     exec (.fenceTimeout b) s = .next (serveReady (fatalNow 0 (fenceEvent b) s))) ∧
   ∀ (q : Fin 4) (s : State), s.quarters[q].isolating = true →
     exec (.isolationTimeout q) s =
       .next (fatalNow 2 s.quarters[q].trigger (passTo (s.quarters[q].isolatedAt + 100000) s))) ∧
  ((∀ (q k : Fin 4) (cause : BitVec 4) (code : BitVec 16) (s : State), k ≠ q → cause ≠ 3 → cause ≠ 4 →
     s.quarters[q].isolating = false → s.quarters[q].state = .inService → s.device.fatal = false →
     (∃ t ∈ s.quarters[k].isolations, s.hubTimer < t + 100000) →
     let recent := s.quarters[q].isolations.filter fun t => s.hubTimer < t + 24 * 3600 * 1000000000
     exec (.quarterIsolation q cause code) s = .next (serveReady (fatalNow 1 code.toNat (modQuarter q (fun y => { y with
       isolating := true, isolatedAt := s.hubTimer, cause := cause.toNat, trigger := code.toNat
       isolations := recent ++ [s.hubTimer] }) s)))) ∧
   (∀ (q : Fin 4) (cause : BitVec 4) (code : BitVec 16) (s : State), cause ≠ 3 → cause ≠ 4 →
     s.quarters[q].isolating = false → s.quarters[q].state = .inService → s.device.fatal = false →
     (∀ k : Fin 4, k ≠ q → ∀ t ∈ s.quarters[k].isolations, t + 100000 ≤ s.hubTimer) →
     let recent := s.quarters[q].isolations.filter fun t => s.hubTimer < t + 24 * 3600 * 1000000000
     let u := modQuarter q (fun y => { y with
       isolating := true, isolatedAt := s.hubTimer, cause := cause.toNat, trigger := code.toNat
       isolations := recent ++ [s.hubTimer] }) (if s.quarters[q].pllLocked then quarterFlush q s else s)
     let v := endNeeding (fun b => decide (quarterOf b = some q)) .dataError true (isolateBobbin q (dropPort q 6 u))
     exec (.quarterIsolation q cause code) s = .next (serveReady ((List.finRange 32).foldl (fun s (c : Fin 32) =>
       if c.val / 8 = q.val then
         let w := endWaiting c .dataError true s
         if w.quarters[q].pllLocked && channelRuns w c then stopChannel c w
         else closeBanks c (modChannel c (fun x => { x with
           clockLost := !w.quarters[q].pllLocked && decide (x.state ≠ .selfRefresh)
           state := if x.state = .retired then .retired else .selfRefresh }) w)
       else s) v))) ∧
   (∀ (q : Fin 4) (s : State), s.quarters[q].isolating = true →
     let recent := s.quarters[q].isolations.filter fun t => s.hubTimer < t + 24 * 3600 * 1000000000
     let items := [itReason s.quarters[q].cause, itEvent s.quarters[q].trigger]
     (recent.length < 2 → s.quarters[q].cause ≠ 4 → s.quarters[q].autoReset = true →
       exec (.quarterIsolated q) s = .next (nextQuarterReset (raiseAs 0x001B 2 1 5 q items
         (modQuarter q (fun y => { y with isolating := false, state := .isolated }) s)))) ∧
     (s.quarters[q].cause = 3 → exec (.quarterIsolated q) s = .next (nextQuarterReset
       (raiseAs 0x001B 2 (if s.quarters[q].autoReset then 1 else 2) 5 q items
         (modQuarter q (fun y => { y with isolating := false, state := .isolated }) s)))) ∧
     (2 ≤ recent.length → s.quarters[q].cause ≠ 3 →
       exec (.quarterIsolated q) s = .next (nextQuarterReset (raiseAs 0x001B 2 2 5 q items
         (modQuarter q (fun y => { y with isolating := false, state := .heldIsolated }) s))))) ∧
   ∀ (q : Fin 4) (s : State), s.quarters[q].state = .resetting →
     let u := quarterBlocksBack q (quarterChannelsBack q s.quarters[q].isolatedAt (modQuarter q (fun y => { y with
       state := .inService, pllLocked := true, pllBand := lockBand s }) s))
     let v := quarterFlush q (voidAdmissions (fun k _ => decide (homeSlice k = q)) u)
     let w := raise 0x0014 5 q [] (endTasks (fun t => decide (t.work = .quarterReset q)) .ok
       (quarterPolicers q s.quarters[q].isolatedAt v))
     let t := if w.ports[q].phy.enable then toDetect q w else w
     exec (.quarterResetDone q) s = .next (serveReady (nextQuarterReset (recomputeLedger t t))))

/-! ### Lanes and training -/

/-- R80, R82: a set with a bad CRC or an unlisted kind is discarded and counted on its lane, where it ends the run of
equal sets, and changes nothing else. R81, R91, R98, R102: what the other sets do: GAUGE_SWITCH takes the port to a
common gauge, IDLE_ENTER and IDLE_EXIT mark the receive direction, FCK_DOWN starts the fallback from G106 while REFCLK
is there, LOOP_REQ names a loopback in ACQUIRE, and ALIGN is only counted. The model's own readings in it: log entries
43, 92. Shown to complete here: ts1, ts2, tsEq, tsCheck, gaugeSwitch, idleEnter, idleExit, fckDown, loopReq, align. -/
def Obligations.ControlSetsTakeEffect : Prop :=
  (∀ (p : Fin 4) (lane : Fin 16) (inv fck : Bool) (ask : BitVec 6) (os : BitVec 128) (s : State),
     portLive s p = true → clocked s s.ports[p].phy.gauge = true → osGood os = false →
     let out : Out := .next (modLane p lane (fun l => { l with osDiscard := min 65535 (l.osDiscard + 1), sets := 0 }) s)
     exec (.ts1 p lane ⟨inv, fck⟩ os) s = out ∧ exec (.ts2 p lane os) s = out ∧ exec (.tsEq p lane ⟨os, ask⟩) s = out ∧
       exec (.tsCheck p lane os) s = out ∧ exec (.gaugeSwitch p lane os) s = out ∧ exec (.idleEnter p lane os) s = out ∧
       exec (.idleExit p lane os) s = out ∧ exec (.fckDown p lane os) s = out ∧ exec (.loopReq p lane os) s = out ∧
       exec (.align p lane os) s = out) ∧
  (∀ (p : Fin 4) (lane : Fin 16) (os : BitVec 128) (s : State), setHeard p os s = true →
     let x := s.ports[p].phy
     let h := modLane p lane (fun l => loopBack x os (countSet os l)) s
     let sent (t : State) : Out := .next (modPort p announce t)
     let g := gaugeOf (bitsOf os.toNat 73 72)
     (osKind os = 0xA5 → x.state = .active → gaugeCommon x g = true → g ≠ x.gauge → x.climb = .up →
       exec (.gaugeSwitch p lane os) s =
         sent (startSwitch p g (if gaugeCode g < gaugeCode x.gauge then .back else .up)
           (modPhy p (fun x => { x with bestGauge := x.gauge, bestMask := x.rxMask &&& x.txMask }) h))) ∧
     (osKind os = 0xA6 → x.state = .active →
       exec (.idleEnter p lane os) s = sent (modPhy p (fun x => { x with rxIdle := true }) h)) ∧
     (osKind os = 0xA7 → x.state = .active →
       exec (.idleExit p lane os) s = sent (modPhy p (fun x => { x with rxIdle := false }) h)) ∧
     (osKind os = 0xA8 → x.state = .active → x.gauge = .g106 → s.device.refclk ≠ 1 →
       exec (.fckDown p lane os) s = sent (startSwitch p (fallbackGauge { x with fckLost := true }) .fallback
         (raise 0x1016 1 p [] (modPhy p (fun x => { x with fckLost := true }) h)))) ∧
     (osKind os = 0xA9 → x.state = .acquire → bitsOf os.toNat 73 72 < 3 →
       exec (.loopReq p lane os) s =
         sent (modPort p announce (modPhy p (fun x => { x with loop := some (bitsOf os.toNat 73 72) }) h))) ∧
     (osKind os = 0xAA → exec (.align p lane os) s = sent h))

/-- R66, R68, R83, R84, R90: what the training sets do in the states that wait for them, the set counted on its lane
first: TS1 locks its lane, and eight in a row on every locked lane end ACQUIRE for ALIGN; acknowledged TS1 in straight
or reversed order end ALIGN; TS2 brings the partner's gauges and ends CAPS for EQ; TS_EQ moves the taps, once for a
request that stands, and with both sides at hold ends EQ for CHECK; TS_CHECK brings the partner's verdict on its lane.
The model's own readings in it: log entries 41, 87, 111. Shown to complete here: ts1, ts2, tsEq, tsCheck. -/
def Obligations.TrainingSetsAdvanceTheirStates : Prop :=
  ∀ (p : Fin 4) (lane : Fin 16) (inv fck : Bool) (os : BitVec 128) (s : State), setHeard p os s = true →
    let x := s.ports[p].phy
    let h := modLane p lane (fun l => loopBack x os (countSet os l)) s
    let sent (t : State) : Out := .next (modPort p announce t)
    (osKind os = 0xA1 → x.state = .acquire →
      let u := modPhy p (fun y => { y with fckSwapped := fck }) (modLane p lane (fun l => { l with
        locked := true, swapped := inv, partnerLane := bitsOf os.toNat 11 8 }) h)
      let all := groupsWith u.ports[p] (·.locked)
      let locked := if x.climb = .up ∧ x.gauge = .g10 then all else all &&& x.rxMask
      let enough := x.latched.widthMin ≤ maskLanes locked ∧
        lanesAll u.ports[p] locked (fun l => decide (l.sets = 8) && decide (l.setKind = 0xA1)) = true
      (¬enough → exec (.ts1 p lane ⟨inv, fck⟩ os) s = sent u) ∧
      (enough → exec (.ts1 p lane ⟨inv, fck⟩ os) s = sent (enterState p .align (fun y => { y with
        rxMask := locked
        txMask := if y.climb = .up ∧ y.gauge = .g10 then locked else y.txMask
        acquireTimeouts := 0, trainFailedRaised := false, loop := none }) u))) ∧
    (osKind os = 0xA1 → x.state = .align →
      let u := noteAck p lane (osAck os) h
      let order (f : Nat → Nat) := ∀ i : Fin 16, maskHas x.rxMask i = true → u.ports[p].lanes[i].partnerLane = f i
      (lanesAll u.ports[p] x.rxMask (·.acked) = false → exec (.ts1 p lane ⟨inv, fck⟩ os) s = sent u) ∧
      (lanesAll u.ports[p] x.rxMask (·.acked) = true → order id →
        exec (.ts1 p lane ⟨inv, fck⟩ os) s = sent (afterAlign p (modPhy p (fun y => { y with reversed := false }) u))) ∧
      (lanesAll u.ports[p] x.rxMask (·.acked) = true → order (15 - ·) → ¬order id →
        exec (.ts1 p lane ⟨inv, fck⟩ os) s = sent (afterAlign p (modPhy p (fun y => { y with reversed := true }) u)))) ∧
    (osKind os = 0xA2 → x.state = .caps →
      let n := os.toNat
      let u := modPhy p (fun x => { x with
        partnerGauges := BitVec.ofNat 4 (bitsOf n 17 14), partnerFck := bitAt n 18, partnerPrecode := bitAt n 19
        partnerReversal := bitAt n 20 }) (noteAck p lane (osAck os) h)
      (lanesAll u.ports[p] x.rxMask (·.acked) = false → exec (.ts2 p lane os) s = sent u) ∧
      (lanesAll u.ports[p] x.rxMask (·.acked) = true →
        exec (.ts2 p lane os) s = sent (enterEq p false (modPhy p (fun y => { y with
          highest := highestGauge u p, bestMask := 0, bestGauge := .g10 }) u)))) ∧
    (osKind os = 0xA3 → x.state = .eq → ∀ ask,
      let u := modLane p lane (fun l => { takeRequest x.gauge os l with
        ask := ask, acked := osAck os && decide (bitsOf os.toNat 34 29 = 0) }) h
      let held := lanesAll u.ports[p] x.rxMask (fun l => l.acked && decide (l.ask = 0) && laneAck x 0xA3 l)
      (held = false → exec (.tsEq p lane ⟨os, ask⟩) s = sent u) ∧
      (held = true → exec (.tsEq p lane ⟨os, ask⟩) s = sent (enterState p .check id u))) ∧
    (osKind os = 0xA4 → x.state = .check →
      let u := modLane p lane (fun l => { l with txPass := os.getLsbD 38 }) (noteAck p lane (osAck os) h)
      let judged := x.judged && lanesAll u.ports[p] x.rxMask (·.acked)
      (judged = false → exec (.tsCheck p lane os) s = sent u) ∧
      (judged = true → x.quick = false → exec (.tsCheck p lane os) s = sent (stepEnd p u)) ∧
      (judged = true → x.quick = true → exec (.tsCheck p lane os) s = sent (quickEnd p u)))

/-- R88: no request of the partner takes a transmitter's coefficients out of their limits. The model's own readings in
it: log entry 87. -/
def Obligations.TapsStayLegal : Prop :=
  ∀ (g : Gauge) (os : BitVec 128) (l : Lane), tapsLegal g l.taps = true → tapsLegal g (applyRequests g os l).taps = true

/-- R83, R85, R108: receiver detect with activity begins ACQUIRE at G10 with the parameters of a new training, and
without it counts DETECT anew; each training state that times out goes where R83 sends it, the hub timer having passed
its timeout; the third ACQUIRE timeout of a run raises TRAIN_FAILED. R84, R98, R564: the 5 ms count of CHECK judges
each lane of the receive mask against its gauge's threshold, and the 1 ms count of a fallback CHECK against a fifth of
it; CHECK ends with that where the partner's verdicts are already there, and a fallback CHECK in which every lane of
the masks passes on both sides takes the port to ACTIVE. The model's own readings in it: log entries 2, 41, 42, 90.
Shown to complete here: receiverDetect, acquireTimeout, alignTimeout, capsTimeout, eqTimeout, checkTimeout,
switchTimeout, newGaugeLock, checkWindowEnd, fallbackCheckEnd. -/
def Obligations.TrainingTimeoutsAndChecks : Prop :=
  (∀ (p : Fin 4) (s : State), portLive s p = true →
     let x := s.ports[p].phy
     (x.state = .detect → ∀ activity : BitVec 16,
       let u := passTo (x.since + 1000000) s
       (activity = 0 → exec (.receiverDetect p activity) s =
         .next (modPhy p (fun y => { y with since := u.hubTimer, acquireTimeouts := 0, trainFailedRaised := false }) u)) ∧
       (activity ≠ 0 → exec (.receiverDetect p activity) s =
         .next (enterAcquire p (fun y => latchTraining u { y with gauge := .g10, climb := .up, stepId := 0 }) u))) ∧
     (x.state = .acquire → x.climb ≠ .recover →
       let u := failTraining p (modPhy p (fun y => { y with acquireTimeouts := x.acquireTimeouts + 1 })
         (passTo (x.since + 12000000) s))
       (2 ≤ x.acquireTimeouts → x.trainFailedRaised = false → exec (.acquireTimeout p) s =
         .next (raise 0x1010 1 p [] (modPhy p (fun y => { y with trainFailedRaised := true }) u))) ∧
       (x.acquireTimeouts < 2 ∨ x.trainFailedRaised = true → exec (.acquireTimeout p) s = .next u)) ∧
     (x.state = .align → exec (.alignTimeout p) s = .next (enterAcquire p id (passTo (x.since + 4000000) s))) ∧
     (x.state = .caps → exec (.capsTimeout p) s = .next (enterAcquire p id (passTo (x.since + 4000000) s))) ∧
     (x.state = .eq →
       let u := passTo (x.since + 16000000) s
       let m := heldGroups s.ports[p]
       (mayRetry x = true → exec (.eqTimeout p) s = .next (enterEq p true u)) ∧
       (mayRetry x = false → m ≠ 0 → x.latched.widthMin ≤ maskLanes m → exec (.eqTimeout p) s =
         .next (enterState p .check (fun y => { y with rxMask := m, txMask := m }) u)) ∧
       (mayRetry x = false → m = 0 ∨ maskLanes m < x.latched.widthMin → exec (.eqTimeout p) s = .next (stepGone p u))) ∧
     (x.state = .check →
       let u := mapLanes p (fun _ l => { l with rxPass := l.rxPass && x.judged, txPass := l.txPass && l.acked })
         (passTo (x.since + 8000000) s)
       (x.quick = true → exec (.checkTimeout p) s = .next (enterEq p false u)) ∧
       (x.quick = false → exec (.checkTimeout p) s = .next (stepEnd p u))) ∧
     (x.state = .switch → x.returning = false →
       let back (c : Climb) (t : State) : Out := .next (startSwitch p x.previous c (modPhy p (fun y => { y with
         returning := true }) t))
       let u := passTo (x.since + 4000000) s
       (x.climb = .up → exec (.switchTimeout p) s = back .back (modPhy p (fun y => { y with
         rxMask := y.bestMask, txMask := y.bestMask }) u)) ∧
       (x.climb ≠ .up → exec (.switchTimeout p) s = back x.climb u)) ∧
     (x.state = .switch → clocked s x.target = true →
       exec (.newGaugeLock p) s = .next (enterAcquire p (fun y => { y with
         gauge := y.target, stepId := y.stepId + 1, returning := false }) s))) ∧
  (∀ (p : Fin 4) (errors : List Nat) (s : State), portLive s p = true → s.ports[p].phy.state = .check →
     clocked s s.ports[p].phy.gauge = true →
     let x := s.ports[p].phy
     let acked := lanesAll s.ports[p] x.rxMask (·.acked)
     let judged (threshold : Nat) (t : State) := t.ports[p].phy = { x with judged := true } ∧
       ∀ i : Fin 16, t.ports[p].lanes[i].errCount = min (errors.getD i 0) 65535 ∧
         (maskHas x.rxMask i = true → t.ports[p].lanes[i].rxPass = decide (errors.getD i 0 ≤ threshold))
     (x.quick = false → ∃ t, t.hubTimer = max s.hubTimer (x.since + 5000000) ∧ judged (gaugeThreshold x.gauge) t ∧
       (acked = false → exec (.checkWindowEnd p errors) s = .next t) ∧
       (acked = true → exec (.checkWindowEnd p errors) s = .next (stepEnd p t))) ∧
     (x.quick = true → ∃ t, t.hubTimer = max s.hubTimer (x.since + 1000000) ∧ judged (gaugeThreshold x.gauge / 5) t ∧
       (acked = false → exec (.fallbackCheckEnd p errors) s = .next t) ∧
       (acked = true → x.climb = .fallback →
         (∀ i : Fin 16, maskHas x.rxMask i = true →
           errors.getD i 0 ≤ gaugeThreshold x.gauge / 5 ∧ s.ports[p].lanes[i].locked = true) →
         (∀ i : Fin 16, maskHas x.txMask i = true → s.ports[p].lanes[i].txPass = true) →
         exec (.fallbackCheckEnd p errors) s = .next (enterActive p t))))

/-- R76, R92 to R97: the loss of a lane of an active group takes the group out of the receive mask, with its events,
and asks the partner to narrow, or begins RECOVERY where too few lanes stay; WIDTH_CHANGE narrows the transmit
direction at once and is asked again until a good flit comes; a group that passes its background CHECK is stable from
then on, and one that stays so for readd_stable_ms is asked back at a frame still to come. R91, R98, R100, R101, R139:
a quiet direction enters electrical idle after its sets; STATUS flits keep a link alive; a lost forwarded clock starts
the fallback and its return steps up again where auto_fck_restore says so; the loss of all lanes, and RECOVERY past
its time, detach the partner and train from DETECT. The model's own readings in it: log entries 43, 89, 91. Shown to
complete here: laneLost, widthChange, widthChangeRepeat, groupRetrain, laneReadded, electricalIdleEntry,
heartbeatStatus, fckLost, fckRestored, lanesLostAll, recoveryTimeout. -/
def Obligations.WidthIdleAndLaneLoss : Prop :=
  (∀ (p : Fin 4) (s : State), portLive s p = true → s.ports[p].phy.state = .active →
     let x := s.ports[p].phy
     (∀ (lane : Fin 16) (cause : LossCause), causeLoses cause = true → x.rxMask.getLsbD (lane.val / 4) = true →
       let m := x.rxMask &&& ~~~(1#4 <<< (lane.val / 4))
       let u := countLoss p (lane.val / 4) (raise 0x1012 2 (16 * p.val + lane.val) []
         (modPhy p (restartStable s.hubTimer) (modLane p lane (fun l => { l with locked := false }) s)))
       (m = 0 ∨ maskLanes m < x.latched.widthMin → exec (.laneLost p .rx ⟨lane, cause⟩) s = .next (enterRecovery p u)) ∧
       (m ≠ 0 → x.latched.widthMin ≤ maskLanes m →
         exec (.laneLost p .rx ⟨lane, cause⟩) s = .next (raise 0x1013 1 p [] (askNarrow p m u)))) ∧
     (∀ msg : BitVec 128, bitsOf msg.toNat 7 0 = 3 → bitsOf msg.toNat 127 12 = 0 → bitsOf msg.toNat 11 8 ≠ 0 →
       let m := BitVec.ofNat 4 (bitsOf msg.toNat 11 8)
       (maskLanes m < x.latched.widthMin → exec (.widthChange p msg) s = .next (enterRecovery p s)) ∧
       (x.latched.widthMin ≤ maskLanes m → exec (.widthChange p msg) s = .next (raise 0x1013 1 p [] (modSend p (fun y =>
         let z := fillGroup y
         replayAll (leaveIdle (announce { z with
           phy := { z.phy with txMask := m }
           link := { z.link with widenAt := none } }))) s)))) ∧
     (∀ m, s.ports[p].link.widthAsked = some (m, false) →
       exec (.widthChangeRepeat p) s = .next (modSend p (fun y => putLink [widthMessage m false 0] (leaveIdle y)) s)) ∧
     (∀ (g : Fin 4) (errors : List Nat), x.rxMask.getLsbD g = false → x.retired.getLsbD g = false →
       (∀ i < 4, errors.getD i 0 ≤ gaugeThreshold x.gauge) →
       exec (.groupRetrain p .rx g errors) s = .next (modPhy p (fun y => { y with
           stable := y.stable ||| (1#4 <<< g.val)
           stableSince := if y.stable.getLsbD g then y.stableSince else y.stableSince.set g s.hubTimer })
         (mapLanes p (fun i l => if i / 4 = g.val then { l with locked := true } else l) s))) ∧
     (∀ g : Fin 4, x.stable.getLsbD g = true → x.rxMask.getLsbD g = false → readdPending s.ports[p].link = false →
       let m := x.rxMask ||| (1#4 <<< g.val)
       exec (.laneReadded p .rx g) s = .next (modSend p (fun y =>
         putLink [widthMessage m true (y.link.partnerFrame + 4)] (leaveIdle { y with
           link := { y.link with widthAsked := some (m, true), switchFrame := y.link.partnerFrame + 4 } }))
             (passTo (x.stableSince.getD g 0 + 1000000 * x.readdStableMs) s)))) ∧
  (∀ (p : Fin 4) (s : State), portLive s p = true →
     let x := s.ports[p].phy
     (x.state = .active → x.txIdle = false → x.idleEntryNs ≠ 0 → txQuiet s.ports[p] = true →
       ∃ t, exec (.electricalIdleEntry p) s = .next t ∧ t.ports[p].phy = { x with txIdle := true } ∧
         t.ports[p].link.wire = s.ports[p].link.wire ++ [.sets (setCopies 0xA6 0 s.ports[p]) 1, .squelch]) ∧
     (x.state = .active →
       exec (.heartbeatStatus p) s = .next (pump p (modSend p leaveIdle s))) ∧
     (x.state = .active → x.gauge = .g106 → s.device.refclk ≠ 1 →
       exec (.fckLost p) s = .next (startFallback p (modPort p (fun y => sendSet 0xA8 0 8 (leaveIdle y)) s))) ∧
     (x.fckLost = true →
       let u := raise 0x1017 1 p [] (modPhy p (fun y => { y with fckLost := false }) s)
       (x.autoFckRestore = false → exec (.fckRestored p) s = .next u) ∧
       (x.autoFckRestore = true → x.state = .active → x.gauge ≠ .g106 → gaugeCommon x .g106 = true →
         exec (.fckRestored p) s = .next (startSwitch p .g106 .up (modPhy p (fun y => { y with
           bestGauge := y.gauge, bestMask := y.rxMask &&& y.txMask, retried := false }) u)))) ∧
     (s.ports[p].link.session = true → x.rxIdle = false →
       exec (.lanesLostAll p) s = .next (toDetect p (portDown p 1 (raise 0x1018 1 p [] s)))) ∧
     (x.climb = .recover → x.state ≠ .active →
       exec (.recoveryTimeout p) s = .next (toDetect p (portDown p 1 (raise 0x1018 1 p []
         (passTo (x.recoverSince + 1000000 * x.recoveryTimeoutMs) s))))))

/-! ### The link -/

/-- R109 to R120: a flit that its code corrects and whose CRC holds delivers its ack, credit and panic; a NULL flit
nothing more; a sequenced DATA or MGMT flit in order is accepted and acted on; one already accepted is dropped; one
out of order is answered with a NAK; on a sealed link a flit waits for its group's TAG flit, which closes the group.
The model's own readings in it: log entry 44. Shown to complete here: nullFlit, dataFlit, tagFlit. -/
def Obligations.FlitsAreReceived : Prop :=
  ∀ (p : Fin 4) (flit bs : List Byte) (fixed : Bool) (s : State), linkUp s p = true → retuneHolds s p = false →
    fecFlit flit = some (bs, fixed) →
    crc32c (bs.take 244) = natAt bs 244 4 →
    let h := natAt bs 0 4
    let count := bitsOf h 7 4
    let slots := (List.range 15).map fun i => BitVec.ofNat 128 (natAt bs (4 + 16 * i) 16)
    let u := receiveHeader p (bitsOf h 25 17) (bitsOf h 31 26) (bitAt h 3)
      (if fixed then modLink p (fun l => { l with fecCorrected := sat32 l.fecCorrected }) s else s)
    let next := s.ports[p].link.rxNext
    let taken := modLink p (fun l => { l with rxNext := l.rxNext + 1, nakAt := none, ackOwed := true }) u
    let sealed := s.ports[p].link.sealOn && s.ports[p].link.partnerSealOn
    (bitsOf h 2 0 = 0 → count = 0 → bitsOf h 16 8 = 0 → exec (.nullFlit p flit) s = .next (pump p u)) ∧
    (bitsOf h 2 0 = 1 ∨ bitsOf h 2 0 = 2 → sealed = false → count ≠ 0 → bitsOf h 16 8 = next % 512 →
      exec (.dataFlit p flit) s = .next (pump p (executeFlit p taken
        { ftype := bitsOf h 2 0, seq := next, count := count, slots := slots }))) ∧
    (bitsOf h 2 0 = 1 ∨ bitsOf h 2 0 = 2 → sealed = true → count ≠ 0 → bitsOf h 16 8 = next % 512 →
      exec (.dataFlit p flit) s = .next (pump p (modLink p (fun l => { l with
        rxGroup := l.rxGroup ++ [{ ftype := bitsOf h 2 0, seq := next, count := count, slots := slots }] }) taken))) ∧
    (bitsOf h 2 0 = 1 ∨ bitsOf h 2 0 = 2 → 256 ≤ (bitsOf h 16 8 + 512 - next % 512) % 512 →
      exec (.dataFlit p flit) s = .next (pump p u)) ∧
    (bitsOf h 2 0 = 1 ∨ bitsOf h 2 0 = 2 → 0 < (bitsOf h 16 8 + 512 - next % 512) % 512 →
      (bitsOf h 16 8 + 512 - next % 512) % 512 < 256 →
      exec (.dataFlit p flit) s = .next (pump p (sendNak p false u))) ∧
    (bitsOf h 2 0 = 3 → sealed = true → count = 2 → bitsOf h 16 8 = next % 512 →
      exec (.tagFlit p flit) s = .next (pump p (receiveTag p slots taken)))

/-- R120 to R128, R139: STATUS brings the frame, the credit total and the partner's sealing; a NAK acknowledges up to
its seq and starts a replay; an ack that has not advanced starts one too, and after four in a row RECOVERY begins; a
due acknowledgement goes out in a NULL flit; a link without a good flit for 1 ms detaches its partner with reason 0.
The model's own readings in it: log entries 43, 44, 107, 108. Shown to complete here: status, nak, replayTimer,
ackDue, heartbeatTimeout. -/
def Obligations.LinkMessagesTakeEffect : Prop :=
  ∀ (p : Fin 4) (msg : BitVec 128) (s : State), linkUp s p = true →
    let n := msg.toNat
    (bitsOf n 7 0 = 1 → bitsOf n 63 47 = 0 → bitsOf n 127 96 = 0 →
      (∃ u, exec (.status p msg) s = .next (pump p (widenReceive p u)) ∧
        u.ports[p].phy = s.ports[p].phy ∧ u.ports[p].link.partnerFrame = BitVec.ofNat 8 (bitsOf n 15 8) ∧
        u.ports[p].link.partnerUnits % 65536 = bitsOf n 31 16 ∧
        u.ports[p].link.partnerSealOn = bitAt n 41 ∧ u.ports[p].link.rxSalt = BitVec.ofNat 32 (bitsOf n 95 64))) ∧
    (bitsOf n 7 0 = 2 → bitsOf n 127 18 = 0 →
      exec (.nak p msg) s = .next (pump p (replayPort p (modLink p (fun l => ackReplay (bitsOf n 16 8) (goodFlit s.hubTimer l)) s)))) ∧
    (s.ports[p].link.replay ≠ [] → s.ports[p].link.replays < 4 →
      exec (.replayTimer p) s = .next (modSend p (fun x => replayAll (leaveIdle { x with link := { x.link with
        replays := x.link.replays + 1, replayCount := sat32 x.link.replayCount } })) s)) ∧
    (s.ports[p].link.replay ≠ [] → 4 ≤ s.ports[p].link.replays →
      exec (.replayTimer p) s =
        .next (enterRecovery p (raise 0x1036 1 p [] (modLink p (fun l => { l with replays := 0 }) s)))) ∧
    (s.ports[p].link.ackOwed = true → (pump p s).ports[p].link.ackOwed = true →
      exec (.ackDue p) s = .next (modSend p (fun x => putNull (leaveIdle x)) (pump p s))) ∧
    (s.ports[p].partnerState = .attached → heartbeatRuns s.ports[p].phy = true →
      exec (.heartbeatTimeout p) s = .next (detachPort p 0 (passTo (s.ports[p].link.lastGood + 1000000) s)))

/-- R118, R121: a link's own commands keep every port's replay buffer in order: consecutive flits from the oldest one
not acknowledged, never more than 256. -/
def Obligations.LinkCommandsKeepReplayOrder : Prop :=
  ∀ (p : Fin 4) (msg : BitVec 128) (s : State), (∀ q : Fin 4, replayInOrder s.ports[q].link = true) →
    ∀ c ∈ [Instr.status p msg, .nak p msg, .ackDue p, .replayTimer p, .heartbeatStatus p, .electricalIdleEntry p,
      .widthChange p msg, .widthChangeRepeat p],
    ∀ t, exec c s = .next t → ∀ q : Fin 4, replayInOrder t.ports[q].link = true

/-- R30: the opcode and every field of a request header stand in its slot where the table puts them, and come out of
it as they went in. R441: a doorbell finds in the request buffer the frame that was written there. -/
def Obligations.HeadersAndFramesReadBack : Prop :=
  (∀ (op : BitVec 6) (h : Hdr),
     let n := (headerSlot op h).toNat
     bitsOf n 5 0 = op.toNat ∧ bitsOf n 19 6 = h.tag.toNat ∧ bitsOf n 25 20 = h.partition.toNat ∧
       bitsOf n 28 26 = h.cls.toNat ∧ bitsOf n 39 29 = h.deadline.toNat ∧ bitsOf n 43 40 = h.lengthCode.toNat ∧
       bitsOf n 79 44 = h.address.toNat ∧ bitsOf n 127 80 = h.aux.toNat ∧ slotHeader (headerSlot op h) = (op, h)) ∧
  (∀ (opcode : BitVec 16) (f : Frame) (buffer : Memory), memWf buffer = true → f.args.length = 4080 →
     frameOf (memWrite buffer 0 (frameBytes opcode f)) = (opcode, f))

/-- R133 to R143: a HELLO on a linked port is answered with its result, and result 0 attaches the partner; one on an
attached port detaches the old partner with reason 7 and waits for the cleanup; a link without a HELLO reports it; a
lockout ends at its time. R140, R141, R146: DETACH drains its port; once the last completion is acknowledged
DETACH_ACK goes out and the partner is detached with reason 2; the end of the cleanup links the port again and answers
a HELLO that waited; dropped records are reported once the queue has room. The model's own readings in it: log entry
15. Shown to complete here: hello, helloTimeout, bindLockoutEnd, detach, detachAck, detachCleanupDone, eventOverflow.
-/
def Obligations.PartnersAttachAndDetach : Prop :=
  (∀ (p : Fin 4) (msg : BitVec 512) (s : State),
     (portLive s p = true → bitsOf msg.toNat 7 0 = 0x10 → s.ports[p].link.authFailed = false →
       let id : Word := BitVec.ofNat 64 (bitsOf msg.toNat 127 64)
       let ack (u : State) (res rebound : Nat) : State := modLink p (fun l => { l with
         txMgmt := l.txMgmt ++ [helloAck u res (bitsOf msg.toNat 23 16) rebound id] }) u
       (s.ports[p].partnerState = .linked → helloResult s p msg = 0 →
         let r := attachPartner p msg s
         exec (.hello p msg) s = .next (raise 0x1030 1 p [] (pump p (ack r.2 0 r.1)))) ∧
       (s.ports[p].partnerState = .linked → helloResult s p msg ∈ [1, 3, 4] →
         exec (.hello p msg) s = .next (pump p (ack s (helloResult s p msg) 0))) ∧
       (s.ports[p].partnerState = .linked → helloResult s p msg = 2 →
         exec (.hello p msg) s = .next (pump p (ack (countMismatch p s) 2 0))) ∧
       (s.ports[p].partnerState = .linked → helloResult s p msg = 5 →
         exec (.hello p msg) s = .next (pump p (ack (raise 0x1038 1 p [] s) 5 0))) ∧
       (s.ports[p].partnerState = .attached →
         exec (.hello p msg) s = .next (modPort p (fun x => { x with waitingHello := some msg }) (detachPort p 7 s)))) ∧
     (s.ports[p].partnerState = .linked →
       exec (.helloTimeout p) s =
         .next (raise 0x1032 1 p [] (passTo (s.ports[p].linkedAt + 1000000 * s.ports[p].link.helloTimeoutMs) s))) ∧
     (∀ t, s.ports[p].lockedUntil = some t →
       exec (.bindLockoutEnd p) s = .next (modPort p (fun x => { x with lockedUntil := none }) (passTo t s)))) ∧
  (∀ (p : Fin 4) (s : State),
     (s.ports[p].partnerState = .attached →
       exec (.detach p) s = .next (modPort p (fun x => { x with draining := true }) s)) ∧
     (s.ports[p].partnerState = .attached → s.ports[p].draining = true → drained s.ports[p] = true →
       exec (.detachAck p) s =
         .next (detachPort p 2 (pump p (modLink p (fun l => { l with txMgmt := l.txMgmt ++ [[0x13]] }) s)))) ∧
     (s.ports[p].partnerState = .detaching →
       let up := s.ports[p].link.session
       let u := modPort p (fun x => { x with
         partnerState := if up then .linked else .down, linkedAt := s.hubTimer, waitingHello := none }) s
       (s.ports[p].waitingHello = none → exec (.detachCleanupDone p) s = .next u) ∧
       ∀ m, s.ports[p].waitingHello = some m → up = true → exec (.detachCleanupDone p) s = .next (receiveHello p m u)) ∧
     (s.ports[p].recordsDropped ≠ 0 → s.ports[p].records.length < 64 →
       exec (.eventOverflow p) s = .next (pump p (raise 0x1039 1 p [itCount s.ports[p].recordsDropped]
         (modPort p (fun x => { x with recordsDropped := 0 }) s)))))

/-- R142: an attachment writes the partner's identity and key into every valid partition of its port that has no
binding, and changes no other binding and no memory. R139 to R141: a detachment settles every request of its port: no
tag stays outstanding and none is held, each cancelled one is counted, and the partner is gone; every other port keeps
its partner. The model's own readings in it: log entries 15, 94. -/
def Obligations.AttachAndDetachSettleTheirPort : Prop :=
  (∀ (p : Fin 4) (msg : BitVec 512) (s : State),
     let t := (attachPartner p msg s).2
     let b : Binding := { identity := BitVec.ofNat 64 (bitsOf msg.toNat 127 64)
                          key := BitVec.ofNat 128 (bitsOf msg.toNat 255 128) }
     t.dram = s.dram ∧ t.ports[p].partnerState = .attached ∧ t.ports[p].partner.identity = b.identity ∧
     ∀ pd : Fin 64, t.partitions[pd].binding =
       if s.partitions[pd].valid = true ∧ s.partitions[pd].owner.getLsbD p = true ∧ s.partitions[pd].binding = none then
         some b
       else s.partitions[pd].binding) ∧
  (∀ (p : Fin 4) (reason : Nat) (s : State), s.ports[p].partnerState = .attached →
     let t := detachPort p reason s
     t.ports[p].outstanding = [] ∧ t.ports[p].held = [] ∧ t.ports[p].partnerState = .detaching ∧
       t.ports[p].aborted = s.ports[p].aborted + s.ports[p].outstanding.length ∧
       ∀ q : Fin 4, q ≠ p → t.ports[q].partner = s.ports[q].partner ∧ t.ports[q].partnerState = s.ports[q].partnerState)

/-! ### Channels and layers -/

/-- R157, R164, R169: ACT opens a row of a precharged bank at the first CCLK that tRC, tRP, tRFCpb, tRRD, tFAW and tXP
allow, after a refresh of the bank that must come first, and takes one ACT of the budget; memory, every other bank's
row and every other channel stay as they were. R157, R159, R169: PRE closes a bank's open row, where a reason of R159
is there, no earlier than tRAS, tRTP and tWR allow; REFpb, where R169 lets it issue, takes one from the debt of its
bank and moves its row pointer on by 8 rows; a NOP word, issued while a written entry waits to leave the write queue,
counts as a command. The model's own readings in it: log entries 16, 17. Shown to complete here: act, pre, refpb,
nopWord. -/
def Obligations.BanksOpenCloseAndRefresh : Prop :=
  (∀ (c : Fin 32) (b : Fin 16) (row : Fin 65600) (s : State), channelIssues s c = true →
     s.channels[c].banks[b].openRow = none →
     let x := s.channels[c]
     (actFits s c = true → ∃ t, exec (.act c b row) s = .next t ∧ t.channels[c].banks[b].openRow = some row.val ∧
       t.channels[c].state = .active ∧ s.hubTimer ≤ t.hubTimer ∧ t.dram = s.dram ∧
       (x.banks[b].debt < 8 → t.ports = s.ports) ∧
       (∀ k : Fin 16, k ≠ b → t.channels[c].banks[k] = x.banks[k]) ∧
       (refreshFirst x b = true → t.channels[c].banks[b].debt = x.banks[b].debt - 1) ∧
       ∀ d : Fin 32, d ≠ c → t.channels[d] = s.channels[d]) ∧
     (100 ≤ x.actBudget → refreshFirst x b = false → ∃ t, exec (.act c b row) s = .next t ∧
       t.channels[c].actBudget = (creditChannel s.hubTimer x).actBudget - 100 ∧
       (∀ a, x.banks[b].actAt = some a → a + 48 ≤ t.hubTimer) ∧
       (∀ a, x.banks[b].preAt = some a → a + 15 ≤ t.hubTimer) ∧ (∀ a, x.banks[b].refAt = some a → a + 120 ≤ t.hubTimer) ∧
       (∀ a k, x.lastAct = some (a, k) → a + (if k.val % 4 = b.val % 4 then 4 else 2) ≤ t.hubTimer) ∧
       (∀ a, x.acts[3]? = some a → a + 16 ≤ t.hubTimer) ∧ (x.state = .powerDown → s.hubTimer + 10 ≤ t.hubTimer) ∧
       t.channels[c].cmdSeq = x.cmdSeq + 1)) ∧
  (∀ (c : Fin 32) (b : Fin 16) (s : State), channelIssues s c = true →
     let x := s.channels[c]
     let k := x.banks[b]
     (closeDue s c b = true → ∃ t, exec (.pre c b) s = .next t ∧ t.channels[c].banks[b].openRow = none ∧
       (∀ a, k.actAt = some a → a + 33 ≤ t.hubTimer) ∧ (∀ a, k.readAt = some a → a + 4 ≤ t.hubTimer) ∧
       (∀ a, k.writeEnd = some a → a + 15 ≤ t.hubTimer) ∧ t.dram = s.dram ∧
       ∀ d : Fin 32, d ≠ c → t.channels[d] = s.channels[d]) ∧
     (refreshDue s c b = true → ∃ t, exec (.refpb c b) s = .next t ∧ t.channels[c].banks[b].openRow = none ∧
       t.channels[c].banks[b].debt = k.debt - 1 ∧ t.channels[c].banks[b].refRow = (k.refRow + 1) % 8200 ∧
       t.channels[c].banks[b].refAt = some t.hubTimer ∧
       (k.openRow = none → ∀ a, k.preAt = some a → a + 15 ≤ t.hubTimer) ∧
       t.dram = s.dram ∧ ∀ d : Fin 32, d ≠ c → t.channels[d] = s.channels[d]) ∧
     (x.writeQueue.any (fun e => e.issued.isSome) = true →
       ∃ u, exec (.nopWord c) s = .next (serveReady u) ∧ u.channels[c].cmdSeq = x.cmdSeq + 1 ∧
         u.hubTimer = max (s.hubTimer + 1) (after (wakePowerDown c s).channels[c].wakeAt 0) ∧
         u.channels[c].banks = x.banks ∧ u.dram = s.dram) ∧
     (x.writeQueue.any (fun e => e.issued.isSome) = false → exec (.nopWord c) s = .next (serveReady s)))

/-- R157, R164 to R167: READ returns the coded line of the open row on the column wires; WRITE stores the write-queue
entry of its line, not yet issued, and no byte of memory outside the line's 72 changes. R184, R186, R187: SKRD writes
the row's queued writes first, moves the row to the base die with its lines corrected or marked bad, and closes it,
but that the re-read of an uncorrectable line opens it again (R175); SKWR writes an image into the open row, which
closes, and invalidates the row's Kennel lines. The model's own readings in it: log entries 16, 17. Shown to complete
here: columnRead, columnWrite, skrd, skwr. -/
def Obligations.ColumnsAndSkeinsMoveLines : Prop :=
  (∀ (c : Fin 32) (b : Fin 16) (row : Nat) (line : Fin 32) (s : State), channelIssues s c = true →
     s.channels[c].banks[b].openRow = some row → 100 ≤ s.channels[c].colBudget →
     let pl : Place := { channel := c, bank := b, row := row, line := line }
     let left := (creditChannel s.hubTimer s.channels[c]).colBudget - 100
     (readServes s pl = true → ∃ t, exec (.columnRead c b line) s = .next t ∧
       t.channels[c].columnData = storedLine s pl ∧ t.channels[c].lastLine = some (b, row, line) ∧
       t.channels[c].colBudget = left ∧ t.dram = s.dram) ∧
     ∀ e, wqEntry s pl = some e → e.issued = none → memWf s.dram = true →
       ∃ u, exec (.columnWrite c b line) s = .next (serveReady u) ∧
         memBytes u.dram (codedAddr s pl) 72 = natToBytes 72 (wqCoded e).toNat ∧
         (∀ a, a < codedAddr s pl ∨ codedAddr s pl + 72 ≤ a → memByte u.dram a = memByte s.dram a) ∧
         memWf u.dram = true) ∧
  (∀ (c : Fin 32) (b : Fin 16) (row : Nat) (s : State), channelIssues s c = true →
     s.channels[c].banks[b].openRow = some row →
     let place (l : Fin 32) : Place := { channel := c, bank := b, row := row, line := l }
     let u := drainRow c b row s
     (∃ t, exec (.skrd c b) s = .next t ∧ t.dram = u.dram ∧
       ((∀ l : Fin 32, classifyLine (storedLine u (place l)) (erasureSet u (place l)) ≠ .uncorrectable) →
         t.channels[c].banks[b].openRow = none) ∧
       ∀ l : Fin 32, t.channels[c].skeinData.getD l none =
         match classifyLine (storedLine u (place l)) (erasureSet u (place l)) with
         | .clean d => some d
         | .erasureCorrected d => some d
         | .corrected d _ => some d
         | _ => none) ∧
     ∀ image : List Line,
       let w := rowWriteBoth (place 0) (image.map some) s
       exec (.skwr c b image) s = .next (match lineOwner w (place 0) with
         | some (pd, i) => kennelDropBlock pd (i / 32) w
         | none => w) ∧
       (s.mover = none → memWf s.dram = true → ∀ l : Fin 32,
         storedLine w (place l) = match image[l.val]? with | some x => encodeLine x | none => poisonCode))

/-- R306, R308: what is stored for a line is what a read of its place finds, and every place with another address
keeps its line. -/
def Obligations.StoredLineReadsBack : Prop :=
  ∀ (pl q : Place) (c : CodedLine) (s : State), memWf s.dram = true →
    storedLine (storeCoded pl c s) pl = c ∧
    (codedAddr s q ≠ codedAddr s pl → storedLine (storeCoded pl c s) q = storedLine s q) ∧
    memWf (storeCoded pl c s).dram = true

/-- R156: the line hash is one-to-one: two lines of one granule never have the same place. -/
def Obligations.LineHashIsOneToOne : Prop :=
  ∀ (s : State) (a b : Nat) (pl : Place), a / 1048576 = b / 1048576 →
    hashPlace s a = some pl → hashPlace s b = some pl → a = b

/-- R161 to R173: the refresh timer adds a debt, and at 8 the bank is refreshed; the next window of 64 CCLK returns
budget at the issue scale; a trigger takes a channel into fallback mode, now or as the first slack falls below the
threshold, and 64 CCLK without one out of it, where none comes to hold on the way; the oldest request not promoted is
promoted at age_limit_ns; the first waiting write enters a write queue with room. R173 to R178: a parity alert is
counted, begins the clean run again and replays the words the layer has not executed; the third in a run holds the
channel for a trim, and one more within 1 ms of that fences the controller; a read whose burst comes uncorrectable
reads its line once more, and a re-read that gives it counts a retry; an idle channel powers down with its rows closed
and then enters self-refresh with every debt paid, and a request wakes it after tXS. The model's own readings in it:
log entries 17, 18, 81, 98. Shown to complete here: refreshTimer, budgetWindow, fallbackEntry, fallbackExit,
agePromotion, writeQueueEntry, caParity, readRetry, powerDownEntry, selfRefreshEntry, selfRefreshExit. -/
def Obligations.ChannelsScheduleRetryAndSleep : Prop :=
  (∀ (c : Fin 32) (s : State),
     let x := s.channels[c]
     (∀ b : Fin 16, x.state = .active → quarterOut s (Fin.ofNat 4 (c.val / 8)) = false → x.banks[b].debt < 7 →
       ∃ t, exec (.refreshTimer c b) s = .next t ∧ t.channels[c].banks[b].debt = x.banks[b].debt + 1 ∧
         t.channels[c].debtPeak = max x.debtPeak (x.banks[b].debt + 1) ∧ t.dram = s.dram ∧ t.ports = s.ports) ∧
     (∀ b : Fin 16, channelIssues s c = true → 7 ≤ x.banks[b].debt →
       ∃ t, exec (.refreshTimer c b) s = .next t ∧ t.channels[c].banks[b].debt = 7 ∧
         t.channels[c].banks[b].openRow = none ∧ t.channels[c].debtPeak = max x.debtPeak 8 ∧
         t.channels[c].forcedRefreshCount = sat32 x.forcedRefreshCount ∧ t.dram = s.dram) ∧
     (s.hubTimer < 64 * (x.windowAt + 2) →
       ∃ t, exec (.budgetWindow c) s = .next t ∧ t.hubTimer = max s.hubTimer (64 * (x.windowAt + 1)) ∧
         t.channels[c].windowAt = x.windowAt + 1 ∧ t.channels[c].actBudget = min 1600 (x.actBudget + 16 * x.scalePct) ∧
         t.channels[c].colBudget = min 6400 (x.colBudget + 64 * x.scalePct) ∧ t.channels[c].banks = x.banks) ∧
     (panicTrigger s c = true → ∃ t, exec (.fallbackEntry c) s = .next t ∧ t.channels[c].fallback = true ∧
       t.channels[c].fallbackAt = s.hubTimer ∧
       t.channels[c].fallbackEntries = (if x.fallback then x.fallbackEntries else sat32 x.fallbackEntries)) ∧
     (∀ m ms, panicTrigger s c = false → slackMoments s c = m :: ms →
       ∃ t, exec (.fallbackEntry c) s = .next t ∧ t.channels[c].fallback = true ∧
         t.hubTimer = max s.hubTimer ((m :: ms).foldl min m) ∧ t.channels[c].fallbackAt = t.hubTimer) ∧
     (x.fallback = true → fallbackTrigger s c = false →
       let soon := (slackMoments s c).filter fun t => decide (t ≤ max (x.fallbackAt + 64) s.hubTimer)
       (soon = [] → ∃ t, exec (.fallbackExit c) s = .next t ∧
         t.channels[c].fallback = false ∧ t.hubTimer = max s.hubTimer (x.fallbackAt + 64)) ∧
       ∀ m ms, soon = m :: ms → ∃ t, exec (.fallbackExit c) s = .next t ∧ t.channels[c].fallback = true ∧
         t.hubTimer = max s.hubTimer (ms.foldl min m) ∧ t.channels[c].fallbackAt = t.hubTimer) ∧
     (∀ o, oldest (x.requests.filter fun r => !r.promoted) = some o →
       exec (.agePromotion c) s = .next (serveReady (modChannel c (fun y => { y with
         requests := y.requests.map fun q => if q = o then { q with promoted := true } else q
         promotedCount := sat32 y.promotedCount }) (passTo (o.job.arrived + x.ageLimitNs) s)))) ∧
     (∀ w ws t, x.waiting = w :: ws → wqFull s c = false →
       let u := modChannel c (fun y => { y with waiting := ws }) (noteTrigger c s)
       hostWrite (.port w.job.port) w.pd w.address (policerImage u u.partitions[w.pd] w.address w.data) u = (none, t) →
       exec (.writeQueueEntry c) s = .next (serveReady (settleLine w.job .ok false t)))) ∧
  (∀ (c : Fin 32) (s : State),
     let x := s.channels[c]
     (channelIssues s c = true →
       let u := discardWords c (discardedWords s c)
         (raise 0x2013 3 c [] (modChannel c (fun y => { y with caParityCount := sat32 y.caParityCount }) s))
       let soon := ∃ t, x.alertTrimAt = some t ∧ s.hubTimer ≤ t + 1000000
       (¬soon → x.alerts < 2 → exec (.caParity c) s =
         .next (serveReady (replayBuffer c (modChannel c (fun y => { y with alerts := y.alerts + 1 }) u)))) ∧
       (¬soon → 2 ≤ x.alerts → exec (.caParity c) s =
         .next (serveReady (holdTrim c (modChannel c (fun y => { y with alerts := 3 }) u)))) ∧
       (soon → exec (.caParity c) s = .next (serveReady (fenceBlock (.channel c) true false
         (raise 0x2014 3 c [] (modChannel c (fun y => { y with alerts := 0, alertTrimAt := none, echoDue := true }) u)))))) ∧
     (∀ (b : Fin 16) (row : Fin 65600) (burst : BadBurst) (d : Line), channelIssues s c = true → columnFits s c = true →
       let pl : Place := { channel := c, bank := b, row := row, line := burst.line }
       let first := storedLine s pl ^^^ burst.turned
       wqEntry s pl = none → classifyLine first (erasureSet s pl) = .uncorrectable →
       classifyLine (storedLine s pl) (erasureSet s pl) = .clean d →
       exec (.readRetry c b row burst) s = .next (raiseBank 0x2015 c b [] (modChannel c (fun y => { y with
         readRetryCount := sat32 y.readRetryCount })
           (touchBank pl (closeRow c b (modChannel c (fun y => { y with columnData := first }) (touchBank pl s))))))) ∧
     (channelIssues s c = true → x.state = .active → x.pdIdleUs ≠ 0 → channelIdle s c = true →
       ∃ t, exec (.powerDownEntry c) s = .next t ∧ t.channels[c].state = .powerDown ∧
         max s.hubTimer (x.idleSince + 1000 * x.pdIdleUs) ≤ t.hubTimer ∧
         (∀ b : Fin 16, t.channels[c].banks[b].openRow = none) ∧ t.dram = s.dram) ∧
     (channelIssues s c = true → x.state = .powerDown → x.srIdleMs ≠ 0 → channelIdle s c = true →
       targetAdmitted s = false →
       ∃ t, exec (.selfRefreshEntry c) s = .next t ∧ t.channels[c].state = .selfRefresh ∧
         max s.hubTimer (x.idleSince + 1000000 * x.srIdleMs) ≤ t.hubTimer ∧
         ((∀ b : Fin 16, x.banks[b].debt = 0) → t.hubTimer = max s.hubTimer (x.idleSince + 1000000 * x.srIdleMs)) ∧
         (∀ b : Fin 16, t.channels[c].banks[b].debt = 0) ∧ t.dram = s.dram) ∧
     (x.requests ≠ [] → x.state = .selfRefresh → x.heldByCommand = false → x.keeperActed = false →
       quarterOut s (Fin.ofNat 4 (c.val / 8)) = false → s.device.fatal = false → trimDrifted s c = false →
       x.trimDue = false →
       ∃ u, exec (.selfRefreshExit c) s = .next (serveReady u) ∧ u.channels[c].state = .active ∧
         s.hubTimer + 1200 ≤ u.hubTimer ∧ u.channels[c].requests = x.requests ∧
         (x.rewriteDue = false → u.hubTimer = s.hubTimer + 1200 ∧ u.dram = s.dram)))

/-! ### Integrity, refills, rekeying and movers -/

/-- R160, R312, R319, R324, R326: the requests that can go on are served first; then a spot check re-reads the first
queued line, a patrol read takes the 32 lines of its row and moves the pointer on, a pass that is late says so once,
and a word of the SRAM walk is counted or given to its owner's rule. The model's own readings in it: log entries 20,
100, 115, 116, 118. Shown to complete here: spotCheck, patrolRead, scrubLate, sramWalk. -/
def Obligations.TerrierChecksItsLines : Prop :=
  ∀ (c : Fin 32) (s : State),
    let x := s.channels[c]
    let v := serveReady s
    (∀ e rest, v.channels[c].spots = e :: rest → v.channels[c].state ≠ .retired → terrierRuns v c = true → e.bad = false →
      let pl : Place := { channel := c, bank := e.bank, row := e.row, line := e.line }
      let u := endDrain c (modChannel c (fun y => { y with spots := y.spots.erase e }) (terrierWake c v))
      channelAsleep (terrierWake c v) c = false → (wqEntry u pl).isNone = true →
      exec (.spotCheck c) s = .next (serveReady (terrierLine .column 1 pl (fetchLine pl u)).2)) ∧
    (v.params.scrubEnable = true → terrierRuns v c = true →
      let u := terrierWake c v
      let b : Fin 16 := Fin.ofNat 16 u.channels[c].patrolBank
      let row := spareRow u.channels[c].banks[b].remap 65 u.channels[c].patrolRow
      let r := (List.finRange 32).foldl (fun (acc : Bool × State) l =>
        let q := terrierLine .skein 0 { channel := c, bank := b, row := row, line := l } acc.2
        (acc.1 || q.1, q.2)) (false, closeBank c b row false (endDrain c u))
      channelAsleep u c = false → exec (.patrolRead c) s = .next (serveReady (advancePatrol c (modChannel c (fun y =>
        { y with scrubRows := y.scrubRows + 1 }) (noteRow c b row r.1 r.2))))) ∧
    (x.state ≠ .retired → x.lateRaised = false → quarterOut s (Fin.ofNat 4 (c.val / 8)) = false →
      exec (.scrubLate c) s = .next (raise 0x2027 3 c [] (modChannel c (fun y => { y with lateRaised := true })
        (passTo (x.passStart + s.params.scrubPeriodH * hourNs * 11 / 10) s)))) ∧
    (∀ o : SramOwner, exec (.sramWalk o .clean) s = .next s ∧
      exec (.sramWalk o .corrected) s = .next (raiseLimitedFor (0x2029, 0, 0) 0x2029 19
        (256 * (sramInst o).1 + (sramInst o).2) (fun n => [itCount n])
        (modParams (fun p => { p with sramCeCount := sat32 p.sramCeCount }) s)) ∧
      exec (.sramWalk o .uncorrectable) s = .next (ownerRule o (raise 0x202A (sramInst o).1 (sramInst o).2 [] s)))

/-- R316, R354, R361: the oldest refill zeroes its slabs; a lockout of `KEY_LOAD` ends at its time; a step of a rekey,
behind the requests that can go on, moves a VEILED line, or a SEALED page, to the new key and the pointer past it,
until the walk ends and the descriptor takes the new slot. R160, R375, R376: a queued retirement starts as soon as
nothing conflicts with it; the mover, once the requests that can go on are served, copies a slab row by row, and a
slab whose last row is copied is switched over by its relocation entry. The model's own readings in it: log entries
22, 24, 77. Shown to complete here: granuleRefill, keyLockoutEnd, rekeyStep, channelRetiring, migrationCopy,
slabSwitchover. -/
def Obligations.RefillsRekeysAndRetirements : Prop :=
  ((∀ (r : Refill) (rest : List Refill) (s : State), s.refills = r :: rest → refillRuns s r = true →
     exec .granuleRefill s = .next (serveUnserved (r.slabs.foldl zeroSlab { s with refills := rest }))) ∧
   (∀ (t : Nat) (s : State), s.fuses.keyLockedUntil = some t →
     exec .keyLockoutEnd s = .next (modFuses (fun f => { f with keyLockedUntil := none, unwrapRun := 0 }) (passTo t s))) ∧
   ∀ (pd : Fin 64) (r : Rekey) (s : State),
     let v := serveReady s
     let x := v.partitions[pd]
     x.sealing.rekey = some r → rekeyRuns v pd = true → rekeyServes v pd r.pointer = true →
     let u := { v with tasks := v.tasks.map fun t => if t.work = .rekey pd then { t with paused := false } else t }
     let oldKey := (v.keys[Fin.ofNat 64 x.keySlot]).key
     let newKey := (v.keys[Fin.ofNat 64 r.slot]).key
     let t := if x.mode = .sealed then rekeyPage pd r.pointer oldKey newKey u
       else modSeal pd (fun y => { y with rekey := y.rekey.map fun k => { k with pointer := k.pointer + 1 } })
         (rekeyLine pd r.pointer oldKey newKey u)
     r.pointer < x.granules * granuleLines → ∀ k, t.partitions[pd].sealing.rekey = some k →
       (x.granules * granuleLines ≤ k.pointer → exec (.rekeyStep pd) s = .next (serveReady (finishRekey pd k t))) ∧
       (k.pointer < x.granules * granuleLines → exec (.rekeyStep pd) s = .next (serveReady t))) ∧
  ((∀ (c : Fin 32) (t : Task) (s : State),
     s.tasks.find? (fun t => decide (t.work = .retire c) && decide (t.state = .queued)) = some t →
     mayStart s (s.tasks.takeWhile fun x => !isTask t x) t = true →
     exec (.channelRetiring c) s = .next (serveReady (startRetire t c s))) ∧
   (∀ (c : Fin 32) (sl tc ts row : Nat) (rest : List (Nat × Nat × Nat)) (s : State),
     let v := serveReady s
     v.firmware.rebooting = false →
     v.mover = some (.slabs c ((sl, tc, ts) :: rest) row) → row < 1024 → v.channels[c].poisonFill = false →
     copyServes v (Fin.ofNat 32 tc) = true → copyServes v c = true → (row = 0 → thermalEmergency v = false) →
     let t : Fin 32 := Fin.ofNat 32 tc
     let b : Fin 16 := Fin.ofNat 16 row
     let u := leaveSelfRefresh c (leaveSelfRefresh t (resumeCopies v))
     channelAsleep u t = false → channelAsleep u c = false →
     exec .migrationCopy s = .next (serveReady { copyRow { channel := c, bank := b, row := 64 * sl + row / 16, line := 0 }
         { channel := t, bank := b, row := 64 * ts + row / 16, line := 0 } u with
       mover := some (.slabs c ((sl, tc, ts) :: rest) (row + 1)) })) ∧
   ∀ (c : Fin 32) (sl tc ts : Nat) (next : Nat × Nat × Nat) (rest : List (Nat × Nat × Nat)) (s : State),
     s.mover = some (.slabs c ((sl, tc, ts) :: next :: rest) 1024) → relocSource s c sl = none →
     exec .slabSwitchover s = .next { setReloc c sl tc ts s with mover := some (.slabs c (next :: rest) 0) })

/-! ### Vertical repair, rows, keeper and bonds -/

/-- R367 to R374: a trim sets its taps and repairs the wires it found dead, or counts a failure and is tried again;
the third failure in a row is a clock failure; a suspect wire is shifted at once under auto_repair; a fenced block
resets, the echo test of a channel that parity alerts fenced first. The model's own readings in it: log entries 18,
61, 119. Shown to complete here: verticalTrim, trimRetry, shiftRepair, autoBlockReset. -/
def Obligations.TrimsAndRepairs : Prop :=
  ∀ (c : Fin 32) (probe : TrimProbe) (s : State),
    let v := s.channels[c].vertical
    let failing (w : State) : State := modVertical c (fun v => { v with trimFails := v.trimFails + 1 })
      (modChannel c (fun x => { x with trimDue := false }) (noteTrim c (passTo (w.hubTimer + 1600) (refreshDown c w))))
    (trimServes s c = true → probe.below90 = false → probe.dead = [] →
      exec (.verticalTrim c probe) s = .next (serveReady (mergeTrims c (leaveTrim c (setTaps false c probe
        (modVertical c (fun v => { v with trimFails := 0 }) (modChannel c (fun x => { x with trimDue := false })
          (noteTrim c (passTo (s.hubTimer + 1600) (refreshDown c s)))))))))) ∧
    (trimServes s c = true → v.trimFails = 2 → probe.below90 = true →
      exec (.verticalTrim c probe) s = .next (serveReady (mergeTrims c (clockFailure c (failing s))))) ∧
    (trimServes s c = true → v.trimFails = 1 → probe.below90 = true →
      exec (.trimRetry c probe) s = .next (serveReady (leaveTrim c (failing (passTo (v.vtrimLast + 1000000) s))))) ∧
    (∀ path wire, s.params.autoRepair = true → v.suspects.contains (path, wire) = true → trimServes s c = true →
      exec (.shiftRepair c path wire probe) s =
        .next (serveReady (mergeTrims c (applyTrim c probe (repairWire c path wire s).2)))) ∧
    (∀ (b : BlockId) (echo : List Nat), autoResetOpen s b = true → (∀ k, b ≠ .channel k) →
      exec (.autoBlockReset b echo) s = .next (startBlockReset b s)) ∧
    (∀ echo : List Nat, autoResetOpen s (.channel c) = true →
      (s.channels[c].echoDue = false →
        exec (.autoBlockReset (.channel c) echo) s = .next (startBlockReset (.channel c) s)) ∧
      (s.channels[c].echoDue = true →
        exec (.autoBlockReset (.channel c) echo) s = .next (startBlockReset (.channel c)
          (echo.foldl (echoPosition c) (modChannel c (fun x => { x with echoDue := false }) s)))))

/-- R526: a trim's window holds the tap in force, reaches at most 24 taps to each side, and every tap of it passed but
the one in force. R387: a sample never takes wear from a bond, and its residual holds at most 64 turning points. R397,
R400: a die's factor lies between 40% and 100% and falls with its temperature; the governor's step keeps g between
0.10 and 1.00, and lowers it where the fixed power alone passes the cap. The model's own readings in it: log entry 61.
-/
def Obligations.TrimsBondsAndFactorsStayInRange : Prop :=
  (∀ (pass : BitVec 64) (start : Nat), start < 64 →
     let w := tapWindow pass start
     w.1 ≤ start ∧ start ≤ w.2 ∧ start ≤ w.1 + 24 ∧ w.2 ≤ start + 24 ∧ w.2 < 64 ∧
       ∀ i, w.1 ≤ i → i ≤ w.2 → i ≠ start → pass.getLsbD i = true) ∧
  (∀ (z : Int) (x : Bond), x.residual.length ≤ 64 →
     x.eq ≤ (sampleBond z x).eq ∧ (sampleBond z x).residual.length ≤ 64) ∧
  ((∀ (k : Fin 17) (v w : Int), 40 ≤ dieFactor k v ∧ dieFactor k v ≤ 100 ∧ (v ≤ w → dieFactor k w ≤ dieFactor k v)) ∧
   ∀ (cap p fix : Int) (g calm : Nat), 10 ≤ g → g ≤ 100 →
     10 ≤ (governorStep cap p fix g calm).1 ∧ (governorStep cap p fix g calm).1 ≤ 100 ∧
       (cap < fix → (governorStep cap p fix g calm).1 = 10) ∧ (cap - 20 ≤ p → (governorStep cap p fix g calm).1 ≤ g))

/-- R380, R383, R386, R387, R388: a suspect row is repaired under auto_ppr; the keeper of a layer whose clock stopped
refreshes every bank and holds it in self-refresh; a sample moves every bond, and a store keeps what they hold. The
model's own readings in it: log entries 18, 61. Shown to complete here: postPackageRepair, layerKeeper, bondSample,
bondStore. -/
def Obligations.RowsKeepersAndBonds : Prop :=
  (∀ (c : Fin 32) (b : Fin 16) (row : Fin 65600) (s : State), s.params.autoPpr = true →
    s.params.rowSuspectPasses ≤ sparseGet 0 s.channels[c].banks[b].badRows row → s.channels[c].retire ≠ .migrating →
    ((runningWork s).any fun w => decide (workChannel w = some c)) = false → channelIssues s c = true →
    exec (.postPackageRepair c b row) s = .next (repairRow c b row (passTo (s.hubTimer + 250) (refreshDown c s))).2) ∧
  (∀ (c : Fin 32) (s : State), s.channels[c].state ≠ .retired → s.channels[c].keeperActed = false →
    (s.channels[c].state = .selfRefresh → s.channels[c].clockLost = true) →
    ∃ t, exec (.layerKeeper c) s = .next t ∧ t.channels[c].state = .selfRefresh ∧ t.channels[c].keeperActed = true ∧
      t.hubTimer = s.hubTimer + 10000 ∧
      (∀ b : Fin 16, t.channels[c].banks[b].openRow = none ∧ t.channels[c].banks[b].debt = 0 ∧
        t.channels[c].banks[b].refRow = (s.channels[c].banks[b].refRow + 8) % 8200) ∧ t.dram = s.dram ∧
      ∀ d : Fin 32, d ≠ c → t.channels[d] = s.channels[d]) ∧
  (∀ s, exec .bondSample s = .next ((List.finRange 20).foldl bondEvents
    ((List.finRange 20).foldl (fun s i => modBond i (sampleBond (bondTemp s i)) s) s))) ∧
  ∀ s, ∃ t, exec .bondStore s = .next t ∧ (∀ i : Fin 20, t.bonds[i] = { s.bonds[i] with
    storedEq := s.bonds[i].eq, storedResidual := s.bonds[i].residual }) ∧ t.dram = s.dram ∧ t.channels = s.channels

/-! ### Heat and clocks -/

/-- R392 to R410, R417: a sample in its turn is taken into its sensor, corrected and clamped, and judged, or declares
an open or shorted diode SUSPECT, and the next sensor has its turn; one out of its turn does nothing (the model's
reading of R392's order: log 112); the factors and the governor are recomputed with the ledger, and a cap below the
fixed power is reported; OCLK is trimmed from TS0; the flow test keeps its history, and reports a rise that the power
does not explain; 60 s of cool readings end the loss. The model's own readings in it: log entries 60, 62, 63, 112.
Shown to complete here: sensorSample, throttleRecompute, governorWindow, oclkTrim, flowTest, coolantFlowOk. -/
def Obligations.ThermalLoopsRun : Prop :=
  ∀ s : State,
    (∀ (k : Fin 17) (reading : SensorReading), k = s.thermal.nextSensor →
      let u := samplePulses reading.pulses (modThermal (fun t => { t with nextSensor := Fin.ofNat 17 (k.val + 1) }) s)
      let judged (w : State) : State :=
        let a := refreshValues (crossCheck k w)
        modSensor k (fun x => { x with agreeing :=
          if x.suspect ∧ reading.raw.isSome ∧ (x.raw - substituted a k).natAbs ≤ 24 then x.agreeing + 1 else 0 }) a
      let ends (w : State) : Out := .next (tripCheck k (watchEmergency u (flowCool (watchBurn
        (sampleChannels u k ((List.finRange 17).foldl warnDie (judged w)))))))
      (∀ r, reading.raw = some r →
        let v := max (-320) (min 1200 (r + sensorOffset s k))
        exec (.sensorSample k reading) s = ends (countDeviation k (modSensor k (fun x => { x with
          samples := (x.samples ++ [v]).drop (x.samples.length + 1 - 8), raw := v }) u))) ∧
      (reading.raw = none → exec (.sensorSample k reading) s = ends (declareSuspect k u))) ∧
    (∀ (k : Fin 17) (reading : SensorReading), k ≠ s.thermal.nextSensor → exec (.sensorSample k reading) s = .next s) ∧
    (let f := { s with sensors := s.sensors.mapFinIdx fun k x h => { x with factorPct := dieFactor ⟨k, h⟩ x.value } }
     let t := { f with channels := f.channels.mapFinIdx fun c x h => { x with thermalPct := channelFactor f ⟨c, h⟩ } }
     exec .throttleRecompute s = .next ((List.finRange 16).foldl (throttleEvents s) (recomputeLedger s t))) ∧
    (∀ (p fix : Nat) (quarters : List Nat),
      let r := governorStep (capDw s) p fix s.thermal.governorPct s.thermal.calmWindows
      let t := recomputeLedger s (modThermal (fun t => { t with
        powerEstDw := min p 65535, quarterDw := quarters, governorPct := r.1, calmWindows := r.2 }) s)
      ((fix : Int) ≤ capDw s → exec (.governorWindow p fix quarters) s = .next t) ∧
      (capDw s < (fix : Int) →
        exec (.governorWindow p fix quarters) s = .next (raiseLimited 0x8028 0 0 (fun _ => []) t))) ∧
    (exec .oclkTrim s = .next (modThermal (fun t => { t with
      oclkTrim := Config.oclkTrim (bitsOf s.fuses.trim.toNat 1483 1228) s.sensors[(0 : Fin 17)].value }) s)) ∧
    (let mean : Int := ((List.finRange 17).filter fun k => k.val ≠ 0).foldl (fun t k => t + s.sensors[k].value) 0
     let t := modThermal (fun t => { t with history := ((mean, s.thermal.powerEstDw) :: t.history).take 2000 }) s
     let rose := ∃ m q, s.thermal.history[1999]? = some (m, q) ∧
       ((256 * s.thermal.flowLossRate : Nat) : Int) < 10 * (mean - m) ∧ s.thermal.powerEstDw ≤ q + 50
     (¬rose ∨ s.thermal.flowLow = true → exec .flowTest s = .next t) ∧
     (rose → s.thermal.flowLow = false → exec .flowTest s = .next (watchEmergency s (flowCool (recomputeLedger s
       (raise 0x8026 0 0 [] (modThermal (fun t => { t with flowLow := true, flowCoolSince := none }) t))))))) ∧
    (∀ t, s.thermal.flowCoolSince = some t → s.thermal.flowLow = true →
      exec .coolantFlowOk s = .next (raise 0x8027 0 0 [] (modThermal (fun t => { t with
        flowLow := false, flowCoolSince := none }) (passTo (t + 60 * 1000000000) s)))) ∧
    (s.thermal.flowCoolSince = none ∨ s.thermal.flowLow = false → exec .coolantFlowOk s = .next s)

/-- R415, R433, R565: REFCLK lost puts the stack in holdover with its event and takes every active port that G106 does
not clock into RECOVERY, its return slews the PLLs back, and their lock ends the return; a quarter PLL that unlocks in
service isolates its quarter, and the hub's or the management's is FATAL. R549: a rail that becomes faulted is
counted, marked and reported; a SerDes rail takes its ports down and VDD_IO leaves the rest of the stack as it is; a
rail that returns is unmarked, and with both SerDes rails back the ports train again; VFUSE above 0.3 V with no burn
is reported once an hour. The model's own readings in it: log entries 54, 64, 68. Shown to complete here: refclkLost,
refclkRestored, holdoverReturnLock, pllUnlock, railFault, railReturn, vfusePresent. -/
def Obligations.ClocksAndRailsFailAndReturn : Prop :=
  (∀ s : State,
     (s.device.refclk ≠ 1 → exec .refclkLost s = .next ((List.finRange 4).foldl (fun s p =>
       if portLive s p = true ∧ s.ports[p].phy.state = .active ∧ s.ports[p].phy.gauge ≠ .g106 then enterRecovery p s else s)
       (raise 0x0016 0 0 [] (modDevice (fun d => { d with refclk := 1 }) s)))) ∧
     (s.device.refclk = 1 →
       exec .refclkRestored s = .next (raise 0x0017 0 0 [] (modDevice (fun d => { d with refclk := 2 }) s))) ∧
     (s.device.refclk = 2 → exec .holdoverReturnLock s = .next (modDevice (fun d => { d with refclk := 0 }) s)) ∧
     (devReady s = true → (∀ q : Fin 4, s.quarters[q].pllLocked = true →
       exec (.pllUnlock (.quarter q)) s = .next (isolateQuarter q 2 0x001A
         (raise 0x001A 5 q [] (modQuarter q (fun x => { x with pllLocked := false }) s)))) ∧
       exec (.pllUnlock .hub) s = .next (fatalNow 4 0x001A (raiseAs 0x001A 3 3 0 0 [] s)) ∧
       exec (.pllUnlock .management) s = .next (fatalNow 4 0x001A (raiseAs 0x001A 3 3 0 0 [] s)))) ∧
  (∀ (mv : Nat) (s : State),
     let marked (r : Rail) : State := raise 0x0030 0 0 [itReason (railCode r), itCount mv]
       (setRail r true (modDevice (fun d => { d with railFaults := sat32 d.railFaults }) s))
     (railFaulted s .vddIo = false → exec (.railFault .vddIo mv) s = .next (marked .vddIo)) ∧
     (∀ r ∈ [Rail.vddSd, .vddSdh], railFaulted s r = false → exec (.railFault r mv) s = .next (losePorts (marked r))) ∧
     (∀ r ∈ [Rail.vddCore, .vddSram, .vddDram, .vpp], railFaulted s r = false →
       exec (.railFault r mv) s = .next (vitalFault r (cutBurns false .failed (marked r)))) ∧
     (railFaulted s .vfuse = false → exec (.railFault .vfuse mv) s =
       .next (modFuses (fun f => { f with vfuseOk := false }) (cutBurns false .failed (marked .vfuse)))) ∧
     (∀ r ∈ [Rail.vddIo, .vddCore, .vddSram, .vddDram, .vpp], railFaulted s r = true →
       exec (.railReturn r) s = .next (setRail r false s)) ∧
     (railFaulted s .vfuse = true →
       exec (.railReturn .vfuse) s = .next (modFuses (fun f => { f with vfuseOk := true }) (setRail .vfuse false s))) ∧
     (∀ r ∈ [Rail.vddSd, .vddSdh], railFaulted s r = true →
       let t := setRail r false s
       (serdesUp t = false → exec (.railReturn r) s = .next t) ∧
       (serdesUp t = true → exec (.railReturn r) s = .next ((List.finRange 4).foldl (fun s (p : Fin 4) =>
         if portLive s p = true then toDetect p s else s) t))) ∧
     (∀ t, s.fuses.vfuseRaised = some t → t + hourNs ≤ s.hubTimer → 300 < mv → fuseRuns s = false →
       exec (.vfusePresent mv) s = .next (raise 0x0031 0 0 [itReason 7, itCount mv]
         (modFuses (fun f => { f with vfuseRaised := some s.hubTimer }) s))))

/-- R434, R435, R445, R457: a mismatch or the watchdog resets the cores, which takes no command from then on, loses
those in their request phase and counts on a patch's probation; a second mismatch within 1 s is FATAL; the reboot's
end, where the ROM is good, answers the commands it cut and begins those that wait; the end of a running task does
what its operation does, and lets waiting requests and held commands go on; the end of a second reports what it
suppressed, stamped with that end. The model's own readings in it: log entries 67, 73, 105, 124. Shown to complete
here: lockstepReset, watchdogReset, coreRebootDone, commandDone, eventSuppressed. -/
def Obligations.CoresRebootAndTasksEnd : Prop :=
  ∀ s : State,
    (let reset (code : Nat) (u : State) : State := countProbation (raise code 14 0 [] (modFirmware (fun x => { x with
       rebooting := true, coreResets := sat32 x.coreResets }) (if u.firmware.rebooting then u else
         { modFirmware (fun x => { x with held := [] }) u with
           partitions := u.partitions.map fun x => { x with
             pendingChanges := x.pendingChanges.filter fun e => e.2.isNone } })))
     let u := modFirmware (fun x => { x with lockstepAt := some s.hubTimer }) s
     (coresRun s = true → (∀ t, s.firmware.lockstepAt = some t → t + 1000000000 < s.hubTimer) →
       exec .lockstepReset s = .next (reset 0x9011 u)) ∧
     (coresRun s = true → ∀ t, s.firmware.lockstepAt = some t → s.hubTimer ≤ t + 1000000000 →
       exec .lockstepReset s = .next (fatalNow 3 0x9011 (reset 0x9011 u))) ∧
     (coresRun s = true → exec .watchdogReset s = .next (reset 0x9012 s))) ∧
    (s.firmware.rebooting = true → s.firmware.romGood = true → exec .coreRebootDone s =
      .next (runHeld ((List.finRange 6).foldl failCut (modFirmware (fun x => { x with rebooting := false }) s)))) ∧
    (s.firmware.rebooting = true → s.firmware.romGood = false → exec .coreRebootDone s = .next s) ∧
    (∀ (ticket : BitVec 16) (m : Measure), s.firmware.rebooting = false → s.device.warm = false →
      let runs (t : Task) : Bool := decide (t.ticket = ticket.toNat) && decide (t.ticket ≠ 0) && decide (t.state = .running)
      (∀ t, s.tasks.find? runs = some t → exec (.commandDone ticket m) s = .next (runHeld (serveReady (endWork t m s)))) ∧
      (s.tasks.find? runs = none → exec (.commandDone ticket m) s = .next (runHeld (serveReady s)))) ∧
    (s.log.suppressed ≠ [] → s.log.second = s.hubTimer / 1000000000 →
      let stamp := (s.log.second + 1) * 1000000000
      exec .eventSuppressed s = .next (s.log.suppressed.foldl (fun s e =>
        (recordsAt stamp 0x9018 3 e.2.2 0 0 [itEvent e.1, itCount e.2.1] s).foldl (fun s r => deliverRecord r s) s)
        (modLog (fun l => { l with second := s.log.second + 1, admitted := [], suppressed := [] }) (passTo stamp s)))) ∧
    (s.log.suppressed = [] → exec .eventSuppressed s = .next s)

/-! ### Management commands -/

/-- R443: a doorbell stops at the first check that fails and answers its status, with nothing executed; a busy mailbox
ignores the command and counts it; the last seq again presents the stored response again. R437: a command that would
write a record of the configuration store that MRAM does not take answers FAILED and changes nothing. -/
def Obligations.DoorbellsCheckTheirCommands : Prop :=
  ∀ (opcode : BitVec 16) (m : Fin 6) (f : Frame) (s : State),
    let framed := modMailbox m (fun x => { x with request := memWrite x.request 0 (frameBytes opcode f) }) s
    (∀ st, taken opcode m f s = true → checkCommand s m opcode f = .error st →
      command opcode m f s = respondTo m { status := st } (begun opcode m f s)) ∧
    (∀ c, taken opcode m f s = true → checkCommand s m opcode f = .ok c → c.set = .change →
      commitStore (begun opcode m f s) (c.run m f (begun opcode m f s)).2 = none →
      command opcode m f s = respondTo m { status := .failed } (begun opcode m f s)) ∧
    (mailboxServes s m = true → s.mailboxes[m].busy.isSome = true →
      command opcode m f s = modMailbox m (fun x => { x with ignored := sat32 x.ignored }) framed) ∧
    (mailboxServes s m = true → s.mailboxes[m].busy = none → s.mailboxes[m].lastSeq = some f.seq →
      command opcode m f s = modMailbox m (fun x => { x with respReady := true }) framed)

/-- R442: a response is its header from byte 0 with the data behind it, zero where the header is reserved; it frees
its mailbox, marks it ready and leaves every other mailbox as it was. -/
def Obligations.ResponseIsWrittenWhole : Prop :=
  ∀ (m : Fin 6) (opcode seq : BitVec 16) (r : Reply) (s : State), memWf s.mailboxes[m].response = true →
    r.data.length ≤ 4080 → r.ticket < 65536 → r.position < 256 →
    let x := (writeResponse m opcode seq r s).mailboxes[m]
    let head := bytesToNat (memBytes x.response 0 16)
    bitsOf head 15 0 = opcode.toNat ∧ bitsOf head 31 16 = seq.toNat ∧ bitsOf head 39 32 = kstatusCode r.status ∧
      bitsOf head 47 40 = 0 ∧ bitsOf head 63 48 = r.data.length ∧ bitsOf head 79 64 = r.ticket ∧
      bitsOf head 87 80 = r.position ∧ bitsOf head 127 88 = 0 ∧ memBytes x.response 16 r.data.length = r.data ∧
      x.busy = none ∧ x.respReady = true ∧ ∀ k : Fin 6, k ≠ m → (writeResponse m opcode seq r s).mailboxes[k] = s.mailboxes[k]

/-- R471, R481, R486: the commands that report answer OK with their data: identity, status, tasks, the log, sensors,
parameters, calibration, maintenance, fuses, memory, the window and the exported configuration. The model's own
readings in it: log entries 49, 51. Shown to complete here: identify, deviceStatus, taskStatus, logRead, sensorRead,
paramRead, calReport, maintStatus, configExport, fuseRead, memRead, windowRead. -/
def Obligations.ReportingCommandsAnswer : Prop :=
  ∀ (m : Fin 6) (f : Frame) (s : State),
    let u (opcode : BitVec 16) : State := begun opcode m f s
    (accepted 0x0001 m f s = true → exec (.identify m f) s = answered m (identityData (u 1)) (u 1)) ∧
    (accepted 0x0002 m f s = true → exec (.deviceStatus m f) s = answered m (windowBytes (u 2) 0 4) (u 2)) ∧
    (accepted 0x0003 m f s = true → exec (.taskStatus m f) s = answered m (taskData (u 3) (arg f 0 2)) (u 3)) ∧
    (accepted 0x0004 m f s = true → exec (.logRead m f) s = answered m (logData (u 4) (arg f 0 8) (arg f 8 2)) (u 4)) ∧
    (accepted 0x0006 m f s = true → exec (.sensorRead m f) s = answered m (windowBytes (u 6) 0x100 2) (u 6)) ∧
    (accepted 0x0010 m f s = true → argsClear f [(0, 2), (4, 4 * (readEntries f).length)] = true →
      ((readEntries f).all fun e => paramExists e.1 e.2) = true →
      exec (.paramRead m f) s =
        answered m (readParams (readEntries f) (u 0x10)).1 (readParams (readEntries f) (u 0x10)).2) ∧
    (accepted 0x0802 m f s = true → argsClear f [(0, 1), (2, 2)] = true → arg f 0 1 = 0 → arg f 2 2 < 32 →
      ∃ d, d.length = 32 ∧ natAt d 0 8 = (s.channels[(Fin.ofNat 32 (arg f 2 2) : Fin 32)].vertical.vtrimCount) % 2 ^ 64 ∧
        exec (.calReport m f) s = answered m d (u 0x802)) ∧
    (accepted 0x0803 m f s = true →
      let ts := ((u 0x803).tasks.filter fun t => decide (t.state ≠ .done) && (workClass (u 0x803) t.work).isSome).take 32
      exec (.maintStatus m f) s = answered m (natToBytes 8 ts.length ++ ts.flatMap (maintEntry (u 0x803))) (u 0x803)) ∧
    (accepted 0x0903 m f s = true → argsClear f [(0, 1), (4, 4)] = true → arg f 4 4 = 0 →
      ∀ key, gcmSlot (u 0x903) (arg f 0 1) = some key →
        let bs := exportRecord key (u 0x903)
        bs ≠ [] → exec (.configExport m f) s =
          answered m (natToBytes 4 bs.length ++ natToBytes 4 0 ++ natToBytes 2 (bs.take 4064).length ++ natToBytes 6 0 ++
            bs.take 4064) (modFirmware (fun x => { x with snapshot := some (bs, s.hubTimer) }) (u 0x903))) ∧
    (accepted 0x0A00 m f s = true → fuseArgs f = true →
      ∃ flags, exec (.fuseRead m f) s = answered m (natToBytes 16 flags ++ fuseCopyBytes (u 0xA00) (arg f 0 1) (arg f 1 1) 0 ++
          fuseCopyBytes (u 0xA00) (arg f 0 1) (arg f 1 1) 1)
        (modFuses (fun x => { x with
          weakBits := x.weakBits.set (arg f 0 1) (fuseWeakCount (u 0xA00) (arg f 0 1)) }) (u 0xA00))) ∧
    (accepted 0x0B00 m f s = true → argsClear f [(0, 2), (4, 8)] = true →
      ∀ pd lines d t, memExtent s f false = some (pd, lines) → partitionOrphaned s pd = false → memRight s m pd 0 = true →
        (lines.find? (memHeld s pd)) = none →
        memReadLines m pd lines [] none (endDrains pd lines (wakeLines pd lines (u 0xB00))) = (d, none, t) →
        exec (.memRead m f) s = answered m d t) ∧
    (accepted 0x0B02 m f s = true → arg f 0 2 % 64 = 0 → arg f 2 2 % 64 = 0 → arg f 2 2 ≠ 0 → arg f 2 2 ≤ 4032 →
      arg f 0 2 + arg f 2 2 ≤ 65536 →
      exec (.windowRead m f) s = answered m (windowBytes (u 0xB02) (arg f 0 2) (arg f 2 2 / 64)) (u 0xB02))

/-- R42, R437, R472, R478, R480, R484, R486, R508: the commands that set something answer OK with it set and in the
configuration store, PARAM_WRITE of a policer region once its quiesce points are reached; PATCH_LOAD answers FAILED
while a bank is being activated (R488); and FEATURE_ENABLE answers BAD_PARAM on a stack that supports no feature. The
model's own readings in it: log entries 49, 56, 101, 114, 125. Shown to complete here: alertAck, paramWrite,
paramPersist, laneGroupRestore, channelHold, sensorRestore, featureEnable, patchLoad, fuseShadowSet, memWrite,
windowWrite. -/
def Obligations.SettingCommandsTakeEffect : Prop :=
  ∀ (m : Fin 6) (f : Frame) (s : State),
    let u (opcode : BitVec 16) : State := begun opcode m f s
    (accepted 0x0005 m f s = true → exec (.alertAck m f) s =
      answered m [] (modLog (fun l => { l with ackIndex := max l.ackIndex (min (arg f 0 8) l.count) }) (u 5))) ∧
    (accepted 0x0011 m f s = true → argsClear f [(0, 2), (4, 12 * (writeEntries f).length)] = true →
      (writeParams (writeEntries f) (u 0x11)).1 = .ok →
      let t := claimRegions m (keepParams (writeParams (writeEntries f) (u 0x11)).2)
      ∀ v, stored (u 0x11) t v →
        exec (.paramWrite m f) s = if changeWaits m t then .next v else answered m [] v) ∧
    (accepted 0x0012 m f s = true → paramExists (arg f 0 2) (arg f 2 2) = true → paramWritable (arg f 0 2) = true →
      arg f 4 1 = 1 →
      ∀ v, stored (u 0x12) (modFirmware (fun x => { x with
          persisted := x.persisted.filter fun e => !(decide (e.1 = arg f 0 2) && decide (e.2.1 = arg f 2 2)) }) (u 0x12)) v →
        exec (.paramPersist m f) s = answered m [] v) ∧
    (accepted 0x0502 m f s = true → arg f 0 1 < 4 → arg f 1 1 < 16 →
      exec (.laneGroupRestore m f) s = answered m [] (modPhy (Fin.ofNat 4 (arg f 0 1)) (fun x => { x with
        retired := x.retired &&& ~~~(BitVec.ofNat 4 (arg f 1 1))
        losses := x.losses.filter fun e => !(BitVec.ofNat 4 (arg f 1 1)).getLsbD e.1 }) (u 0x502))) ∧
    (accepted 0x0604 m f s = true → arg f 0 1 < 32 → arg f 1 1 = 1 →
      let c : Fin 32 := Fin.ofNat 32 (arg f 0 1)
      channelMapped s c = false → s.channels[c].heldByCommand = false →
      ∀ v, stored (u 0x604) (holdChannel c (u 0x604)) v → exec (.channelHold m f) s = answered m [] v) ∧
    (accepted 0x0605 m f s = true → arg f 0 1 < 17 →
      let k : Fin 17 := Fin.ofNat 17 (arg f 0 1)
      s.sensors[k].suspect = true → 4000 ≤ s.sensors[k].agreeing →
      ∃ t, exec (.sensorRestore m f) s = answered m [] t ∧ t.sensors[k].suspect = false) ∧
    (accepted 0x0902 m f s = true →
      exec (.featureEnable m f) s = .next (respondTo m { status := .badParam } (u 0x902))) ∧
    (accepted 0x0900 m f s = true → argsClear f [(0, 6), (8, arg f 4 2)] = true → arg f 0 4 + arg f 4 2 ≤ 1048576 →
      s.firmware.activating = false →
      exec (.patchLoad m f) s = answered m [] (modFirmware (fun x =>
        if s.firmware.activeBank = 1 then
          { x with bankB := memWrite x.bankB (arg f 0 4) (bytesAt f.args 8 (arg f 4 2))
                   bankBadB := x.bankBadB && decide (arg f 0 4 ≠ 0) }
        else
          { x with bankA := memWrite x.bankA (arg f 0 4) (bytesAt f.args 8 (arg f 4 2))
                   bankBadA := x.bankBadA && decide (arg f 0 4 ≠ 0) }) (u 0x900))) ∧
    (accepted 0x0900 m f s = true → argsClear f [(0, 6), (8, arg f 4 2)] = true → arg f 0 4 + arg f 4 2 ≤ 1048576 →
      s.firmware.activating = true → exec (.patchLoad m f) s = .next (respondTo m { status := .failed } (u 0x900))) ∧
    (accepted 0x0A01 m f s = true → argsClear f [(0, 3), (8, 512)] = true → arg f 0 1 = 1 → arg f 1 1 = 0 → arg f 2 1 = 0 →
      imageClear 1 (fuseImage f) = true →
      exec (.fuseShadowSet m f) s = answered m [] (refreshValues (raiseOverride 1 1 (modFuses (fun x => { x with
        trim := BitVec.ofNat 4096 (fuseImage f), trimOverride := true }) (u 0xA01))))) ∧
    (accepted 0x0B01 m f s = true →
      ∀ pd lines t, memExtent s f true = some (pd, lines) → argsClear f [(0, 2), (4, 8 + 64 * lines.length)] = true →
        partitionOrphaned s pd = false → memRight s m pd 1 = true → debugBlind s m pd = false →
        (lines.find? (memHeld s pd)) = none →
        memWriteLines m pd f (lines.mapIdx fun k i => (k, i)) none (wakeLines pd lines (u 0xB01)) = (none, t) →
        ∀ v, stored (u 0xB01) t v → exec (.memWrite m f) s = answered m [] v) ∧
    (accepted 0x0B03 m f s = true → argsClear f [(0, 2), (4, 8)] = true → arg f 0 2 = 0xFC00 ∨ arg f 0 2 = 0xFC08 →
      exec (.windowWrite m f) s = answered m [] (controlWrite (arg f 0 2) (BitVec.ofNat 64 (arg f 4 8)) (u 0xB03)))

/-- R41, R42, R473, R474: PARTITION_CREATE makes its partition over mapped granules; a change of a partition waits for
its quiesce point with its mailbox busy behind those already there, applies there in its turn with its response once
the last that its command waits for has applied, or is dropped FAILED at the timeout with whatever else its command
waits for. The model's own readings in it: log entries 45, 101. Shown to complete here: partitionCreate,
partitionResize, partitionDelete, partitionModify, partitionRights, quiescePoint, quiesceTimeout. -/
def Obligations.PartitionCommandsAndQuiescePoints : Prop :=
  (∀ (m : Fin 6) (f : Frame) (s : State),
    let u (opcode : BitVec 16) : State := begun opcode m f s
    let pd : Fin 64 := Fin.ofNat 64 (arg f 0 1)
    let x := s.partitions[pd]
    (accepted 0x0100 m f s = true → argsClear f [(0, 7), (8, 8)] = true → arg f 0 1 < 64 → arg f 1 1 = 0 → arg f 2 1 = 0 →
      arg f 3 1 = 0 → arg f 4 1 < 4 → arg f 5 1 < 16 → arg f 6 1 < 64 → 1 ≤ arg f 10 2 → x.valid = false →
      rangeFree s pd (arg f 8 2) (arg f 8 2 + arg f 10 2) = true → arg f 12 4 ≤ collieShare s pd →
      let new : Partition := { valid := true, quarter := Fin.ofNat 4 (arg f 4 1), owner := BitVec.ofNat 4 (arg f 5 1)
                               keySlot := arg f 6 1, base := arg f 8 2, granules := arg f 10 2, quota := arg f 12 4
                               rights := rightsAtCreation (BitVec.ofNat 4 (arg f 5 1)) }
      ∀ t v, makePartition new pd (u 0x100) = some t → s.refills.length ≤ t.refills.length → stored (u 0x100) t v →
        exec (.partitionCreate m f) s = answered m (metaReply (arg f 0 1) 0) v) ∧
    (accepted 0x0101 m f s = true → arg f 0 1 < 64 → 1 ≤ arg f 2 2 → arg f 2 2 ≤ 1024 → argsClear f [(0, 1), (2, 2)] = true →
      x.valid = true → rekeying s pd = false → x.mode = .plain → x.ptype = .raw → regionsInside s pd (arg f 2 2) = true →
      rangeFree s pd x.base (x.base + arg f 2 2) = true → resizeAhead s pd = none → arg f 2 2 ≠ x.granules →
      exec (.partitionResize m f) s = waits m pd (.resize (arg f 2 2)) (u 0x101)) ∧
    (accepted 0x0102 m f s = true → arg f 0 1 < 64 → x.valid = true → rekeying s pd = false →
      (s.tables.any fun t => (t.valid || t.quiescing) && decide (t.partition = pd)) = false → queuesFree s pd = true →
      resizeAhead s pd = none → exec (.partitionDelete m f) s = waits m pd .delete (u 0x102)) ∧
    (accepted 0x0103 m f s = true → argsClear f [(0, 3), (4, 4)] = true → arg f 0 1 < 64 → arg f 1 1 = 2 → arg f 2 1 < 16 →
      x.valid = true → arg f 4 4 ≤ collieShare s pd → sharesNaming s pd ≤ arg f 4 4 →
      exec (.partitionModify m f) s = waits m pd (.quota (arg f 4 4)) (u 0x103)) ∧
    (accepted 0x0104 m f s = true → argsClear f [(0, 1), (4, 4)] = true → arg f 0 1 < 64 → x.valid = true →
      arg f 4 4 < 2 ^ 19 → (x.mode = .plain ∨ ∃ p : Fin 4, m.val = p.val ∧ x.owner.getLsbD p = true) →
      exec (.partitionRights m f) s = waits m pd (.rights (BitVec.ofNat 32 (arg f 4 4))) (u 0x104))) ∧
  (∀ (pd : Fin 64) (c : Change) (m : Fin 6) (rest : List (Change × Option (Fin 6))) (s : State),
    s.partitions[pd].pendingChanges = (c, some m) :: rest →
    let u := flushPartition pd (modPartition pd (fun x => { x with pendingChanges := [] }) s)
    (partitionBusy s pd = false → exec (.quiescePoint (.partition pd)) s =
      .next (runHeld (((c, some m) :: rest).foldl (applyOne pd) u))) ∧
    (u.partitions[pd].valid = true → changeRefused u pd c = false →
      ∀ t v, applyChange pd c u = some t → stored u t v → u.refills.length ≤ v.refills.length →
        applyOne pd u (c, some m) =
          if changeWaits m v then v else respondTo m { status := .ok, data := changeReply v pd c } v) ∧
    ((∀ n, c ≠ .resize n) → exec (.quiesceTimeout (.partition pd)) s =
      .next (runHeld (respondTo m { status := .failed } (dropChanges m (modPartition pd (fun x => { x with
        pendingChanges := rest }) s)))))) ∧
  ∀ (td : Fin 16) (s : State), s.tables[td].valid = true → s.tables[td].quiescing = true →
    (tableBusy s td = false →
      exec (.quiescePoint (.table td)) s = .next (modTable td (fun t => { t with valid := false }) s)) ∧
    exec (.quiesceTimeout (.table td)) s = .next (endTasks (fun x => decide (x.work = .tableDelete td)) .failed
      (modTable td (fun t => { t with quiescing := false }) s))

/-- R353, R354, R475 to R478: the commands on keys, tables, queues and Collie: a key is unwrapped into an empty slot
and cleared from one; a table is made empty, its poisoned slot released; a queue takes its spare, its settings, and
gives the spare back; the whole setting of a port-class is taken where the ledger fits it. The model's own readings in
it: log entries 34, 114, 120, 121. Shown to complete here: keyLoad, keyClear, tableCreate, tableSlotRelease,
queueCreate, queueModify, queueDelete, queueReset, collieSet. -/
def Obligations.KeyTableQueueCommands : Prop :=
  ∀ (m : Fin 6) (f : Frame) (s : State),
    let u (opcode : BitVec 16) : State := begun opcode m f s
    (accepted 0x0110 m f s = true → arg f 0 1 < 64 → arg f 1 1 = 3 → argsClear f [(0, 2), (4, 40)] = true →
      let k : Fin 64 := Fin.ofNat 64 (arg f 0 1)
      s.keys[k].kind = .empty → loadFits s (arg f 0 1) 3 = true → secretsTested s = false →
      ∀ secret key, s.fuses.keywrap = some secret →
        keyUnwrap (keyWrapKey s secret) ((bytesAt f.args 4 40).map BitVec.toNat) = some key →
        exec (.keyLoad m f) s = answered m [] (modKey k (fun _ => { kind := .gcm, key := BitVec.ofNat 512 (listNum key) })
          (modFuses (fun f => { f with unwrapRun := 0 }) (u 0x110)))) ∧
    (accepted 0x0111 m f s = true → arg f 0 1 < 64 → slotUser s (arg f 0 1) = none →
      exec (.keyClear m f) s = answered m [] (modKey (Fin.ofNat 64 (arg f 0 1)) (fun _ => {}) (u 0x111))) ∧
    (accepted 0x0200 m f s = true → argsClear f [(0, 7), (8, 12)] = true → arg f 0 1 < 16 → arg f 1 1 = 0 → arg f 2 1 < 64 →
      arg f 5 1 < 4 → arg f 16 4 = 0 →
      let td : Fin 16 := Fin.ofNat 16 (arg f 0 1)
      let pd : Fin 64 := Fin.ofNat 64 (arg f 2 1)
      let x := s.partitions[pd]
      tableTaken s.tables[td] = false → x.valid = true → x.ptype = .table →
      tableFieldsFit false (arg f 3 1) (arg f 4 1) (arg f 6 1) 0 (arg f 12 4) = true →
      arg f 8 4 + arg f 12 4 ≤ x.granules * granuleBlocks → regionClear s pd (arg f 8 4) (arg f 12 4) = true →
      (x.chip = true ∨ arg f 5 1 = x.quarter.val) → s.firmware.stuck.contains (.table td) = false →
      ∃ t, exec (.tableCreate m f) s = answered m [] t ∧
        (let d := t.tables[td]
         d.valid = true ∧ d.prefixKind = false ∧ d.partition = pd ∧ d.keyLen = arg f 3 1 ∧ d.bucketLog2 = arg f 4 1 ∧
           d.home.val = arg f 5 1 ∧ d.baseBlock = arg f 8 4 ∧ d.entryCount = 0 ∧ d.stash = [] ∧ d.quiescing = false) ∧
        t.dram = s.dram ∧ ∀ k : Fin 16, k ≠ td → t.tables[k] = s.tables[k]) ∧
    (accepted 0x0202 m f s = true → argsClear f [(0, 3), (4, 4)] = true → arg f 0 1 < 16 → arg f 1 1 = 2 → arg f 2 1 < 32 →
      let td : Fin 16 := Fin.ofNat 16 (arg f 0 1)
      let t := s.tables[td]
      let i := t.dirBase + arg f 4 4
      t.valid = true → t.quiescing = false → t.prefixKind = true → arg f 4 4 < 2 ^ t.dirBits → s.directoryBad.contains i = true →
      exec (.tableSlotRelease m f) s = answered m [] (commitCount td (.directory i) (setDirectory i 0
        (modTable td (fun t => { t with reported := t.reported.filter (· ≠ (i, 32)) })
          { u 0x202 with directoryBad := s.directoryBad.filter (· ≠ i) })))) ∧
    (accepted 0x0300 m f s = true → arg f 0 4 < 262144 → arg f 4 1 < 64 → arg f 5 1 < 32 → arg f 6 1 < 16 →
      (arg f 7 1 = 1 ∨ arg f 7 1 = 2) →
      let q := arg f 0 4
      let pd : Fin 64 := Fin.ofNat 64 (arg f 4 1)
      let x := s.partitions[pd]
      x.valid = true → x.ptype = .buffer → (queueAt s q).state = .free → (x.chip = true ∨ homeSlice q = x.quarter) →
      ownerSubset s pd (BitVec.ofNat 4 (arg f 6 1)) = true → freeCells s pd ≠ 0 →
      ∀ c t v, takeCell (homeSlice q) pd (u 0x300) = (some c, t) →
        stored (u 0x300) (modQueue q (fun _ => {
          head := c, tail := c, profile := arg f 5 1, state := if arg f 7 1 = 1 then .active else .stopped
          partition := pd.val, owner := BitVec.ofNat 4 (arg f 6 1) }) t) v →
        exec (.queueCreate m f) s = answered m [] v) ∧
    (accepted 0x0301 m f s = true → arg f 0 4 < 262144 → arg f 4 1 = 1 → arg f 5 1 < 32 → arg f 6 1 < 16 →
      (queueAt s (arg f 0 4)).state ≠ .free →
      exec (.queueModify m f) s =
        answered m [] (modQueue (arg f 0 4) (fun y => { y with profile := arg f 5 1 }) (u 0x301))) ∧
    (accepted 0x0302 m f s = true → arg f 0 4 < 262144 →
      let x := queueAt s (arg f 0 4)
      x.state ≠ .free → x.cells = 0 → x.streams = [] →
      ∀ v, stored (u 0x302) (modQueue (arg f 0 4) (fun _ => {})
          (giveCell (homeSlice (arg f 0 4)) (queuePd s (arg f 0 4)) (u 0x302) x.tail)) v →
        exec (.queueDelete m f) s = answered m [] v) ∧
    (accepted 0x0303 m f s = true → arg f 0 4 < 262144 →
      let q := arg f 0 4
      let x := queueAt s q
      x.state = .broken ∨ x.state = .active →
      ∀ c t v, takeCell (homeSlice q) (queuePd s q) (u 0x303) = (some c, t) →
        stored (u 0x303) (modQueue q (fun y => { y with
          head := c, tail := c, cells := 0, packets := 0, state := .active })
          (modBuffer (queuePd s q) (fun b => { b with leaked := b.leaked + x.cells + 1 }) (endQueueWork q t))) v →
        exec (.queueReset m f) s = answered m [] v) ∧
    (accepted 0x0400 m f s = true → argsClear f [(0, 28)] = true → arg f 0 1 < 4 → arg f 1 1 < 8 → arg f 2 1 ≤ 4 →
      arg f 4 4 ≤ 400000 → arg f 4 4 % 100 = 0 → 64 ≤ arg f 8 4 → arg f 8 4 ≤ 1048576 → arg f 12 4 = 0 → 64 ≤ arg f 16 4 →
      arg f 16 4 ≤ 1048576 → arg f 20 4 = 0 → arg f 24 4 = 0 →
      let p : Fin 4 := Fin.ofNat 4 (arg f 0 1)
      let k : Fin 8 := Fin.ofNat 8 (arg f 1 1)
      let old := refillClass s.hubTimer s.ports[p].classes[k]
      let t := modClass p k (fun _ => { old with
        floor := arg f 4 4, floorBurst := arg f 8 4, ceiling := 0, ceilingBurst := arg f 16 4, target := 0, scope := arg f 2 1
        kennelPd := arg f 3 1, kennelLines := 0, floorAdmitted := arg f 4 4, targetAdmitted := 0, kennelAdmitted := 0
        floorTokens := if old.floor = 0 ∧ arg f 4 4 ≠ 0 then (arg f 8 4 * 65536 : Nat) else min old.floorTokens (arg f 8 4 * 65536 : Nat)
        ceilTokens := min old.ceilTokens (arg f 16 4 * 65536 : Nat) }) (u 0x400)
      ledgerFits t = true → ∀ v, stored (u 0x400) (recomputeLedger (u 0x400) t) v →
        exec (.collieSet m f) s = answered m [] v)

/-- R445, R477 to R485, R510 to R514: a command that starts a long operation answers ACCEPTED with a new ticket and
begins it: table and buffer resets, rekeys, port training and tests, lane re-tunes, trims, repairs, retirements,
quarter resets, self-tests, patch activation, imports and the fuse commands. The model's own readings in it: log
entries 47, 59. Shown to complete here: tableDelete, partitionRekey, laneRetune, vtrim, wireRepair, rowRepair,
channelRetire, patchActivate, configImport, fuseBurn, fuseLock, fuseReburn. -/
def Obligations.LongCommandsAreAccepted : Prop :=
  ∀ (m : Fin 6) (f : Frame) (s : State),
    let u (opcode : BitVec 16) : State := begun opcode m f s
    let start (opcode : BitVec 16) (w : Work) (begin_ : Task → State → State) : Out := startsTask m opcode w begin_ (u opcode)
    let started (opcode : BitVec 16) (w : Work) (begin_ : Task → State → State) (i : Instr) : Prop :=
      ∀ v, stored (u opcode) (taskBegun m opcode w begin_ (u opcode)) v →
        exec i s = .next (respondTo m { status := .accepted, ticket := s.nextTicket } v)
    let ready (opcode : BitVec 16) (w : Work) : Bool := accepted opcode m f s && activityOpen m opcode w (u opcode)
    let c : Fin 32 := Fin.ofNat 32 (arg f 0 1)
    let p : Fin 4 := Fin.ofNat 4 (arg f 0 1)
    (accepted 0x0201 m f s = true → roomForTask s = true → arg f 0 1 < 16 →
      let td : Fin 16 := Fin.ofNat 16 (arg f 0 1)
      s.tables[td].valid = true → s.tables[td].quiescing = false →
      exec (.tableDelete m f) s =
        start 0x0201 (.tableDelete td) fun _ s => modTable td (fun t => { t with quiescing := true }) s) ∧
    (accepted 0x0304 m f s = true → roomForTask s = true → arg f 0 1 < 64 →
      let pd : Fin 64 := Fin.ofNat 64 (arg f 0 1)
      s.partitions[pd].valid = true → s.partitions[pd].ptype = .buffer →
      ((queuesOf s pd).any fun q => decide ((queueAt s q).cells ≠ 0) || !(queueAt s q).streams.isEmpty) = false →
      started 0x0304 (.bufferReset pd) (fun _ s => bufferWatch pd (resetBuffer pd s)) (.bufferReset m f)) ∧
    (∀ pd : Fin 64, ready 0x0105 (.rekey pd) = true → arg f 0 1 = pd.val → arg f 1 1 < 64 → s.partitions[pd].valid = true →
      s.partitions[pd].mode ≠ .plain → rekeying s pd = false → resizeAhead s pd = none →
      slotFits s s.partitions[pd].mode (arg f 1 1) = true →
      ∃ t, exec (.partitionRekey m f) s = .next t ∧
        t.partitions[pd].sealing.rekey = some { slot := arg f 1 1, pointer := 0, quarantined := 0 } ∧
        newTask s m 0x0105 .running (.rekey pd) ∈ t.tasks) ∧
    (ready 0x0500 (.portTrain p) = true → arg f 0 1 < 4 → s.ports[p].phy.enable = true →
      started 0x0500 (.portTrain p) (beginTrain p) (.portTrain m f)) ∧
    (ready 0x0501 (.portTest p (testArg f)) = true → argsClear f [(0, 7), (8, 4)] = true → arg f 0 1 < 4 → arg f 1 1 = 0 →
      arg f 2 1 < 4 → arg f 3 1 < 8 → bitsOf (arg f 3 1) 1 0 ≠ 3 → arg f 6 1 = 1 → s.ports[p].phy.enable = true →
      started 0x0501 (.portTest p (testArg f)) (beginTest p (testArg f)) (.portTest m f)) ∧
    (ready 0x0503 (.retune p (BitVec.ofNat 16 (arg f 2 2))) = true → argsClear f [(0, 1), (2, 2)] = true → arg f 0 1 < 4 →
      linkUp s p = true →
      exec (.laneRetune m f) s = start 0x0503 (.retune p (BitVec.ofNat 16 (arg f 2 2))) fun _ s => s) ∧
    (ready 0x0600 (.vtrim c) = true → arg f 0 1 < 32 → chanRetired s c = false →
      exec (.vtrim m f) s = start 0x0600 (.vtrim c) fun _ s => s) ∧
    (let path := pathOf (arg f 1 1)
     ready 0x0601 (.wireRepair c path (arg f 2 2)) = true → arg f 0 1 < 32 → arg f 1 1 < 3 → arg f 2 2 < pathWires path →
      chanRetired s c = false →
      exec (.wireRepair m f) s = start 0x0601 (.wireRepair c path (arg f 2 2)) fun _ s => s) ∧
    (let b : Fin 16 := Fin.ofNat 16 (arg f 1 1)
     ready 0x0602 (.rowRepair c b (arg f 4 4)) = true → argsClear f [(0, 2), (4, 4)] = true → arg f 0 1 < 32 → arg f 1 1 < 16 →
      arg f 4 4 < 65600 → chanRetired s c = false → s.channels[c].retire ≠ .migrating →
      exec (.rowRepair m f) s = start 0x0602 (.rowRepair c b (arg f 4 4)) fun _ s => s) ∧
    (ready 0x0603 (.retire c) = true → arg f 0 1 < 32 → chanRetired s c = false → retirement s c = none →
      reserveTakes s c = true → s.firmware.stuck = [] → ∃ t, exec (.channelRetire m f) s = .next t ∧
        t.mailboxes[m].lastStatus = 1 ∧ t.mailboxes[m].busy = none) ∧
    (accepted 0x0701 m f s = true → roomForTask s = true → arg f 0 1 < 4 → s.device.fatal = false →
      started 0x0701 (.quarterReset (Fin.ofNat 4 (arg f 0 1)))
        (fun _ s => beginQuarterReset (Fin.ofNat 4 (arg f 0 1)) s) (.quarterReset m f)) ∧
    (∀ b n, ready 0x0800 (.bist b n) = true → argsClear f [(0, 1), (2, 6)] = true → blockArg f = some b →
      bistPatterns s (arg f 4 4) = some n → bistAllowed s b = true →
      started 0x0800 (.bist b n) (fun _ s => beginTestRun b s) (.bistRun m f)) ∧
    (∀ b, ready 0x0801 (.mbist b) = true → argsClear f [(0, 1), (2, 2)] = true → blockArg f = some b → mbistAllowed s b = none →
      started 0x0801 (.mbist b) (fun _ s => beginTestRun b s) (.mbistRun m f)) ∧
    (accepted 0x0901 m f s = true → roomForTask s = true → arg f 0 1 = 0 →
      exec (.patchActivate m f) s = start 0x0901 (.patchActivate true) fun _ s =>
        modFirmware (fun x => { x with activating := true }) s) ∧
    (accepted 0x0904 m f s = true → arg f 1 1 = 0 → argsClear f [(0, 8), (8, arg f 2 2)] = true → arg f 4 4 = 0 →
      (s.partitions.any (·.valid)) = false → (gcmSlot s (arg f 0 1)).isSome = true →
      exec (.configImport m f) s = answered m [] (modFirmware (fun x => { x with
        importNext := arg f 2 2, importBuffer := memWrite [] 0 (bytesAt f.args 8 (arg f 2 2)) }) (u 0x904))) ∧
    (accepted 0x0A02 m f s = true → roomForTask s = true → arg f 0 1 = 5 → arg f 1 1 < 4 → arg f 2 1 < 2 →
      argsClear f [(0, 3), (8, 64)] = true → fuseDead s 5 (arg f 1 1) = false →
      fuseBlockState s 5 (arg f 2 1) (arg f 1 1) = .blank → nextUser s (arg f 2 1) = some (arg f 1 1) →
      imageFits s 5 (arg f 1 1) (arg f 2 1) (fuseImage f) = true → fuseRefusal s = none →
      exec (.fuseBurn m f) s =
        start 0x0A02 (.fuseBurn 5 (arg f 1 1) (arg f 2 1) (natToBytes 64 (fuseImage f))) fun _ s => s) ∧
    (accepted 0x0A03 m f s = true → roomForTask s = true → fuseArgs f = true → arg f 2 1 < 2 →
      fuseDead s (arg f 0 1) (arg f 1 1) = false → lockFits s (arg f 0 1) (arg f 1 1) = true → fuseRefusal s = none →
      exec (.fuseLock m f) s = start 0x0A03 (.fuseLock (arg f 0 1) (arg f 1 1) (arg f 2 1)) fun _ s => s) ∧
    (accepted 0x0A04 m f s = true → roomForTask s = true → fuseArgs f = true →
      fuseDead s (arg f 0 1) (arg f 1 1) = false → reburnable s (arg f 0 1) (arg f 1 1) = true → fuseRefusal s = none →
      exec (.fuseReburn m f) s = start 0x0A04 (.fuseReburn (arg f 0 1) (arg f 1 1)) fun _ s => s)

/-- R422, R425, R445, R461, R480, R482, R485, R534: DEVICE_RESET begins a warm reset with its mailbox busy;
BLOCK_RESET fences and resets its block, after the echo test where its channel has failed a replay (R373), with its
findings free; MAINT_CANCEL withdraws what waits; the arbiter starts the next activity; a patch completes its
probation; a snapshot lapses. The model's own readings in it: log entries 47, 65, 119. Shown to complete here:
deviceReset, blockReset, maintCancel, maintStart, patchProbation, configSnapshotExpiry. -/
def Obligations.ResetAndMaintenanceCommands : Prop :=
  ∀ (m : Fin 6) (f : Frame) (s : State),
    (accepted 0x0700 m f s = true → f.args.getD 0 0 = 0 →
      ∀ v, stored (begun 0x0700 m f s) (startWarm 3 (some m) (begun 0x0700 m f s)) v →
        exec (.deviceReset m f) s = .next v) ∧
    (∀ b, accepted 0x0702 m f s = true → argsClear f [(0, 1), (2, 2)] = true → blockArg f = some b → s.device.fatal = false →
      (∀ q, quarterOf b = some q → quarterOut s q = false) → (blockAt s b).resetting = false →
      ∃ found : List Nat, ∀ v, stored (begun 0x0702 m f s)
          (startBlockReset b (echoTest b found (drawOne (fenceBlock b false false (begun 0x0702 m f s))))) v →
        exec (.blockReset m f) s = answered m [] v) ∧
    (∀ t, accepted 0x0804 m f s = true → arg f 0 2 ≠ 0 →
      s.tasks.find? (fun t => decide (t.ticket = arg f 0 2) && decide (arg f 0 2 ≠ 0) && decide (t.state = .queued)) = some t →
      ∀ v, stored (begun 0x0804 m f s) (withdraw t (begun 0x0804 m f s)) v →
        exec (.maintCancel m f) s = answered m [] v) ∧
    (∀ t, s.firmware.rebooting = false → s.device.warm = false → s.device.fatal = false → devReady s = true →
      nextWork s = some t → exec .maintStart s = .next (startWork t s)) ∧
    (∀ since n, s.firmware.probation = some (since, n) → exec .patchProbation s =
      .next (modFirmware (fun x => { x with
        probation := none, minPatchVersion := max x.minPatchVersion x.patchVersion }) (passTo (since + 600 * secondNs) s))) ∧
    ∀ bs since, s.firmware.snapshot = some (bs, since) → exec .configSnapshotExpiry s =
      .next (modFirmware (fun x => { x with snapshot := none }) (passTo (since + 60 * secondNs) s))

/-! ### Resets and start-up -/

/-- R404, R422, R424, R427: power-on and RST_L take the stack to a cold start: DRAM, the repair log, the log,
partitions and fuses are kept, and the Kennel, keys, queues, tasks and ports begin anew; the release samples the
straps and restarts the hub timer; WRST_L holds a warm reset, and its release lets the restart go on, or begins a cold
start in START_FAILED; in a trip, with RST_L low and in a cold start-up its edges are ignored. The model's own
readings in it: log entries 66, 80. Shown to complete here: powerOnReset, rstL, wrstL. -/
def Obligations.ResetsKeepWhatTheyKeep : Prop :=
  ∀ (strap : BitVec 2) (s : State),
    let cold (t : State) : Prop := t.device.dev = .fuseLoad ∧ t.hubTimer = 0 ∧ t.dram = s.dram ∧ t.granuleMap = s.granuleMap ∧
      t.repairLog = s.repairLog ∧ t.repairLogB = s.repairLogB ∧ t.salts = s.salts ∧ t.firmware.persisted = s.firmware.persisted ∧ t.kennel = [] ∧
      t.queues = [] ∧ t.tasks = [] ∧ t.keys = State.reset.keys ∧ t.ports = State.reset.ports ∧
      t.channels = State.reset.channels ∧ t.device.fatal = false ∧ t.sensors = State.reset.sensors ∧
      ∀ pd : Fin 64, t.partitions[pd].valid = s.partitions[pd].valid ∧
        (s.partitions[pd].valid = true → t.partitions[pd].base = s.partitions[pd].base ∧
          t.partitions[pd].rights = s.partitions[pd].rights ∧ t.partitions[pd].binding = s.partitions[pd].binding)
    (∃ t, exec .powerOnReset s = .next t ∧ cold t ∧ t.thermal.tripped = false ∧ t.device.lastCause = 0) ∧
    (ioFaulted s = false → s.thermal.tripped = false → s.device.rstLow = false →
      ∃ t, exec (.rstL false strap) s = .next t ∧ cold t ∧ t.device.rstLow = true ∧ t.device.lastCause = 1) ∧
    (ioFaulted s = false → s.thermal.tripped = false → s.device.rstLow = true →
      exec (.rstL true strap) s = .next { s with
        hubTimer := 0, device := { s.device with rstLow := false }, sideband := { s.sideband with strap := strap } }) ∧
    (ioFaulted s = false → warmAllowed s = true →
      exec (.wrstL false) s = .next (modDevice (fun d => { d with wrstLow := true }) (startWarm 2 none s))) ∧
    (ioFaulted s = false → warmIgnored s = true → exec (.wrstL false) s = .next s ∧
      exec (.wrstL true) s = .next (modDevice (fun d => { d with wrstLow := false }) s)) ∧
    (ioFaulted s = false → s.device.wrstLow = true → warmIgnored s = false → s.device.dev ≠ .startFailed →
      exec (.wrstL true) s = .next (modDevice (fun d => { d with wrstLow := false, startedAt := s.hubTimer }) s)) ∧
    (ioFaulted s = false → s.device.wrstLow = true → warmIgnored s = false → s.device.dev = .startFailed →
      exec (.wrstL true) s = .next (coldReset 4 (modDevice (fun d => { d with wrstLow := false }) s)))

/-- R414, R426, R428 to R430: each phase of start-up that succeeds hands over to the next, the last one to READY; the
first senses the fuses and counts the epoch once, whatever its clocks do; a phase whose hub or management PLL does not
lock, the wait for REFCLK and a failed check end in START_FAILED; a warm restart brings its channels and ports back,
settles what quarters held meanwhile, makes the ledger anew and answers DEVICE_RESET. The model's own readings in it:
log entries 65, 76, 115, 123. Shown to complete here: startupPhase, refclkWaitTimeout, warmRestartReady. -/
def Obligations.StartupPhasesAndRestart : Prop :=
  (∀ (r : StartReport) (s : State), s.device.rstLow = false → s.thermal.tripped = false →
    let u := passTo (s.hubTimer + r.elapsedNs) s
    let good := r.hubPll = true ∧ r.managementPll = true
    (good → s.device.dev = .fuseLoad → r.refclk = true →
      ∃ t, exec (.startupPhase r) s = .next t ∧ t.device.dev = .sram) ∧
    (s.device.dev = .fuseLoad → ∃ t, exec (.startupPhase r) s = .next t ∧ t.device.fusesSensed = true ∧
      t.device.epoch = if s.device.fusesSensed then s.device.epoch else (s.device.epoch + 1) % 2 ^ 32) ∧
    (good → s.device.dev = .sram → r.hubSramBad = false →
      ∃ t, exec (.startupPhase r) s = .next t ∧ t.device.dev = .core) ∧
    (good → s.device.dev = .core → r.romOk = true → r.lockstepOk = true →
      ∃ t, exec (.startupPhase r) s = .next t ∧ t.device.dev = .dramInit) ∧
    (good → s.device.dev = .dramInit → ∃ t, exec (.startupPhase r) s = .next t ∧ t.device.dev = .fill) ∧
    (good → s.device.dev = .fill → r.channelsBad = [] →
      exec (.startupPhase r) s = .next (reachReady (endRekeys (fillDram { u with refills := [] })))) ∧
    (s.device.dev ∈ [DevState.fuseLoad, .sram, .core, .dramInit, .fill] → (s.device.dev = .fuseLoad → r.refclk = true) →
      r.hubPll = false →
      ∃ t, exec (.startupPhase r) s = .next t ∧ t.device.dev = .startFailed ∧ t.device.alertForced = true)) ∧
  (∀ s : State, s.device.refclk = 1 → s.device.rstLow = false → s.thermal.tripped = false → s.device.dev = .fuseLoad →
    ∃ t, exec .refclkWaitTimeout s = .next t ∧ t.device.dev = .startFailed) ∧
  ∀ s : State, s.device.warm = true → s.device.wrstLow = false → s.device.rstLow = false → s.device.refclk ≠ 1 →
    s.thermal.tripped = false →
    let b := modFuses (fun f => { f with bands := pllBands f.trim }) s
    let u := modDevice (fun d => { d with
        hubBand := lockBand b, warm := false, startup := (s.hubTimer - d.startedAt) / 10000 })
      { b with quarters := s.quarters.map (warmQuarter (lockBand b)), blocks := s.blocks.map fun e => (e.1, warmBlock e.2) }
    let v := (List.finRange 32).foldl (fun s (c : Fin 32) =>
      if quarterOut s (Fin.ofNat 4 (c.val / 8)) ∨ blockStopped s (.channel c) then s
      else channelAwake u.hubTimer c s) u
    let w := (List.finRange 4).foldl (fun s (p : Fin 4) =>
      if s.ports[p].phy.enable ∧ !quarterOut s p ∧ !blockStopped s (.port p) then toDetect p s else s) v
    let x := (List.finRange 4).foldl (fun t q => warmAway q s.quarters[q] t) (warmKennel w)
    exec .warmRestartReady s =
      .next ((List.finRange 6).foldl (fun s (m : Fin 6) => respondTo m { status := .ok } s) (recomputeLedger x x))

/-- The values that the spec states for reset: the stack is in the fuse load with its hub timer at 0 (R414, R428), no
fatal or trip state, nothing in the Kennel and every queue free (R225, R424), every partner down (R424), every key
slot empty and the salts at 0, tickets from 1 (R445), MB4 in SMBus mode with its lengths of 260 (R447), both target
registers zero (R448), and no command pending. -/
def Obligations.ResetState : Prop :=
  let s := State.reset
  s.pending = [] ∧ s.hubTimer = 0 ∧ s.device.dev = .fuseLoad ∧ s.device.fatal = false ∧ s.thermal.tripped = false ∧
    s.kennel = [] ∧ (∀ q, (queueAt s q).state = .free) ∧ (∀ p : Fin 4, s.ports[p].partnerState = .down) ∧
    (∀ k : Fin 64, s.keys[k].kind = .empty ∧ s.keys[k].key = 0) ∧ s.nextTicket = 1 ∧ s.sideband.i3c = false ∧
    s.sideband.maxWrite = 260 ∧ s.sideband.maxRead = 260 ∧ s.sideband.wspTarget = 0 ∧ s.sideband.dieTarget = 0 ∧
    (∀ m : Fin 6, s.mailboxes[m].busy = none ∧ s.mailboxes[m].respReady = false)

/-! ### Sideband and TAP -/

/-- R447, R448: MB_DATA reads and writes its buffer at the pointer, which advances by the bytes moved and stops at the
end of the buffer; MB_POINTER and the target registers take what is written; MB_DOORBELL with 0x01 rings; a read of
MB_STATUS, MB_POINTER, ALERT_STATUS or IDENT_SHORT answers the register's bytes, IDENT_SHORT in every state. The
model's own readings in it: log entry 70. Shown to complete here: registerWrite, mbData, mbDoorbell. -/
def Obligations.RegistersMoveMailboxData : Prop :=
  ∀ (jtag pecOk : Bool) (s : State), ioFaulted s = false → (jtag = true ∨ s.sideband.i3c = true ∨ pecOk = true) →
    let reads (code : BitVec 8) (bs : List Byte) : Prop :=
      ∀ count, exec (.registerWrite jtag pecOk code (.read count)) s =
        .next (sbAnswer (bs.take (min count (transferLimit s jtag false))) s)
    (s.device.rstLow = false → reads 0x10 (identShort s)) ∧
    (registersAnswer jtag s = true →
    reads 0x01 (natToBytes 4 (mbStatusWord s (registerMailbox jtag))) ∧
    reads 0x02 (natToBytes 2 (pointerOf s jtag).toNat) ∧ reads 0x04 (alertStatus s) ∧
    let m := registerMailbox jtag
    let start := (pointerOf s jtag).toNat % 8192
    (∀ (count : Nat) (bytes : List Byte),
      let n := min (min count (transferLimit s jtag true)) (4096 - start)
      (pointerOf s jtag).getLsbD 15 = false →
      ∃ t, exec (.mbData jtag pecOk true count bytes) s = .next t ∧ t.sideband.answer = [] ∧
        t.mailboxes[m].request = memWrite s.mailboxes[m].request start (bytesAt bytes 0 n) ∧
        pointerOf t jtag = BitVec.ofNat 16 (start + n) ∧ ∀ k : Fin 6, k ≠ m → t.mailboxes[k] = s.mailboxes[k]) ∧
    (∀ (count : Nat) (bytes : List Byte),
      let n := min (min count (transferLimit s jtag false)) (4096 - start)
      (pointerOf s jtag).getLsbD 15 = true →
      ∃ t, exec (.mbData jtag pecOk false count bytes) s = .next t ∧
        t.sideband.answer = memBytes s.mailboxes[m].response start n ∧
        pointerOf t jtag = BitVec.ofNat 16 (start + n + 2 ^ 15) ∧ t.mailboxes[m].response = s.mailboxes[m].response ∧
        t.mailboxes[m].request = s.mailboxes[m].request) ∧
    (∀ lo hi : Byte, exec (.registerWrite jtag pecOk 0x02 (.write [lo, hi])) s =
      .next (sbAnswer [] (setPointer jtag (BitVec.ofNat 16 (lo.toNat + 256 * hi.toNat) &&& 0x8FFF) s))) ∧
    (∀ bs : List Byte, jtag = true → debugOpen s = true → exec (.registerWrite jtag pecOk 0x20 (.write bs)) s =
      .next (sbAnswer [] (modSideband (fun b => { b with wspTarget := BitVec.ofNat 32 (natAt bs 0 3) }) s))) ∧
    exec (.mbDoorbell jtag pecOk 1) s = .next (sbAnswer [] (ringDoorbell m s)) ∧
    ∀ v : Byte, v ≠ 1 → exec (.mbDoorbell jtag pecOk v) s = .next (sbAnswer [] s))

/-- R447: the common command codes: an address enters I3C mode, RSTDAA leaves it, ENEC sends what waits, DISEC stops
it, and the lengths, the provisional ID, BCR and DCR are answered; the address of ENTDAA is any the controller gives.
The model's own readings in it: log entries 71, 74. Shown to complete here: rstdaa, entdaa, setdasa, setnewda, enec,
disec, getpid, getbcr, getdcr, getmwl, getmrl, getstatus, setmwl, setmrl. -/
def Obligations.CommonCommandCodes : Prop :=
  ∀ s : State, ioFaulted s = false → s.device.rstLow = false →
    let set (f : Sideband → Sideband) : Out := .next (sbAnswer [] (modSideband f s))
    let reply (bs : List Byte) : Out := .next (sbAnswer bs s)
    exec .rstdaa s = set (fun b => { b with i3c := false, dynamicAddress := 0 }) ∧
    (∀ a : BitVec 7, a ≠ 0 →
      (s.sideband.i3c = false → exec (.entdaa a) s = set fun b => { b with i3c := true, dynamicAddress := a }) ∧
      (∀ n : BitVec 7, s.sideband.i3c = false → n.toNat = 0x58 + s.sideband.strap.toNat →
        exec (.setdasa n a) s = set fun b => { b with i3c := true, dynamicAddress := a }) ∧
      (s.sideband.i3c = true → exec (.setnewda a) s = set fun b => { b with i3c := true, dynamicAddress := a })) ∧
    (s.sideband.i3c = true →
      (s.log.ibiPending = [] → exec (.enec 1) s = set fun b => { b with ibiEnabled := true }) ∧
      exec (.disec 1) s = set (fun b => { b with ibiEnabled := false }) ∧
      exec .getpid s = reply (natToBytes 6 (provisionalId s)).reverse ∧ exec .getbcr s = reply [0x06] ∧
      exec .getdcr s = reply [0x00] ∧ exec .getmwl s = reply (natToBytes 2 s.sideband.maxWrite).reverse ∧
      exec .getmrl s = reply (natToBytes 2 s.sideband.maxRead).reverse ∧
      (∃ t, exec .getstatus s = .next t ∧ t.sideband.answer.length = 2 ∧ t.sideband.nacked = false ∧
        t.log = s.log ∧ t.mailboxes = s.mailboxes) ∧
      ∀ n : BitVec 16, 16 ≤ n.toNat → n.toNat ≤ 260 →
        exec (.setmwl n) s = set (fun b => { b with maxWrite := n.toNat }) ∧
        exec (.setmrl n) s = set (fun b => { b with maxRead := n.toNat }))

/-- R450, R451: the TAP instructions: the bypass bit, IDCODE, the boundary register that takes its cells, and acts on
the pins only while RST_L is low; MBOX reads a register into its data register; WSP_SELECT and DIE_SELECT act as
BYPASS while debug is closed, and a wrapper in functional mode, or whose arrays hold keys or Kennel lines (R356),
shows 0; TRST_L holds the TAP in reset. The model's own readings in it: log entries 72, 120. Shown to complete here:
trstL, bypass, clamp, highz, samplePreload, extest, wspSelect, dieSelect, mbox, idcode. -/
def Obligations.TapInstructions : Prop :=
  ∀ s : State, ioFaulted s = false →
    (∀ asserted, ∃ t, exec (.trstL asserted) s = .next t ∧ t.sideband.tapReset = asserted ∧
      (asserted = true → t.sideband.ir = 0x01) ∧ t.mailboxes = s.mailboxes ∧ t.log = s.log) ∧
    (s.sideband.tapReset = false →
      let shows (i : Instr) (code : BitVec 8) (out : BitVec 48) : Prop :=
        exec i s = .next (modSideband (fun b => { b with ir := code, tdo := out }) s)
      let bit (b : Bool) : BitVec 48 := if b then 1 else 0
      (∀ tdi, shows (.bypass tdi) 0xFF (bit tdi) ∧ shows (.clamp tdi) 0x04 (bit tdi) ∧ shows (.highz tdi) 0x05 (bit tdi)) ∧
      shows .idcode 0x01 (BitVec.ofNat 48 (idcodeWord s)) ∧
      (∀ cells, ∃ t, exec (.samplePreload cells) s = .next t ∧ t.sideband.boundary = cells ∧ t.sideband.ir = 0x02 ∧
        t.sideband.tdo.toNat < 4096 ∧ t.ports = s.ports ∧ t.dram = s.dram) ∧
      (∀ cells, (s.device.rstLow = false → shows (.extest cells) 0x03 (bit (cells.getLsbD 11))) ∧
        (s.device.rstLow = true → ∃ t, exec (.extest cells) s = .next t ∧ boundaryDrives t = some cells)) ∧
      (∀ tdi, debugOpen s = false →
        shows (.wspSelect tdi) 0x30 (bit tdi) ∧ shows (.dieSelect tdi) 0x38 (bit tdi)) ∧
      (∀ tdi b, wspBlock s = some b → wspConnects s b = false ∨ holdsSecrets b = true → shows (.wspSelect tdi) 0x30 0) ∧
      (∀ dr : BitVec 48, registersAnswer true s = true → bitsOf dr.toNat 47 32 = 0x02 →
        exec (.mbox dr) s = .next (modSideband (fun b => { b with
            tdo := BitVec.ofNat 48 (s.sideband.pointer5.toNat + 0x02 * 2 ^ 32) })
          (sbAnswer (natToBytes 2 s.sideband.pointer5.toNat) (modSideband (fun b => { b with ir := 0x20 }) s)))) ∧
      ∀ dr : BitVec 48, registersAnswer true s = true → bitsOf dr.toNat 47 32 = 0x8002 →
        exec (.mbox dr) s = .next (modSideband (fun b => { b with tdo := dr }) (sbAnswer []
          (setPointer true (BitVec.ofNat 16 (bitsOf dr.toNat 15 0) &&& 0x8FFF)
            (modSideband (fun b => { b with ir := 0x20 }) s)))))

/-! ### The whole machine -/

/-- A step runs the command at the front of the queue on the state with the queue's rest; on an empty queue the hub
timer counts a nanosecond and the ports send what they can (the model's own choice, log entry 3), and nothing while
RST_L is low. -/
def Obligations.StepRunsFrontCommand : Prop :=
  (∀ (c : Instr) (rest : List Instr) (s : State),
    step { s with pending := c :: rest } = exec c { s with pending := rest }) ∧
  ∀ s : State, s.pending = [] →
    (s.device.rstLow = true → step s = .next s) ∧
    (s.device.rstLow = false →
      step s = .next ((List.finRange 4).foldl (fun s (p : Fin 4) => pump p s) { s with hubTimer := s.hubTimer + 1 }))

/-- R549: while VDD_IO is faulted a command of the sideband, the reset pins or the TAP stops, its effect undefined;
every other command, and every command while VDD_IO is good, ends in a next state. The model's own readings in it: log
entry 9. -/
def Obligations.OnlyFaultedPinsStop : Prop :=
  ∀ (c : Instr) (s : State),
    (usesPins c = true → ioFaulted s = true → exec c s = .fault .ioPinsUndefined) ∧
    ((usesPins c = false ∨ ioFaulted s = false) → Completes (exec c s))

/-- No command reaches the queue of commands: what waits behind it waits as it did. -/
def Obligations.CommandsLeaveTheQueue : Prop :=
  ∀ (c : Instr) (s t : State), exec c s = .next t → t.pending = s.pending

/-- Every step keeps the canonical form of memory and of the sparse tables of the state. -/
def Obligations.StepsKeepCanonicalForm : Prop :=
  ∀ s t : State, canonical s = true → step s = .next t → canonical t = true

/-- The state after reset is in canonical form. -/
def Obligations.ResetIsCanonical : Prop :=
canonical State.reset = true

/-- Requests that store nothing, and the pins of MB4 and the TAP, leave every byte of memory, the Kennel, the
partitions, the tables and the queues as they were. -/
def Obligations.QueriesLeaveMemory : Prop :=
  ∀ (p : Fin 4) (r : Req) (a n : BitVec 7) (x : BitVec 8) (w : BitVec 16) (cells : BitVec 12) (b : Bool) (s t : State),
    ∀ c ∈ [Instr.nop p r, .queueQuery p r, .statusRead p r, .fenceComplete p r.hdr.tag, .entdaa a, .setdasa n a, .setnewda a,
      .rstdaa, .enec x, .disec x, .getpid, .getbcr, .getdcr, .getstatus, .getmwl, .getmrl, .setmwl w, .setmrl w, .bypass b,
      .idcode, .samplePreload cells, .extest cells, .clamp b, .highz b, .wspSelect b, .dieSelect b, .trstL b],
    exec c s = .next t →
      (∀ i, memByte t.dram i = memByte s.dram i) ∧ t.kennel = s.kennel ∧ t.partitions = s.partitions ∧ t.tables = s.tables ∧
        t.queues = s.queues ∧ t.fuses = s.fuses ∧ t.keys = s.keys

/-- R45, R46, R50: the end of a request frees its tag, and its one completion goes out on its own port, with neither
data nor result unless it is OK; memory stays as it was. The one other completion, of a tag that is outstanding, has
neither. -/
def Obligations.CompletionsGoOutOnTheirPort : Prop :=
  (∀ (p : Fin 4) (op : BitVec 6) (perform : Perform) (r : Req) (s : State), portServes s p = true →
    tagOutstanding s.ports[p] r.hdr.tag = true →
    ∃ (u : State) (c : Completion), receive perform p op r s = handOver p c u ∧ c.tag = r.hdr.tag ∧ c.dupTag = true ∧
      c.status = .unsupported ∧ c.result = 0 ∧ c.data = []) ∧
  ∀ (j : Job) (st : QStatus) (isolated kennel : Bool) (result : Word) (data : List Byte) (s : State),
    let t := completeAs j st isolated kennel result data s
    ∃ c : Completion, t.ports[j.port].completions = s.ports[j.port].completions ++ [c] ∧
      c.opcode = j.opcode ∧ c.tag = j.tag ∧ c.status = st ∧ c.last = true ∧ c.dupTag = false ∧
      (st = .ok → c.result = result ∧ c.data = data ∧ c.kennel = kennel) ∧
      (st ≠ .ok → c.result = 0 ∧ c.data = [] ∧ c.kennel = false) ∧
      t.ports[j.port].outstanding = s.ports[j.port].outstanding.eraseP (fun e => e.1 = j.tag) ∧ t.dram = s.dram ∧
      (∀ q : Fin 4, q ≠ j.port → t.ports[q].completions = s.ports[q].completions ∧
        t.ports[q].outstanding = s.ports[q].outstanding)

/-- R452: the fields of an event record stand in its 32 bytes where the table puts them; R455: a record takes the next
place of the log, and of every other part of the state only the queues of subscribed ports and the sideband change.
The records of an event carry the hub timer and the MRAM epoch of their time, and each but the first continues the one
before it; a record with a count that overran its crossing carries the overrun mark (R418). The model's own readings
in it: log entries 69, 113. -/
def Obligations.RecordsEnterTheLog : Prop :=
  (∀ r : EventRec, r.code < 65536 → r.level < 4 → r.severity < 5 → r.instKind < 256 → r.instNum < 65536 →
    let bs := recordBytes r
    let n := natAt bs 0 32
    bs.length = 32 ∧ bitsOf n 15 0 = r.code ∧ bitsOf n 17 16 = r.level ∧ bitsOf n 20 18 = r.severity ∧
      bitAt n 21 = r.overrun ∧ bitAt n 22 = r.cont ∧ bitAt n 23 = false ∧ bitsOf n 31 24 = r.instKind ∧
      bitsOf n 47 32 = r.instNum ∧ bitsOf n 63 48 = 0 ∧ bitsOf n 127 64 = r.timestamp % 2 ^ 64 ∧
      bitsOf n 159 128 = r.epoch % 2 ^ 32 ∧ bitsOf n 255 160 = r.payload.toNat) ∧
  (∀ (code level severity kind num : Nat) (items : List (Nat × Nat)) (s : State) (i : Nat) (r : EventRec),
    (recordsOf code level severity kind num items s)[i]? = some r →
    r.code = code ∧ r.level = level ∧ r.severity = severity ∧ r.instKind = kind ∧ r.instNum = num ∧
      r.timestamp = s.hubTimer ∧ r.epoch = s.device.epoch ∧ r.cont = decide (0 < i) ∧ r.overrun = countOverran items s ∧
      (packItems items)[i]? = some r.payload) ∧
  ∀ (r : EventRec) (s : State),
    let t := deliverRecord r s
    t.log.count = s.log.count + 1 ∧ t.log.records = (r :: s.log.records).take 131072 ∧
      t.log.input = bufferRecord s.hubTimer r s.log.input ∧ t.dram = s.dram ∧
      t.channels = s.channels ∧ t.partitions = s.partitions ∧ t.mailboxes = s.mailboxes ∧ t.device = s.device ∧
      ∀ p : Fin 4, t.ports[p].link = s.ports[p].link ∧ t.ports[p].completions = s.ports[p].completions ∧
        (s.ports[p].partnerState ≠ .attached → t.ports[p].records = s.ports[p].records)

/-- R20, R83, R92, R113, R157, R310, R367, R392, R415, R428, R443, R447, R450, R549: every event of a port, a channel,
an engine, Terrier, a sensor, a clock, a rail and the firmware, and every management, sideband, reset and TAP command,
completes where the spec lets it run: a port's where its receivers and transmitters run, a flit's on an active link, a
channel's where its controller issues, a management command's where its mailbox accepts it, a pin's while VDD_IO is
good, and the others always; what each of them then leaves is said by the statement of its family. -/
def Obligations.EveryFormCompletes : Prop :=
  ∀ s : State,
    (∀ (p : Fin 4) (lane : Fin 16) (g : Fin 4) (d : Dir) (cause : LossCause) (a : BitVec 16) (es : List Nat)
      (inv fck : Bool) (ask : BitVec 6) (os : BitVec 128), portLive s p = true →
      ∀ c ∈ [Instr.receiverDetect p a, .acquireTimeout p, .alignTimeout p, .capsTimeout p, .eqTimeout p, .checkTimeout p,
        .switchTimeout p, .newGaugeLock p, .checkWindowEnd p es, .fallbackCheckEnd p es, .ts1 p lane ⟨inv, fck⟩ os,
        .ts2 p lane os, .tsEq p lane ⟨os, ask⟩, .tsCheck p lane os, .gaugeSwitch p lane os, .idleEnter p lane os,
        .idleExit p lane os, .fckDown p lane os, .loopReq p lane os, .align p lane os, .electricalIdleEntry p,
        .heartbeatStatus p, .laneLost p d ⟨lane, cause⟩, .widthChangeRepeat p, .groupRetrain p d g es, .laneReadded p d g,
        .fckLost p, .fckRestored p, .lanesLostAll p, .recoveryTimeout p], ∃ t, exec c s = .next t) ∧
    (∀ (p : Fin 4) (flit : List Byte) (msg : BitVec 128) (hello : BitVec 512) (tag : BitVec 14), linkUp s p = true →
      ∀ c ∈ [Instr.nullFlit p flit, .dataFlit p flit, .tagFlit p flit, .status p msg, .nak p msg, .widthChange p msg,
        .ackDue p, .replayTimer p, .heartbeatTimeout p, .hello p hello, .helloTimeout p, .bindLockoutEnd p, .detach p,
        .detachAck p, .detachCleanupDone p, .eventOverflow p, .heldRelease p, .gatePromote p tag, .requestBusy p tag,
        .partnerPanicStuck p], ∃ t, exec c s = .next t) ∧
    (∀ (k : Fin 32) (b : Fin 16) (row : Fin 65600) (line : Fin 32) (burst : BadBurst) (image : List Line) (path : Path) (wire : Nat)
      (probe : TrimProbe) (echo : List Nat), channelIssues s k = true →
      ∀ c ∈ [Instr.act k b row, .pre k b, .refpb k b, .columnRead k b line, .columnWrite k b line, .skrd k b,
        .skwr k b image, .nopWord k, .refreshTimer k b, .budgetWindow k, .fallbackEntry k, .fallbackExit k,
        .agePromotion k, .writeQueueEntry k, .caParity k, .readRetry k b row burst, .powerDownEntry k, .selfRefreshEntry k,
        .selfRefreshExit k, .spotCheck k, .patrolRead k, .scrubLate k, .verticalTrim k probe, .trimRetry k probe,
        .shiftRepair k path wire probe, .channelRetiring k, .postPackageRepair k b row, .layerKeeper k,
        .autoBlockReset (.channel k) echo], ∃ t, exec c s = .next t) ∧
    (∀ (b : BlockId) (q : Fin 4) (sram : Bool) (cause : BitVec 4) (code : BitVec 16) (echo : List Nat) (pd : Fin 64)
      (line : BitVec 30) (late : Bool) (o : SramOwner) (f : SramFinding) (k : Fin 17) (raw : SensorReading) (pw fx : Nat)
      (qs : List Nat) (pll : Pll) (rail : Rail) (mv : Nat) (r : StartReport) (ticket : BitVec 16) (m : Measure)
      (target : QuiesceTarget) (queue : BitVec 18),
      ∀ c ∈ [Instr.quiescePoint target, .quiesceTimeout target, .blockFence b sram, .fenceTimeout b, .autoBlockReset b echo,
        .blockResume b, .quarterIsolation q cause code, .quarterIsolated q, .isolationTimeout q, .quarterResetDone q,
        .packetLink queue, .streamStart queue, .dequeueHandover queue, .counterFlush pd line, .policerSweep pd late,
        .missWindow, .guaranteeRestored, .sramWalk o f, .granuleRefill, .rekeyStep pd, .keyLockoutEnd, .migrationCopy,
        .slabSwitchover, .bondSample, .bondStore, .sensorSample k raw, .throttleRecompute, .governorWindow pw fx qs,
        .flowTest, .coolantFlowOk, .oclkTrim, .refclkLost, .refclkRestored, .holdoverReturnLock, .pllUnlock pll,
        .powerOnReset, .startupPhase r, .refclkWaitTimeout, .warmRestartReady, .lockstepReset, .watchdogReset,
        .coreRebootDone, .patchProbation, .configSnapshotExpiry, .eventSuppressed, .commandDone ticket m, .maintStart,
        .railFault rail mv, .railReturn rail, .vfusePresent mv], ∃ t, exec c s = .next t) ∧
    (∀ (m : Fin 6) (f : Frame),
      ∀ e ∈ [(0x0001, Instr.identify m f), (0x0002, .deviceStatus m f), (0x0003, .taskStatus m f), (0x0004, .logRead m f),
        (0x0005, .alertAck m f), (0x0006, .sensorRead m f), (0x0010, .paramRead m f), (0x0011, .paramWrite m f),
        (0x0012, .paramPersist m f), (0x0100, .partitionCreate m f), (0x0101, .partitionResize m f),
        (0x0102, .partitionDelete m f), (0x0103, .partitionModify m f), (0x0104, .partitionRights m f),
        (0x0105, .partitionRekey m f), (0x0110, .keyLoad m f), (0x0111, .keyClear m f), (0x0200, .tableCreate m f),
        (0x0201, .tableDelete m f), (0x0202, .tableSlotRelease m f), (0x0300, .queueCreate m f), (0x0301, .queueModify m f),
        (0x0302, .queueDelete m f), (0x0303, .queueReset m f), (0x0304, .bufferReset m f), (0x0400, .collieSet m f)],
      accepted e.1 m f s = true → ∃ t, exec e.2 s = .next t) ∧
    (∀ (m : Fin 6) (f : Frame),
      ∀ e ∈ [(0x0500, Instr.portTrain m f), (0x0501, .portTest m f), (0x0502, .laneGroupRestore m f),
        (0x0503, .laneRetune m f), (0x0600, .vtrim m f), (0x0601, .wireRepair m f), (0x0602, .rowRepair m f),
        (0x0603, .channelRetire m f), (0x0604, .channelHold m f), (0x0605, .sensorRestore m f), (0x0700, .deviceReset m f),
        (0x0701, .quarterReset m f), (0x0702, .blockReset m f), (0x0800, .bistRun m f), (0x0801, .mbistRun m f),
        (0x0802, .calReport m f), (0x0803, .maintStatus m f), (0x0804, .maintCancel m f), (0x0900, .patchLoad m f),
        (0x0901, .patchActivate m f), (0x0902, .featureEnable m f), (0x0903, .configExport m f), (0x0904, .configImport m f),
        (0x0A00, .fuseRead m f), (0x0A01, .fuseShadowSet m f), (0x0A02, .fuseBurn m f), (0x0A03, .fuseLock m f),
        (0x0A04, .fuseReburn m f), (0x0B00, .memRead m f), (0x0B01, .memWrite m f), (0x0B02, .windowRead m f),
        (0x0B03, .windowWrite m f)],
      accepted e.1 m f s = true → ∃ t, exec e.2 s = .next t) ∧
    ∀ (jtag pec w : Bool) (n : Nat) (bs : List Byte) (data : RegisterData) (v : Byte) (a d : BitVec 7) (x : BitVec 16) (cells : BitVec 12) (b : Bool)
      (dr : BitVec 48) (strap : BitVec 2), ioFaulted s = false →
      ∀ c ∈ [Instr.mbData jtag pec w n bs, .registerWrite jtag pec v data, .mbDoorbell jtag pec v, .entdaa a, .setdasa a d,
        .setnewda a, .rstdaa, .enec v, .disec v, .getpid, .getbcr, .getdcr, .getstatus, .getmwl, .getmrl, .setmwl x, .setmrl x,
        .bypass b, .idcode, .samplePreload cells, .extest cells, .clamp b, .highz b, .mbox dr, .wspSelect b, .dieSelect b,
        .trstL b, .rstL b strap, .wrstL b], ∃ t, exec c s = .next t
end

