-- ==== Sys2Proof/Laws/Memory.lean ====
section
/-! SUPPORT. Sparse tables and byte memories: every operation keeps the canonical form, a read after a write gives what
was written, and a write leaves every other place alone. -/

namespace Sys2Proof.Laws

open Sys2Proof Sys2Proof.Machine

/-! ### One key -/

@[simp] theorem sparseGet_nil {α : Type} (d : α) (k : Nat) : sparseGet d [] k = d := rfl

/-- Keys above a bound in the canonical form. -/
theorem sparseGet_below {α : Type} (d : α) (m : List (Nat × α)) (k : Nat) (h : m.all (fun e => k < e.1) = true) :
    sparseGet d m k = d := by
  induction m with
  | nil => rfl
  | cons e m ih =>
    simp only [List.all_cons, Bool.and_eq_true, decide_eq_true_eq] at h
    have : ¬e.1 = k := by omega
    simp [sparseGet, this, ih h.2]

/-- Replacing a value keeps every lower bound of the keys. -/
theorem sparsePut_all {α : Type} [DecidableEq α] (d : α) (m : List (Nat × α)) (k b : Nat) (v : α) (hb : b < k)
    (h : m.all (fun e => b < e.1) = true) : (sparsePut d m k v).all (fun e => b < e.1) = true := by
  induction m with
  | nil => by_cases hv : v = d <;> simp [sparsePut, hv, hb]
  | cons e m ih =>
    obtain ⟨j, w⟩ := e
    simp only [List.all_cons, Bool.and_eq_true, decide_eq_true_eq] at h
    have hm := ih h.2
    simp only [sparsePut]
    split
    · split <;> simp only [List.all_cons, Bool.and_eq_true, decide_eq_true_eq]
      · exact h
      · exact ⟨hb, h⟩
    · split
      · split
        · exact h.2
        · simp only [List.all_cons, Bool.and_eq_true, decide_eq_true_eq]
          exact ⟨hb, h.2⟩
      · simp only [List.all_cons, Bool.and_eq_true, decide_eq_true_eq]
        exact ⟨h.1, hm⟩

/-- Replacing a value keeps the canonical form. -/
theorem sparsePut_wf {α : Type} [DecidableEq α] (d : α) (m : List (Nat × α)) (k : Nat) (v : α)
    (h : sparseWf d m = true) : sparseWf d (sparsePut d m k v) = true := by
  induction m with
  | nil => by_cases hv : v = d <;> simp [sparsePut, sparseWf, hv]
  | cons e m ih =>
    obtain ⟨j, w⟩ := e
    simp only [sparseWf, Bool.and_eq_true, decide_eq_true_eq] at h
    obtain ⟨⟨hw, hj⟩, hm⟩ := h
    simp only [sparsePut]
    split
    · rename_i hk
      by_cases hv : v = d
      · simp [hv, sparseWf, hw, hj, hm]
      · simp only [hv, if_false, sparseWf, Bool.and_eq_true, decide_eq_true_eq, ne_eq, not_false_eq_true, true_and]
        refine ⟨?_, ⟨hw, hj⟩, hm⟩
        simp only [List.all_cons, Bool.and_eq_true, decide_eq_true_eq]
        refine ⟨hk, ?_⟩
        simp only [List.all_eq_true, decide_eq_true_eq] at hj ⊢
        exact fun x hx => lt_trans hk (hj x hx)
    · split
      · rename_i hk
        subst hk
        by_cases hv : v = d
        · simp [hv, hm]
        · simp [hv, sparseWf, hm, hj]
      · rename_i hlt hne
        simp only [sparseWf, Bool.and_eq_true, decide_eq_true_eq]
        exact ⟨⟨hw, sparsePut_all d m k j v (by omega) hj⟩, ih hm⟩

/-- A read of the key just written. -/
theorem sparseGet_put_same {α : Type} [DecidableEq α] (d : α) (m : List (Nat × α)) (k : Nat) (v : α)
    (h : sparseWf d m = true) : sparseGet d (sparsePut d m k v) k = v := by
  induction m with
  | nil => by_cases hv : v = d <;> simp [sparsePut, sparseGet, hv]
  | cons e m ih =>
    obtain ⟨j, w⟩ := e
    simp only [sparseWf, Bool.and_eq_true, decide_eq_true_eq] at h
    obtain ⟨⟨hw, hj⟩, hm⟩ := h
    simp only [sparsePut]
    split
    · rename_i hk
      by_cases hv : v = d
      · have hne : ¬j = k := by omega
        have : m.all (fun e => k < e.1) = true := by
          simp only [List.all_eq_true, decide_eq_true_eq] at hj ⊢
          exact fun x hx => lt_trans hk (hj x hx)
        simp [hv, sparseGet, hne, sparseGet_below d m k this]
      · simp [hv, sparseGet]
    · split
      · rename_i hk
        subst hk
        by_cases hv : v = d
        · simp [hv, sparseGet_below d m k hj]
        · simp [hv, sparseGet]
      · rename_i hne
        have : ¬j = k := fun e => hne e.symm
        simp [sparseGet, this, ih hm]

/-- A write of one key leaves every other key alone. -/
theorem sparseGet_put_other {α : Type} [DecidableEq α] (d : α) (m : List (Nat × α)) (k i : Nat) (v : α) (hi : i ≠ k)
    (h : sparseWf d m = true) : sparseGet d (sparsePut d m k v) i = sparseGet d m i := by
  have hki : ¬k = i := fun e => hi e.symm
  induction m with
  | nil => by_cases hv : v = d <;> simp [sparsePut, sparseGet, hv, hki]
  | cons e m ih =>
    obtain ⟨j, w⟩ := e
    simp only [sparseWf, Bool.and_eq_true, decide_eq_true_eq] at h
    obtain ⟨⟨hw, hj⟩, hm⟩ := h
    simp only [sparsePut]
    split
    · by_cases hv : v = d <;> simp [hv, sparseGet, hki]
    · split
      · rename_i hk
        subst hk
        by_cases hv : v = d <;> simp [hv, sparseGet, hki]
      · simp [sparseGet, ih hm]

/-! ### Bytes -/

theorem memPut_wf (m : Memory) (a : Nat) (b : Byte) (h : memWf m = true) : memWf (memPut m a b) = true :=
  sparsePut_wf 0 m a b h

/-- Writing bytes keeps a memory's canonical form. -/
theorem memWrite_wf (m : Memory) (a : Nat) (bs : List Byte) (h : memWf m = true) : memWf (memWrite m a bs) = true := by
  induction bs generalizing m a with
  | nil => exact h
  | cons b bs ih => exact ih _ _ (memPut_wf m a b h)

theorem memByte_put_same (m : Memory) (a : Nat) (b : Byte) (h : memWf m = true) : memByte (memPut m a b) a = b :=
  sparseGet_put_same 0 m a b h

theorem memByte_put_other (m : Memory) (a i : Nat) (b : Byte) (hi : i ≠ a) (h : memWf m = true) :
    memByte (memPut m a b) i = memByte m i :=
  sparseGet_put_other 0 m a i b hi h

/-- A write changes no byte below its first address and none from its end up. -/
theorem memByte_write_outside (m : Memory) (a i : Nat) (bs : List Byte) (h : memWf m = true)
    (hi : i < a ∨ a + bs.length ≤ i) : memByte (memWrite m a bs) i = memByte m i := by
  induction bs generalizing m a with
  | nil => rfl
  | cons b bs ih =>
    simp only [List.length_cons] at hi
    rw [memWrite, ih _ _ (memPut_wf m a b h) (by omega), memByte_put_other m a i b (by omega) h]

/-- A read of a byte just written. -/
theorem memByte_write_inside (m : Memory) (a k : Nat) (bs : List Byte) (h : memWf m = true) (hk : k < bs.length) :
    memByte (memWrite m a bs) (a + k) = bs.getD k 0 := by
  induction bs generalizing m a k with
  | nil => simp at hk
  | cons b bs ih =>
    cases k with
    | zero =>
      show memByte (memWrite (memPut m a b) (a + 1) bs) a = b
      rw [memByte_write_outside _ _ _ _ (memPut_wf m a b h) (by omega), memByte_put_same m a b h]
    | succ k =>
      have := ih (memPut m a b) (a + 1) k (memPut_wf m a b h) (by simpa using hk)
      rw [memWrite, show a + (k + 1) = a + 1 + k by omega, this]
      rfl

/-- What was written is what a read of the same bytes gives. -/
theorem memBytes_write_same (m : Memory) (a : Nat) (bs : List Byte) (h : memWf m = true) :
    memBytes (memWrite m a bs) a bs.length = bs := by
  apply List.ext_getElem
  · simp [memBytes]
  · intro k h1 h2
    have hk : k < bs.length := by simpa [memBytes] using h1
    simp [memBytes, memByte_write_inside m a k bs h hk, List.getD_eq_getElem?_getD, List.getElem?_eq_getElem hk]

/-- A read of bytes that a write does not meet. -/
theorem memBytes_write_apart (m : Memory) (a b n : Nat) (bs : List Byte) (h : memWf m = true)
    (hd : b + n ≤ a ∨ a + bs.length ≤ b) : memBytes (memWrite m a bs) b n = memBytes m b n := by
  unfold memBytes
  apply List.map_congr_left
  intro i hi
  have : i < n := List.mem_range.mp hi
  exact memByte_write_outside m a (b + i) bs h (by omega)

/-- Dropping entries keeps the canonical form. -/
theorem sparseWf_filter {α : Type} [DecidableEq α] (d : α) (m : List (Nat × α)) (g : Nat × α → Bool)
    (h : sparseWf d m = true) : sparseWf d (m.filter g) = true := by
  induction m with
  | nil => rfl
  | cons e m ih =>
    obtain ⟨j, w⟩ := e
    simp only [sparseWf, Bool.and_eq_true, decide_eq_true_eq] at h
    obtain ⟨⟨hw, hj⟩, hm⟩ := h
    simp only [List.filter_cons]
    split
    · simp only [sparseWf, Bool.and_eq_true, decide_eq_true_eq]
      refine ⟨⟨hw, ?_⟩, ih hm⟩
      simp only [List.all_eq_true, decide_eq_true_eq, List.mem_filter] at hj ⊢
      exact fun x hx => hj x hx.1
    · exact ih hm

theorem memWf_filter (m : Memory) (g : Host.Cell → Bool) (h : memWf m = true) : memWf (m.filter g) = true :=
  sparseWf_filter 0 m g h

/-! ### Byte strings -/

@[simp] theorem natToBytes_length (n v : Nat) : (natToBytes n v).length = n := by
  induction n generalizing v with
  | zero => rfl
  | succ n ih => simp [natToBytes, ih]

/-- The value of the low bytes of a number. -/
theorem bytesToNat_natToBytes (n v : Nat) : bytesToNat (natToBytes n v) = v % 256 ^ n := by
  induction n generalizing v with
  | zero => simp [natToBytes, bytesToNat, Nat.mod_one]
  | succ n ih =>
    have hv : bytesToNat (natToBytes (n + 1) v) = v % 256 + 256 * bytesToNat (natToBytes n (v / 256)) := by
      simp [natToBytes, bytesToNat]
    rw [hv, ih, Nat.pow_succ, Nat.mul_comm (256 ^ n) 256, Nat.mod_mul]

end Sys2Proof.Laws
end

