-- ==== Sys2Proof/Laws/Operations.lean ====
section
/-! SUPPORT. What the shared operations can do, said once for each: events and completions change the ports, the log and
the sideband and nothing else; reads and writes of the layers change beside those the channels and the memory, which
keeps its canonical form; reads and writes of lines change beside those the partitions' sealing state, the seal reserve,
the Kennel and its counts. -/

namespace Sys2Proof.Laws

open Sys2Proof Sys2Proof.Machine

/-! ### Events and completions -/

/-- `t` is `s` but for its ports, its log and its sideband. -/
def Events (s t : State) : Prop :=
  ∃ ports log sideband, t = { s with ports := ports, log := log, sideband := sideband }

theorem Events.refl (s : State) : Events s s := ⟨s.ports, s.log, s.sideband, rfl⟩

theorem Events.trans {s t u : State} : Events s t → Events t u → Events s u := by
  rintro ⟨_, _, _, rfl⟩ ⟨p, l, b, rfl⟩
  exact ⟨p, l, b, rfl⟩

/-- A fold of steps that change only these. -/
theorem events_foldl {α : Type} (f : State → α → State) (h : ∀ s a, Events s (f s a)) (l : List α) (s : State) :
    Events s (l.foldl f s) := by
  induction l generalizing s with
  | nil => exact Events.refl s
  | cons a l ih => exact (h s a).trans (ih _)

theorem modPort_events (p : Fin 4) (f : Port → Port) (s : State) : Events s (modPort p f s) :=
  ⟨_, s.log, s.sideband, rfl⟩

theorem modPhy_events (p : Fin 4) (f : Phy → Phy) (s : State) : Events s (modPhy p f s) := modPort_events _ _ _

theorem modLink_events (p : Fin 4) (f : LinkState → LinkState) (s : State) : Events s (modLink p f s) :=
  modPort_events _ _ _

theorem modClass_events (p : Fin 4) (k : Fin 8) (f : PortClass → PortClass) (s : State) : Events s (modClass p k f s) :=
  modPort_events _ _ _

theorem modLog_events (f : LogState → LogState) (s : State) : Events s (modLog f s) := ⟨s.ports, _, s.sideband, rfl⟩

theorem modSideband_events (f : Sideband → Sideband) (s : State) : Events s (modSideband f s) :=
  ⟨s.ports, s.log, _, rfl⟩

theorem deliverRecord_events (r : EventRec) (s : State) : Events s (deliverRecord r s) := by
  unfold deliverRecord
  dsimp only
  split
  · split <;> exact ⟨_, _, _, rfl⟩
  · exact ⟨_, _, _, rfl⟩

/-- Records delivered one after another. -/
theorem deliver_events (l : List EventRec) (s : State) : Events s (l.foldl (fun s r => deliverRecord r s) s) :=
  events_foldl _ (fun s r => deliverRecord_events r s) _ s

theorem closeSecond_events (now : Nat) (s : State) : Events s (closeSecond now s) :=
  (modLog_events _ s).trans (events_foldl _ (fun s _ => deliver_events _ s) _ _)

theorem admitRecord_events (r : EventRec) (s : State) : Events s (admitRecord r s) := by
  unfold admitRecord
  split
  · exact deliverRecord_events r s
  · split
    · exact (modLog_events _ s).trans (deliverRecord_events r _)
    · exact modLog_events _ s

theorem rollSecond_events (s : State) : Events s (rollSecond s) := by
  unfold rollSecond
  split
  · exact Events.refl s
  · exact closeSecond_events _ s

theorem raiseAs_events (code level severity kind num : Nat) (items : List (Nat × Nat)) (s : State) :
    Events s (raiseAs code level severity kind num items s) :=
  (rollSecond_events s).trans (events_foldl _ (fun s r => admitRecord_events r s) _ _)

theorem raise_events (code kind num : Nat) (items : List (Nat × Nat)) (s : State) :
    Events s (raise code kind num items s) := raiseAs_events _ _ _ _ _ _ s

theorem raiseLimitedFor_events (key : Nat × Nat × Nat) (code kind num : Nat) (items : Nat → List (Nat × Nat))
    (s : State) : Events s (raiseLimitedFor key code kind num items s) := by
  unfold raiseLimitedFor
  dsimp only
  split
  · exact (modLog_events _ _).trans (raise_events _ _ _ _ _)
  · exact modLog_events _ _

theorem raiseLimited_events (code kind num : Nat) (items : Nat → List (Nat × Nat)) (s : State) :
    Events s (raiseLimited code kind num items s) := raiseLimitedFor_events _ _ _ _ _ s

theorem raiseBlock_events (code : Nat) (b : BlockId) (items : List (Nat × Nat)) (s : State) :
    Events s (raiseBlock code b items s) := raise_events _ _ _ _ s

theorem raiseBank_events (code : Nat) (c : Fin 32) (b : Nat) (items : List (Nat × Nat)) (s : State) :
    Events s (raiseBank code c b items s) := raise_events _ _ _ _ s

theorem missReport_events (p : Fin 4) (k : Fin 8) (s : State) : Events s (missReport p k s) := by
  unfold missReport
  dsimp only
  split
  · exact (modLog_events _ s).trans ((modClass_events _ _ _ _).trans (raise_events _ _ _ _ _))
  · exact Events.refl s

/-- What a command sends changes its port alone. -/
theorem modSend_events (p : Fin 4) (f : Port → Port) (s : State) : Events s (modSend p f s) := modPort_events _ _ _

theorem pump_events (p : Fin 4) (s : State) : Events s (pump p s) := modSend_events _ _ _

theorem handOver_events (p : Fin 4) (c : Completion) (s : State) : Events s (handOver p c s) :=
  (modPort_events _ _ s).trans (pump_events _ _)

theorem accountDone_events (j : Job) (late isolated : Bool) (s : State) : Events s (accountDone j late isolated s) :=
  (modClass_events _ _ _ s).trans (missReport_events _ _ _)

/-- The end of a request, whatever it answers. -/
theorem completeAs_events (j : Job) (st : QStatus) (isolated kennel : Bool) (result : Word) (data : List Byte)
    (s : State) : Events s (completeAs j st isolated kennel result data s) :=
  (modPort_events _ _ s).trans ((accountDone_events _ _ _ _).trans (handOver_events _ _ _))

theorem complete_events (j : Job) (st : QStatus) (result : Word) (data : List Byte) (s : State) :
    Events s (complete j st result data s) := completeAs_events _ _ _ _ _ _ s

theorem completeWith_events (j : Job) (st : QStatus) (s : State) : Events s (completeWith j st s) :=
  complete_events _ _ _ _ s

theorem freeSlots_events (p : Fin 4) (n : Nat) (s : State) : Events s (freeSlots p n s) := modLink_events _ _ s

/-! ### Mailboxes -/

/-- A response changes its mailbox, and beside that only what COMMAND_DONE does; its mailbox is then free. -/
theorem respondTo_events (m : Fin 6) (r : Reply) (s : State) :
    ∃ mailboxes, Events { s with mailboxes := mailboxes } (respondTo m r s) ∧
      (∀ k : Fin 6, k ≠ m → mailboxes[k] = s.mailboxes[k]) ∧ mailboxes[m].busy = none := by
  unfold respondTo
  split
  · rename_i seq opcode h
    have hk (x : Mailbox) (k : Fin 6) (hk : k ≠ m) : (s.mailboxes.set m x)[k] = s.mailboxes[k] := by
      have : ¬m.val = k.val := fun e => hk (Fin.ext e.symm)
      simp [this]
    dsimp only
    split
    · exact ⟨_, raise_events _ _ _ _ _, fun k h => hk _ k h, by simp⟩
    · exact ⟨_, Events.refl _, fun k h => hk _ k h, by simp⟩
  · rename_i h
    exact ⟨s.mailboxes, Events.refl s, fun _ _ => rfl, h⟩

/-! ### The layers -/

/-- `t` is `s` but for its memory, its channels, its time, its quarters' counts, its ports, its log and its sideband; the
memory keeps its canonical form. -/
def Layers (s t : State) : Prop :=
  ∃ dram channels hubTimer quarters ports log sideband,
    t = { s with
      dram := dram, channels := channels, hubTimer := hubTimer, quarters := quarters, ports := ports, log := log
      sideband := sideband } ∧
    (memWf s.dram = true → memWf dram = true)

theorem Layers.refl (s : State) : Layers s s :=
  ⟨s.dram, s.channels, s.hubTimer, s.quarters, s.ports, s.log, s.sideband, rfl, id⟩

theorem Layers.trans {s t u : State} : Layers s t → Layers t u → Layers s u := by
  rintro ⟨_, _, _, _, _, _, _, rfl, h⟩ ⟨d, c, n, q, p, l, b, rfl, h'⟩
  exact ⟨d, c, n, q, p, l, b, rfl, fun x => h' (h x)⟩

theorem Events.layers {s t : State} : Events s t → Layers s t := by
  rintro ⟨p, l, b, rfl⟩
  exact ⟨s.dram, s.channels, s.hubTimer, s.quarters, p, l, b, rfl, id⟩

theorem layers_foldl {α : Type} (f : State → α → State) (h : ∀ s a, Layers s (f s a)) (l : List α) (s : State) :
    Layers s (l.foldl f s) := by
  induction l generalizing s with
  | nil => exact Layers.refl s
  | cons a l ih => exact (h s a).trans (ih _)

/-- One of two changes. -/
theorem layers_if {s t u : State} {b : Prop} [Decidable b] (h : Layers s u) (ht : Layers s t) :
    Layers s (if b then t else u) := by
  split
  · exact ht
  · exact h

theorem modChannel_layers (c : Fin 32) (f : Channel → Channel) (s : State) : Layers s (modChannel c f s) :=
  ⟨s.dram, _, s.hubTimer, s.quarters, s.ports, s.log, s.sideband, rfl, id⟩

theorem modVertical_layers (c : Fin 32) (f : Vertical → Vertical) (s : State) : Layers s (modVertical c f s) :=
  modChannel_layers _ _ _

theorem modBank_layers (c : Fin 32) (b : Fin 16) (f : Bank → Bank) (s : State) : Layers s (modBank c b f s) :=
  modChannel_layers _ _ _

theorem modQuarter_layers (q : Fin 4) (f : Quarter → Quarter) (s : State) : Layers s (modQuarter q f s) :=
  ⟨s.dram, s.channels, s.hubTimer, _, s.ports, s.log, s.sideband, rfl, id⟩

theorem passTo_layers (t : Nat) (s : State) : Layers s (passTo t s) :=
  ⟨s.dram, s.channels, _, s.quarters, s.ports, s.log, s.sideband, rfl, id⟩

theorem storeCoded_layers (pl : Place) (c : CodedLine) (s : State) : Layers s (storeCoded pl c s) :=
  ⟨_, s.channels, s.hubTimer, s.quarters, s.ports, s.log, s.sideband, rfl, memWrite_wf _ _ _⟩

/-- A coded line stored changes no byte outside its 72. -/
theorem storeCoded_outside (pl : Place) (c : CodedLine) (s : State) (a : Nat) (h : memWf s.dram = true)
    (ha : a < codedAddr s pl ∨ codedAddr s pl + 72 ≤ a) : memByte (storeCoded pl c s).dram a = memByte s.dram a := by
  unfold storeCoded
  have hl := natToBytes_length 72 c.toNat
  generalize natToBytes 72 c.toNat = bs at hl ⊢
  exact memByte_write_outside s.dram (codedAddr s pl) a bs h (hl ▸ ha)

theorem countWire_layers (c : Fin 32) (path : Path) (row : Nat) (s : State) (ws : Nat × Nat) :
    Layers s (countWire c path row s ws) := by
  unfold countWire
  exact layers_if (modVertical_layers _ _ s)
    ((modVertical_layers _ _ s).trans ((modVertical_layers _ _ _).trans (raise_events _ _ _ _ _).layers))

theorem countWires_layers (pl : Place) (path : Path) (errs : List (Nat × Nat)) (s : State) :
    Layers s (countWires pl path errs s) := layers_foldl _ (fun s w => countWire_layers _ _ _ s w) _ s

theorem queueSpot_layers (pl : Place) (bad : Bool) (s : State) : Layers s (queueSpot pl bad s) := by
  unfold queueSpot
  dsimp only
  split
  · exact modChannel_layers _ _ s
  · exact (modChannel_layers _ _ s).trans (raiseLimited_events _ _ _ _ _).layers

/-! ### Command words

Each word changes its channel and lets time pass to its first legal CCLK; a WRITE or a skein stores too. -/

theorem issueWord_layers (c : Fin 32) (w : CmdWord) (s : State) : Layers s (issueWord c w s) := modChannel_layers _ _ _

theorem wakePowerDown_layers (c : Fin 32) (s : State) : Layers s (wakePowerDown c s) :=
  layers_if (Layers.refl s) (modChannel_layers _ _ _)

theorem creditWindows_layers (c : Fin 32) (s : State) : Layers s (creditWindows c s) := modChannel_layers _ _ _

/-- What a budget spent changes. -/
theorem spend_layers (c : Fin 32) (t : State → Nat) (f : Channel → Channel) (s : State) :
    Layers s (modChannel c f (creditWindows c (passTo (t (creditWindows c s)) (creditWindows c s)))) :=
  (creditWindows_layers c s).trans ((passTo_layers _ _).trans ((creditWindows_layers c _).trans (modChannel_layers _ _ _)))

theorem spendAct_layers (c : Fin 32) (s : State) : Layers s (spendAct c s) :=
  spend_layers c (fun s => budgetTime s s.channels[c] s.channels[c].actBudget (16 * s.channels[c].scalePct))
    (fun y => { y with actBudget := y.actBudget - 100 }) s

theorem spendCol_layers (c : Fin 32) (s : State) : Layers s (spendCol c s) :=
  spend_layers c (fun s => budgetTime s s.channels[c] s.channels[c].colBudget (64 * s.channels[c].scalePct))
    (fun y => { y with colBudget := y.colBudget - 100 }) s

theorem closeRow_layers (c : Fin 32) (b : Fin 16) (s : State) : Layers s (closeRow c b s) :=
  layers_if ((passTo_layers _ s).trans ((modBank_layers _ _ _ _).trans (issueWord_layers _ _ _))) (Layers.refl s)

theorem noteForced_layers (c : Fin 32) (b : Fin 16) (s : State) : Layers s (noteForced c b s) :=
  layers_if (Layers.refl s) ((modChannel_layers _ _ s).trans (raiseLimited_events _ _ _ _ _).layers)

theorem refreshNow_layers (c : Fin 32) (b : Fin 16) (s : State) : Layers s (refreshNow c b s) := by
  refine (noteForced_layers c b s).trans ((wakePowerDown_layers c _).trans ((closeRow_layers c b _).trans ?_))
  unfold refreshNow
  generalize closeRow c b (wakePowerDown c (noteForced c b s)) = t
  exact (passTo_layers _ t).trans ((modBank_layers _ _ _ _).trans ((modChannel_layers _ _ _).trans (issueWord_layers _ _ _)))

theorem actRow_layers (c : Fin 32) (b : Fin 16) (row : Nat) (s : State) : Layers s (actRow c b row s) :=
  (spendAct_layers c s).trans ((passTo_layers _ _).trans ((modBank_layers _ _ _ _).trans
    ((modChannel_layers _ _ _).trans (issueWord_layers _ _ _))))

/-- A row made the open row of its bank. -/
theorem openBank_layers (pl : Place) (s : State) : Layers s (openBank pl s) :=
  (wakePowerDown_layers pl.channel s).trans (layers_if
    ((closeRow_layers _ _ _).trans ((layers_if (Layers.refl _) (refreshNow_layers _ _ _)).trans (actRow_layers _ _ _ _)))
    (Layers.refl _))

theorem readBurst_layers (pl : Place) (s : State) : Layers s (readBurst pl s) :=
  (spendCol_layers pl.channel s).trans ((passTo_layers _ _).trans ((modBank_layers _ _ _ _).trans
    ((modChannel_layers _ _ _).trans (issueWord_layers _ _ _))))

theorem writeBurst_layers (pl : Place) (s : State) : Layers s (writeBurst pl s) :=
  (spendCol_layers pl.channel s).trans ((passTo_layers _ _).trans ((modBank_layers _ _ _ _).trans
    ((modChannel_layers _ _ _).trans (issueWord_layers _ _ _))))

theorem skeinBurst_layers (c : Fin 32) (b : Fin 16) (write : Bool) (s : State) : Layers s (skeinBurst c b write s) :=
  (passTo_layers _ s).trans ((modQuarter_layers _ _ _).trans ((modChannel_layers _ _ _).trans
    ((modBank_layers _ _ _ _).trans (issueWord_layers _ _ _))))

/-! ### The write queue -/

theorem layerWrite_layers (c : Fin 32) (e : WqEntry) (s : State) : Layers s (layerWrite c e s) :=
  storeCoded_layers _ _ s

theorem writeEntry_layers (c : Fin 32) (e : WqEntry) (s : State) : Layers s (writeEntry c e s) :=
  (modChannel_layers _ _ s).trans ((openBank_layers _ _).trans ((writeBurst_layers _ _).trans
    ((modChannel_layers _ _ _).trans (layerWrite_layers _ _ _))))

theorem drainOne_layers (c : Fin 32) (s : State) : Layers s (drainOne c s) := by
  unfold drainOne
  split
  · exact writeEntry_layers _ _ s
  · exact (passTo_layers _ s).trans (issueWord_layers _ _ _)

theorem drainTo_layers (c : Fin 32) (low n : Nat) (s : State) : Layers s (drainTo c low n s) := by
  induction n generalizing s with
  | zero => exact Layers.refl s
  | succ n ih => exact layers_if ((drainOne_layers c s).trans (ih _)) (Layers.refl s)

theorem drainRow_layers (c : Fin 32) (b : Fin 16) (row : Nat) (s : State) : Layers s (drainRow c b row s) :=
  layers_foldl _ (fun s e => writeEntry_layers c e s) _ s

theorem drainAll_layers (c : Fin 32) (s : State) : Layers s (drainAll c s) := drainTo_layers _ _ _ s

theorem pushWrite_layers (pl : Place) (data : Line) (poison : Bool) (s : State) :
    Layers s (pushWrite pl data poison s) := by
  have put (pl : Place) (s : State) (f : State → Channel → Channel) (b : Prop) [Decidable b] (low : Nat) :
      Layers s (modChannel pl.channel (f (wakePowerDown pl.channel (if b then drainTo pl.channel low 128 s else s)))
        (wakePowerDown pl.channel (if b then drainTo pl.channel low 128 s else s))) :=
    (layers_if (Layers.refl s) (drainTo_layers _ _ _ s)).trans
      ((wakePowerDown_layers _ _).trans (modChannel_layers _ _ _))
  unfold pushWrite
  split
  · exact (put pl s (fun s c => { c with
      writeQueue := wqPut ⟨pl.bank, pl.row, pl.line, data, none, poison⟩ c.writeQueue
      draining := c.draining || decide (c.wqHigh ≤ (wqPut ⟨pl.bank, pl.row, pl.line, data, none, poison⟩ c.writeQueue).length)
      idleSince := s.hubTimer }) _ _).trans (put _ _ (fun s c => { c with
      writeQueue := wqPut ⟨_, _, _, data, none, poison⟩ c.writeQueue
      draining := c.draining || decide (c.wqHigh ≤ (wqPut ⟨_, _, _, data, none, poison⟩ c.writeQueue).length)
      idleSince := s.hubTimer }) _ _)
  · exact put pl s (fun s c => { c with
      writeQueue := wqPut ⟨pl.bank, pl.row, pl.line, data, none, poison⟩ c.writeQueue
      draining := c.draining || decide (c.wqHigh ≤ (wqPut ⟨pl.bank, pl.row, pl.line, data, none, poison⟩ c.writeQueue).length)
      idleSince := s.hubTimer }) _ _

/-! ### Reads and rows -/

theorem touchBank_layers (pl : Place) (s : State) : Layers s (touchBank pl s) :=
  (openBank_layers pl s).trans (readBurst_layers _ _)

theorem fetchLine_layers (pl : Place) (s : State) : Layers s (fetchLine pl s) := by
  refine (touchBank_layers pl s).trans ?_
  unfold fetchLine
  generalize touchBank pl s = t
  dsimp only
  split
  · exact (closeRow_layers _ _ t).trans (touchBank_layers _ _)
  · exact Layers.refl t

theorem decodeRead_layers (f : ReadFor) (path : Path) (pl : Place) (s : State) :
    Layers s (decodeRead f path pl s).2 := by
  unfold decodeRead
  dsimp only
  split <;> dsimp only
  · exact Layers.refl s
  · exact modChannel_layers _ _ s
  · exact (modChannel_layers _ _ s).trans ((queueSpot_layers _ _ _).trans (countWires_layers _ _ _ _))
  · exact modChannel_layers _ _ s
  · exact (modChannel_layers _ _ s).trans ((queueSpot_layers _ _ _).trans (raiseBank_events _ _ _ _ _).layers)

/-- A read of a line, from the write queue or from the layer. -/
theorem lineRead_layers (f : ReadFor) (pl : Place) (s : State) : Layers s (lineRead f pl s).2 := by
  unfold lineRead
  split
  · dsimp only
    split <;> dsimp only
    · exact (modChannel_layers _ _ s).trans (modChannel_layers _ _ _)
    · exact modChannel_layers _ _ s
  · exact (fetchLine_layers _ s).trans (decodeRead_layers _ _ _ _)

theorem outlastRow_layers (c : Fin 32) (b : Fin 16) (row n : Nat) (s : State) : Layers s (outlastRow c b row n s) := by
  induction n generalizing s with
  | zero => exact Layers.refl s
  | succ n ih =>
    exact layers_if (Layers.refl s) ((passTo_layers _ s).trans ((issueWord_layers _ _ _).trans (ih _)))

theorem closeBank_layers (c : Fin 32) (b : Fin 16) (row : Nat) (write : Bool) (s : State) :
    Layers s (closeBank c b row write s) := by
  refine (drainRow_layers c b row s).trans ?_
  unfold closeBank
  generalize drainRow c b row s = t
  exact (layers_if (Layers.refl t) (outlastRow_layers _ _ _ _ t)).trans
    ((openBank_layers _ _).trans (skeinBurst_layers _ _ _ _))

theorem rowLine_layers (f : ReadFor) (pl : Place) (s : State) : Layers s (rowLine f pl s).2 := by
  unfold rowLine
  split
  · exact (touchBank_layers pl s).trans (decodeRead_layers _ _ _ _)
  · exact decodeRead_layers _ _ _ s

/-- A whole row read by SKRD. -/
theorem rowRead_layers (f : ReadFor) (c : Fin 32) (b : Fin 16) (row : Nat) (s : State) :
    Layers s (rowRead f c b row s).2 := by
  have fold (g : Fin 32 → ReadFor) (q : Fin 32 → Place) (l : List (Fin 32)) (acc : List (Option Line) × State) :
      Layers acc.2 (l.foldl (fun (acc : List (Option Line) × State) i =>
        (acc.1 ++ [(rowLine (g i) (q i) acc.2).1], (rowLine (g i) (q i) acc.2).2)) acc).2 := by
    induction l generalizing acc with
    | nil => exact Layers.refl _
    | cons i l ih => exact (rowLine_layers (g i) (q i) acc.2).trans (ih _)
  unfold rowRead
  have h := closeBank_layers c b row false s
  generalize closeBank c b row false s = t at h ⊢
  exact h.trans (fold _ _ _ ([], t))

/-- A whole row written by SKWR. -/
theorem rowWrite_layers (c : Fin 32) (b : Fin 16) (row : Nat) (image : List (Option Line)) (s : State) :
    Layers s (rowWrite c b row image s) := by
  unfold rowWrite
  have h := closeBank_layers c b row true s
  generalize closeBank c b row true s = t at h ⊢
  exact h.trans (layers_foldl _ (fun s _ => storeCoded_layers _ _ s) _ _)

theorem rowWriteBoth_layers (pl : Place) (image : List (Option Line)) (s : State) :
    Layers s (rowWriteBoth pl image s) := by
  unfold rowWriteBoth
  dsimp only
  split
  · exact (rowWrite_layers _ _ _ _ s).trans (rowWrite_layers _ _ _ _ _)
  · exact rowWrite_layers _ _ _ _ s

/-! ### Lines of partitions -/

/-- `t` is `s` but for what reads and writes of lines change: the layers, the partitions, the seal reserve, the Kennel,
and the counts of the device; the memory keeps its canonical form. -/
def Lines (s t : State) : Prop :=
  ∃ partitions sealCache kennel params,
    Layers { s with partitions := partitions, sealCache := sealCache, kennel := kennel, params := params } t

theorem Lines.refl (s : State) : Lines s s := ⟨s.partitions, s.sealCache, s.kennel, s.params, Layers.refl s⟩

theorem Lines.trans {s t u : State} : Lines s t → Lines t u → Lines s u := by
  rintro ⟨_, _, _, _, _, _, _, _, _, _, _, rfl, h⟩ ⟨p, c, k, a, d, ch, n, q, po, l, b, rfl, h'⟩
  exact ⟨p, c, k, a, d, ch, n, q, po, l, b, rfl, fun x => h' (h x)⟩

theorem Layers.lines {s t : State} (h : Layers s t) : Lines s t := ⟨s.partitions, s.sealCache, s.kennel, s.params, h⟩

theorem Events.lines {s t : State} (h : Events s t) : Lines s t := h.layers.lines

theorem lines_foldl {α : Type} (f : State → α → State) (h : ∀ s a, Lines s (f s a)) (l : List α) (s : State) :
    Lines s (l.foldl f s) := by
  induction l generalizing s with
  | nil => exact Lines.refl s
  | cons a l ih => exact (h s a).trans (ih _)

/-- One of two outcomes. -/
theorem lines_pick {α : Type} (g : α → State) {s : State} {c : Prop} [Decidable c] {x y : α} (hx : Lines s (g x))
    (hy : Lines s (g y)) : Lines s (g (if c then x else y)) := by
  split
  · exact hx
  · exact hy

/-- A fold that carries a value beside the state. -/
theorem lines_foldl_with {α β : Type} (f : β × State → α → β × State) (h : ∀ a x, Lines a.2 (f a x).2) (l : List α)
    (a : β × State) : Lines a.2 (l.foldl f a).2 := by
  induction l generalizing a with
  | nil => exact Lines.refl _
  | cons x l ih => exact (h a x).trans (ih _)

theorem modPartition_lines (pd : Fin 64) (f : Partition → Partition) (s : State) : Lines s (modPartition pd f s) :=
  ⟨_, s.sealCache, s.kennel, s.params, Layers.refl _⟩

theorem modSeal_lines (pd : Fin 64) (f : SealState → SealState) (s : State) : Lines s (modSeal pd f s) :=
  modPartition_lines _ _ s

theorem modParams_lines (f : DeviceParams → DeviceParams) (s : State) : Lines s (modParams f s) :=
  ⟨s.partitions, s.sealCache, s.kennel, _, Layers.refl _⟩

theorem sealCache_lines (c : List MetaLine) (s : State) : Lines s { s with sealCache := c } :=
  ⟨s.partitions, c, s.kennel, s.params, Layers.refl _⟩

theorem kennel_lines (k : List KennelLine) (s : State) : Lines s { s with kennel := k } :=
  ⟨s.partitions, s.sealCache, k, s.params, Layers.refl _⟩

theorem sealPut_lines (m : MetaLine) (s : State) : Lines s (sealPut m s) := sealCache_lines _ s

theorem countKennelMiss_events (s : State) (pd : Fin 64) (owner : Option Nat) : Events s (countKennelMiss s pd owner) := by
  unfold countKennelMiss
  split
  · exact Events.refl s
  · split
    · exact (modClass_events _ _ _ s).trans (missReport_events _ _ _)
    · exact Events.refl s

theorem kennelDrop_lines (pd : Fin 64) (index : Nat) (s : State) : Lines s (kennelDrop pd index s) := kennel_lines _ s

theorem noteCrypto_layers (pl : Place) (s : State) : Layers s (noteCrypto pl s) := modQuarter_layers _ _ s

/-- A line passed through the crypto slice of its place, where it has one. -/
theorem noteCryptoAt_lines (o : Option Place) (s : State) :
    Lines s (match o with | some pl => noteCrypto pl s | none => s) := by
  cases o with
  | some pl => exact (noteCrypto_layers pl s).lines
  | none => exact Lines.refl s

/-- A line written to a partition that is not SEALED. -/
theorem openWrite_lines (pd : Fin 64) (index : Nat) (data : Line) (s : State) :
    Lines s (openWrite pd index data s).2 := by
  unfold openWrite
  split
  · exact Lines.refl s
  · split
    · exact Lines.refl s
    · split
      · exact Lines.refl s
      · split
        · exact ((noteCrypto_layers _ s).trans (pushWrite_layers _ _ _ _)).lines
        · exact (pushWrite_layers _ _ _ s).lines

/-- A metadata line put in the reserve. -/
theorem sealStore_lines (m : MetaLine) (s : State) : Lines s (sealStore m s) := by
  unfold sealStore
  split
  · exact sealPut_lines _ s
  · split
    · exact sealPut_lines _ s
    · exact Lines.refl s

theorem setAnchor_lines (pd : Fin 64) (d n : Nat) (w : Word) (s : State) : Lines s (setAnchor pd d n w s) :=
  modSeal_lines _ _ s

theorem pushMeta_lines (pd : Fin 64) (d level index : Nat) (l : Line) (s : State) :
    Lines s (pushMeta pd d level index l s) := by
  unfold pushMeta
  dsimp only
  split <;> split <;>
    first
    | exact ((pushWrite_layers _ _ _ s).trans (pushWrite_layers _ _ _ _)).lines
    | exact (pushWrite_layers _ _ _ s).lines
    | exact Lines.refl s

theorem readMetaRaw_lines (who : Requester) (pd : Fin 64) (d level index : Nat) (s : State) :
    Lines s (readMetaRaw who pd d level index s).2 := by
  unfold readMetaRaw
  split
  · exact Lines.refl s
  · rename_i pl _
    split
    · exact Lines.refl s
    · split
      · exact Lines.refl s
      · have h := lineRead_layers { who := who, address := 64 * (metaGranuleAt s pd (d / 7) * granuleLines + d % 7 * slotLines + metaOffset level index) } pl s
        split
        all_goals
          rename_i e
          rw [e] at h
          exact h.lines

theorem pathRaw_lines (who : Requester) (pd : Fin 64) (d fuel level index : Nat) (s : State) :
    Lines s (pathRaw who pd d fuel level index s).2.2 := by
  induction fuel generalizing level index s with
  | zero => exact Lines.refl s
  | succ n ih =>
    unfold pathRaw
    split
    · exact Lines.refl s
    · have h := readMetaRaw_lines who pd d level index s
      split
      all_goals
        rename_i e
        rw [e] at h
      · exact h
      · exact h.trans (ih _ _ _)

/-- One more change that is made only where a condition holds. -/
theorem lines_if {s t u : State} {b : Prop} [Decidable b] (h : Lines s u) (ht : Lines u t) :
    Lines s (if b then t else u) := by
  split
  · exact h.trans ht
  · exact h

theorem failTree_lines (pd : Fin 64) (d level anchor : Nat) (s : State) : Lines s (failTree pd d level anchor s) :=
  (modSeal_lines _ _ s).trans
    ((lines_if (Lines.refl _) (raise_events _ _ _ _ _).lines).trans (raise_events _ _ _ _ _).lines)

theorem sealWriteBack_lines (pd : Fin 64) (d : Nat) (fuel level index : Nat) (l : Line) (s : State) :
    Lines s (sealWriteBack pd d fuel level index l s) := by
  induction fuel generalizing level index l s with
  | zero => exact Lines.refl s
  | succ n ih =>
    refine (pushMeta_lines pd d level index l s).trans ?_
    unfold sealWriteBack
    dsimp only
    split
    · exact Lines.refl _
    · split
      · exact setAnchor_lines _ _ _ _ _
      · split
        · exact sealPut_lines _ _
        · have h (n a : Nat) (u : State) := pathRaw_lines .int pd d 4 n a u
          generalize pathRaw .int pd d 4 = path at h ⊢
          generalize pushMeta pd d level index l s = u
          refine (h (level + 1) (index / 8) u).trans ?_
          split
          · exact Lines.refl _
          · exact failTree_lines _ _ _ _ _
          · split
            · exact sealStore_lines _ _
            · exact ih _ _ _ _

theorem sealEvict_lines (m : MetaLine) (s : State) : Lines s (sealEvict m s) := by
  unfold sealEvict
  dsimp only
  split
  · exact (sealCache_lines _ s).trans (sealWriteBack_lines _ _ _ _ _ _ _)
  · exact sealCache_lines _ s

theorem sealTrim_lines (n : Nat) (s : State) : Lines s (sealTrim n s) := by
  induction n generalizing s with
  | zero => exact Lines.refl s
  | succ n ih =>
    unfold sealTrim
    split
    · exact Lines.refl s
    · split
      · exact (sealEvict_lines _ s).trans (ih _)
      · exact Lines.refl s

theorem sealFit_lines (s : State) : Lines s (sealFit s) := sealTrim_lines _ s

theorem sealFlush_lines (sel : MetaLine → Bool) (s : State) : Lines s (sealFlush sel s) :=
  (lines_foldl _ (fun s _ => lines_foldl _
    (fun s _ => (sealCache_lines _ s).trans (sealWriteBack_lines _ _ _ _ _ _ _)) _ s) _ s).trans (sealFit_lines _)

theorem counterLine_lines (who : Requester) (pd : Fin 64) (d page : Nat) (s : State) :
    Lines s (counterLine who pd d page s).2 := by
  unfold counterLine
  split <;> dsimp only
  · exact (modParams_lines _ s).trans (sealPut_lines _ _)
  · refine (modParams_lines (fun p => { p with sealMetaMisses := p.sealMetaMisses + 1 }) s).trans ?_
    have h := pathRaw_lines who pd d 4 1 page
    split
    · exact h _
    · refine (h _).trans ?_
      split <;> dsimp only
      · exact failTree_lines _ _ _ _ _
      · exact lines_foldl _ (fun s _ => lines_if (Lines.refl s) (sealStore_lines _ s)) _ _

theorem putCounter_lines (pd : Fin 64) (d page : Nat) (l : Line) (s : State) : Lines s (putCounter pd d page l s) := by
  unfold putCounter
  split
  · exact sealWriteBack_lines _ _ _ _ _ _ s
  · exact sealStore_lines _ s

theorem tagLine_lines (who : Requester) (pd : Fin 64) (d index : Nat) (s : State) :
    Lines s (tagLine who pd d index s).2 := by
  unfold tagLine
  split <;> dsimp only
  · exact modParams_lines _ s
  · refine (modParams_lines (fun p => { p with sealMetaMisses := p.sealMetaMisses + 1 }) s).trans ?_
    have h := readMetaRaw_lines who pd d 0 index (modParams (fun p => { p with sealMetaMisses := p.sealMetaMisses + 1 }) s)
    split
    · rename_i e
      rw [e] at h
      refine h.trans ?_
      dsimp only
      split
      · exact sealStore_lines _ _
      · exact Lines.refl _
    · exact h

theorem putTag_lines (pd : Fin 64) (d index : Nat) (l : Line) (s : State) : Lines s (putTag pd d index l s) := by
  refine (pushMeta_lines pd d 0 index l s).trans ?_
  unfold putTag
  dsimp only
  split
  · exact sealPut_lines _ _
  · exact Lines.refl _

theorem noteQuarantine_lines (pd : Fin 64) (index : Nat) (s : State) : Lines s (noteQuarantine pd index s) :=
  (modSeal_lines _ _ s).trans (kennelDrop_lines _ _ _)

theorem raiseQuarantined_lines (who : Requester) (pd : Fin 64) (index : Nat) (s : State) :
    Lines s (raiseQuarantined who pd index s) := (noteQuarantine_lines pd index s).trans (raise_events _ _ _ _ _).lines

theorem storedRead_lines (who : Requester) (pd : Fin 64) (index : Nat) (s : State) :
    Lines s (storedRead who pd index s).2 := by
  unfold storedRead
  split
  · exact Lines.refl s
  · rename_i pl _
    split
    · exact Lines.refl s
    · split
      · exact Lines.refl s
      · have h := lineRead_layers { who := who, address := 64 * stackLine s pd index } pl s
        split
        all_goals
          rename_i e
          rw [e] at h
          exact h.lines

theorem recryptLine_lines (who : Requester) (pd : Fin 64) (index : Nat) (oldKey newKey : BitVec 512) (c : Line)
    (tag : Option Word) (major : Nat) (s : State) :
    Lines s (recryptLine who pd index oldKey newKey c tag major s).2.2.2 := by
  unfold recryptLine
  dsimp only
  have h := storedRead_lines who pd index s
  refine lines_pick (fun a : Option Line × Word × Nat × State => a.2.2.2) (Lines.refl s) ?_
  refine lines_pick (fun a : Option Line × Word × Nat × State => a.2.2.2) (Lines.refl s) ?_
  refine lines_pick (fun a : Option Line × Word × Nat × State => a.2.2.2) h ?_
  · · · split
        · rename_i e
          rw [e] at h
          refine h.trans ?_
          split
          · dsimp only
            split
            · exact ((noteCrypto_layers _ _).trans (noteCrypto_layers _ _)).lines
            · exact Lines.refl _
          · exact raiseQuarantined_lines _ _ _ _
        · rename_i e
          rw [e] at h
          exact h.trans (raiseQuarantined_lines _ _ _ _)

/-- A write into the queue of a line's place, where it has one. -/
theorem pushAt_lines (o : Option Place) (data : Line) (s : State) :
    Lines s (match o with | some pl => pushWrite pl data false s | none => s) := by
  cases o with
  | some pl => exact (pushWrite_layers _ _ _ s).lines
  | none => exact Lines.refl s

/-- A third component alone. -/
theorem lines_third {α β : Type} {s z : State} {x : α} {y : β} (h : Lines s z) : Lines s (x, y, z).2.2 := h

theorem recryptPage_lines (who : Requester) (pd : Fin 64) (d page : Nat) (oldKey newKey : BitVec 512) (c : Line)
    (major : Nat) (fresh : Option (Nat × Line)) (s : State) :
    Lines s (recryptPage who pd d page oldKey newKey c major fresh s).2 := by
  have inner {α : Type} (g : Line × Line × State → α → Line × Line × State)
      (hg : ∀ a x, Lines a.2.2 (g a x).2.2) (l : List α) (a : Line × Line × State) :
      Lines a.2.2 (l.foldl g a).2.2 := by
    induction l generalizing a with
    | nil => exact Lines.refl _
    | cons x l ih => exact (hg a x).trans (ih _)
  have hr := recryptLine_lines who pd
  have ht := tagLine_lines who pd
  unfold recryptPage
  dsimp only
  generalize recryptLine who pd = recrypt at hr ⊢
  generalize tagLine who pd = tag at ht ⊢
  refine lines_foldl_with _ (fun acc t => ?_) _ (setMajor 0 major, s)
  refine (ht d (8 * page + t) acc.2).trans ?_
  refine Lines.trans ?_ (putTag_lines _ _ _ _ _)
  refine inner _ (fun a j => ?_) _ (acc.1, _, _)
  refine lines_pick (fun a : Line × Line × State => a.2.2) ?_ ?_
  · exact pushAt_lines _ _ _
  · refine lines_third ?_
    split
    · exact (hr _ _ _ _ _ _ _).trans (pushWrite_layers _ _ _ _).lines
    · exact hr _ _ _ _ _ _ _

theorem reencrypt_lines (who : Requester) (pd : Fin 64) (index : Nat) (data c : Line) (s : State) :
    Lines s (reencrypt who pd index data c s).2 := by
  unfold reencrypt
  dsimp only
  split
  · exact Lines.refl s
  · dsimp only
    exact (recryptPage_lines _ _ _ _ _ _ _ _ _ s).trans ((putCounter_lines _ _ _ _ _).trans
      ((modSeal_lines _ _ _).trans (raiseLimited_events _ _ _ _ _).lines))

/-- A SEALED line written, with no room made for it. -/
theorem sealedPut_lines (who : Requester) (pd : Fin 64) (index : Nat) (data : Line) (s : State) :
    Lines s (sealedPut who pd index data s).2 := by
  unfold sealedPut
  dsimp only
  split
  · exact Lines.refl s
  · split
    · exact Lines.refl s
    · have h := counterLine_lines who pd (index / granuleLines) (index % granuleLines / 64) s
      split
      · rename_i e
        rw [e] at h
        exact h
      · rename_i c s1 e
        rw [e] at h
        refine h.trans ?_
        split
        · exact (raise_events _ _ _ _ _).lines
        · split
          · exact Lines.refl _
          · split
            · exact reencrypt_lines _ _ _ _ _ _
            · refine (tagLine_lines who pd (index / granuleLines) (index % granuleLines / 8) s1).trans ?_
              dsimp only
              exact ((noteCrypto_layers _ _).trans (pushWrite_layers _ _ _ _)).lines.trans
                ((putTag_lines _ _ _ _ _).trans ((putCounter_lines _ _ _ _ _).trans
                  (lines_foldl _ (fun s _ => noteQuarantine_lines _ _ s) _ _)))

/-! ### Room in the reserve -/

theorem openEvict_lines (k : KennelLine) (s : State) : Lines s (openEvict k s) := by
  refine (countKennelMiss_events s k.pd k.owner).lines.trans ((kennelDrop_lines k.pd k.index _).trans ?_)
  unfold openEvict
  generalize kennelDrop k.pd k.index (countKennelMiss s k.pd k.owner) = t
  dsimp only
  split
  · exact Lines.refl t
  · split
    · exact sealedPut_lines _ _ _ _ t
    · exact openWrite_lines _ _ _ t

/-- A way's Kennel line out of it, where it is still held. -/
theorem wayFreed_lines (ch : Nat ⊕ KennelLine ⊕ MetaLine) (s : State) :
    Lines s (match ch with
      | .inr (.inl k) => if (kennelHeld s k.pd k.index).isSome then openEvict k s else s
      | _ => s) := by
  split
  · exact lines_if (Lines.refl s) (openEvict_lines _ s)
  · exact Lines.refl s

theorem makeRoomFor_lines (pd : Fin 64) (d level index : Nat) (s : State) : Lines s (makeRoomFor pd d level index s) := by
  unfold makeRoomFor
  split
  · exact Lines.refl s
  · split
    · exact Lines.refl s
    · exact sealEvict_lines _ s
    · have room : Lines s (if s.params.sealReserve ≤ s.sealCache.length then
          (match s.sealCache.reverse.find? fun m => !sealPinned s m with | some m => sealEvict m s | none => s) else s) := by
        split
        · split
          · exact sealEvict_lines _ s
          · exact Lines.refl s
        · exact Lines.refl s
      exact room.trans (wayFreed_lines _ _)

theorem sealMakeRoom_lines (pd : Fin 64) (d i : Nat) (s : State) : Lines s (sealMakeRoom pd d i s) :=
  (lines_foldl _ (fun s _ => makeRoomFor_lines _ _ _ _ s) _ s).trans (makeRoomFor_lines _ _ _ _ _)

theorem sealedWrite_lines (who : Requester) (pd : Fin 64) (index : Nat) (data : Line) (s : State) :
    Lines s (sealedWrite who pd index data s).2 :=
  (sealMakeRoom_lines _ _ _ s).trans (sealedPut_lines _ _ _ _ _)

theorem sealedRead_lines (who : Requester) (pd : Fin 64) (index : Nat) (s : State) :
    Lines s (sealedRead who pd index s).2 := by
  unfold sealedRead
  dsimp only
  have h0 := sealMakeRoom_lines pd (index / granuleLines) (index % granuleLines) s
  generalize sealMakeRoom pd (index / granuleLines) (index % granuleLines) s = s0 at h0 ⊢
  refine h0.trans ?_
  have h := storedRead_lines who pd index s0
  split
  · rename_i e
    rw [e] at h
    exact h
  · rename_i stored s1 e
    rw [e] at h
    refine h.trans ?_
    have h1 := tagLine_lines who pd (index / granuleLines) (index % granuleLines / 8) s1
    split
    · rename_i e
      rw [e] at h1
      exact h1
    · rename_i tags s2 e
      rw [e] at h1
      refine h1.trans ?_
      have h2 := counterLine_lines who pd (index / granuleLines) (index % granuleLines / 64) s2
      split
      · rename_i e
        rw [e] at h2
        exact h2
      · rename_i c s3 e
        rw [e] at h2
        refine h2.trans ?_
        split <;> dsimp only
        · exact modSeal_lines _ _ _
        · split
          · exact Lines.refl _
          · split
            · exact noteCryptoAt_lines _ _
            · have h3 := storedRead_lines who pd index s3
              split
              · rename_i e
                rw [e] at h3
                exact h3
              · rename_i s4 e
                rw [e] at h3
                refine h3.trans ?_
                have h4 := readMetaRaw_lines who pd (index / granuleLines) 0 (index % granuleLines / 8) s4
                split
                · rename_i e
                  rw [e] at h4
                  exact h4
                · rename_i e
                  rw [e] at h4
                  refine h4.trans ?_
                  split
                  · exact noteCryptoAt_lines _ _
                  · exact (putCounter_lines _ _ _ _ _).trans ((modSeal_lines _ _ _).trans (raiseQuarantined_lines _ _ _ _))

/-- A read of a partition's line, whatever its mode and its outcome. -/
theorem partitionRead_lines (who : Requester) (pd : Fin 64) (index : Nat) (s : State) :
    Lines s (partitionRead who pd index s).2 := by
  unfold partitionRead
  have h := storedRead_lines who pd index s
  split
  · exact h
  · split
    · rename_i e
      rw [e] at h
      exact h.trans (noteCryptoAt_lines _ _)
    · exact h
  · exact sealedRead_lines _ _ _ s

/-- A write of a partition's line, whatever its mode and its outcome. -/
theorem partitionWrite_lines (who : Requester) (pd : Fin 64) (index : Nat) (data : Line) (s : State) :
    Lines s (partitionWrite who pd index data s).2 := by
  unfold partitionWrite
  split
  · exact sealedWrite_lines _ _ _ _ s
  · exact openWrite_lines _ _ _ s

/-! ### The Kennel -/

theorem kennelTouch_lines (k : KennelLine) (s : State) : Lines s (kennelTouch k s) := kennel_lines _ s

theorem kennelUpdate_lines (k : KennelLine) (data : Line) (dirty : Bool) (s : State) :
    Lines s (kennelUpdate k data dirty s) := kennelTouch_lines _ s

theorem kennelDropBlock_lines (pd : Fin 64) (block : Nat) (s : State) : Lines s (kennelDropBlock pd block s) :=
  kennel_lines _ s

theorem kennelWriteBack_lines (k : KennelLine) (s : State) : Lines s (kennelWriteBack k s) := by
  unfold kennelWriteBack
  dsimp only
  split
  · exact (kennel_lines _ s).trans (partitionWrite_lines _ _ _ _ _)
  · exact Lines.refl s

theorem kennelEvict_lines (k : KennelLine) (s : State) : Lines s (kennelEvict k s) := by
  unfold kennelEvict
  split
  · exact Lines.refl s
  · exact (countKennelMiss_events s _ _).lines.trans ((kennelWriteBack_lines _ _).trans (kennelDrop_lines _ _ _))

theorem kennelFlush_lines (sel : KennelLine → Bool) (s : State) : Lines s (kennelFlush sel s) :=
  lines_foldl _ (fun s k => kennelWriteBack_lines k s) _ s

theorem kennelPurge_lines (sel : KennelLine → Bool) (s : State) : Lines s (kennelPurge sel s) :=
  lines_foldl _ (fun s k => kennelEvict_lines k s) _ s

theorem kennelShrink_lines (pd : Fin 64) (n : Nat) (s : State) : Lines s (kennelShrink pd n s) := by
  induction n generalizing s with
  | zero => exact Lines.refl s
  | succ n ih =>
    unfold kennelShrink
    split
    · exact Lines.refl s
    · split
      · exact (kennelEvict_lines _ s).trans (ih _)
      · exact Lines.refl s

theorem kennelInstall_lines (pd : Fin 64) (index : Nat) (data : Line) (dirty : Bool) (use : KennelUse)
    (owner : Option Nat) (s : State) : Lines s (kennelInstall pd index data dirty use owner s) := by
  have quota (b : Bool) (o : Option KennelLine) (s : State) :
      Lines s (match b, o with | true, some k => kennelEvict k s | _, _ => s) := by
    split
    · exact kennelEvict_lines _ s
    · exact Lines.refl s
  have victim (ch : Nat ⊕ KennelLine) (s : State) :
      Lines s (match ch with | .inl _ => s | .inr k => kennelEvict k s) := by
    cases ch with
    | inl w => exact Lines.refl s
    | inr k => exact kennelEvict_lines k s
  have put (o : Option Nat) (k : Nat → KennelLine) (s : State) :
      Lines s (match o with | none => s | some way => kennelTouch (k way) s) := by
    cases o with
    | none => exact Lines.refl s
    | some way => exact kennelTouch_lines _ s
  unfold kennelInstall
  dsimp only
  split
  · exact Lines.refl s
  · split
    · exact Lines.refl s
    · split
      · exact Lines.refl s
      · exact (quota _ _ s).trans ((victim _ _).trans (put _ _ _))

/-- A line read for a host. -/
theorem hostRead_lines (who : Requester) (owner : Option Nat) (pd : Fin 64) (index : Nat) (s : State) :
    Lines s (hostRead who owner pd index s).2.2 := by
  unfold hostRead
  have h := partitionRead_lines who pd index s
  split
  · exact lines_pick (fun r : LineResult × Bool × State => r.2.2) (Lines.refl s) (kennelTouch_lines _ s)
  · split
    · rename_i e
      rw [e] at h
      refine h.trans ?_
      dsimp only
      split
      · exact Lines.refl _
      · exact kennelInstall_lines _ _ _ _ _ _ _
    · rename_i e
      rw [e] at h
      exact h

/-- A whole line written for a host. -/
theorem hostWrite_lines (who : Requester) (pd : Fin 64) (index : Nat) (data : Line) (s : State) :
    Lines s (hostWrite who pd index data s).2 := by
  unfold hostWrite
  have h := partitionWrite_lines who pd index data s
  split
  · split
    · exact lines_pick (fun r : Option (QStatus × Bool) × State => r.2) (Lines.refl s) (kennelUpdate_lines _ _ _ s)
    · split
      · rename_i e
        rw [e] at h
        refine h.trans ?_
        dsimp only
        split
        · exact kennelUpdate_lines _ _ _ _
        · exact kennelDrop_lines _ _ _
      · exact h
  · exact h

theorem halfRead_lines (who : Requester) (pd : Fin 64) (index : Nat) (s : State) :
    Lines s (halfRead who pd index s).2 := by
  unfold halfRead
  dsimp only
  split <;> split <;>
    first
    | exact partitionRead_lines _ _ _ s
    | exact Lines.refl s
    | (split <;> first | exact partitionRead_lines _ _ _ s | exact Lines.refl s)

/-! ### Sparse tables -/

/-- The queues, the granule map, the directory and the free-cell caches keep their canonical form. -/
theorem modQueue_wf (q : Nat) (f : Queue → Queue) (s : State) (h : sparseWf {} s.queues = true) :
    sparseWf {} (modQueue q f s).queues = true := sparsePut_wf _ _ _ _ h

theorem setGranule_wf (g : Nat) (e : BitVec 16) (s : State) (h : sparseWf 0 s.granuleMap = true) :
    sparseWf 0 (setGranule g e s).granuleMap = true := sparsePut_wf _ _ _ _ h

theorem setDirectory_wf (i : Nat) (e : BitVec 64) (s : State) (h : sparseWf 0 s.directory = true) :
    sparseWf 0 (setDirectory i e s).directory = true := sparsePut_wf _ _ _ _ h

theorem setFreeCache_wf (slice pd : Nat) (cells : List Nat) (s : State) (h : sparseWf [] s.freeCaches = true) :
    sparseWf [] (setFreeCache slice pd cells s).freeCaches = true := sparsePut_wf _ _ _ _ h

/-- A queue read after it was written, and the others. -/
theorem queueAt_modQueue (q k : Nat) (f : Queue → Queue) (s : State) (h : sparseWf {} s.queues = true) :
    queueAt (modQueue q f s) k = if k = q then f (queueAt s q) else queueAt s k := by
  unfold queueAt modQueue
  split
  · rename_i e
    rw [e]
    exact sparseGet_put_same _ _ _ _ h
  · rename_i e
    exact sparseGet_put_other _ _ _ _ _ e h

/-! ### Requests -/

theorem noteTrigger_layers (c : Fin 32) (s : State) : Layers s (noteTrigger c s) :=
  layers_if (Layers.refl s) (modChannel_layers _ _ s)

theorem noteTriggers_layers (s : State) : Layers s (noteTriggers s) :=
  layers_foldl _ (fun s c => noteTrigger_layers c s) _ s

theorem watchGates_layers (s : State) : Layers s (watchGates s) :=
  layers_foldl _ (fun _ _ => modQuarter_layers _ _ _) _ s

theorem setRequests_layers (c : Fin 32) (q : List QueuedReq) (s : State) : Layers s (setRequests c q s) :=
  (noteTrigger_layers c s).trans ((modChannel_layers _ _ _).trans (watchGates_layers _))

theorem panicCheck_layers (p : Fin 4) (s : State) : Layers s (panicCheck p s) := by
  unfold panicCheck
  dsimp only
  split
  · exact ((modPort_events _ _ s).trans (raiseLimited_events _ _ _ _ _)).layers
  · split
    · exact (noteTriggers_layers s).trans ((modPort_events _ _ _).trans (raiseLimited_events _ _ _ _ _)).layers
    · exact Layers.refl s

theorem holdRequest_events (p : Fin 4) (h : Held) (s : State) : Events s (holdRequest p h s) :=
  (modPort_events _ _ s).trans (modClass_events _ _ _ _)

/-- A promotion counted in its channel. -/
theorem countPromoted_layers (c : Fin 32) (s : State) : Layers s (countPromoted c s) := modChannel_layers _ _ s

/-- The hub's number does not matter to what the layers change. -/
theorem Layers.numbered {s t : State} (h : Layers s t) (n : Nat) :
    Layers { s with presented := n } { t with presented := n } := by
  obtain ⟨d, c, m, q, p, l, b, rfl, hw⟩ := h
  exact ⟨d, c, m, q, p, l, b, rfl, hw⟩

/-- A request given to the channels runs, or it waits in the queue of one. -/
theorem present_cases (perform : Perform) (q : QueuedReq) (s : State) :
    (∃ u, Layers s u ∧ present perform q s = perform q.job q.req u) ∨ Layers s (present perform q s) := by
  unfold present
  split
  · exact .inr ((countPromoted_layers _ s).trans (setRequests_layers _ _ _))
  · exact .inr (setRequests_layers _ _ s)
  · exact .inl ⟨_, countPromoted_layers _ s, rfl⟩
  · exact .inl ⟨s, Layers.refl s, rfl⟩

/-- A request at the hub runs on a state that differs only by what the layers change and the hub's number, or it waits in
the queue of a channel. -/
theorem toHub_cases (perform : Perform) (j : Job) (r : Req) (s : State) :
    (∃ k u, Layers { s with presented := s.presented + 1 } u ∧ toHub perform j r s = perform k r u) ∨
      Layers { s with presented := s.presented + 1 } (toHub perform j r s) := by
  rcases present_cases perform
    { opcode := j.opcode, req := r, job := { j with order := s.presented }, promoted := false }
    { s with presented := s.presented + 1 } with ⟨u, hu, e⟩ | e
  · exact .inl ⟨_, u, hu, e⟩
  · exact .inr e

/-- A request evaluated: it runs on a state that differs only by what the layers change and the hub's number, or it does
not run and is held, completed or put in the queue of a channel. -/
theorem evaluate_cases (perform : Perform) (p : Fin 4) (h : Held) (s : State) :
    ∃ n, (∃ j u, Layers { s with presented := n } u ∧ evaluate perform p h s = perform j h.req u) ∨
      Layers { s with presented := n } (evaluate perform p h s) := by
  unfold evaluate
  dsimp only
  split
  · exact ⟨s.presented, .inr (holdRequest_events _ _ s).layers⟩
  · split
    · exact ⟨s.presented, .inr ((freeSlots_events _ _ s).trans (completeWith_events _ _ _)).layers⟩
    · split
      · exact ⟨s.presented, .inl ⟨_, _, (freeSlots_events _ _ s).layers, rfl⟩⟩
      · split
        · rename_i c _
          have hu := ((modClass_events p (Fin.ofNat 8 h.req.hdr.cls.toNat) (fun _ => c) s).trans
            (freeSlots_events p (requestSlots h.opcode h.req) _)).layers
          generalize freeSlots p (requestSlots h.opcode h.req) (modClass p _ (fun _ => c) s) = u at hu ⊢
          refine ⟨u.presented + 1, ?_⟩
          rcases toHub_cases perform h.job h.req u with ⟨k, v, hv, e⟩ | e
          · exact .inl ⟨k, v, (hu.numbered _).trans hv, e⟩
          · exact .inr ((hu.numbered _).trans e)
        · exact ⟨s.presented, .inr (holdRequest_events _ _ s).layers⟩

/-- A request unpacked at its port: `perform` runs on a state that differs only by what the layers change and the hub's
number, and the port's panic is looked at; or it does not run and the request is held, refused, ignored or put in the
queue of a channel. -/
theorem ingress_cases (perform : Perform) (p : Fin 4) (op : BitVec 6) (r : Req) (s : State) :
    ∃ n, (∃ j u, Layers { s with presented := n } u ∧ ingress perform p op r s = panicCheck p (perform j r u)) ∨
      Layers { s with presented := n } (ingress perform p op r s) := by
  unfold ingress
  dsimp only
  split
  · refine ⟨s.presented, .inr ?_⟩
    split
    · exact (freeSlots_events _ _ s).layers
    · exact ((freeSlots_events _ _ s).trans (raise_events _ _ _ _ _)).layers
  · split
    · exact ⟨s.presented, .inr ((freeSlots_events _ _ s).trans ((modPort_events _ _ _).trans
        ((raiseLimited_events _ _ _ _ _).trans (handOver_events _ _ _)))).layers⟩
    · have h1 := (modPort_events p (fun x => { x with outstanding := x.outstanding ++ [(r.hdr.tag, r.hdr.cls.toNat)] }) s).layers
      generalize modPort p (fun x => { x with outstanding := x.outstanding ++ [(r.hdr.tag, r.hdr.cls.toNat)] }) s = t at h1 ⊢
      obtain ⟨n, ⟨j, u, hu, e⟩ | e⟩ := evaluate_cases perform p
        { opcode := op, req := r, job := jobOf t p op r t.hubTimer, reason := .order, passGate := false } t
      · exact ⟨n, .inl ⟨j, u, (h1.numbered n).trans hu, congrArg (panicCheck p) e⟩⟩
      · exact ⟨n, .inr ((h1.numbered n).trans (e.trans (panicCheck_layers _ _)))⟩

/-- A request received: nothing changes where its port is not live; otherwise its slots are taken and `ingress` has it. -/
theorem receive_cases (perform : Perform) (p : Fin 4) (op : BitVec 6) (r : Req) (s : State) :
    ∃ n, (∃ j u, Layers { s with presented := n } u ∧ receive perform p op r s = panicCheck p (perform j r u)) ∨
      Layers { s with presented := n } (receive perform p op r s) := by
  unfold receive
  split
  · exact ⟨s.presented, .inr (Layers.refl s)⟩
  · have h := (modLink_events p (fun l => { l with slotsTaken := l.slotsTaken + requestSlots op r }) s).layers
    generalize modLink p (fun l => { l with slotsTaken := l.slotsTaken + requestSlots op r }) s = t at h ⊢
    obtain ⟨n, ⟨j, u, hu, e⟩ | e⟩ := ingress_cases perform p op r t
    · exact ⟨n, .inl ⟨j, u, (h.numbered n).trans hu, e⟩⟩
    · exact ⟨n, .inr ((h.numbered n).trans e)⟩

end Sys2Proof.Laws
end

