-- ==== Sys2Proof/Laws/Requests.lean ====
section
/-! SUPPORT. What `receive` answers for a request that passes its port and for one that fails a check. -/

namespace Sys2Proof.Laws

open Sys2Proof Sys2Proof.Machine Sys2Proof.Safety

/-- The link of a port says nothing of whether the port is live. -/
theorem portLive_modLink (p q : Fin 4) (f : LinkState → LinkState) (s : State) :
    portLive (modLink p f s) q = portLive s q := by
  have h : (modLink p f s).ports[q].phy = s.ports[q].phy := by
    by_cases e : p = q
    · subst e
      simp [modLink, modPort]
    · have : ¬p.val = q.val := fun x => e (Fin.ext x)
      simp [modLink, modPort, this]
  unfold portLive
  rw [h]
  rfl

/-- A request that arrives is evaluated on the state with its slots taken and its tag outstanding. -/
theorem receive_of_arrives (perform : Perform) (p : Fin 4) (op : BitVec 6) (r : Req) (s : State)
    (h : arrives p r s = true) :
    receive perform p op r s = panicCheck p (evaluate perform p
      { opcode := op, req := r, job := newJob p op r s, reason := .order, passGate := false } (entered p op r s)) := by
  simp only [arrives, Bool.and_eq_true, Bool.not_eq_true'] at h
  obtain ⟨h1, h2⟩ := h
  have hp : portServes (modLink p (fun l => { l with slotsTaken := l.slotsTaken + requestSlots op r }) s) p = true := by
    have hq : (modLink p (fun l => { l with slotsTaken := l.slotsTaken + requestSlots op r }) s).ports[p].partnerState =
        s.ports[p].partnerState ∧ (modLink p (fun l => { l with slotsTaken := l.slotsTaken + requestSlots op r }) s).ports[p].draining
        = s.ports[p].draining ∧ (modLink p (fun l => { l with slotsTaken := l.slotsTaken + requestSlots op r }) s).ports[p].partner
        = s.ports[p].partner := by simp [modLink, modPort]
    unfold portServes at h1 ⊢
    rw [portLive_modLink, hq.1, hq.2.1, hq.2.2]
    exact h1
  have ho : tagOutstanding (modLink p (fun l => { l with slotsTaken := l.slotsTaken + requestSlots op r }) s).ports[p]
      r.hdr.tag = false := by
    simpa [tagOutstanding, modLink, modPort] using h2
  have hl : portLive s p = true := by
    simp only [portServes, Bool.and_eq_true] at h1
    exact h1.1.1.1
  unfold receive ingress
  simp only [hl, hp, ho, Bool.not_true, Bool.false_eq_true, if_false]
  rfl

/-- A request that passes is performed on the admitted state. -/
theorem receive_of_passes (perform : Perform) (p : Fin 4) (op : BitVec 6) (r : Req) (c : PortClass) (s : State)
    (h : passes p op r c s = true) : receive perform p op r s = performed perform p op r c s := by
  simp only [passes, unquiesced, Bool.and_eq_true, decide_eq_true_eq, Bool.not_eq_true'] at h
  obtain ⟨⟨⟨⟨⟨h1, h2⟩, h3⟩, h4⟩, h5⟩, h6⟩ := h
  have hheld : (entered p op r s).ports[p].held = s.ports[p].held := by simp [entered, modLink, modPort]
  rw [receive_of_arrives perform p op r s h1]
  refine congrArg (panicCheck p) ?_
  unfold evaluate
  simp only [h2, h3, h4, hheld, h5, Bool.false_eq_true, if_false]
  unfold toHub present admitted
  change (match waitChannel (numbered p op r c s) (admittedJob p op r s) r,
      promotes (numbered p op r c s) { opcode := op, req := r, job := admittedJob p op r s, promoted := false } with
    | some k, some n => setRequests k (putQueued _ _) (countPromoted n _)
    | some k, none => setRequests k (putQueued _ _) _
    | none, some n => perform (admittedJob p op r s) r (countPromoted n (numbered p op r c s))
    | none, none => perform (admittedJob p op r s) r (numbered p op r c s)) = _
  rw [h6]
  split <;> simp_all

/-- A request that fails a check completes with its status. -/
theorem receive_of_fails (perform : Perform) (p : Fin 4) (op : BitVec 6) (r : Req) (st : QStatus) (s : State)
    (h : arrives p r s = true) (h2 : unquiesced p op r s = true)
    (h3 : checkRequest (entered p op r s) p op r = some st) :
    receive perform p op r s = refused p op r st s := by
  simp only [unquiesced, Bool.not_eq_true'] at h2
  rw [receive_of_arrives perform p op r s h]
  refine congrArg (panicCheck p) ?_
  unfold evaluate
  simp only [h2, h3, Bool.false_eq_true, if_false]

end Sys2Proof.Laws
end

