-- ==== Sys2Proof/Laws/State.lean ====
section
/-! SUPPORT. The small lemmas of the state's updates: each field that an update leaves alone, each part that it replaces,
and the parts beside that one. -/

namespace Sys2Proof.Laws

open Sys2Proof Sys2Proof.Machine

/-! ### modPort -/

@[simp] theorem modPort_pending (p : Fin 4) (f : Port → Port) (s : State) : (modPort p f s).pending = s.pending := rfl
@[simp] theorem modPort_hubTimer (p : Fin 4) (f : Port → Port) (s : State) : (modPort p f s).hubTimer = s.hubTimer := rfl
@[simp] theorem modPort_drawn (p : Fin 4) (f : Port → Port) (s : State) : (modPort p f s).drawn = s.drawn := rfl
@[simp] theorem modPort_presented (p : Fin 4) (f : Port → Port) (s : State) : (modPort p f s).presented = s.presented := rfl
@[simp] theorem modPort_device (p : Fin 4) (f : Port → Port) (s : State) : (modPort p f s).device = s.device := rfl
@[simp] theorem modPort_params (p : Fin 4) (f : Port → Port) (s : State) : (modPort p f s).params = s.params := rfl
@[simp] theorem modPort_dram (p : Fin 4) (f : Port → Port) (s : State) : (modPort p f s).dram = s.dram := rfl
@[simp] theorem modPort_quarters (p : Fin 4) (f : Port → Port) (s : State) : (modPort p f s).quarters = s.quarters := rfl
@[simp] theorem modPort_channels (p : Fin 4) (f : Port → Port) (s : State) : (modPort p f s).channels = s.channels := rfl
@[simp] theorem modPort_blocks (p : Fin 4) (f : Port → Port) (s : State) : (modPort p f s).blocks = s.blocks := rfl
@[simp] theorem modPort_partitions (p : Fin 4) (f : Port → Port) (s : State) : (modPort p f s).partitions = s.partitions := rfl
@[simp] theorem modPort_granuleMap (p : Fin 4) (f : Port → Port) (s : State) : (modPort p f s).granuleMap = s.granuleMap := rfl
@[simp] theorem modPort_refills (p : Fin 4) (f : Port → Port) (s : State) : (modPort p f s).refills = s.refills := rfl
@[simp] theorem modPort_tables (p : Fin 4) (f : Port → Port) (s : State) : (modPort p f s).tables = s.tables := rfl
@[simp] theorem modPort_directory (p : Fin 4) (f : Port → Port) (s : State) : (modPort p f s).directory = s.directory := rfl
@[simp] theorem modPort_directoryBad (p : Fin 4) (f : Port → Port) (s : State) : (modPort p f s).directoryBad = s.directoryBad := rfl
@[simp] theorem modPort_queues (p : Fin 4) (f : Port → Port) (s : State) : (modPort p f s).queues = s.queues := rfl
@[simp] theorem modPort_profiles (p : Fin 4) (f : Port → Port) (s : State) : (modPort p f s).profiles = s.profiles := rfl
@[simp] theorem modPort_freeCaches (p : Fin 4) (f : Port → Port) (s : State) : (modPort p f s).freeCaches = s.freeCaches := rfl
@[simp] theorem modPort_kennel (p : Fin 4) (f : Port → Port) (s : State) : (modPort p f s).kennel = s.kennel := rfl
@[simp] theorem modPort_waysDisabled (p : Fin 4) (f : Port → Port) (s : State) : (modPort p f s).waysDisabled = s.waysDisabled := rfl
@[simp] theorem modPort_sealCache (p : Fin 4) (f : Port → Port) (s : State) : (modPort p f s).sealCache = s.sealCache := rfl
@[simp] theorem modPort_keys (p : Fin 4) (f : Port → Port) (s : State) : (modPort p f s).keys = s.keys := rfl
@[simp] theorem modPort_sensors (p : Fin 4) (f : Port → Port) (s : State) : (modPort p f s).sensors = s.sensors := rfl
@[simp] theorem modPort_bonds (p : Fin 4) (f : Port → Port) (s : State) : (modPort p f s).bonds = s.bonds := rfl
@[simp] theorem modPort_thermal (p : Fin 4) (f : Port → Port) (s : State) : (modPort p f s).thermal = s.thermal := rfl
@[simp] theorem modPort_mailboxes (p : Fin 4) (f : Port → Port) (s : State) : (modPort p f s).mailboxes = s.mailboxes := rfl
@[simp] theorem modPort_tasks (p : Fin 4) (f : Port → Port) (s : State) : (modPort p f s).tasks = s.tasks := rfl
@[simp] theorem modPort_nextTicket (p : Fin 4) (f : Port → Port) (s : State) : (modPort p f s).nextTicket = s.nextTicket := rfl
@[simp] theorem modPort_mover (p : Fin 4) (f : Port → Port) (s : State) : (modPort p f s).mover = s.mover := rfl
@[simp] theorem modPort_repairLog (p : Fin 4) (f : Port → Port) (s : State) : (modPort p f s).repairLog = s.repairLog := rfl
@[simp] theorem modPort_repairLogB (p : Fin 4) (f : Port → Port) (s : State) : (modPort p f s).repairLogB = s.repairLogB := rfl
@[simp] theorem modPort_firmware (p : Fin 4) (f : Port → Port) (s : State) : (modPort p f s).firmware = s.firmware := rfl
@[simp] theorem modPort_log (p : Fin 4) (f : Port → Port) (s : State) : (modPort p f s).log = s.log := rfl
@[simp] theorem modPort_sideband (p : Fin 4) (f : Port → Port) (s : State) : (modPort p f s).sideband = s.sideband := rfl
@[simp] theorem modPort_fuses (p : Fin 4) (f : Port → Port) (s : State) : (modPort p f s).fuses = s.fuses := rfl
@[simp] theorem modPort_rotation (p : Fin 4) (f : Port → Port) (s : State) : (modPort p f s).rotation = s.rotation := rfl
@[simp] theorem modPort_salts (p : Fin 4) (f : Port → Port) (s : State) : (modPort p f s).salts = s.salts := rfl

@[simp] theorem modPort_self (p : Fin 4) (f : Port → Port) (s : State) : (modPort p f s).ports[p] = f s.ports[p] := by simp [modPort]

theorem modPort_other (p : Fin 4) (f : Port → Port) (j : Fin 4) (h : j ≠ p) (s : State) : (modPort p f s).ports[j] = s.ports[j] := by
  have : p.val ≠ j.val := fun e => h (Fin.ext e.symm)
  simp [modPort, Vector.getElem_set, this]

/-! ### modPhy -/

@[simp] theorem modPhy_pending (p : Fin 4) (f : Phy → Phy) (s : State) : (modPhy p f s).pending = s.pending := rfl
@[simp] theorem modPhy_hubTimer (p : Fin 4) (f : Phy → Phy) (s : State) : (modPhy p f s).hubTimer = s.hubTimer := rfl
@[simp] theorem modPhy_drawn (p : Fin 4) (f : Phy → Phy) (s : State) : (modPhy p f s).drawn = s.drawn := rfl
@[simp] theorem modPhy_presented (p : Fin 4) (f : Phy → Phy) (s : State) : (modPhy p f s).presented = s.presented := rfl
@[simp] theorem modPhy_device (p : Fin 4) (f : Phy → Phy) (s : State) : (modPhy p f s).device = s.device := rfl
@[simp] theorem modPhy_params (p : Fin 4) (f : Phy → Phy) (s : State) : (modPhy p f s).params = s.params := rfl
@[simp] theorem modPhy_dram (p : Fin 4) (f : Phy → Phy) (s : State) : (modPhy p f s).dram = s.dram := rfl
@[simp] theorem modPhy_quarters (p : Fin 4) (f : Phy → Phy) (s : State) : (modPhy p f s).quarters = s.quarters := rfl
@[simp] theorem modPhy_channels (p : Fin 4) (f : Phy → Phy) (s : State) : (modPhy p f s).channels = s.channels := rfl
@[simp] theorem modPhy_blocks (p : Fin 4) (f : Phy → Phy) (s : State) : (modPhy p f s).blocks = s.blocks := rfl
@[simp] theorem modPhy_partitions (p : Fin 4) (f : Phy → Phy) (s : State) : (modPhy p f s).partitions = s.partitions := rfl
@[simp] theorem modPhy_granuleMap (p : Fin 4) (f : Phy → Phy) (s : State) : (modPhy p f s).granuleMap = s.granuleMap := rfl
@[simp] theorem modPhy_refills (p : Fin 4) (f : Phy → Phy) (s : State) : (modPhy p f s).refills = s.refills := rfl
@[simp] theorem modPhy_tables (p : Fin 4) (f : Phy → Phy) (s : State) : (modPhy p f s).tables = s.tables := rfl
@[simp] theorem modPhy_directory (p : Fin 4) (f : Phy → Phy) (s : State) : (modPhy p f s).directory = s.directory := rfl
@[simp] theorem modPhy_directoryBad (p : Fin 4) (f : Phy → Phy) (s : State) : (modPhy p f s).directoryBad = s.directoryBad := rfl
@[simp] theorem modPhy_queues (p : Fin 4) (f : Phy → Phy) (s : State) : (modPhy p f s).queues = s.queues := rfl
@[simp] theorem modPhy_profiles (p : Fin 4) (f : Phy → Phy) (s : State) : (modPhy p f s).profiles = s.profiles := rfl
@[simp] theorem modPhy_freeCaches (p : Fin 4) (f : Phy → Phy) (s : State) : (modPhy p f s).freeCaches = s.freeCaches := rfl
@[simp] theorem modPhy_kennel (p : Fin 4) (f : Phy → Phy) (s : State) : (modPhy p f s).kennel = s.kennel := rfl
@[simp] theorem modPhy_waysDisabled (p : Fin 4) (f : Phy → Phy) (s : State) : (modPhy p f s).waysDisabled = s.waysDisabled := rfl
@[simp] theorem modPhy_sealCache (p : Fin 4) (f : Phy → Phy) (s : State) : (modPhy p f s).sealCache = s.sealCache := rfl
@[simp] theorem modPhy_keys (p : Fin 4) (f : Phy → Phy) (s : State) : (modPhy p f s).keys = s.keys := rfl
@[simp] theorem modPhy_sensors (p : Fin 4) (f : Phy → Phy) (s : State) : (modPhy p f s).sensors = s.sensors := rfl
@[simp] theorem modPhy_bonds (p : Fin 4) (f : Phy → Phy) (s : State) : (modPhy p f s).bonds = s.bonds := rfl
@[simp] theorem modPhy_thermal (p : Fin 4) (f : Phy → Phy) (s : State) : (modPhy p f s).thermal = s.thermal := rfl
@[simp] theorem modPhy_mailboxes (p : Fin 4) (f : Phy → Phy) (s : State) : (modPhy p f s).mailboxes = s.mailboxes := rfl
@[simp] theorem modPhy_tasks (p : Fin 4) (f : Phy → Phy) (s : State) : (modPhy p f s).tasks = s.tasks := rfl
@[simp] theorem modPhy_nextTicket (p : Fin 4) (f : Phy → Phy) (s : State) : (modPhy p f s).nextTicket = s.nextTicket := rfl
@[simp] theorem modPhy_mover (p : Fin 4) (f : Phy → Phy) (s : State) : (modPhy p f s).mover = s.mover := rfl
@[simp] theorem modPhy_repairLog (p : Fin 4) (f : Phy → Phy) (s : State) : (modPhy p f s).repairLog = s.repairLog := rfl
@[simp] theorem modPhy_repairLogB (p : Fin 4) (f : Phy → Phy) (s : State) : (modPhy p f s).repairLogB = s.repairLogB := rfl
@[simp] theorem modPhy_firmware (p : Fin 4) (f : Phy → Phy) (s : State) : (modPhy p f s).firmware = s.firmware := rfl
@[simp] theorem modPhy_log (p : Fin 4) (f : Phy → Phy) (s : State) : (modPhy p f s).log = s.log := rfl
@[simp] theorem modPhy_sideband (p : Fin 4) (f : Phy → Phy) (s : State) : (modPhy p f s).sideband = s.sideband := rfl
@[simp] theorem modPhy_fuses (p : Fin 4) (f : Phy → Phy) (s : State) : (modPhy p f s).fuses = s.fuses := rfl
@[simp] theorem modPhy_rotation (p : Fin 4) (f : Phy → Phy) (s : State) : (modPhy p f s).rotation = s.rotation := rfl
@[simp] theorem modPhy_salts (p : Fin 4) (f : Phy → Phy) (s : State) : (modPhy p f s).salts = s.salts := rfl

/-! ### modLink -/

@[simp] theorem modLink_pending (p : Fin 4) (f : LinkState → LinkState) (s : State) : (modLink p f s).pending = s.pending := rfl
@[simp] theorem modLink_hubTimer (p : Fin 4) (f : LinkState → LinkState) (s : State) : (modLink p f s).hubTimer = s.hubTimer := rfl
@[simp] theorem modLink_drawn (p : Fin 4) (f : LinkState → LinkState) (s : State) : (modLink p f s).drawn = s.drawn := rfl
@[simp] theorem modLink_presented (p : Fin 4) (f : LinkState → LinkState) (s : State) : (modLink p f s).presented = s.presented := rfl
@[simp] theorem modLink_device (p : Fin 4) (f : LinkState → LinkState) (s : State) : (modLink p f s).device = s.device := rfl
@[simp] theorem modLink_params (p : Fin 4) (f : LinkState → LinkState) (s : State) : (modLink p f s).params = s.params := rfl
@[simp] theorem modLink_dram (p : Fin 4) (f : LinkState → LinkState) (s : State) : (modLink p f s).dram = s.dram := rfl
@[simp] theorem modLink_quarters (p : Fin 4) (f : LinkState → LinkState) (s : State) : (modLink p f s).quarters = s.quarters := rfl
@[simp] theorem modLink_channels (p : Fin 4) (f : LinkState → LinkState) (s : State) : (modLink p f s).channels = s.channels := rfl
@[simp] theorem modLink_blocks (p : Fin 4) (f : LinkState → LinkState) (s : State) : (modLink p f s).blocks = s.blocks := rfl
@[simp] theorem modLink_partitions (p : Fin 4) (f : LinkState → LinkState) (s : State) : (modLink p f s).partitions = s.partitions := rfl
@[simp] theorem modLink_granuleMap (p : Fin 4) (f : LinkState → LinkState) (s : State) : (modLink p f s).granuleMap = s.granuleMap := rfl
@[simp] theorem modLink_refills (p : Fin 4) (f : LinkState → LinkState) (s : State) : (modLink p f s).refills = s.refills := rfl
@[simp] theorem modLink_tables (p : Fin 4) (f : LinkState → LinkState) (s : State) : (modLink p f s).tables = s.tables := rfl
@[simp] theorem modLink_directory (p : Fin 4) (f : LinkState → LinkState) (s : State) : (modLink p f s).directory = s.directory := rfl
@[simp] theorem modLink_directoryBad (p : Fin 4) (f : LinkState → LinkState) (s : State) : (modLink p f s).directoryBad = s.directoryBad := rfl
@[simp] theorem modLink_queues (p : Fin 4) (f : LinkState → LinkState) (s : State) : (modLink p f s).queues = s.queues := rfl
@[simp] theorem modLink_profiles (p : Fin 4) (f : LinkState → LinkState) (s : State) : (modLink p f s).profiles = s.profiles := rfl
@[simp] theorem modLink_freeCaches (p : Fin 4) (f : LinkState → LinkState) (s : State) : (modLink p f s).freeCaches = s.freeCaches := rfl
@[simp] theorem modLink_kennel (p : Fin 4) (f : LinkState → LinkState) (s : State) : (modLink p f s).kennel = s.kennel := rfl
@[simp] theorem modLink_waysDisabled (p : Fin 4) (f : LinkState → LinkState) (s : State) : (modLink p f s).waysDisabled = s.waysDisabled := rfl
@[simp] theorem modLink_sealCache (p : Fin 4) (f : LinkState → LinkState) (s : State) : (modLink p f s).sealCache = s.sealCache := rfl
@[simp] theorem modLink_keys (p : Fin 4) (f : LinkState → LinkState) (s : State) : (modLink p f s).keys = s.keys := rfl
@[simp] theorem modLink_sensors (p : Fin 4) (f : LinkState → LinkState) (s : State) : (modLink p f s).sensors = s.sensors := rfl
@[simp] theorem modLink_bonds (p : Fin 4) (f : LinkState → LinkState) (s : State) : (modLink p f s).bonds = s.bonds := rfl
@[simp] theorem modLink_thermal (p : Fin 4) (f : LinkState → LinkState) (s : State) : (modLink p f s).thermal = s.thermal := rfl
@[simp] theorem modLink_mailboxes (p : Fin 4) (f : LinkState → LinkState) (s : State) : (modLink p f s).mailboxes = s.mailboxes := rfl
@[simp] theorem modLink_tasks (p : Fin 4) (f : LinkState → LinkState) (s : State) : (modLink p f s).tasks = s.tasks := rfl
@[simp] theorem modLink_nextTicket (p : Fin 4) (f : LinkState → LinkState) (s : State) : (modLink p f s).nextTicket = s.nextTicket := rfl
@[simp] theorem modLink_mover (p : Fin 4) (f : LinkState → LinkState) (s : State) : (modLink p f s).mover = s.mover := rfl
@[simp] theorem modLink_repairLog (p : Fin 4) (f : LinkState → LinkState) (s : State) : (modLink p f s).repairLog = s.repairLog := rfl
@[simp] theorem modLink_repairLogB (p : Fin 4) (f : LinkState → LinkState) (s : State) : (modLink p f s).repairLogB = s.repairLogB := rfl
@[simp] theorem modLink_firmware (p : Fin 4) (f : LinkState → LinkState) (s : State) : (modLink p f s).firmware = s.firmware := rfl
@[simp] theorem modLink_log (p : Fin 4) (f : LinkState → LinkState) (s : State) : (modLink p f s).log = s.log := rfl
@[simp] theorem modLink_sideband (p : Fin 4) (f : LinkState → LinkState) (s : State) : (modLink p f s).sideband = s.sideband := rfl
@[simp] theorem modLink_fuses (p : Fin 4) (f : LinkState → LinkState) (s : State) : (modLink p f s).fuses = s.fuses := rfl
@[simp] theorem modLink_rotation (p : Fin 4) (f : LinkState → LinkState) (s : State) : (modLink p f s).rotation = s.rotation := rfl
@[simp] theorem modLink_salts (p : Fin 4) (f : LinkState → LinkState) (s : State) : (modLink p f s).salts = s.salts := rfl

/-! ### modLane -/

@[simp] theorem modLane_pending (p : Fin 4) (l : Fin 16) (f : Lane → Lane) (s : State) : (modLane p l f s).pending = s.pending := rfl
@[simp] theorem modLane_hubTimer (p : Fin 4) (l : Fin 16) (f : Lane → Lane) (s : State) : (modLane p l f s).hubTimer = s.hubTimer := rfl
@[simp] theorem modLane_drawn (p : Fin 4) (l : Fin 16) (f : Lane → Lane) (s : State) : (modLane p l f s).drawn = s.drawn := rfl
@[simp] theorem modLane_presented (p : Fin 4) (l : Fin 16) (f : Lane → Lane) (s : State) : (modLane p l f s).presented = s.presented := rfl
@[simp] theorem modLane_device (p : Fin 4) (l : Fin 16) (f : Lane → Lane) (s : State) : (modLane p l f s).device = s.device := rfl
@[simp] theorem modLane_params (p : Fin 4) (l : Fin 16) (f : Lane → Lane) (s : State) : (modLane p l f s).params = s.params := rfl
@[simp] theorem modLane_dram (p : Fin 4) (l : Fin 16) (f : Lane → Lane) (s : State) : (modLane p l f s).dram = s.dram := rfl
@[simp] theorem modLane_quarters (p : Fin 4) (l : Fin 16) (f : Lane → Lane) (s : State) : (modLane p l f s).quarters = s.quarters := rfl
@[simp] theorem modLane_channels (p : Fin 4) (l : Fin 16) (f : Lane → Lane) (s : State) : (modLane p l f s).channels = s.channels := rfl
@[simp] theorem modLane_blocks (p : Fin 4) (l : Fin 16) (f : Lane → Lane) (s : State) : (modLane p l f s).blocks = s.blocks := rfl
@[simp] theorem modLane_partitions (p : Fin 4) (l : Fin 16) (f : Lane → Lane) (s : State) : (modLane p l f s).partitions = s.partitions := rfl
@[simp] theorem modLane_granuleMap (p : Fin 4) (l : Fin 16) (f : Lane → Lane) (s : State) : (modLane p l f s).granuleMap = s.granuleMap := rfl
@[simp] theorem modLane_refills (p : Fin 4) (l : Fin 16) (f : Lane → Lane) (s : State) : (modLane p l f s).refills = s.refills := rfl
@[simp] theorem modLane_tables (p : Fin 4) (l : Fin 16) (f : Lane → Lane) (s : State) : (modLane p l f s).tables = s.tables := rfl
@[simp] theorem modLane_directory (p : Fin 4) (l : Fin 16) (f : Lane → Lane) (s : State) : (modLane p l f s).directory = s.directory := rfl
@[simp] theorem modLane_directoryBad (p : Fin 4) (l : Fin 16) (f : Lane → Lane) (s : State) : (modLane p l f s).directoryBad = s.directoryBad := rfl
@[simp] theorem modLane_queues (p : Fin 4) (l : Fin 16) (f : Lane → Lane) (s : State) : (modLane p l f s).queues = s.queues := rfl
@[simp] theorem modLane_profiles (p : Fin 4) (l : Fin 16) (f : Lane → Lane) (s : State) : (modLane p l f s).profiles = s.profiles := rfl
@[simp] theorem modLane_freeCaches (p : Fin 4) (l : Fin 16) (f : Lane → Lane) (s : State) : (modLane p l f s).freeCaches = s.freeCaches := rfl
@[simp] theorem modLane_kennel (p : Fin 4) (l : Fin 16) (f : Lane → Lane) (s : State) : (modLane p l f s).kennel = s.kennel := rfl
@[simp] theorem modLane_waysDisabled (p : Fin 4) (l : Fin 16) (f : Lane → Lane) (s : State) : (modLane p l f s).waysDisabled = s.waysDisabled := rfl
@[simp] theorem modLane_sealCache (p : Fin 4) (l : Fin 16) (f : Lane → Lane) (s : State) : (modLane p l f s).sealCache = s.sealCache := rfl
@[simp] theorem modLane_keys (p : Fin 4) (l : Fin 16) (f : Lane → Lane) (s : State) : (modLane p l f s).keys = s.keys := rfl
@[simp] theorem modLane_sensors (p : Fin 4) (l : Fin 16) (f : Lane → Lane) (s : State) : (modLane p l f s).sensors = s.sensors := rfl
@[simp] theorem modLane_bonds (p : Fin 4) (l : Fin 16) (f : Lane → Lane) (s : State) : (modLane p l f s).bonds = s.bonds := rfl
@[simp] theorem modLane_thermal (p : Fin 4) (l : Fin 16) (f : Lane → Lane) (s : State) : (modLane p l f s).thermal = s.thermal := rfl
@[simp] theorem modLane_mailboxes (p : Fin 4) (l : Fin 16) (f : Lane → Lane) (s : State) : (modLane p l f s).mailboxes = s.mailboxes := rfl
@[simp] theorem modLane_tasks (p : Fin 4) (l : Fin 16) (f : Lane → Lane) (s : State) : (modLane p l f s).tasks = s.tasks := rfl
@[simp] theorem modLane_nextTicket (p : Fin 4) (l : Fin 16) (f : Lane → Lane) (s : State) : (modLane p l f s).nextTicket = s.nextTicket := rfl
@[simp] theorem modLane_mover (p : Fin 4) (l : Fin 16) (f : Lane → Lane) (s : State) : (modLane p l f s).mover = s.mover := rfl
@[simp] theorem modLane_repairLog (p : Fin 4) (l : Fin 16) (f : Lane → Lane) (s : State) : (modLane p l f s).repairLog = s.repairLog := rfl
@[simp] theorem modLane_repairLogB (p : Fin 4) (l : Fin 16) (f : Lane → Lane) (s : State) : (modLane p l f s).repairLogB = s.repairLogB := rfl
@[simp] theorem modLane_firmware (p : Fin 4) (l : Fin 16) (f : Lane → Lane) (s : State) : (modLane p l f s).firmware = s.firmware := rfl
@[simp] theorem modLane_log (p : Fin 4) (l : Fin 16) (f : Lane → Lane) (s : State) : (modLane p l f s).log = s.log := rfl
@[simp] theorem modLane_sideband (p : Fin 4) (l : Fin 16) (f : Lane → Lane) (s : State) : (modLane p l f s).sideband = s.sideband := rfl
@[simp] theorem modLane_fuses (p : Fin 4) (l : Fin 16) (f : Lane → Lane) (s : State) : (modLane p l f s).fuses = s.fuses := rfl
@[simp] theorem modLane_rotation (p : Fin 4) (l : Fin 16) (f : Lane → Lane) (s : State) : (modLane p l f s).rotation = s.rotation := rfl
@[simp] theorem modLane_salts (p : Fin 4) (l : Fin 16) (f : Lane → Lane) (s : State) : (modLane p l f s).salts = s.salts := rfl

/-! ### mapLanes -/

@[simp] theorem mapLanes_pending (p : Fin 4) (f : Nat → Lane → Lane) (s : State) : (mapLanes p f s).pending = s.pending := rfl
@[simp] theorem mapLanes_hubTimer (p : Fin 4) (f : Nat → Lane → Lane) (s : State) : (mapLanes p f s).hubTimer = s.hubTimer := rfl
@[simp] theorem mapLanes_drawn (p : Fin 4) (f : Nat → Lane → Lane) (s : State) : (mapLanes p f s).drawn = s.drawn := rfl
@[simp] theorem mapLanes_presented (p : Fin 4) (f : Nat → Lane → Lane) (s : State) : (mapLanes p f s).presented = s.presented := rfl
@[simp] theorem mapLanes_device (p : Fin 4) (f : Nat → Lane → Lane) (s : State) : (mapLanes p f s).device = s.device := rfl
@[simp] theorem mapLanes_params (p : Fin 4) (f : Nat → Lane → Lane) (s : State) : (mapLanes p f s).params = s.params := rfl
@[simp] theorem mapLanes_dram (p : Fin 4) (f : Nat → Lane → Lane) (s : State) : (mapLanes p f s).dram = s.dram := rfl
@[simp] theorem mapLanes_quarters (p : Fin 4) (f : Nat → Lane → Lane) (s : State) : (mapLanes p f s).quarters = s.quarters := rfl
@[simp] theorem mapLanes_channels (p : Fin 4) (f : Nat → Lane → Lane) (s : State) : (mapLanes p f s).channels = s.channels := rfl
@[simp] theorem mapLanes_blocks (p : Fin 4) (f : Nat → Lane → Lane) (s : State) : (mapLanes p f s).blocks = s.blocks := rfl
@[simp] theorem mapLanes_partitions (p : Fin 4) (f : Nat → Lane → Lane) (s : State) : (mapLanes p f s).partitions = s.partitions := rfl
@[simp] theorem mapLanes_granuleMap (p : Fin 4) (f : Nat → Lane → Lane) (s : State) : (mapLanes p f s).granuleMap = s.granuleMap := rfl
@[simp] theorem mapLanes_refills (p : Fin 4) (f : Nat → Lane → Lane) (s : State) : (mapLanes p f s).refills = s.refills := rfl
@[simp] theorem mapLanes_tables (p : Fin 4) (f : Nat → Lane → Lane) (s : State) : (mapLanes p f s).tables = s.tables := rfl
@[simp] theorem mapLanes_directory (p : Fin 4) (f : Nat → Lane → Lane) (s : State) : (mapLanes p f s).directory = s.directory := rfl
@[simp] theorem mapLanes_directoryBad (p : Fin 4) (f : Nat → Lane → Lane) (s : State) : (mapLanes p f s).directoryBad = s.directoryBad := rfl
@[simp] theorem mapLanes_queues (p : Fin 4) (f : Nat → Lane → Lane) (s : State) : (mapLanes p f s).queues = s.queues := rfl
@[simp] theorem mapLanes_profiles (p : Fin 4) (f : Nat → Lane → Lane) (s : State) : (mapLanes p f s).profiles = s.profiles := rfl
@[simp] theorem mapLanes_freeCaches (p : Fin 4) (f : Nat → Lane → Lane) (s : State) : (mapLanes p f s).freeCaches = s.freeCaches := rfl
@[simp] theorem mapLanes_kennel (p : Fin 4) (f : Nat → Lane → Lane) (s : State) : (mapLanes p f s).kennel = s.kennel := rfl
@[simp] theorem mapLanes_waysDisabled (p : Fin 4) (f : Nat → Lane → Lane) (s : State) : (mapLanes p f s).waysDisabled = s.waysDisabled := rfl
@[simp] theorem mapLanes_sealCache (p : Fin 4) (f : Nat → Lane → Lane) (s : State) : (mapLanes p f s).sealCache = s.sealCache := rfl
@[simp] theorem mapLanes_keys (p : Fin 4) (f : Nat → Lane → Lane) (s : State) : (mapLanes p f s).keys = s.keys := rfl
@[simp] theorem mapLanes_sensors (p : Fin 4) (f : Nat → Lane → Lane) (s : State) : (mapLanes p f s).sensors = s.sensors := rfl
@[simp] theorem mapLanes_bonds (p : Fin 4) (f : Nat → Lane → Lane) (s : State) : (mapLanes p f s).bonds = s.bonds := rfl
@[simp] theorem mapLanes_thermal (p : Fin 4) (f : Nat → Lane → Lane) (s : State) : (mapLanes p f s).thermal = s.thermal := rfl
@[simp] theorem mapLanes_mailboxes (p : Fin 4) (f : Nat → Lane → Lane) (s : State) : (mapLanes p f s).mailboxes = s.mailboxes := rfl
@[simp] theorem mapLanes_tasks (p : Fin 4) (f : Nat → Lane → Lane) (s : State) : (mapLanes p f s).tasks = s.tasks := rfl
@[simp] theorem mapLanes_nextTicket (p : Fin 4) (f : Nat → Lane → Lane) (s : State) : (mapLanes p f s).nextTicket = s.nextTicket := rfl
@[simp] theorem mapLanes_mover (p : Fin 4) (f : Nat → Lane → Lane) (s : State) : (mapLanes p f s).mover = s.mover := rfl
@[simp] theorem mapLanes_repairLog (p : Fin 4) (f : Nat → Lane → Lane) (s : State) : (mapLanes p f s).repairLog = s.repairLog := rfl
@[simp] theorem mapLanes_repairLogB (p : Fin 4) (f : Nat → Lane → Lane) (s : State) : (mapLanes p f s).repairLogB = s.repairLogB := rfl
@[simp] theorem mapLanes_firmware (p : Fin 4) (f : Nat → Lane → Lane) (s : State) : (mapLanes p f s).firmware = s.firmware := rfl
@[simp] theorem mapLanes_log (p : Fin 4) (f : Nat → Lane → Lane) (s : State) : (mapLanes p f s).log = s.log := rfl
@[simp] theorem mapLanes_sideband (p : Fin 4) (f : Nat → Lane → Lane) (s : State) : (mapLanes p f s).sideband = s.sideband := rfl
@[simp] theorem mapLanes_fuses (p : Fin 4) (f : Nat → Lane → Lane) (s : State) : (mapLanes p f s).fuses = s.fuses := rfl
@[simp] theorem mapLanes_rotation (p : Fin 4) (f : Nat → Lane → Lane) (s : State) : (mapLanes p f s).rotation = s.rotation := rfl
@[simp] theorem mapLanes_salts (p : Fin 4) (f : Nat → Lane → Lane) (s : State) : (mapLanes p f s).salts = s.salts := rfl

/-! ### modClass -/

@[simp] theorem modClass_pending (p : Fin 4) (k : Fin 8) (f : PortClass → PortClass) (s : State) : (modClass p k f s).pending = s.pending := rfl
@[simp] theorem modClass_hubTimer (p : Fin 4) (k : Fin 8) (f : PortClass → PortClass) (s : State) : (modClass p k f s).hubTimer = s.hubTimer := rfl
@[simp] theorem modClass_drawn (p : Fin 4) (k : Fin 8) (f : PortClass → PortClass) (s : State) : (modClass p k f s).drawn = s.drawn := rfl
@[simp] theorem modClass_presented (p : Fin 4) (k : Fin 8) (f : PortClass → PortClass) (s : State) : (modClass p k f s).presented = s.presented := rfl
@[simp] theorem modClass_device (p : Fin 4) (k : Fin 8) (f : PortClass → PortClass) (s : State) : (modClass p k f s).device = s.device := rfl
@[simp] theorem modClass_params (p : Fin 4) (k : Fin 8) (f : PortClass → PortClass) (s : State) : (modClass p k f s).params = s.params := rfl
@[simp] theorem modClass_dram (p : Fin 4) (k : Fin 8) (f : PortClass → PortClass) (s : State) : (modClass p k f s).dram = s.dram := rfl
@[simp] theorem modClass_quarters (p : Fin 4) (k : Fin 8) (f : PortClass → PortClass) (s : State) : (modClass p k f s).quarters = s.quarters := rfl
@[simp] theorem modClass_channels (p : Fin 4) (k : Fin 8) (f : PortClass → PortClass) (s : State) : (modClass p k f s).channels = s.channels := rfl
@[simp] theorem modClass_blocks (p : Fin 4) (k : Fin 8) (f : PortClass → PortClass) (s : State) : (modClass p k f s).blocks = s.blocks := rfl
@[simp] theorem modClass_partitions (p : Fin 4) (k : Fin 8) (f : PortClass → PortClass) (s : State) : (modClass p k f s).partitions = s.partitions := rfl
@[simp] theorem modClass_granuleMap (p : Fin 4) (k : Fin 8) (f : PortClass → PortClass) (s : State) : (modClass p k f s).granuleMap = s.granuleMap := rfl
@[simp] theorem modClass_refills (p : Fin 4) (k : Fin 8) (f : PortClass → PortClass) (s : State) : (modClass p k f s).refills = s.refills := rfl
@[simp] theorem modClass_tables (p : Fin 4) (k : Fin 8) (f : PortClass → PortClass) (s : State) : (modClass p k f s).tables = s.tables := rfl
@[simp] theorem modClass_directory (p : Fin 4) (k : Fin 8) (f : PortClass → PortClass) (s : State) : (modClass p k f s).directory = s.directory := rfl
@[simp] theorem modClass_directoryBad (p : Fin 4) (k : Fin 8) (f : PortClass → PortClass) (s : State) : (modClass p k f s).directoryBad = s.directoryBad := rfl
@[simp] theorem modClass_queues (p : Fin 4) (k : Fin 8) (f : PortClass → PortClass) (s : State) : (modClass p k f s).queues = s.queues := rfl
@[simp] theorem modClass_profiles (p : Fin 4) (k : Fin 8) (f : PortClass → PortClass) (s : State) : (modClass p k f s).profiles = s.profiles := rfl
@[simp] theorem modClass_freeCaches (p : Fin 4) (k : Fin 8) (f : PortClass → PortClass) (s : State) : (modClass p k f s).freeCaches = s.freeCaches := rfl
@[simp] theorem modClass_kennel (p : Fin 4) (k : Fin 8) (f : PortClass → PortClass) (s : State) : (modClass p k f s).kennel = s.kennel := rfl
@[simp] theorem modClass_waysDisabled (p : Fin 4) (k : Fin 8) (f : PortClass → PortClass) (s : State) : (modClass p k f s).waysDisabled = s.waysDisabled := rfl
@[simp] theorem modClass_sealCache (p : Fin 4) (k : Fin 8) (f : PortClass → PortClass) (s : State) : (modClass p k f s).sealCache = s.sealCache := rfl
@[simp] theorem modClass_keys (p : Fin 4) (k : Fin 8) (f : PortClass → PortClass) (s : State) : (modClass p k f s).keys = s.keys := rfl
@[simp] theorem modClass_sensors (p : Fin 4) (k : Fin 8) (f : PortClass → PortClass) (s : State) : (modClass p k f s).sensors = s.sensors := rfl
@[simp] theorem modClass_bonds (p : Fin 4) (k : Fin 8) (f : PortClass → PortClass) (s : State) : (modClass p k f s).bonds = s.bonds := rfl
@[simp] theorem modClass_thermal (p : Fin 4) (k : Fin 8) (f : PortClass → PortClass) (s : State) : (modClass p k f s).thermal = s.thermal := rfl
@[simp] theorem modClass_mailboxes (p : Fin 4) (k : Fin 8) (f : PortClass → PortClass) (s : State) : (modClass p k f s).mailboxes = s.mailboxes := rfl
@[simp] theorem modClass_tasks (p : Fin 4) (k : Fin 8) (f : PortClass → PortClass) (s : State) : (modClass p k f s).tasks = s.tasks := rfl
@[simp] theorem modClass_nextTicket (p : Fin 4) (k : Fin 8) (f : PortClass → PortClass) (s : State) : (modClass p k f s).nextTicket = s.nextTicket := rfl
@[simp] theorem modClass_mover (p : Fin 4) (k : Fin 8) (f : PortClass → PortClass) (s : State) : (modClass p k f s).mover = s.mover := rfl
@[simp] theorem modClass_repairLog (p : Fin 4) (k : Fin 8) (f : PortClass → PortClass) (s : State) : (modClass p k f s).repairLog = s.repairLog := rfl
@[simp] theorem modClass_repairLogB (p : Fin 4) (k : Fin 8) (f : PortClass → PortClass) (s : State) : (modClass p k f s).repairLogB = s.repairLogB := rfl
@[simp] theorem modClass_firmware (p : Fin 4) (k : Fin 8) (f : PortClass → PortClass) (s : State) : (modClass p k f s).firmware = s.firmware := rfl
@[simp] theorem modClass_log (p : Fin 4) (k : Fin 8) (f : PortClass → PortClass) (s : State) : (modClass p k f s).log = s.log := rfl
@[simp] theorem modClass_sideband (p : Fin 4) (k : Fin 8) (f : PortClass → PortClass) (s : State) : (modClass p k f s).sideband = s.sideband := rfl
@[simp] theorem modClass_fuses (p : Fin 4) (k : Fin 8) (f : PortClass → PortClass) (s : State) : (modClass p k f s).fuses = s.fuses := rfl
@[simp] theorem modClass_rotation (p : Fin 4) (k : Fin 8) (f : PortClass → PortClass) (s : State) : (modClass p k f s).rotation = s.rotation := rfl
@[simp] theorem modClass_salts (p : Fin 4) (k : Fin 8) (f : PortClass → PortClass) (s : State) : (modClass p k f s).salts = s.salts := rfl

/-! ### modQuarter -/

@[simp] theorem modQuarter_pending (q : Fin 4) (f : Quarter → Quarter) (s : State) : (modQuarter q f s).pending = s.pending := rfl
@[simp] theorem modQuarter_hubTimer (q : Fin 4) (f : Quarter → Quarter) (s : State) : (modQuarter q f s).hubTimer = s.hubTimer := rfl
@[simp] theorem modQuarter_drawn (q : Fin 4) (f : Quarter → Quarter) (s : State) : (modQuarter q f s).drawn = s.drawn := rfl
@[simp] theorem modQuarter_presented (q : Fin 4) (f : Quarter → Quarter) (s : State) : (modQuarter q f s).presented = s.presented := rfl
@[simp] theorem modQuarter_device (q : Fin 4) (f : Quarter → Quarter) (s : State) : (modQuarter q f s).device = s.device := rfl
@[simp] theorem modQuarter_params (q : Fin 4) (f : Quarter → Quarter) (s : State) : (modQuarter q f s).params = s.params := rfl
@[simp] theorem modQuarter_dram (q : Fin 4) (f : Quarter → Quarter) (s : State) : (modQuarter q f s).dram = s.dram := rfl
@[simp] theorem modQuarter_ports (q : Fin 4) (f : Quarter → Quarter) (s : State) : (modQuarter q f s).ports = s.ports := rfl
@[simp] theorem modQuarter_channels (q : Fin 4) (f : Quarter → Quarter) (s : State) : (modQuarter q f s).channels = s.channels := rfl
@[simp] theorem modQuarter_blocks (q : Fin 4) (f : Quarter → Quarter) (s : State) : (modQuarter q f s).blocks = s.blocks := rfl
@[simp] theorem modQuarter_partitions (q : Fin 4) (f : Quarter → Quarter) (s : State) : (modQuarter q f s).partitions = s.partitions := rfl
@[simp] theorem modQuarter_granuleMap (q : Fin 4) (f : Quarter → Quarter) (s : State) : (modQuarter q f s).granuleMap = s.granuleMap := rfl
@[simp] theorem modQuarter_refills (q : Fin 4) (f : Quarter → Quarter) (s : State) : (modQuarter q f s).refills = s.refills := rfl
@[simp] theorem modQuarter_tables (q : Fin 4) (f : Quarter → Quarter) (s : State) : (modQuarter q f s).tables = s.tables := rfl
@[simp] theorem modQuarter_directory (q : Fin 4) (f : Quarter → Quarter) (s : State) : (modQuarter q f s).directory = s.directory := rfl
@[simp] theorem modQuarter_directoryBad (q : Fin 4) (f : Quarter → Quarter) (s : State) : (modQuarter q f s).directoryBad = s.directoryBad := rfl
@[simp] theorem modQuarter_queues (q : Fin 4) (f : Quarter → Quarter) (s : State) : (modQuarter q f s).queues = s.queues := rfl
@[simp] theorem modQuarter_profiles (q : Fin 4) (f : Quarter → Quarter) (s : State) : (modQuarter q f s).profiles = s.profiles := rfl
@[simp] theorem modQuarter_freeCaches (q : Fin 4) (f : Quarter → Quarter) (s : State) : (modQuarter q f s).freeCaches = s.freeCaches := rfl
@[simp] theorem modQuarter_kennel (q : Fin 4) (f : Quarter → Quarter) (s : State) : (modQuarter q f s).kennel = s.kennel := rfl
@[simp] theorem modQuarter_waysDisabled (q : Fin 4) (f : Quarter → Quarter) (s : State) : (modQuarter q f s).waysDisabled = s.waysDisabled := rfl
@[simp] theorem modQuarter_sealCache (q : Fin 4) (f : Quarter → Quarter) (s : State) : (modQuarter q f s).sealCache = s.sealCache := rfl
@[simp] theorem modQuarter_keys (q : Fin 4) (f : Quarter → Quarter) (s : State) : (modQuarter q f s).keys = s.keys := rfl
@[simp] theorem modQuarter_sensors (q : Fin 4) (f : Quarter → Quarter) (s : State) : (modQuarter q f s).sensors = s.sensors := rfl
@[simp] theorem modQuarter_bonds (q : Fin 4) (f : Quarter → Quarter) (s : State) : (modQuarter q f s).bonds = s.bonds := rfl
@[simp] theorem modQuarter_thermal (q : Fin 4) (f : Quarter → Quarter) (s : State) : (modQuarter q f s).thermal = s.thermal := rfl
@[simp] theorem modQuarter_mailboxes (q : Fin 4) (f : Quarter → Quarter) (s : State) : (modQuarter q f s).mailboxes = s.mailboxes := rfl
@[simp] theorem modQuarter_tasks (q : Fin 4) (f : Quarter → Quarter) (s : State) : (modQuarter q f s).tasks = s.tasks := rfl
@[simp] theorem modQuarter_nextTicket (q : Fin 4) (f : Quarter → Quarter) (s : State) : (modQuarter q f s).nextTicket = s.nextTicket := rfl
@[simp] theorem modQuarter_mover (q : Fin 4) (f : Quarter → Quarter) (s : State) : (modQuarter q f s).mover = s.mover := rfl
@[simp] theorem modQuarter_repairLog (q : Fin 4) (f : Quarter → Quarter) (s : State) : (modQuarter q f s).repairLog = s.repairLog := rfl
@[simp] theorem modQuarter_repairLogB (q : Fin 4) (f : Quarter → Quarter) (s : State) : (modQuarter q f s).repairLogB = s.repairLogB := rfl
@[simp] theorem modQuarter_firmware (q : Fin 4) (f : Quarter → Quarter) (s : State) : (modQuarter q f s).firmware = s.firmware := rfl
@[simp] theorem modQuarter_log (q : Fin 4) (f : Quarter → Quarter) (s : State) : (modQuarter q f s).log = s.log := rfl
@[simp] theorem modQuarter_sideband (q : Fin 4) (f : Quarter → Quarter) (s : State) : (modQuarter q f s).sideband = s.sideband := rfl
@[simp] theorem modQuarter_fuses (q : Fin 4) (f : Quarter → Quarter) (s : State) : (modQuarter q f s).fuses = s.fuses := rfl
@[simp] theorem modQuarter_rotation (q : Fin 4) (f : Quarter → Quarter) (s : State) : (modQuarter q f s).rotation = s.rotation := rfl
@[simp] theorem modQuarter_salts (q : Fin 4) (f : Quarter → Quarter) (s : State) : (modQuarter q f s).salts = s.salts := rfl

@[simp] theorem modQuarter_self (q : Fin 4) (f : Quarter → Quarter) (s : State) : (modQuarter q f s).quarters[q] = f s.quarters[q] := by simp [modQuarter]

theorem modQuarter_other (q : Fin 4) (f : Quarter → Quarter) (j : Fin 4) (h : j ≠ q) (s : State) : (modQuarter q f s).quarters[j] = s.quarters[j] := by
  have : q.val ≠ j.val := fun e => h (Fin.ext e.symm)
  simp [modQuarter, Vector.getElem_set, this]

/-! ### modChannel -/

@[simp] theorem modChannel_pending (c : Fin 32) (f : Channel → Channel) (s : State) : (modChannel c f s).pending = s.pending := rfl
@[simp] theorem modChannel_hubTimer (c : Fin 32) (f : Channel → Channel) (s : State) : (modChannel c f s).hubTimer = s.hubTimer := rfl
@[simp] theorem modChannel_drawn (c : Fin 32) (f : Channel → Channel) (s : State) : (modChannel c f s).drawn = s.drawn := rfl
@[simp] theorem modChannel_presented (c : Fin 32) (f : Channel → Channel) (s : State) : (modChannel c f s).presented = s.presented := rfl
@[simp] theorem modChannel_device (c : Fin 32) (f : Channel → Channel) (s : State) : (modChannel c f s).device = s.device := rfl
@[simp] theorem modChannel_params (c : Fin 32) (f : Channel → Channel) (s : State) : (modChannel c f s).params = s.params := rfl
@[simp] theorem modChannel_dram (c : Fin 32) (f : Channel → Channel) (s : State) : (modChannel c f s).dram = s.dram := rfl
@[simp] theorem modChannel_ports (c : Fin 32) (f : Channel → Channel) (s : State) : (modChannel c f s).ports = s.ports := rfl
@[simp] theorem modChannel_quarters (c : Fin 32) (f : Channel → Channel) (s : State) : (modChannel c f s).quarters = s.quarters := rfl
@[simp] theorem modChannel_blocks (c : Fin 32) (f : Channel → Channel) (s : State) : (modChannel c f s).blocks = s.blocks := rfl
@[simp] theorem modChannel_partitions (c : Fin 32) (f : Channel → Channel) (s : State) : (modChannel c f s).partitions = s.partitions := rfl
@[simp] theorem modChannel_granuleMap (c : Fin 32) (f : Channel → Channel) (s : State) : (modChannel c f s).granuleMap = s.granuleMap := rfl
@[simp] theorem modChannel_refills (c : Fin 32) (f : Channel → Channel) (s : State) : (modChannel c f s).refills = s.refills := rfl
@[simp] theorem modChannel_tables (c : Fin 32) (f : Channel → Channel) (s : State) : (modChannel c f s).tables = s.tables := rfl
@[simp] theorem modChannel_directory (c : Fin 32) (f : Channel → Channel) (s : State) : (modChannel c f s).directory = s.directory := rfl
@[simp] theorem modChannel_directoryBad (c : Fin 32) (f : Channel → Channel) (s : State) : (modChannel c f s).directoryBad = s.directoryBad := rfl
@[simp] theorem modChannel_queues (c : Fin 32) (f : Channel → Channel) (s : State) : (modChannel c f s).queues = s.queues := rfl
@[simp] theorem modChannel_profiles (c : Fin 32) (f : Channel → Channel) (s : State) : (modChannel c f s).profiles = s.profiles := rfl
@[simp] theorem modChannel_freeCaches (c : Fin 32) (f : Channel → Channel) (s : State) : (modChannel c f s).freeCaches = s.freeCaches := rfl
@[simp] theorem modChannel_kennel (c : Fin 32) (f : Channel → Channel) (s : State) : (modChannel c f s).kennel = s.kennel := rfl
@[simp] theorem modChannel_waysDisabled (c : Fin 32) (f : Channel → Channel) (s : State) : (modChannel c f s).waysDisabled = s.waysDisabled := rfl
@[simp] theorem modChannel_sealCache (c : Fin 32) (f : Channel → Channel) (s : State) : (modChannel c f s).sealCache = s.sealCache := rfl
@[simp] theorem modChannel_keys (c : Fin 32) (f : Channel → Channel) (s : State) : (modChannel c f s).keys = s.keys := rfl
@[simp] theorem modChannel_sensors (c : Fin 32) (f : Channel → Channel) (s : State) : (modChannel c f s).sensors = s.sensors := rfl
@[simp] theorem modChannel_bonds (c : Fin 32) (f : Channel → Channel) (s : State) : (modChannel c f s).bonds = s.bonds := rfl
@[simp] theorem modChannel_thermal (c : Fin 32) (f : Channel → Channel) (s : State) : (modChannel c f s).thermal = s.thermal := rfl
@[simp] theorem modChannel_mailboxes (c : Fin 32) (f : Channel → Channel) (s : State) : (modChannel c f s).mailboxes = s.mailboxes := rfl
@[simp] theorem modChannel_tasks (c : Fin 32) (f : Channel → Channel) (s : State) : (modChannel c f s).tasks = s.tasks := rfl
@[simp] theorem modChannel_nextTicket (c : Fin 32) (f : Channel → Channel) (s : State) : (modChannel c f s).nextTicket = s.nextTicket := rfl
@[simp] theorem modChannel_mover (c : Fin 32) (f : Channel → Channel) (s : State) : (modChannel c f s).mover = s.mover := rfl
@[simp] theorem modChannel_repairLog (c : Fin 32) (f : Channel → Channel) (s : State) : (modChannel c f s).repairLog = s.repairLog := rfl
@[simp] theorem modChannel_repairLogB (c : Fin 32) (f : Channel → Channel) (s : State) : (modChannel c f s).repairLogB = s.repairLogB := rfl
@[simp] theorem modChannel_firmware (c : Fin 32) (f : Channel → Channel) (s : State) : (modChannel c f s).firmware = s.firmware := rfl
@[simp] theorem modChannel_log (c : Fin 32) (f : Channel → Channel) (s : State) : (modChannel c f s).log = s.log := rfl
@[simp] theorem modChannel_sideband (c : Fin 32) (f : Channel → Channel) (s : State) : (modChannel c f s).sideband = s.sideband := rfl
@[simp] theorem modChannel_fuses (c : Fin 32) (f : Channel → Channel) (s : State) : (modChannel c f s).fuses = s.fuses := rfl
@[simp] theorem modChannel_rotation (c : Fin 32) (f : Channel → Channel) (s : State) : (modChannel c f s).rotation = s.rotation := rfl
@[simp] theorem modChannel_salts (c : Fin 32) (f : Channel → Channel) (s : State) : (modChannel c f s).salts = s.salts := rfl

@[simp] theorem modChannel_self (c : Fin 32) (f : Channel → Channel) (s : State) : (modChannel c f s).channels[c] = f s.channels[c] := by simp [modChannel]

theorem modChannel_other (c : Fin 32) (f : Channel → Channel) (j : Fin 32) (h : j ≠ c) (s : State) : (modChannel c f s).channels[j] = s.channels[j] := by
  have : c.val ≠ j.val := fun e => h (Fin.ext e.symm)
  simp [modChannel, Vector.getElem_set, this]

/-! ### modBank -/

@[simp] theorem modBank_pending (c : Fin 32) (b : Fin 16) (f : Bank → Bank) (s : State) : (modBank c b f s).pending = s.pending := rfl
@[simp] theorem modBank_hubTimer (c : Fin 32) (b : Fin 16) (f : Bank → Bank) (s : State) : (modBank c b f s).hubTimer = s.hubTimer := rfl
@[simp] theorem modBank_drawn (c : Fin 32) (b : Fin 16) (f : Bank → Bank) (s : State) : (modBank c b f s).drawn = s.drawn := rfl
@[simp] theorem modBank_presented (c : Fin 32) (b : Fin 16) (f : Bank → Bank) (s : State) : (modBank c b f s).presented = s.presented := rfl
@[simp] theorem modBank_device (c : Fin 32) (b : Fin 16) (f : Bank → Bank) (s : State) : (modBank c b f s).device = s.device := rfl
@[simp] theorem modBank_params (c : Fin 32) (b : Fin 16) (f : Bank → Bank) (s : State) : (modBank c b f s).params = s.params := rfl
@[simp] theorem modBank_dram (c : Fin 32) (b : Fin 16) (f : Bank → Bank) (s : State) : (modBank c b f s).dram = s.dram := rfl
@[simp] theorem modBank_ports (c : Fin 32) (b : Fin 16) (f : Bank → Bank) (s : State) : (modBank c b f s).ports = s.ports := rfl
@[simp] theorem modBank_quarters (c : Fin 32) (b : Fin 16) (f : Bank → Bank) (s : State) : (modBank c b f s).quarters = s.quarters := rfl
@[simp] theorem modBank_blocks (c : Fin 32) (b : Fin 16) (f : Bank → Bank) (s : State) : (modBank c b f s).blocks = s.blocks := rfl
@[simp] theorem modBank_partitions (c : Fin 32) (b : Fin 16) (f : Bank → Bank) (s : State) : (modBank c b f s).partitions = s.partitions := rfl
@[simp] theorem modBank_granuleMap (c : Fin 32) (b : Fin 16) (f : Bank → Bank) (s : State) : (modBank c b f s).granuleMap = s.granuleMap := rfl
@[simp] theorem modBank_refills (c : Fin 32) (b : Fin 16) (f : Bank → Bank) (s : State) : (modBank c b f s).refills = s.refills := rfl
@[simp] theorem modBank_tables (c : Fin 32) (b : Fin 16) (f : Bank → Bank) (s : State) : (modBank c b f s).tables = s.tables := rfl
@[simp] theorem modBank_directory (c : Fin 32) (b : Fin 16) (f : Bank → Bank) (s : State) : (modBank c b f s).directory = s.directory := rfl
@[simp] theorem modBank_directoryBad (c : Fin 32) (b : Fin 16) (f : Bank → Bank) (s : State) : (modBank c b f s).directoryBad = s.directoryBad := rfl
@[simp] theorem modBank_queues (c : Fin 32) (b : Fin 16) (f : Bank → Bank) (s : State) : (modBank c b f s).queues = s.queues := rfl
@[simp] theorem modBank_profiles (c : Fin 32) (b : Fin 16) (f : Bank → Bank) (s : State) : (modBank c b f s).profiles = s.profiles := rfl
@[simp] theorem modBank_freeCaches (c : Fin 32) (b : Fin 16) (f : Bank → Bank) (s : State) : (modBank c b f s).freeCaches = s.freeCaches := rfl
@[simp] theorem modBank_kennel (c : Fin 32) (b : Fin 16) (f : Bank → Bank) (s : State) : (modBank c b f s).kennel = s.kennel := rfl
@[simp] theorem modBank_waysDisabled (c : Fin 32) (b : Fin 16) (f : Bank → Bank) (s : State) : (modBank c b f s).waysDisabled = s.waysDisabled := rfl
@[simp] theorem modBank_sealCache (c : Fin 32) (b : Fin 16) (f : Bank → Bank) (s : State) : (modBank c b f s).sealCache = s.sealCache := rfl
@[simp] theorem modBank_keys (c : Fin 32) (b : Fin 16) (f : Bank → Bank) (s : State) : (modBank c b f s).keys = s.keys := rfl
@[simp] theorem modBank_sensors (c : Fin 32) (b : Fin 16) (f : Bank → Bank) (s : State) : (modBank c b f s).sensors = s.sensors := rfl
@[simp] theorem modBank_bonds (c : Fin 32) (b : Fin 16) (f : Bank → Bank) (s : State) : (modBank c b f s).bonds = s.bonds := rfl
@[simp] theorem modBank_thermal (c : Fin 32) (b : Fin 16) (f : Bank → Bank) (s : State) : (modBank c b f s).thermal = s.thermal := rfl
@[simp] theorem modBank_mailboxes (c : Fin 32) (b : Fin 16) (f : Bank → Bank) (s : State) : (modBank c b f s).mailboxes = s.mailboxes := rfl
@[simp] theorem modBank_tasks (c : Fin 32) (b : Fin 16) (f : Bank → Bank) (s : State) : (modBank c b f s).tasks = s.tasks := rfl
@[simp] theorem modBank_nextTicket (c : Fin 32) (b : Fin 16) (f : Bank → Bank) (s : State) : (modBank c b f s).nextTicket = s.nextTicket := rfl
@[simp] theorem modBank_mover (c : Fin 32) (b : Fin 16) (f : Bank → Bank) (s : State) : (modBank c b f s).mover = s.mover := rfl
@[simp] theorem modBank_repairLog (c : Fin 32) (b : Fin 16) (f : Bank → Bank) (s : State) : (modBank c b f s).repairLog = s.repairLog := rfl
@[simp] theorem modBank_repairLogB (c : Fin 32) (b : Fin 16) (f : Bank → Bank) (s : State) : (modBank c b f s).repairLogB = s.repairLogB := rfl
@[simp] theorem modBank_firmware (c : Fin 32) (b : Fin 16) (f : Bank → Bank) (s : State) : (modBank c b f s).firmware = s.firmware := rfl
@[simp] theorem modBank_log (c : Fin 32) (b : Fin 16) (f : Bank → Bank) (s : State) : (modBank c b f s).log = s.log := rfl
@[simp] theorem modBank_sideband (c : Fin 32) (b : Fin 16) (f : Bank → Bank) (s : State) : (modBank c b f s).sideband = s.sideband := rfl
@[simp] theorem modBank_fuses (c : Fin 32) (b : Fin 16) (f : Bank → Bank) (s : State) : (modBank c b f s).fuses = s.fuses := rfl
@[simp] theorem modBank_rotation (c : Fin 32) (b : Fin 16) (f : Bank → Bank) (s : State) : (modBank c b f s).rotation = s.rotation := rfl
@[simp] theorem modBank_salts (c : Fin 32) (b : Fin 16) (f : Bank → Bank) (s : State) : (modBank c b f s).salts = s.salts := rfl

/-! ### modVertical -/

@[simp] theorem modVertical_pending (c : Fin 32) (f : Vertical → Vertical) (s : State) : (modVertical c f s).pending = s.pending := rfl
@[simp] theorem modVertical_hubTimer (c : Fin 32) (f : Vertical → Vertical) (s : State) : (modVertical c f s).hubTimer = s.hubTimer := rfl
@[simp] theorem modVertical_drawn (c : Fin 32) (f : Vertical → Vertical) (s : State) : (modVertical c f s).drawn = s.drawn := rfl
@[simp] theorem modVertical_presented (c : Fin 32) (f : Vertical → Vertical) (s : State) : (modVertical c f s).presented = s.presented := rfl
@[simp] theorem modVertical_device (c : Fin 32) (f : Vertical → Vertical) (s : State) : (modVertical c f s).device = s.device := rfl
@[simp] theorem modVertical_params (c : Fin 32) (f : Vertical → Vertical) (s : State) : (modVertical c f s).params = s.params := rfl
@[simp] theorem modVertical_dram (c : Fin 32) (f : Vertical → Vertical) (s : State) : (modVertical c f s).dram = s.dram := rfl
@[simp] theorem modVertical_ports (c : Fin 32) (f : Vertical → Vertical) (s : State) : (modVertical c f s).ports = s.ports := rfl
@[simp] theorem modVertical_quarters (c : Fin 32) (f : Vertical → Vertical) (s : State) : (modVertical c f s).quarters = s.quarters := rfl
@[simp] theorem modVertical_blocks (c : Fin 32) (f : Vertical → Vertical) (s : State) : (modVertical c f s).blocks = s.blocks := rfl
@[simp] theorem modVertical_partitions (c : Fin 32) (f : Vertical → Vertical) (s : State) : (modVertical c f s).partitions = s.partitions := rfl
@[simp] theorem modVertical_granuleMap (c : Fin 32) (f : Vertical → Vertical) (s : State) : (modVertical c f s).granuleMap = s.granuleMap := rfl
@[simp] theorem modVertical_refills (c : Fin 32) (f : Vertical → Vertical) (s : State) : (modVertical c f s).refills = s.refills := rfl
@[simp] theorem modVertical_tables (c : Fin 32) (f : Vertical → Vertical) (s : State) : (modVertical c f s).tables = s.tables := rfl
@[simp] theorem modVertical_directory (c : Fin 32) (f : Vertical → Vertical) (s : State) : (modVertical c f s).directory = s.directory := rfl
@[simp] theorem modVertical_directoryBad (c : Fin 32) (f : Vertical → Vertical) (s : State) : (modVertical c f s).directoryBad = s.directoryBad := rfl
@[simp] theorem modVertical_queues (c : Fin 32) (f : Vertical → Vertical) (s : State) : (modVertical c f s).queues = s.queues := rfl
@[simp] theorem modVertical_profiles (c : Fin 32) (f : Vertical → Vertical) (s : State) : (modVertical c f s).profiles = s.profiles := rfl
@[simp] theorem modVertical_freeCaches (c : Fin 32) (f : Vertical → Vertical) (s : State) : (modVertical c f s).freeCaches = s.freeCaches := rfl
@[simp] theorem modVertical_kennel (c : Fin 32) (f : Vertical → Vertical) (s : State) : (modVertical c f s).kennel = s.kennel := rfl
@[simp] theorem modVertical_waysDisabled (c : Fin 32) (f : Vertical → Vertical) (s : State) : (modVertical c f s).waysDisabled = s.waysDisabled := rfl
@[simp] theorem modVertical_sealCache (c : Fin 32) (f : Vertical → Vertical) (s : State) : (modVertical c f s).sealCache = s.sealCache := rfl
@[simp] theorem modVertical_keys (c : Fin 32) (f : Vertical → Vertical) (s : State) : (modVertical c f s).keys = s.keys := rfl
@[simp] theorem modVertical_sensors (c : Fin 32) (f : Vertical → Vertical) (s : State) : (modVertical c f s).sensors = s.sensors := rfl
@[simp] theorem modVertical_bonds (c : Fin 32) (f : Vertical → Vertical) (s : State) : (modVertical c f s).bonds = s.bonds := rfl
@[simp] theorem modVertical_thermal (c : Fin 32) (f : Vertical → Vertical) (s : State) : (modVertical c f s).thermal = s.thermal := rfl
@[simp] theorem modVertical_mailboxes (c : Fin 32) (f : Vertical → Vertical) (s : State) : (modVertical c f s).mailboxes = s.mailboxes := rfl
@[simp] theorem modVertical_tasks (c : Fin 32) (f : Vertical → Vertical) (s : State) : (modVertical c f s).tasks = s.tasks := rfl
@[simp] theorem modVertical_nextTicket (c : Fin 32) (f : Vertical → Vertical) (s : State) : (modVertical c f s).nextTicket = s.nextTicket := rfl
@[simp] theorem modVertical_mover (c : Fin 32) (f : Vertical → Vertical) (s : State) : (modVertical c f s).mover = s.mover := rfl
@[simp] theorem modVertical_repairLog (c : Fin 32) (f : Vertical → Vertical) (s : State) : (modVertical c f s).repairLog = s.repairLog := rfl
@[simp] theorem modVertical_repairLogB (c : Fin 32) (f : Vertical → Vertical) (s : State) : (modVertical c f s).repairLogB = s.repairLogB := rfl
@[simp] theorem modVertical_firmware (c : Fin 32) (f : Vertical → Vertical) (s : State) : (modVertical c f s).firmware = s.firmware := rfl
@[simp] theorem modVertical_log (c : Fin 32) (f : Vertical → Vertical) (s : State) : (modVertical c f s).log = s.log := rfl
@[simp] theorem modVertical_sideband (c : Fin 32) (f : Vertical → Vertical) (s : State) : (modVertical c f s).sideband = s.sideband := rfl
@[simp] theorem modVertical_fuses (c : Fin 32) (f : Vertical → Vertical) (s : State) : (modVertical c f s).fuses = s.fuses := rfl
@[simp] theorem modVertical_rotation (c : Fin 32) (f : Vertical → Vertical) (s : State) : (modVertical c f s).rotation = s.rotation := rfl
@[simp] theorem modVertical_salts (c : Fin 32) (f : Vertical → Vertical) (s : State) : (modVertical c f s).salts = s.salts := rfl

/-! ### modPartition -/

@[simp] theorem modPartition_pending (pd : Fin 64) (f : Partition → Partition) (s : State) : (modPartition pd f s).pending = s.pending := rfl
@[simp] theorem modPartition_hubTimer (pd : Fin 64) (f : Partition → Partition) (s : State) : (modPartition pd f s).hubTimer = s.hubTimer := rfl
@[simp] theorem modPartition_drawn (pd : Fin 64) (f : Partition → Partition) (s : State) : (modPartition pd f s).drawn = s.drawn := rfl
@[simp] theorem modPartition_presented (pd : Fin 64) (f : Partition → Partition) (s : State) : (modPartition pd f s).presented = s.presented := rfl
@[simp] theorem modPartition_device (pd : Fin 64) (f : Partition → Partition) (s : State) : (modPartition pd f s).device = s.device := rfl
@[simp] theorem modPartition_params (pd : Fin 64) (f : Partition → Partition) (s : State) : (modPartition pd f s).params = s.params := rfl
@[simp] theorem modPartition_dram (pd : Fin 64) (f : Partition → Partition) (s : State) : (modPartition pd f s).dram = s.dram := rfl
@[simp] theorem modPartition_ports (pd : Fin 64) (f : Partition → Partition) (s : State) : (modPartition pd f s).ports = s.ports := rfl
@[simp] theorem modPartition_quarters (pd : Fin 64) (f : Partition → Partition) (s : State) : (modPartition pd f s).quarters = s.quarters := rfl
@[simp] theorem modPartition_channels (pd : Fin 64) (f : Partition → Partition) (s : State) : (modPartition pd f s).channels = s.channels := rfl
@[simp] theorem modPartition_blocks (pd : Fin 64) (f : Partition → Partition) (s : State) : (modPartition pd f s).blocks = s.blocks := rfl
@[simp] theorem modPartition_granuleMap (pd : Fin 64) (f : Partition → Partition) (s : State) : (modPartition pd f s).granuleMap = s.granuleMap := rfl
@[simp] theorem modPartition_refills (pd : Fin 64) (f : Partition → Partition) (s : State) : (modPartition pd f s).refills = s.refills := rfl
@[simp] theorem modPartition_tables (pd : Fin 64) (f : Partition → Partition) (s : State) : (modPartition pd f s).tables = s.tables := rfl
@[simp] theorem modPartition_directory (pd : Fin 64) (f : Partition → Partition) (s : State) : (modPartition pd f s).directory = s.directory := rfl
@[simp] theorem modPartition_directoryBad (pd : Fin 64) (f : Partition → Partition) (s : State) : (modPartition pd f s).directoryBad = s.directoryBad := rfl
@[simp] theorem modPartition_queues (pd : Fin 64) (f : Partition → Partition) (s : State) : (modPartition pd f s).queues = s.queues := rfl
@[simp] theorem modPartition_profiles (pd : Fin 64) (f : Partition → Partition) (s : State) : (modPartition pd f s).profiles = s.profiles := rfl
@[simp] theorem modPartition_freeCaches (pd : Fin 64) (f : Partition → Partition) (s : State) : (modPartition pd f s).freeCaches = s.freeCaches := rfl
@[simp] theorem modPartition_kennel (pd : Fin 64) (f : Partition → Partition) (s : State) : (modPartition pd f s).kennel = s.kennel := rfl
@[simp] theorem modPartition_waysDisabled (pd : Fin 64) (f : Partition → Partition) (s : State) : (modPartition pd f s).waysDisabled = s.waysDisabled := rfl
@[simp] theorem modPartition_sealCache (pd : Fin 64) (f : Partition → Partition) (s : State) : (modPartition pd f s).sealCache = s.sealCache := rfl
@[simp] theorem modPartition_keys (pd : Fin 64) (f : Partition → Partition) (s : State) : (modPartition pd f s).keys = s.keys := rfl
@[simp] theorem modPartition_sensors (pd : Fin 64) (f : Partition → Partition) (s : State) : (modPartition pd f s).sensors = s.sensors := rfl
@[simp] theorem modPartition_bonds (pd : Fin 64) (f : Partition → Partition) (s : State) : (modPartition pd f s).bonds = s.bonds := rfl
@[simp] theorem modPartition_thermal (pd : Fin 64) (f : Partition → Partition) (s : State) : (modPartition pd f s).thermal = s.thermal := rfl
@[simp] theorem modPartition_mailboxes (pd : Fin 64) (f : Partition → Partition) (s : State) : (modPartition pd f s).mailboxes = s.mailboxes := rfl
@[simp] theorem modPartition_tasks (pd : Fin 64) (f : Partition → Partition) (s : State) : (modPartition pd f s).tasks = s.tasks := rfl
@[simp] theorem modPartition_nextTicket (pd : Fin 64) (f : Partition → Partition) (s : State) : (modPartition pd f s).nextTicket = s.nextTicket := rfl
@[simp] theorem modPartition_mover (pd : Fin 64) (f : Partition → Partition) (s : State) : (modPartition pd f s).mover = s.mover := rfl
@[simp] theorem modPartition_repairLog (pd : Fin 64) (f : Partition → Partition) (s : State) : (modPartition pd f s).repairLog = s.repairLog := rfl
@[simp] theorem modPartition_repairLogB (pd : Fin 64) (f : Partition → Partition) (s : State) : (modPartition pd f s).repairLogB = s.repairLogB := rfl
@[simp] theorem modPartition_firmware (pd : Fin 64) (f : Partition → Partition) (s : State) : (modPartition pd f s).firmware = s.firmware := rfl
@[simp] theorem modPartition_log (pd : Fin 64) (f : Partition → Partition) (s : State) : (modPartition pd f s).log = s.log := rfl
@[simp] theorem modPartition_sideband (pd : Fin 64) (f : Partition → Partition) (s : State) : (modPartition pd f s).sideband = s.sideband := rfl
@[simp] theorem modPartition_fuses (pd : Fin 64) (f : Partition → Partition) (s : State) : (modPartition pd f s).fuses = s.fuses := rfl
@[simp] theorem modPartition_rotation (pd : Fin 64) (f : Partition → Partition) (s : State) : (modPartition pd f s).rotation = s.rotation := rfl
@[simp] theorem modPartition_salts (pd : Fin 64) (f : Partition → Partition) (s : State) : (modPartition pd f s).salts = s.salts := rfl

@[simp] theorem modPartition_self (pd : Fin 64) (f : Partition → Partition) (s : State) : (modPartition pd f s).partitions[pd] = f s.partitions[pd] := by simp [modPartition]

theorem modPartition_other (pd : Fin 64) (f : Partition → Partition) (j : Fin 64) (h : j ≠ pd) (s : State) : (modPartition pd f s).partitions[j] = s.partitions[j] := by
  have : pd.val ≠ j.val := fun e => h (Fin.ext e.symm)
  simp [modPartition, Vector.getElem_set, this]

/-! ### modBuffer -/

@[simp] theorem modBuffer_pending (pd : Fin 64) (f : BufferState → BufferState) (s : State) : (modBuffer pd f s).pending = s.pending := rfl
@[simp] theorem modBuffer_hubTimer (pd : Fin 64) (f : BufferState → BufferState) (s : State) : (modBuffer pd f s).hubTimer = s.hubTimer := rfl
@[simp] theorem modBuffer_drawn (pd : Fin 64) (f : BufferState → BufferState) (s : State) : (modBuffer pd f s).drawn = s.drawn := rfl
@[simp] theorem modBuffer_presented (pd : Fin 64) (f : BufferState → BufferState) (s : State) : (modBuffer pd f s).presented = s.presented := rfl
@[simp] theorem modBuffer_device (pd : Fin 64) (f : BufferState → BufferState) (s : State) : (modBuffer pd f s).device = s.device := rfl
@[simp] theorem modBuffer_params (pd : Fin 64) (f : BufferState → BufferState) (s : State) : (modBuffer pd f s).params = s.params := rfl
@[simp] theorem modBuffer_dram (pd : Fin 64) (f : BufferState → BufferState) (s : State) : (modBuffer pd f s).dram = s.dram := rfl
@[simp] theorem modBuffer_ports (pd : Fin 64) (f : BufferState → BufferState) (s : State) : (modBuffer pd f s).ports = s.ports := rfl
@[simp] theorem modBuffer_quarters (pd : Fin 64) (f : BufferState → BufferState) (s : State) : (modBuffer pd f s).quarters = s.quarters := rfl
@[simp] theorem modBuffer_channels (pd : Fin 64) (f : BufferState → BufferState) (s : State) : (modBuffer pd f s).channels = s.channels := rfl
@[simp] theorem modBuffer_blocks (pd : Fin 64) (f : BufferState → BufferState) (s : State) : (modBuffer pd f s).blocks = s.blocks := rfl
@[simp] theorem modBuffer_granuleMap (pd : Fin 64) (f : BufferState → BufferState) (s : State) : (modBuffer pd f s).granuleMap = s.granuleMap := rfl
@[simp] theorem modBuffer_refills (pd : Fin 64) (f : BufferState → BufferState) (s : State) : (modBuffer pd f s).refills = s.refills := rfl
@[simp] theorem modBuffer_tables (pd : Fin 64) (f : BufferState → BufferState) (s : State) : (modBuffer pd f s).tables = s.tables := rfl
@[simp] theorem modBuffer_directory (pd : Fin 64) (f : BufferState → BufferState) (s : State) : (modBuffer pd f s).directory = s.directory := rfl
@[simp] theorem modBuffer_directoryBad (pd : Fin 64) (f : BufferState → BufferState) (s : State) : (modBuffer pd f s).directoryBad = s.directoryBad := rfl
@[simp] theorem modBuffer_queues (pd : Fin 64) (f : BufferState → BufferState) (s : State) : (modBuffer pd f s).queues = s.queues := rfl
@[simp] theorem modBuffer_profiles (pd : Fin 64) (f : BufferState → BufferState) (s : State) : (modBuffer pd f s).profiles = s.profiles := rfl
@[simp] theorem modBuffer_freeCaches (pd : Fin 64) (f : BufferState → BufferState) (s : State) : (modBuffer pd f s).freeCaches = s.freeCaches := rfl
@[simp] theorem modBuffer_kennel (pd : Fin 64) (f : BufferState → BufferState) (s : State) : (modBuffer pd f s).kennel = s.kennel := rfl
@[simp] theorem modBuffer_waysDisabled (pd : Fin 64) (f : BufferState → BufferState) (s : State) : (modBuffer pd f s).waysDisabled = s.waysDisabled := rfl
@[simp] theorem modBuffer_sealCache (pd : Fin 64) (f : BufferState → BufferState) (s : State) : (modBuffer pd f s).sealCache = s.sealCache := rfl
@[simp] theorem modBuffer_keys (pd : Fin 64) (f : BufferState → BufferState) (s : State) : (modBuffer pd f s).keys = s.keys := rfl
@[simp] theorem modBuffer_sensors (pd : Fin 64) (f : BufferState → BufferState) (s : State) : (modBuffer pd f s).sensors = s.sensors := rfl
@[simp] theorem modBuffer_bonds (pd : Fin 64) (f : BufferState → BufferState) (s : State) : (modBuffer pd f s).bonds = s.bonds := rfl
@[simp] theorem modBuffer_thermal (pd : Fin 64) (f : BufferState → BufferState) (s : State) : (modBuffer pd f s).thermal = s.thermal := rfl
@[simp] theorem modBuffer_mailboxes (pd : Fin 64) (f : BufferState → BufferState) (s : State) : (modBuffer pd f s).mailboxes = s.mailboxes := rfl
@[simp] theorem modBuffer_tasks (pd : Fin 64) (f : BufferState → BufferState) (s : State) : (modBuffer pd f s).tasks = s.tasks := rfl
@[simp] theorem modBuffer_nextTicket (pd : Fin 64) (f : BufferState → BufferState) (s : State) : (modBuffer pd f s).nextTicket = s.nextTicket := rfl
@[simp] theorem modBuffer_mover (pd : Fin 64) (f : BufferState → BufferState) (s : State) : (modBuffer pd f s).mover = s.mover := rfl
@[simp] theorem modBuffer_repairLog (pd : Fin 64) (f : BufferState → BufferState) (s : State) : (modBuffer pd f s).repairLog = s.repairLog := rfl
@[simp] theorem modBuffer_repairLogB (pd : Fin 64) (f : BufferState → BufferState) (s : State) : (modBuffer pd f s).repairLogB = s.repairLogB := rfl
@[simp] theorem modBuffer_firmware (pd : Fin 64) (f : BufferState → BufferState) (s : State) : (modBuffer pd f s).firmware = s.firmware := rfl
@[simp] theorem modBuffer_log (pd : Fin 64) (f : BufferState → BufferState) (s : State) : (modBuffer pd f s).log = s.log := rfl
@[simp] theorem modBuffer_sideband (pd : Fin 64) (f : BufferState → BufferState) (s : State) : (modBuffer pd f s).sideband = s.sideband := rfl
@[simp] theorem modBuffer_fuses (pd : Fin 64) (f : BufferState → BufferState) (s : State) : (modBuffer pd f s).fuses = s.fuses := rfl
@[simp] theorem modBuffer_rotation (pd : Fin 64) (f : BufferState → BufferState) (s : State) : (modBuffer pd f s).rotation = s.rotation := rfl
@[simp] theorem modBuffer_salts (pd : Fin 64) (f : BufferState → BufferState) (s : State) : (modBuffer pd f s).salts = s.salts := rfl

/-! ### modCounter -/

@[simp] theorem modCounter_pending (pd : Fin 64) (f : CounterState → CounterState) (s : State) : (modCounter pd f s).pending = s.pending := rfl
@[simp] theorem modCounter_hubTimer (pd : Fin 64) (f : CounterState → CounterState) (s : State) : (modCounter pd f s).hubTimer = s.hubTimer := rfl
@[simp] theorem modCounter_drawn (pd : Fin 64) (f : CounterState → CounterState) (s : State) : (modCounter pd f s).drawn = s.drawn := rfl
@[simp] theorem modCounter_presented (pd : Fin 64) (f : CounterState → CounterState) (s : State) : (modCounter pd f s).presented = s.presented := rfl
@[simp] theorem modCounter_device (pd : Fin 64) (f : CounterState → CounterState) (s : State) : (modCounter pd f s).device = s.device := rfl
@[simp] theorem modCounter_params (pd : Fin 64) (f : CounterState → CounterState) (s : State) : (modCounter pd f s).params = s.params := rfl
@[simp] theorem modCounter_dram (pd : Fin 64) (f : CounterState → CounterState) (s : State) : (modCounter pd f s).dram = s.dram := rfl
@[simp] theorem modCounter_ports (pd : Fin 64) (f : CounterState → CounterState) (s : State) : (modCounter pd f s).ports = s.ports := rfl
@[simp] theorem modCounter_quarters (pd : Fin 64) (f : CounterState → CounterState) (s : State) : (modCounter pd f s).quarters = s.quarters := rfl
@[simp] theorem modCounter_channels (pd : Fin 64) (f : CounterState → CounterState) (s : State) : (modCounter pd f s).channels = s.channels := rfl
@[simp] theorem modCounter_blocks (pd : Fin 64) (f : CounterState → CounterState) (s : State) : (modCounter pd f s).blocks = s.blocks := rfl
@[simp] theorem modCounter_granuleMap (pd : Fin 64) (f : CounterState → CounterState) (s : State) : (modCounter pd f s).granuleMap = s.granuleMap := rfl
@[simp] theorem modCounter_refills (pd : Fin 64) (f : CounterState → CounterState) (s : State) : (modCounter pd f s).refills = s.refills := rfl
@[simp] theorem modCounter_tables (pd : Fin 64) (f : CounterState → CounterState) (s : State) : (modCounter pd f s).tables = s.tables := rfl
@[simp] theorem modCounter_directory (pd : Fin 64) (f : CounterState → CounterState) (s : State) : (modCounter pd f s).directory = s.directory := rfl
@[simp] theorem modCounter_directoryBad (pd : Fin 64) (f : CounterState → CounterState) (s : State) : (modCounter pd f s).directoryBad = s.directoryBad := rfl
@[simp] theorem modCounter_queues (pd : Fin 64) (f : CounterState → CounterState) (s : State) : (modCounter pd f s).queues = s.queues := rfl
@[simp] theorem modCounter_profiles (pd : Fin 64) (f : CounterState → CounterState) (s : State) : (modCounter pd f s).profiles = s.profiles := rfl
@[simp] theorem modCounter_freeCaches (pd : Fin 64) (f : CounterState → CounterState) (s : State) : (modCounter pd f s).freeCaches = s.freeCaches := rfl
@[simp] theorem modCounter_kennel (pd : Fin 64) (f : CounterState → CounterState) (s : State) : (modCounter pd f s).kennel = s.kennel := rfl
@[simp] theorem modCounter_waysDisabled (pd : Fin 64) (f : CounterState → CounterState) (s : State) : (modCounter pd f s).waysDisabled = s.waysDisabled := rfl
@[simp] theorem modCounter_sealCache (pd : Fin 64) (f : CounterState → CounterState) (s : State) : (modCounter pd f s).sealCache = s.sealCache := rfl
@[simp] theorem modCounter_keys (pd : Fin 64) (f : CounterState → CounterState) (s : State) : (modCounter pd f s).keys = s.keys := rfl
@[simp] theorem modCounter_sensors (pd : Fin 64) (f : CounterState → CounterState) (s : State) : (modCounter pd f s).sensors = s.sensors := rfl
@[simp] theorem modCounter_bonds (pd : Fin 64) (f : CounterState → CounterState) (s : State) : (modCounter pd f s).bonds = s.bonds := rfl
@[simp] theorem modCounter_thermal (pd : Fin 64) (f : CounterState → CounterState) (s : State) : (modCounter pd f s).thermal = s.thermal := rfl
@[simp] theorem modCounter_mailboxes (pd : Fin 64) (f : CounterState → CounterState) (s : State) : (modCounter pd f s).mailboxes = s.mailboxes := rfl
@[simp] theorem modCounter_tasks (pd : Fin 64) (f : CounterState → CounterState) (s : State) : (modCounter pd f s).tasks = s.tasks := rfl
@[simp] theorem modCounter_nextTicket (pd : Fin 64) (f : CounterState → CounterState) (s : State) : (modCounter pd f s).nextTicket = s.nextTicket := rfl
@[simp] theorem modCounter_mover (pd : Fin 64) (f : CounterState → CounterState) (s : State) : (modCounter pd f s).mover = s.mover := rfl
@[simp] theorem modCounter_repairLog (pd : Fin 64) (f : CounterState → CounterState) (s : State) : (modCounter pd f s).repairLog = s.repairLog := rfl
@[simp] theorem modCounter_repairLogB (pd : Fin 64) (f : CounterState → CounterState) (s : State) : (modCounter pd f s).repairLogB = s.repairLogB := rfl
@[simp] theorem modCounter_firmware (pd : Fin 64) (f : CounterState → CounterState) (s : State) : (modCounter pd f s).firmware = s.firmware := rfl
@[simp] theorem modCounter_log (pd : Fin 64) (f : CounterState → CounterState) (s : State) : (modCounter pd f s).log = s.log := rfl
@[simp] theorem modCounter_sideband (pd : Fin 64) (f : CounterState → CounterState) (s : State) : (modCounter pd f s).sideband = s.sideband := rfl
@[simp] theorem modCounter_fuses (pd : Fin 64) (f : CounterState → CounterState) (s : State) : (modCounter pd f s).fuses = s.fuses := rfl
@[simp] theorem modCounter_rotation (pd : Fin 64) (f : CounterState → CounterState) (s : State) : (modCounter pd f s).rotation = s.rotation := rfl
@[simp] theorem modCounter_salts (pd : Fin 64) (f : CounterState → CounterState) (s : State) : (modCounter pd f s).salts = s.salts := rfl

/-! ### modSeal -/

@[simp] theorem modSeal_pending (pd : Fin 64) (f : SealState → SealState) (s : State) : (modSeal pd f s).pending = s.pending := rfl
@[simp] theorem modSeal_hubTimer (pd : Fin 64) (f : SealState → SealState) (s : State) : (modSeal pd f s).hubTimer = s.hubTimer := rfl
@[simp] theorem modSeal_drawn (pd : Fin 64) (f : SealState → SealState) (s : State) : (modSeal pd f s).drawn = s.drawn := rfl
@[simp] theorem modSeal_presented (pd : Fin 64) (f : SealState → SealState) (s : State) : (modSeal pd f s).presented = s.presented := rfl
@[simp] theorem modSeal_device (pd : Fin 64) (f : SealState → SealState) (s : State) : (modSeal pd f s).device = s.device := rfl
@[simp] theorem modSeal_params (pd : Fin 64) (f : SealState → SealState) (s : State) : (modSeal pd f s).params = s.params := rfl
@[simp] theorem modSeal_dram (pd : Fin 64) (f : SealState → SealState) (s : State) : (modSeal pd f s).dram = s.dram := rfl
@[simp] theorem modSeal_ports (pd : Fin 64) (f : SealState → SealState) (s : State) : (modSeal pd f s).ports = s.ports := rfl
@[simp] theorem modSeal_quarters (pd : Fin 64) (f : SealState → SealState) (s : State) : (modSeal pd f s).quarters = s.quarters := rfl
@[simp] theorem modSeal_channels (pd : Fin 64) (f : SealState → SealState) (s : State) : (modSeal pd f s).channels = s.channels := rfl
@[simp] theorem modSeal_blocks (pd : Fin 64) (f : SealState → SealState) (s : State) : (modSeal pd f s).blocks = s.blocks := rfl
@[simp] theorem modSeal_granuleMap (pd : Fin 64) (f : SealState → SealState) (s : State) : (modSeal pd f s).granuleMap = s.granuleMap := rfl
@[simp] theorem modSeal_refills (pd : Fin 64) (f : SealState → SealState) (s : State) : (modSeal pd f s).refills = s.refills := rfl
@[simp] theorem modSeal_tables (pd : Fin 64) (f : SealState → SealState) (s : State) : (modSeal pd f s).tables = s.tables := rfl
@[simp] theorem modSeal_directory (pd : Fin 64) (f : SealState → SealState) (s : State) : (modSeal pd f s).directory = s.directory := rfl
@[simp] theorem modSeal_directoryBad (pd : Fin 64) (f : SealState → SealState) (s : State) : (modSeal pd f s).directoryBad = s.directoryBad := rfl
@[simp] theorem modSeal_queues (pd : Fin 64) (f : SealState → SealState) (s : State) : (modSeal pd f s).queues = s.queues := rfl
@[simp] theorem modSeal_profiles (pd : Fin 64) (f : SealState → SealState) (s : State) : (modSeal pd f s).profiles = s.profiles := rfl
@[simp] theorem modSeal_freeCaches (pd : Fin 64) (f : SealState → SealState) (s : State) : (modSeal pd f s).freeCaches = s.freeCaches := rfl
@[simp] theorem modSeal_kennel (pd : Fin 64) (f : SealState → SealState) (s : State) : (modSeal pd f s).kennel = s.kennel := rfl
@[simp] theorem modSeal_waysDisabled (pd : Fin 64) (f : SealState → SealState) (s : State) : (modSeal pd f s).waysDisabled = s.waysDisabled := rfl
@[simp] theorem modSeal_sealCache (pd : Fin 64) (f : SealState → SealState) (s : State) : (modSeal pd f s).sealCache = s.sealCache := rfl
@[simp] theorem modSeal_keys (pd : Fin 64) (f : SealState → SealState) (s : State) : (modSeal pd f s).keys = s.keys := rfl
@[simp] theorem modSeal_sensors (pd : Fin 64) (f : SealState → SealState) (s : State) : (modSeal pd f s).sensors = s.sensors := rfl
@[simp] theorem modSeal_bonds (pd : Fin 64) (f : SealState → SealState) (s : State) : (modSeal pd f s).bonds = s.bonds := rfl
@[simp] theorem modSeal_thermal (pd : Fin 64) (f : SealState → SealState) (s : State) : (modSeal pd f s).thermal = s.thermal := rfl
@[simp] theorem modSeal_mailboxes (pd : Fin 64) (f : SealState → SealState) (s : State) : (modSeal pd f s).mailboxes = s.mailboxes := rfl
@[simp] theorem modSeal_tasks (pd : Fin 64) (f : SealState → SealState) (s : State) : (modSeal pd f s).tasks = s.tasks := rfl
@[simp] theorem modSeal_nextTicket (pd : Fin 64) (f : SealState → SealState) (s : State) : (modSeal pd f s).nextTicket = s.nextTicket := rfl
@[simp] theorem modSeal_mover (pd : Fin 64) (f : SealState → SealState) (s : State) : (modSeal pd f s).mover = s.mover := rfl
@[simp] theorem modSeal_repairLog (pd : Fin 64) (f : SealState → SealState) (s : State) : (modSeal pd f s).repairLog = s.repairLog := rfl
@[simp] theorem modSeal_repairLogB (pd : Fin 64) (f : SealState → SealState) (s : State) : (modSeal pd f s).repairLogB = s.repairLogB := rfl
@[simp] theorem modSeal_firmware (pd : Fin 64) (f : SealState → SealState) (s : State) : (modSeal pd f s).firmware = s.firmware := rfl
@[simp] theorem modSeal_log (pd : Fin 64) (f : SealState → SealState) (s : State) : (modSeal pd f s).log = s.log := rfl
@[simp] theorem modSeal_sideband (pd : Fin 64) (f : SealState → SealState) (s : State) : (modSeal pd f s).sideband = s.sideband := rfl
@[simp] theorem modSeal_fuses (pd : Fin 64) (f : SealState → SealState) (s : State) : (modSeal pd f s).fuses = s.fuses := rfl
@[simp] theorem modSeal_rotation (pd : Fin 64) (f : SealState → SealState) (s : State) : (modSeal pd f s).rotation = s.rotation := rfl
@[simp] theorem modSeal_salts (pd : Fin 64) (f : SealState → SealState) (s : State) : (modSeal pd f s).salts = s.salts := rfl

/-! ### modTable -/

@[simp] theorem modTable_pending (td : Fin 16) (f : Table → Table) (s : State) : (modTable td f s).pending = s.pending := rfl
@[simp] theorem modTable_hubTimer (td : Fin 16) (f : Table → Table) (s : State) : (modTable td f s).hubTimer = s.hubTimer := rfl
@[simp] theorem modTable_drawn (td : Fin 16) (f : Table → Table) (s : State) : (modTable td f s).drawn = s.drawn := rfl
@[simp] theorem modTable_presented (td : Fin 16) (f : Table → Table) (s : State) : (modTable td f s).presented = s.presented := rfl
@[simp] theorem modTable_device (td : Fin 16) (f : Table → Table) (s : State) : (modTable td f s).device = s.device := rfl
@[simp] theorem modTable_params (td : Fin 16) (f : Table → Table) (s : State) : (modTable td f s).params = s.params := rfl
@[simp] theorem modTable_dram (td : Fin 16) (f : Table → Table) (s : State) : (modTable td f s).dram = s.dram := rfl
@[simp] theorem modTable_ports (td : Fin 16) (f : Table → Table) (s : State) : (modTable td f s).ports = s.ports := rfl
@[simp] theorem modTable_quarters (td : Fin 16) (f : Table → Table) (s : State) : (modTable td f s).quarters = s.quarters := rfl
@[simp] theorem modTable_channels (td : Fin 16) (f : Table → Table) (s : State) : (modTable td f s).channels = s.channels := rfl
@[simp] theorem modTable_blocks (td : Fin 16) (f : Table → Table) (s : State) : (modTable td f s).blocks = s.blocks := rfl
@[simp] theorem modTable_partitions (td : Fin 16) (f : Table → Table) (s : State) : (modTable td f s).partitions = s.partitions := rfl
@[simp] theorem modTable_granuleMap (td : Fin 16) (f : Table → Table) (s : State) : (modTable td f s).granuleMap = s.granuleMap := rfl
@[simp] theorem modTable_refills (td : Fin 16) (f : Table → Table) (s : State) : (modTable td f s).refills = s.refills := rfl
@[simp] theorem modTable_directory (td : Fin 16) (f : Table → Table) (s : State) : (modTable td f s).directory = s.directory := rfl
@[simp] theorem modTable_directoryBad (td : Fin 16) (f : Table → Table) (s : State) : (modTable td f s).directoryBad = s.directoryBad := rfl
@[simp] theorem modTable_queues (td : Fin 16) (f : Table → Table) (s : State) : (modTable td f s).queues = s.queues := rfl
@[simp] theorem modTable_profiles (td : Fin 16) (f : Table → Table) (s : State) : (modTable td f s).profiles = s.profiles := rfl
@[simp] theorem modTable_freeCaches (td : Fin 16) (f : Table → Table) (s : State) : (modTable td f s).freeCaches = s.freeCaches := rfl
@[simp] theorem modTable_kennel (td : Fin 16) (f : Table → Table) (s : State) : (modTable td f s).kennel = s.kennel := rfl
@[simp] theorem modTable_waysDisabled (td : Fin 16) (f : Table → Table) (s : State) : (modTable td f s).waysDisabled = s.waysDisabled := rfl
@[simp] theorem modTable_sealCache (td : Fin 16) (f : Table → Table) (s : State) : (modTable td f s).sealCache = s.sealCache := rfl
@[simp] theorem modTable_keys (td : Fin 16) (f : Table → Table) (s : State) : (modTable td f s).keys = s.keys := rfl
@[simp] theorem modTable_sensors (td : Fin 16) (f : Table → Table) (s : State) : (modTable td f s).sensors = s.sensors := rfl
@[simp] theorem modTable_bonds (td : Fin 16) (f : Table → Table) (s : State) : (modTable td f s).bonds = s.bonds := rfl
@[simp] theorem modTable_thermal (td : Fin 16) (f : Table → Table) (s : State) : (modTable td f s).thermal = s.thermal := rfl
@[simp] theorem modTable_mailboxes (td : Fin 16) (f : Table → Table) (s : State) : (modTable td f s).mailboxes = s.mailboxes := rfl
@[simp] theorem modTable_tasks (td : Fin 16) (f : Table → Table) (s : State) : (modTable td f s).tasks = s.tasks := rfl
@[simp] theorem modTable_nextTicket (td : Fin 16) (f : Table → Table) (s : State) : (modTable td f s).nextTicket = s.nextTicket := rfl
@[simp] theorem modTable_mover (td : Fin 16) (f : Table → Table) (s : State) : (modTable td f s).mover = s.mover := rfl
@[simp] theorem modTable_repairLog (td : Fin 16) (f : Table → Table) (s : State) : (modTable td f s).repairLog = s.repairLog := rfl
@[simp] theorem modTable_repairLogB (td : Fin 16) (f : Table → Table) (s : State) : (modTable td f s).repairLogB = s.repairLogB := rfl
@[simp] theorem modTable_firmware (td : Fin 16) (f : Table → Table) (s : State) : (modTable td f s).firmware = s.firmware := rfl
@[simp] theorem modTable_log (td : Fin 16) (f : Table → Table) (s : State) : (modTable td f s).log = s.log := rfl
@[simp] theorem modTable_sideband (td : Fin 16) (f : Table → Table) (s : State) : (modTable td f s).sideband = s.sideband := rfl
@[simp] theorem modTable_fuses (td : Fin 16) (f : Table → Table) (s : State) : (modTable td f s).fuses = s.fuses := rfl
@[simp] theorem modTable_rotation (td : Fin 16) (f : Table → Table) (s : State) : (modTable td f s).rotation = s.rotation := rfl
@[simp] theorem modTable_salts (td : Fin 16) (f : Table → Table) (s : State) : (modTable td f s).salts = s.salts := rfl

@[simp] theorem modTable_self (td : Fin 16) (f : Table → Table) (s : State) : (modTable td f s).tables[td] = f s.tables[td] := by simp [modTable]

theorem modTable_other (td : Fin 16) (f : Table → Table) (j : Fin 16) (h : j ≠ td) (s : State) : (modTable td f s).tables[j] = s.tables[j] := by
  have : td.val ≠ j.val := fun e => h (Fin.ext e.symm)
  simp [modTable, Vector.getElem_set, this]

/-! ### modProfile -/

@[simp] theorem modProfile_pending (i : Fin 32) (f : Profile → Profile) (s : State) : (modProfile i f s).pending = s.pending := rfl
@[simp] theorem modProfile_hubTimer (i : Fin 32) (f : Profile → Profile) (s : State) : (modProfile i f s).hubTimer = s.hubTimer := rfl
@[simp] theorem modProfile_drawn (i : Fin 32) (f : Profile → Profile) (s : State) : (modProfile i f s).drawn = s.drawn := rfl
@[simp] theorem modProfile_presented (i : Fin 32) (f : Profile → Profile) (s : State) : (modProfile i f s).presented = s.presented := rfl
@[simp] theorem modProfile_device (i : Fin 32) (f : Profile → Profile) (s : State) : (modProfile i f s).device = s.device := rfl
@[simp] theorem modProfile_params (i : Fin 32) (f : Profile → Profile) (s : State) : (modProfile i f s).params = s.params := rfl
@[simp] theorem modProfile_dram (i : Fin 32) (f : Profile → Profile) (s : State) : (modProfile i f s).dram = s.dram := rfl
@[simp] theorem modProfile_ports (i : Fin 32) (f : Profile → Profile) (s : State) : (modProfile i f s).ports = s.ports := rfl
@[simp] theorem modProfile_quarters (i : Fin 32) (f : Profile → Profile) (s : State) : (modProfile i f s).quarters = s.quarters := rfl
@[simp] theorem modProfile_channels (i : Fin 32) (f : Profile → Profile) (s : State) : (modProfile i f s).channels = s.channels := rfl
@[simp] theorem modProfile_blocks (i : Fin 32) (f : Profile → Profile) (s : State) : (modProfile i f s).blocks = s.blocks := rfl
@[simp] theorem modProfile_partitions (i : Fin 32) (f : Profile → Profile) (s : State) : (modProfile i f s).partitions = s.partitions := rfl
@[simp] theorem modProfile_granuleMap (i : Fin 32) (f : Profile → Profile) (s : State) : (modProfile i f s).granuleMap = s.granuleMap := rfl
@[simp] theorem modProfile_refills (i : Fin 32) (f : Profile → Profile) (s : State) : (modProfile i f s).refills = s.refills := rfl
@[simp] theorem modProfile_tables (i : Fin 32) (f : Profile → Profile) (s : State) : (modProfile i f s).tables = s.tables := rfl
@[simp] theorem modProfile_directory (i : Fin 32) (f : Profile → Profile) (s : State) : (modProfile i f s).directory = s.directory := rfl
@[simp] theorem modProfile_directoryBad (i : Fin 32) (f : Profile → Profile) (s : State) : (modProfile i f s).directoryBad = s.directoryBad := rfl
@[simp] theorem modProfile_queues (i : Fin 32) (f : Profile → Profile) (s : State) : (modProfile i f s).queues = s.queues := rfl
@[simp] theorem modProfile_freeCaches (i : Fin 32) (f : Profile → Profile) (s : State) : (modProfile i f s).freeCaches = s.freeCaches := rfl
@[simp] theorem modProfile_kennel (i : Fin 32) (f : Profile → Profile) (s : State) : (modProfile i f s).kennel = s.kennel := rfl
@[simp] theorem modProfile_waysDisabled (i : Fin 32) (f : Profile → Profile) (s : State) : (modProfile i f s).waysDisabled = s.waysDisabled := rfl
@[simp] theorem modProfile_sealCache (i : Fin 32) (f : Profile → Profile) (s : State) : (modProfile i f s).sealCache = s.sealCache := rfl
@[simp] theorem modProfile_keys (i : Fin 32) (f : Profile → Profile) (s : State) : (modProfile i f s).keys = s.keys := rfl
@[simp] theorem modProfile_sensors (i : Fin 32) (f : Profile → Profile) (s : State) : (modProfile i f s).sensors = s.sensors := rfl
@[simp] theorem modProfile_bonds (i : Fin 32) (f : Profile → Profile) (s : State) : (modProfile i f s).bonds = s.bonds := rfl
@[simp] theorem modProfile_thermal (i : Fin 32) (f : Profile → Profile) (s : State) : (modProfile i f s).thermal = s.thermal := rfl
@[simp] theorem modProfile_mailboxes (i : Fin 32) (f : Profile → Profile) (s : State) : (modProfile i f s).mailboxes = s.mailboxes := rfl
@[simp] theorem modProfile_tasks (i : Fin 32) (f : Profile → Profile) (s : State) : (modProfile i f s).tasks = s.tasks := rfl
@[simp] theorem modProfile_nextTicket (i : Fin 32) (f : Profile → Profile) (s : State) : (modProfile i f s).nextTicket = s.nextTicket := rfl
@[simp] theorem modProfile_mover (i : Fin 32) (f : Profile → Profile) (s : State) : (modProfile i f s).mover = s.mover := rfl
@[simp] theorem modProfile_repairLog (i : Fin 32) (f : Profile → Profile) (s : State) : (modProfile i f s).repairLog = s.repairLog := rfl
@[simp] theorem modProfile_repairLogB (i : Fin 32) (f : Profile → Profile) (s : State) : (modProfile i f s).repairLogB = s.repairLogB := rfl
@[simp] theorem modProfile_firmware (i : Fin 32) (f : Profile → Profile) (s : State) : (modProfile i f s).firmware = s.firmware := rfl
@[simp] theorem modProfile_log (i : Fin 32) (f : Profile → Profile) (s : State) : (modProfile i f s).log = s.log := rfl
@[simp] theorem modProfile_sideband (i : Fin 32) (f : Profile → Profile) (s : State) : (modProfile i f s).sideband = s.sideband := rfl
@[simp] theorem modProfile_fuses (i : Fin 32) (f : Profile → Profile) (s : State) : (modProfile i f s).fuses = s.fuses := rfl
@[simp] theorem modProfile_rotation (i : Fin 32) (f : Profile → Profile) (s : State) : (modProfile i f s).rotation = s.rotation := rfl
@[simp] theorem modProfile_salts (i : Fin 32) (f : Profile → Profile) (s : State) : (modProfile i f s).salts = s.salts := rfl

@[simp] theorem modProfile_self (i : Fin 32) (f : Profile → Profile) (s : State) : (modProfile i f s).profiles[i] = f s.profiles[i] := by simp [modProfile]

theorem modProfile_other (i : Fin 32) (f : Profile → Profile) (j : Fin 32) (h : j ≠ i) (s : State) : (modProfile i f s).profiles[j] = s.profiles[j] := by
  have : i.val ≠ j.val := fun e => h (Fin.ext e.symm)
  simp [modProfile, Vector.getElem_set, this]

/-! ### modMailbox -/

@[simp] theorem modMailbox_pending (m : Fin 6) (f : Mailbox → Mailbox) (s : State) : (modMailbox m f s).pending = s.pending := rfl
@[simp] theorem modMailbox_hubTimer (m : Fin 6) (f : Mailbox → Mailbox) (s : State) : (modMailbox m f s).hubTimer = s.hubTimer := rfl
@[simp] theorem modMailbox_drawn (m : Fin 6) (f : Mailbox → Mailbox) (s : State) : (modMailbox m f s).drawn = s.drawn := rfl
@[simp] theorem modMailbox_presented (m : Fin 6) (f : Mailbox → Mailbox) (s : State) : (modMailbox m f s).presented = s.presented := rfl
@[simp] theorem modMailbox_device (m : Fin 6) (f : Mailbox → Mailbox) (s : State) : (modMailbox m f s).device = s.device := rfl
@[simp] theorem modMailbox_params (m : Fin 6) (f : Mailbox → Mailbox) (s : State) : (modMailbox m f s).params = s.params := rfl
@[simp] theorem modMailbox_dram (m : Fin 6) (f : Mailbox → Mailbox) (s : State) : (modMailbox m f s).dram = s.dram := rfl
@[simp] theorem modMailbox_ports (m : Fin 6) (f : Mailbox → Mailbox) (s : State) : (modMailbox m f s).ports = s.ports := rfl
@[simp] theorem modMailbox_quarters (m : Fin 6) (f : Mailbox → Mailbox) (s : State) : (modMailbox m f s).quarters = s.quarters := rfl
@[simp] theorem modMailbox_channels (m : Fin 6) (f : Mailbox → Mailbox) (s : State) : (modMailbox m f s).channels = s.channels := rfl
@[simp] theorem modMailbox_blocks (m : Fin 6) (f : Mailbox → Mailbox) (s : State) : (modMailbox m f s).blocks = s.blocks := rfl
@[simp] theorem modMailbox_partitions (m : Fin 6) (f : Mailbox → Mailbox) (s : State) : (modMailbox m f s).partitions = s.partitions := rfl
@[simp] theorem modMailbox_granuleMap (m : Fin 6) (f : Mailbox → Mailbox) (s : State) : (modMailbox m f s).granuleMap = s.granuleMap := rfl
@[simp] theorem modMailbox_refills (m : Fin 6) (f : Mailbox → Mailbox) (s : State) : (modMailbox m f s).refills = s.refills := rfl
@[simp] theorem modMailbox_tables (m : Fin 6) (f : Mailbox → Mailbox) (s : State) : (modMailbox m f s).tables = s.tables := rfl
@[simp] theorem modMailbox_directory (m : Fin 6) (f : Mailbox → Mailbox) (s : State) : (modMailbox m f s).directory = s.directory := rfl
@[simp] theorem modMailbox_directoryBad (m : Fin 6) (f : Mailbox → Mailbox) (s : State) : (modMailbox m f s).directoryBad = s.directoryBad := rfl
@[simp] theorem modMailbox_queues (m : Fin 6) (f : Mailbox → Mailbox) (s : State) : (modMailbox m f s).queues = s.queues := rfl
@[simp] theorem modMailbox_profiles (m : Fin 6) (f : Mailbox → Mailbox) (s : State) : (modMailbox m f s).profiles = s.profiles := rfl
@[simp] theorem modMailbox_freeCaches (m : Fin 6) (f : Mailbox → Mailbox) (s : State) : (modMailbox m f s).freeCaches = s.freeCaches := rfl
@[simp] theorem modMailbox_kennel (m : Fin 6) (f : Mailbox → Mailbox) (s : State) : (modMailbox m f s).kennel = s.kennel := rfl
@[simp] theorem modMailbox_waysDisabled (m : Fin 6) (f : Mailbox → Mailbox) (s : State) : (modMailbox m f s).waysDisabled = s.waysDisabled := rfl
@[simp] theorem modMailbox_sealCache (m : Fin 6) (f : Mailbox → Mailbox) (s : State) : (modMailbox m f s).sealCache = s.sealCache := rfl
@[simp] theorem modMailbox_keys (m : Fin 6) (f : Mailbox → Mailbox) (s : State) : (modMailbox m f s).keys = s.keys := rfl
@[simp] theorem modMailbox_sensors (m : Fin 6) (f : Mailbox → Mailbox) (s : State) : (modMailbox m f s).sensors = s.sensors := rfl
@[simp] theorem modMailbox_bonds (m : Fin 6) (f : Mailbox → Mailbox) (s : State) : (modMailbox m f s).bonds = s.bonds := rfl
@[simp] theorem modMailbox_thermal (m : Fin 6) (f : Mailbox → Mailbox) (s : State) : (modMailbox m f s).thermal = s.thermal := rfl
@[simp] theorem modMailbox_tasks (m : Fin 6) (f : Mailbox → Mailbox) (s : State) : (modMailbox m f s).tasks = s.tasks := rfl
@[simp] theorem modMailbox_nextTicket (m : Fin 6) (f : Mailbox → Mailbox) (s : State) : (modMailbox m f s).nextTicket = s.nextTicket := rfl
@[simp] theorem modMailbox_mover (m : Fin 6) (f : Mailbox → Mailbox) (s : State) : (modMailbox m f s).mover = s.mover := rfl
@[simp] theorem modMailbox_repairLog (m : Fin 6) (f : Mailbox → Mailbox) (s : State) : (modMailbox m f s).repairLog = s.repairLog := rfl
@[simp] theorem modMailbox_repairLogB (m : Fin 6) (f : Mailbox → Mailbox) (s : State) : (modMailbox m f s).repairLogB = s.repairLogB := rfl
@[simp] theorem modMailbox_firmware (m : Fin 6) (f : Mailbox → Mailbox) (s : State) : (modMailbox m f s).firmware = s.firmware := rfl
@[simp] theorem modMailbox_log (m : Fin 6) (f : Mailbox → Mailbox) (s : State) : (modMailbox m f s).log = s.log := rfl
@[simp] theorem modMailbox_sideband (m : Fin 6) (f : Mailbox → Mailbox) (s : State) : (modMailbox m f s).sideband = s.sideband := rfl
@[simp] theorem modMailbox_fuses (m : Fin 6) (f : Mailbox → Mailbox) (s : State) : (modMailbox m f s).fuses = s.fuses := rfl
@[simp] theorem modMailbox_rotation (m : Fin 6) (f : Mailbox → Mailbox) (s : State) : (modMailbox m f s).rotation = s.rotation := rfl
@[simp] theorem modMailbox_salts (m : Fin 6) (f : Mailbox → Mailbox) (s : State) : (modMailbox m f s).salts = s.salts := rfl

@[simp] theorem modMailbox_self (m : Fin 6) (f : Mailbox → Mailbox) (s : State) : (modMailbox m f s).mailboxes[m] = f s.mailboxes[m] := by simp [modMailbox]

theorem modMailbox_other (m : Fin 6) (f : Mailbox → Mailbox) (j : Fin 6) (h : j ≠ m) (s : State) : (modMailbox m f s).mailboxes[j] = s.mailboxes[j] := by
  have : m.val ≠ j.val := fun e => h (Fin.ext e.symm)
  simp [modMailbox, Vector.getElem_set, this]

/-! ### modSensor -/

@[simp] theorem modSensor_pending (k : Fin 17) (f : Sensor → Sensor) (s : State) : (modSensor k f s).pending = s.pending := rfl
@[simp] theorem modSensor_hubTimer (k : Fin 17) (f : Sensor → Sensor) (s : State) : (modSensor k f s).hubTimer = s.hubTimer := rfl
@[simp] theorem modSensor_drawn (k : Fin 17) (f : Sensor → Sensor) (s : State) : (modSensor k f s).drawn = s.drawn := rfl
@[simp] theorem modSensor_presented (k : Fin 17) (f : Sensor → Sensor) (s : State) : (modSensor k f s).presented = s.presented := rfl
@[simp] theorem modSensor_device (k : Fin 17) (f : Sensor → Sensor) (s : State) : (modSensor k f s).device = s.device := rfl
@[simp] theorem modSensor_params (k : Fin 17) (f : Sensor → Sensor) (s : State) : (modSensor k f s).params = s.params := rfl
@[simp] theorem modSensor_dram (k : Fin 17) (f : Sensor → Sensor) (s : State) : (modSensor k f s).dram = s.dram := rfl
@[simp] theorem modSensor_ports (k : Fin 17) (f : Sensor → Sensor) (s : State) : (modSensor k f s).ports = s.ports := rfl
@[simp] theorem modSensor_quarters (k : Fin 17) (f : Sensor → Sensor) (s : State) : (modSensor k f s).quarters = s.quarters := rfl
@[simp] theorem modSensor_channels (k : Fin 17) (f : Sensor → Sensor) (s : State) : (modSensor k f s).channels = s.channels := rfl
@[simp] theorem modSensor_blocks (k : Fin 17) (f : Sensor → Sensor) (s : State) : (modSensor k f s).blocks = s.blocks := rfl
@[simp] theorem modSensor_partitions (k : Fin 17) (f : Sensor → Sensor) (s : State) : (modSensor k f s).partitions = s.partitions := rfl
@[simp] theorem modSensor_granuleMap (k : Fin 17) (f : Sensor → Sensor) (s : State) : (modSensor k f s).granuleMap = s.granuleMap := rfl
@[simp] theorem modSensor_refills (k : Fin 17) (f : Sensor → Sensor) (s : State) : (modSensor k f s).refills = s.refills := rfl
@[simp] theorem modSensor_tables (k : Fin 17) (f : Sensor → Sensor) (s : State) : (modSensor k f s).tables = s.tables := rfl
@[simp] theorem modSensor_directory (k : Fin 17) (f : Sensor → Sensor) (s : State) : (modSensor k f s).directory = s.directory := rfl
@[simp] theorem modSensor_directoryBad (k : Fin 17) (f : Sensor → Sensor) (s : State) : (modSensor k f s).directoryBad = s.directoryBad := rfl
@[simp] theorem modSensor_queues (k : Fin 17) (f : Sensor → Sensor) (s : State) : (modSensor k f s).queues = s.queues := rfl
@[simp] theorem modSensor_profiles (k : Fin 17) (f : Sensor → Sensor) (s : State) : (modSensor k f s).profiles = s.profiles := rfl
@[simp] theorem modSensor_freeCaches (k : Fin 17) (f : Sensor → Sensor) (s : State) : (modSensor k f s).freeCaches = s.freeCaches := rfl
@[simp] theorem modSensor_kennel (k : Fin 17) (f : Sensor → Sensor) (s : State) : (modSensor k f s).kennel = s.kennel := rfl
@[simp] theorem modSensor_waysDisabled (k : Fin 17) (f : Sensor → Sensor) (s : State) : (modSensor k f s).waysDisabled = s.waysDisabled := rfl
@[simp] theorem modSensor_sealCache (k : Fin 17) (f : Sensor → Sensor) (s : State) : (modSensor k f s).sealCache = s.sealCache := rfl
@[simp] theorem modSensor_keys (k : Fin 17) (f : Sensor → Sensor) (s : State) : (modSensor k f s).keys = s.keys := rfl
@[simp] theorem modSensor_bonds (k : Fin 17) (f : Sensor → Sensor) (s : State) : (modSensor k f s).bonds = s.bonds := rfl
@[simp] theorem modSensor_thermal (k : Fin 17) (f : Sensor → Sensor) (s : State) : (modSensor k f s).thermal = s.thermal := rfl
@[simp] theorem modSensor_mailboxes (k : Fin 17) (f : Sensor → Sensor) (s : State) : (modSensor k f s).mailboxes = s.mailboxes := rfl
@[simp] theorem modSensor_tasks (k : Fin 17) (f : Sensor → Sensor) (s : State) : (modSensor k f s).tasks = s.tasks := rfl
@[simp] theorem modSensor_nextTicket (k : Fin 17) (f : Sensor → Sensor) (s : State) : (modSensor k f s).nextTicket = s.nextTicket := rfl
@[simp] theorem modSensor_mover (k : Fin 17) (f : Sensor → Sensor) (s : State) : (modSensor k f s).mover = s.mover := rfl
@[simp] theorem modSensor_repairLog (k : Fin 17) (f : Sensor → Sensor) (s : State) : (modSensor k f s).repairLog = s.repairLog := rfl
@[simp] theorem modSensor_repairLogB (k : Fin 17) (f : Sensor → Sensor) (s : State) : (modSensor k f s).repairLogB = s.repairLogB := rfl
@[simp] theorem modSensor_firmware (k : Fin 17) (f : Sensor → Sensor) (s : State) : (modSensor k f s).firmware = s.firmware := rfl
@[simp] theorem modSensor_log (k : Fin 17) (f : Sensor → Sensor) (s : State) : (modSensor k f s).log = s.log := rfl
@[simp] theorem modSensor_sideband (k : Fin 17) (f : Sensor → Sensor) (s : State) : (modSensor k f s).sideband = s.sideband := rfl
@[simp] theorem modSensor_fuses (k : Fin 17) (f : Sensor → Sensor) (s : State) : (modSensor k f s).fuses = s.fuses := rfl
@[simp] theorem modSensor_rotation (k : Fin 17) (f : Sensor → Sensor) (s : State) : (modSensor k f s).rotation = s.rotation := rfl
@[simp] theorem modSensor_salts (k : Fin 17) (f : Sensor → Sensor) (s : State) : (modSensor k f s).salts = s.salts := rfl

@[simp] theorem modSensor_self (k : Fin 17) (f : Sensor → Sensor) (s : State) : (modSensor k f s).sensors[k] = f s.sensors[k] := by simp [modSensor]

theorem modSensor_other (k : Fin 17) (f : Sensor → Sensor) (j : Fin 17) (h : j ≠ k) (s : State) : (modSensor k f s).sensors[j] = s.sensors[j] := by
  have : k.val ≠ j.val := fun e => h (Fin.ext e.symm)
  simp [modSensor, Vector.getElem_set, this]

/-! ### modBond -/

@[simp] theorem modBond_pending (i : Fin 20) (f : Bond → Bond) (s : State) : (modBond i f s).pending = s.pending := rfl
@[simp] theorem modBond_hubTimer (i : Fin 20) (f : Bond → Bond) (s : State) : (modBond i f s).hubTimer = s.hubTimer := rfl
@[simp] theorem modBond_drawn (i : Fin 20) (f : Bond → Bond) (s : State) : (modBond i f s).drawn = s.drawn := rfl
@[simp] theorem modBond_presented (i : Fin 20) (f : Bond → Bond) (s : State) : (modBond i f s).presented = s.presented := rfl
@[simp] theorem modBond_device (i : Fin 20) (f : Bond → Bond) (s : State) : (modBond i f s).device = s.device := rfl
@[simp] theorem modBond_params (i : Fin 20) (f : Bond → Bond) (s : State) : (modBond i f s).params = s.params := rfl
@[simp] theorem modBond_dram (i : Fin 20) (f : Bond → Bond) (s : State) : (modBond i f s).dram = s.dram := rfl
@[simp] theorem modBond_ports (i : Fin 20) (f : Bond → Bond) (s : State) : (modBond i f s).ports = s.ports := rfl
@[simp] theorem modBond_quarters (i : Fin 20) (f : Bond → Bond) (s : State) : (modBond i f s).quarters = s.quarters := rfl
@[simp] theorem modBond_channels (i : Fin 20) (f : Bond → Bond) (s : State) : (modBond i f s).channels = s.channels := rfl
@[simp] theorem modBond_blocks (i : Fin 20) (f : Bond → Bond) (s : State) : (modBond i f s).blocks = s.blocks := rfl
@[simp] theorem modBond_partitions (i : Fin 20) (f : Bond → Bond) (s : State) : (modBond i f s).partitions = s.partitions := rfl
@[simp] theorem modBond_granuleMap (i : Fin 20) (f : Bond → Bond) (s : State) : (modBond i f s).granuleMap = s.granuleMap := rfl
@[simp] theorem modBond_refills (i : Fin 20) (f : Bond → Bond) (s : State) : (modBond i f s).refills = s.refills := rfl
@[simp] theorem modBond_tables (i : Fin 20) (f : Bond → Bond) (s : State) : (modBond i f s).tables = s.tables := rfl
@[simp] theorem modBond_directory (i : Fin 20) (f : Bond → Bond) (s : State) : (modBond i f s).directory = s.directory := rfl
@[simp] theorem modBond_directoryBad (i : Fin 20) (f : Bond → Bond) (s : State) : (modBond i f s).directoryBad = s.directoryBad := rfl
@[simp] theorem modBond_queues (i : Fin 20) (f : Bond → Bond) (s : State) : (modBond i f s).queues = s.queues := rfl
@[simp] theorem modBond_profiles (i : Fin 20) (f : Bond → Bond) (s : State) : (modBond i f s).profiles = s.profiles := rfl
@[simp] theorem modBond_freeCaches (i : Fin 20) (f : Bond → Bond) (s : State) : (modBond i f s).freeCaches = s.freeCaches := rfl
@[simp] theorem modBond_kennel (i : Fin 20) (f : Bond → Bond) (s : State) : (modBond i f s).kennel = s.kennel := rfl
@[simp] theorem modBond_waysDisabled (i : Fin 20) (f : Bond → Bond) (s : State) : (modBond i f s).waysDisabled = s.waysDisabled := rfl
@[simp] theorem modBond_sealCache (i : Fin 20) (f : Bond → Bond) (s : State) : (modBond i f s).sealCache = s.sealCache := rfl
@[simp] theorem modBond_keys (i : Fin 20) (f : Bond → Bond) (s : State) : (modBond i f s).keys = s.keys := rfl
@[simp] theorem modBond_sensors (i : Fin 20) (f : Bond → Bond) (s : State) : (modBond i f s).sensors = s.sensors := rfl
@[simp] theorem modBond_thermal (i : Fin 20) (f : Bond → Bond) (s : State) : (modBond i f s).thermal = s.thermal := rfl
@[simp] theorem modBond_mailboxes (i : Fin 20) (f : Bond → Bond) (s : State) : (modBond i f s).mailboxes = s.mailboxes := rfl
@[simp] theorem modBond_tasks (i : Fin 20) (f : Bond → Bond) (s : State) : (modBond i f s).tasks = s.tasks := rfl
@[simp] theorem modBond_nextTicket (i : Fin 20) (f : Bond → Bond) (s : State) : (modBond i f s).nextTicket = s.nextTicket := rfl
@[simp] theorem modBond_mover (i : Fin 20) (f : Bond → Bond) (s : State) : (modBond i f s).mover = s.mover := rfl
@[simp] theorem modBond_repairLog (i : Fin 20) (f : Bond → Bond) (s : State) : (modBond i f s).repairLog = s.repairLog := rfl
@[simp] theorem modBond_repairLogB (i : Fin 20) (f : Bond → Bond) (s : State) : (modBond i f s).repairLogB = s.repairLogB := rfl
@[simp] theorem modBond_firmware (i : Fin 20) (f : Bond → Bond) (s : State) : (modBond i f s).firmware = s.firmware := rfl
@[simp] theorem modBond_log (i : Fin 20) (f : Bond → Bond) (s : State) : (modBond i f s).log = s.log := rfl
@[simp] theorem modBond_sideband (i : Fin 20) (f : Bond → Bond) (s : State) : (modBond i f s).sideband = s.sideband := rfl
@[simp] theorem modBond_fuses (i : Fin 20) (f : Bond → Bond) (s : State) : (modBond i f s).fuses = s.fuses := rfl
@[simp] theorem modBond_rotation (i : Fin 20) (f : Bond → Bond) (s : State) : (modBond i f s).rotation = s.rotation := rfl
@[simp] theorem modBond_salts (i : Fin 20) (f : Bond → Bond) (s : State) : (modBond i f s).salts = s.salts := rfl

@[simp] theorem modBond_self (i : Fin 20) (f : Bond → Bond) (s : State) : (modBond i f s).bonds[i] = f s.bonds[i] := by simp [modBond]

theorem modBond_other (i : Fin 20) (f : Bond → Bond) (j : Fin 20) (h : j ≠ i) (s : State) : (modBond i f s).bonds[j] = s.bonds[j] := by
  have : i.val ≠ j.val := fun e => h (Fin.ext e.symm)
  simp [modBond, Vector.getElem_set, this]

/-! ### modKey -/

@[simp] theorem modKey_pending (k : Fin 64) (f : KeySlot → KeySlot) (s : State) : (modKey k f s).pending = s.pending := rfl
@[simp] theorem modKey_hubTimer (k : Fin 64) (f : KeySlot → KeySlot) (s : State) : (modKey k f s).hubTimer = s.hubTimer := rfl
@[simp] theorem modKey_drawn (k : Fin 64) (f : KeySlot → KeySlot) (s : State) : (modKey k f s).drawn = s.drawn := rfl
@[simp] theorem modKey_presented (k : Fin 64) (f : KeySlot → KeySlot) (s : State) : (modKey k f s).presented = s.presented := rfl
@[simp] theorem modKey_device (k : Fin 64) (f : KeySlot → KeySlot) (s : State) : (modKey k f s).device = s.device := rfl
@[simp] theorem modKey_params (k : Fin 64) (f : KeySlot → KeySlot) (s : State) : (modKey k f s).params = s.params := rfl
@[simp] theorem modKey_dram (k : Fin 64) (f : KeySlot → KeySlot) (s : State) : (modKey k f s).dram = s.dram := rfl
@[simp] theorem modKey_ports (k : Fin 64) (f : KeySlot → KeySlot) (s : State) : (modKey k f s).ports = s.ports := rfl
@[simp] theorem modKey_quarters (k : Fin 64) (f : KeySlot → KeySlot) (s : State) : (modKey k f s).quarters = s.quarters := rfl
@[simp] theorem modKey_channels (k : Fin 64) (f : KeySlot → KeySlot) (s : State) : (modKey k f s).channels = s.channels := rfl
@[simp] theorem modKey_blocks (k : Fin 64) (f : KeySlot → KeySlot) (s : State) : (modKey k f s).blocks = s.blocks := rfl
@[simp] theorem modKey_partitions (k : Fin 64) (f : KeySlot → KeySlot) (s : State) : (modKey k f s).partitions = s.partitions := rfl
@[simp] theorem modKey_granuleMap (k : Fin 64) (f : KeySlot → KeySlot) (s : State) : (modKey k f s).granuleMap = s.granuleMap := rfl
@[simp] theorem modKey_refills (k : Fin 64) (f : KeySlot → KeySlot) (s : State) : (modKey k f s).refills = s.refills := rfl
@[simp] theorem modKey_tables (k : Fin 64) (f : KeySlot → KeySlot) (s : State) : (modKey k f s).tables = s.tables := rfl
@[simp] theorem modKey_directory (k : Fin 64) (f : KeySlot → KeySlot) (s : State) : (modKey k f s).directory = s.directory := rfl
@[simp] theorem modKey_directoryBad (k : Fin 64) (f : KeySlot → KeySlot) (s : State) : (modKey k f s).directoryBad = s.directoryBad := rfl
@[simp] theorem modKey_queues (k : Fin 64) (f : KeySlot → KeySlot) (s : State) : (modKey k f s).queues = s.queues := rfl
@[simp] theorem modKey_profiles (k : Fin 64) (f : KeySlot → KeySlot) (s : State) : (modKey k f s).profiles = s.profiles := rfl
@[simp] theorem modKey_freeCaches (k : Fin 64) (f : KeySlot → KeySlot) (s : State) : (modKey k f s).freeCaches = s.freeCaches := rfl
@[simp] theorem modKey_kennel (k : Fin 64) (f : KeySlot → KeySlot) (s : State) : (modKey k f s).kennel = s.kennel := rfl
@[simp] theorem modKey_waysDisabled (k : Fin 64) (f : KeySlot → KeySlot) (s : State) : (modKey k f s).waysDisabled = s.waysDisabled := rfl
@[simp] theorem modKey_sealCache (k : Fin 64) (f : KeySlot → KeySlot) (s : State) : (modKey k f s).sealCache = s.sealCache := rfl
@[simp] theorem modKey_sensors (k : Fin 64) (f : KeySlot → KeySlot) (s : State) : (modKey k f s).sensors = s.sensors := rfl
@[simp] theorem modKey_bonds (k : Fin 64) (f : KeySlot → KeySlot) (s : State) : (modKey k f s).bonds = s.bonds := rfl
@[simp] theorem modKey_thermal (k : Fin 64) (f : KeySlot → KeySlot) (s : State) : (modKey k f s).thermal = s.thermal := rfl
@[simp] theorem modKey_mailboxes (k : Fin 64) (f : KeySlot → KeySlot) (s : State) : (modKey k f s).mailboxes = s.mailboxes := rfl
@[simp] theorem modKey_tasks (k : Fin 64) (f : KeySlot → KeySlot) (s : State) : (modKey k f s).tasks = s.tasks := rfl
@[simp] theorem modKey_nextTicket (k : Fin 64) (f : KeySlot → KeySlot) (s : State) : (modKey k f s).nextTicket = s.nextTicket := rfl
@[simp] theorem modKey_mover (k : Fin 64) (f : KeySlot → KeySlot) (s : State) : (modKey k f s).mover = s.mover := rfl
@[simp] theorem modKey_repairLog (k : Fin 64) (f : KeySlot → KeySlot) (s : State) : (modKey k f s).repairLog = s.repairLog := rfl
@[simp] theorem modKey_repairLogB (k : Fin 64) (f : KeySlot → KeySlot) (s : State) : (modKey k f s).repairLogB = s.repairLogB := rfl
@[simp] theorem modKey_firmware (k : Fin 64) (f : KeySlot → KeySlot) (s : State) : (modKey k f s).firmware = s.firmware := rfl
@[simp] theorem modKey_log (k : Fin 64) (f : KeySlot → KeySlot) (s : State) : (modKey k f s).log = s.log := rfl
@[simp] theorem modKey_sideband (k : Fin 64) (f : KeySlot → KeySlot) (s : State) : (modKey k f s).sideband = s.sideband := rfl
@[simp] theorem modKey_fuses (k : Fin 64) (f : KeySlot → KeySlot) (s : State) : (modKey k f s).fuses = s.fuses := rfl
@[simp] theorem modKey_rotation (k : Fin 64) (f : KeySlot → KeySlot) (s : State) : (modKey k f s).rotation = s.rotation := rfl
@[simp] theorem modKey_salts (k : Fin 64) (f : KeySlot → KeySlot) (s : State) : (modKey k f s).salts = s.salts := rfl

@[simp] theorem modKey_self (k : Fin 64) (f : KeySlot → KeySlot) (s : State) : (modKey k f s).keys[k] = f s.keys[k] := by simp [modKey]

theorem modKey_other (k : Fin 64) (f : KeySlot → KeySlot) (j : Fin 64) (h : j ≠ k) (s : State) : (modKey k f s).keys[j] = s.keys[j] := by
  have : k.val ≠ j.val := fun e => h (Fin.ext e.symm)
  simp [modKey, Vector.getElem_set, this]

/-! ### modDevice -/

@[simp] theorem modDevice_pending (f : Device → Device) (s : State) : (modDevice f s).pending = s.pending := rfl
@[simp] theorem modDevice_hubTimer (f : Device → Device) (s : State) : (modDevice f s).hubTimer = s.hubTimer := rfl
@[simp] theorem modDevice_drawn (f : Device → Device) (s : State) : (modDevice f s).drawn = s.drawn := rfl
@[simp] theorem modDevice_presented (f : Device → Device) (s : State) : (modDevice f s).presented = s.presented := rfl
@[simp] theorem modDevice_params (f : Device → Device) (s : State) : (modDevice f s).params = s.params := rfl
@[simp] theorem modDevice_dram (f : Device → Device) (s : State) : (modDevice f s).dram = s.dram := rfl
@[simp] theorem modDevice_ports (f : Device → Device) (s : State) : (modDevice f s).ports = s.ports := rfl
@[simp] theorem modDevice_quarters (f : Device → Device) (s : State) : (modDevice f s).quarters = s.quarters := rfl
@[simp] theorem modDevice_channels (f : Device → Device) (s : State) : (modDevice f s).channels = s.channels := rfl
@[simp] theorem modDevice_blocks (f : Device → Device) (s : State) : (modDevice f s).blocks = s.blocks := rfl
@[simp] theorem modDevice_partitions (f : Device → Device) (s : State) : (modDevice f s).partitions = s.partitions := rfl
@[simp] theorem modDevice_granuleMap (f : Device → Device) (s : State) : (modDevice f s).granuleMap = s.granuleMap := rfl
@[simp] theorem modDevice_refills (f : Device → Device) (s : State) : (modDevice f s).refills = s.refills := rfl
@[simp] theorem modDevice_tables (f : Device → Device) (s : State) : (modDevice f s).tables = s.tables := rfl
@[simp] theorem modDevice_directory (f : Device → Device) (s : State) : (modDevice f s).directory = s.directory := rfl
@[simp] theorem modDevice_directoryBad (f : Device → Device) (s : State) : (modDevice f s).directoryBad = s.directoryBad := rfl
@[simp] theorem modDevice_queues (f : Device → Device) (s : State) : (modDevice f s).queues = s.queues := rfl
@[simp] theorem modDevice_profiles (f : Device → Device) (s : State) : (modDevice f s).profiles = s.profiles := rfl
@[simp] theorem modDevice_freeCaches (f : Device → Device) (s : State) : (modDevice f s).freeCaches = s.freeCaches := rfl
@[simp] theorem modDevice_kennel (f : Device → Device) (s : State) : (modDevice f s).kennel = s.kennel := rfl
@[simp] theorem modDevice_waysDisabled (f : Device → Device) (s : State) : (modDevice f s).waysDisabled = s.waysDisabled := rfl
@[simp] theorem modDevice_sealCache (f : Device → Device) (s : State) : (modDevice f s).sealCache = s.sealCache := rfl
@[simp] theorem modDevice_keys (f : Device → Device) (s : State) : (modDevice f s).keys = s.keys := rfl
@[simp] theorem modDevice_sensors (f : Device → Device) (s : State) : (modDevice f s).sensors = s.sensors := rfl
@[simp] theorem modDevice_bonds (f : Device → Device) (s : State) : (modDevice f s).bonds = s.bonds := rfl
@[simp] theorem modDevice_thermal (f : Device → Device) (s : State) : (modDevice f s).thermal = s.thermal := rfl
@[simp] theorem modDevice_mailboxes (f : Device → Device) (s : State) : (modDevice f s).mailboxes = s.mailboxes := rfl
@[simp] theorem modDevice_tasks (f : Device → Device) (s : State) : (modDevice f s).tasks = s.tasks := rfl
@[simp] theorem modDevice_nextTicket (f : Device → Device) (s : State) : (modDevice f s).nextTicket = s.nextTicket := rfl
@[simp] theorem modDevice_mover (f : Device → Device) (s : State) : (modDevice f s).mover = s.mover := rfl
@[simp] theorem modDevice_repairLog (f : Device → Device) (s : State) : (modDevice f s).repairLog = s.repairLog := rfl
@[simp] theorem modDevice_repairLogB (f : Device → Device) (s : State) : (modDevice f s).repairLogB = s.repairLogB := rfl
@[simp] theorem modDevice_firmware (f : Device → Device) (s : State) : (modDevice f s).firmware = s.firmware := rfl
@[simp] theorem modDevice_log (f : Device → Device) (s : State) : (modDevice f s).log = s.log := rfl
@[simp] theorem modDevice_sideband (f : Device → Device) (s : State) : (modDevice f s).sideband = s.sideband := rfl
@[simp] theorem modDevice_fuses (f : Device → Device) (s : State) : (modDevice f s).fuses = s.fuses := rfl
@[simp] theorem modDevice_rotation (f : Device → Device) (s : State) : (modDevice f s).rotation = s.rotation := rfl
@[simp] theorem modDevice_salts (f : Device → Device) (s : State) : (modDevice f s).salts = s.salts := rfl

@[simp] theorem modDevice_self (f : Device → Device) (s : State) : (modDevice f s).device = f s.device := rfl

/-! ### modParams -/

@[simp] theorem modParams_pending (f : DeviceParams → DeviceParams) (s : State) : (modParams f s).pending = s.pending := rfl
@[simp] theorem modParams_hubTimer (f : DeviceParams → DeviceParams) (s : State) : (modParams f s).hubTimer = s.hubTimer := rfl
@[simp] theorem modParams_drawn (f : DeviceParams → DeviceParams) (s : State) : (modParams f s).drawn = s.drawn := rfl
@[simp] theorem modParams_presented (f : DeviceParams → DeviceParams) (s : State) : (modParams f s).presented = s.presented := rfl
@[simp] theorem modParams_device (f : DeviceParams → DeviceParams) (s : State) : (modParams f s).device = s.device := rfl
@[simp] theorem modParams_dram (f : DeviceParams → DeviceParams) (s : State) : (modParams f s).dram = s.dram := rfl
@[simp] theorem modParams_ports (f : DeviceParams → DeviceParams) (s : State) : (modParams f s).ports = s.ports := rfl
@[simp] theorem modParams_quarters (f : DeviceParams → DeviceParams) (s : State) : (modParams f s).quarters = s.quarters := rfl
@[simp] theorem modParams_channels (f : DeviceParams → DeviceParams) (s : State) : (modParams f s).channels = s.channels := rfl
@[simp] theorem modParams_blocks (f : DeviceParams → DeviceParams) (s : State) : (modParams f s).blocks = s.blocks := rfl
@[simp] theorem modParams_partitions (f : DeviceParams → DeviceParams) (s : State) : (modParams f s).partitions = s.partitions := rfl
@[simp] theorem modParams_granuleMap (f : DeviceParams → DeviceParams) (s : State) : (modParams f s).granuleMap = s.granuleMap := rfl
@[simp] theorem modParams_refills (f : DeviceParams → DeviceParams) (s : State) : (modParams f s).refills = s.refills := rfl
@[simp] theorem modParams_tables (f : DeviceParams → DeviceParams) (s : State) : (modParams f s).tables = s.tables := rfl
@[simp] theorem modParams_directory (f : DeviceParams → DeviceParams) (s : State) : (modParams f s).directory = s.directory := rfl
@[simp] theorem modParams_directoryBad (f : DeviceParams → DeviceParams) (s : State) : (modParams f s).directoryBad = s.directoryBad := rfl
@[simp] theorem modParams_queues (f : DeviceParams → DeviceParams) (s : State) : (modParams f s).queues = s.queues := rfl
@[simp] theorem modParams_profiles (f : DeviceParams → DeviceParams) (s : State) : (modParams f s).profiles = s.profiles := rfl
@[simp] theorem modParams_freeCaches (f : DeviceParams → DeviceParams) (s : State) : (modParams f s).freeCaches = s.freeCaches := rfl
@[simp] theorem modParams_kennel (f : DeviceParams → DeviceParams) (s : State) : (modParams f s).kennel = s.kennel := rfl
@[simp] theorem modParams_waysDisabled (f : DeviceParams → DeviceParams) (s : State) : (modParams f s).waysDisabled = s.waysDisabled := rfl
@[simp] theorem modParams_sealCache (f : DeviceParams → DeviceParams) (s : State) : (modParams f s).sealCache = s.sealCache := rfl
@[simp] theorem modParams_keys (f : DeviceParams → DeviceParams) (s : State) : (modParams f s).keys = s.keys := rfl
@[simp] theorem modParams_sensors (f : DeviceParams → DeviceParams) (s : State) : (modParams f s).sensors = s.sensors := rfl
@[simp] theorem modParams_bonds (f : DeviceParams → DeviceParams) (s : State) : (modParams f s).bonds = s.bonds := rfl
@[simp] theorem modParams_thermal (f : DeviceParams → DeviceParams) (s : State) : (modParams f s).thermal = s.thermal := rfl
@[simp] theorem modParams_mailboxes (f : DeviceParams → DeviceParams) (s : State) : (modParams f s).mailboxes = s.mailboxes := rfl
@[simp] theorem modParams_tasks (f : DeviceParams → DeviceParams) (s : State) : (modParams f s).tasks = s.tasks := rfl
@[simp] theorem modParams_nextTicket (f : DeviceParams → DeviceParams) (s : State) : (modParams f s).nextTicket = s.nextTicket := rfl
@[simp] theorem modParams_mover (f : DeviceParams → DeviceParams) (s : State) : (modParams f s).mover = s.mover := rfl
@[simp] theorem modParams_repairLog (f : DeviceParams → DeviceParams) (s : State) : (modParams f s).repairLog = s.repairLog := rfl
@[simp] theorem modParams_repairLogB (f : DeviceParams → DeviceParams) (s : State) : (modParams f s).repairLogB = s.repairLogB := rfl
@[simp] theorem modParams_firmware (f : DeviceParams → DeviceParams) (s : State) : (modParams f s).firmware = s.firmware := rfl
@[simp] theorem modParams_log (f : DeviceParams → DeviceParams) (s : State) : (modParams f s).log = s.log := rfl
@[simp] theorem modParams_sideband (f : DeviceParams → DeviceParams) (s : State) : (modParams f s).sideband = s.sideband := rfl
@[simp] theorem modParams_fuses (f : DeviceParams → DeviceParams) (s : State) : (modParams f s).fuses = s.fuses := rfl
@[simp] theorem modParams_rotation (f : DeviceParams → DeviceParams) (s : State) : (modParams f s).rotation = s.rotation := rfl
@[simp] theorem modParams_salts (f : DeviceParams → DeviceParams) (s : State) : (modParams f s).salts = s.salts := rfl

@[simp] theorem modParams_self (f : DeviceParams → DeviceParams) (s : State) : (modParams f s).params = f s.params := rfl

/-! ### modThermal -/

@[simp] theorem modThermal_pending (f : Thermal → Thermal) (s : State) : (modThermal f s).pending = s.pending := rfl
@[simp] theorem modThermal_hubTimer (f : Thermal → Thermal) (s : State) : (modThermal f s).hubTimer = s.hubTimer := rfl
@[simp] theorem modThermal_drawn (f : Thermal → Thermal) (s : State) : (modThermal f s).drawn = s.drawn := rfl
@[simp] theorem modThermal_presented (f : Thermal → Thermal) (s : State) : (modThermal f s).presented = s.presented := rfl
@[simp] theorem modThermal_device (f : Thermal → Thermal) (s : State) : (modThermal f s).device = s.device := rfl
@[simp] theorem modThermal_params (f : Thermal → Thermal) (s : State) : (modThermal f s).params = s.params := rfl
@[simp] theorem modThermal_dram (f : Thermal → Thermal) (s : State) : (modThermal f s).dram = s.dram := rfl
@[simp] theorem modThermal_ports (f : Thermal → Thermal) (s : State) : (modThermal f s).ports = s.ports := rfl
@[simp] theorem modThermal_quarters (f : Thermal → Thermal) (s : State) : (modThermal f s).quarters = s.quarters := rfl
@[simp] theorem modThermal_channels (f : Thermal → Thermal) (s : State) : (modThermal f s).channels = s.channels := rfl
@[simp] theorem modThermal_blocks (f : Thermal → Thermal) (s : State) : (modThermal f s).blocks = s.blocks := rfl
@[simp] theorem modThermal_partitions (f : Thermal → Thermal) (s : State) : (modThermal f s).partitions = s.partitions := rfl
@[simp] theorem modThermal_granuleMap (f : Thermal → Thermal) (s : State) : (modThermal f s).granuleMap = s.granuleMap := rfl
@[simp] theorem modThermal_refills (f : Thermal → Thermal) (s : State) : (modThermal f s).refills = s.refills := rfl
@[simp] theorem modThermal_tables (f : Thermal → Thermal) (s : State) : (modThermal f s).tables = s.tables := rfl
@[simp] theorem modThermal_directory (f : Thermal → Thermal) (s : State) : (modThermal f s).directory = s.directory := rfl
@[simp] theorem modThermal_directoryBad (f : Thermal → Thermal) (s : State) : (modThermal f s).directoryBad = s.directoryBad := rfl
@[simp] theorem modThermal_queues (f : Thermal → Thermal) (s : State) : (modThermal f s).queues = s.queues := rfl
@[simp] theorem modThermal_profiles (f : Thermal → Thermal) (s : State) : (modThermal f s).profiles = s.profiles := rfl
@[simp] theorem modThermal_freeCaches (f : Thermal → Thermal) (s : State) : (modThermal f s).freeCaches = s.freeCaches := rfl
@[simp] theorem modThermal_kennel (f : Thermal → Thermal) (s : State) : (modThermal f s).kennel = s.kennel := rfl
@[simp] theorem modThermal_waysDisabled (f : Thermal → Thermal) (s : State) : (modThermal f s).waysDisabled = s.waysDisabled := rfl
@[simp] theorem modThermal_sealCache (f : Thermal → Thermal) (s : State) : (modThermal f s).sealCache = s.sealCache := rfl
@[simp] theorem modThermal_keys (f : Thermal → Thermal) (s : State) : (modThermal f s).keys = s.keys := rfl
@[simp] theorem modThermal_sensors (f : Thermal → Thermal) (s : State) : (modThermal f s).sensors = s.sensors := rfl
@[simp] theorem modThermal_bonds (f : Thermal → Thermal) (s : State) : (modThermal f s).bonds = s.bonds := rfl
@[simp] theorem modThermal_mailboxes (f : Thermal → Thermal) (s : State) : (modThermal f s).mailboxes = s.mailboxes := rfl
@[simp] theorem modThermal_tasks (f : Thermal → Thermal) (s : State) : (modThermal f s).tasks = s.tasks := rfl
@[simp] theorem modThermal_nextTicket (f : Thermal → Thermal) (s : State) : (modThermal f s).nextTicket = s.nextTicket := rfl
@[simp] theorem modThermal_mover (f : Thermal → Thermal) (s : State) : (modThermal f s).mover = s.mover := rfl
@[simp] theorem modThermal_repairLog (f : Thermal → Thermal) (s : State) : (modThermal f s).repairLog = s.repairLog := rfl
@[simp] theorem modThermal_repairLogB (f : Thermal → Thermal) (s : State) : (modThermal f s).repairLogB = s.repairLogB := rfl
@[simp] theorem modThermal_firmware (f : Thermal → Thermal) (s : State) : (modThermal f s).firmware = s.firmware := rfl
@[simp] theorem modThermal_log (f : Thermal → Thermal) (s : State) : (modThermal f s).log = s.log := rfl
@[simp] theorem modThermal_sideband (f : Thermal → Thermal) (s : State) : (modThermal f s).sideband = s.sideband := rfl
@[simp] theorem modThermal_fuses (f : Thermal → Thermal) (s : State) : (modThermal f s).fuses = s.fuses := rfl
@[simp] theorem modThermal_rotation (f : Thermal → Thermal) (s : State) : (modThermal f s).rotation = s.rotation := rfl
@[simp] theorem modThermal_salts (f : Thermal → Thermal) (s : State) : (modThermal f s).salts = s.salts := rfl

@[simp] theorem modThermal_self (f : Thermal → Thermal) (s : State) : (modThermal f s).thermal = f s.thermal := rfl

/-! ### modFirmware -/

@[simp] theorem modFirmware_pending (f : Firmware → Firmware) (s : State) : (modFirmware f s).pending = s.pending := rfl
@[simp] theorem modFirmware_hubTimer (f : Firmware → Firmware) (s : State) : (modFirmware f s).hubTimer = s.hubTimer := rfl
@[simp] theorem modFirmware_drawn (f : Firmware → Firmware) (s : State) : (modFirmware f s).drawn = s.drawn := rfl
@[simp] theorem modFirmware_presented (f : Firmware → Firmware) (s : State) : (modFirmware f s).presented = s.presented := rfl
@[simp] theorem modFirmware_device (f : Firmware → Firmware) (s : State) : (modFirmware f s).device = s.device := rfl
@[simp] theorem modFirmware_params (f : Firmware → Firmware) (s : State) : (modFirmware f s).params = s.params := rfl
@[simp] theorem modFirmware_dram (f : Firmware → Firmware) (s : State) : (modFirmware f s).dram = s.dram := rfl
@[simp] theorem modFirmware_ports (f : Firmware → Firmware) (s : State) : (modFirmware f s).ports = s.ports := rfl
@[simp] theorem modFirmware_quarters (f : Firmware → Firmware) (s : State) : (modFirmware f s).quarters = s.quarters := rfl
@[simp] theorem modFirmware_channels (f : Firmware → Firmware) (s : State) : (modFirmware f s).channels = s.channels := rfl
@[simp] theorem modFirmware_blocks (f : Firmware → Firmware) (s : State) : (modFirmware f s).blocks = s.blocks := rfl
@[simp] theorem modFirmware_partitions (f : Firmware → Firmware) (s : State) : (modFirmware f s).partitions = s.partitions := rfl
@[simp] theorem modFirmware_granuleMap (f : Firmware → Firmware) (s : State) : (modFirmware f s).granuleMap = s.granuleMap := rfl
@[simp] theorem modFirmware_refills (f : Firmware → Firmware) (s : State) : (modFirmware f s).refills = s.refills := rfl
@[simp] theorem modFirmware_tables (f : Firmware → Firmware) (s : State) : (modFirmware f s).tables = s.tables := rfl
@[simp] theorem modFirmware_directory (f : Firmware → Firmware) (s : State) : (modFirmware f s).directory = s.directory := rfl
@[simp] theorem modFirmware_directoryBad (f : Firmware → Firmware) (s : State) : (modFirmware f s).directoryBad = s.directoryBad := rfl
@[simp] theorem modFirmware_queues (f : Firmware → Firmware) (s : State) : (modFirmware f s).queues = s.queues := rfl
@[simp] theorem modFirmware_profiles (f : Firmware → Firmware) (s : State) : (modFirmware f s).profiles = s.profiles := rfl
@[simp] theorem modFirmware_freeCaches (f : Firmware → Firmware) (s : State) : (modFirmware f s).freeCaches = s.freeCaches := rfl
@[simp] theorem modFirmware_kennel (f : Firmware → Firmware) (s : State) : (modFirmware f s).kennel = s.kennel := rfl
@[simp] theorem modFirmware_waysDisabled (f : Firmware → Firmware) (s : State) : (modFirmware f s).waysDisabled = s.waysDisabled := rfl
@[simp] theorem modFirmware_sealCache (f : Firmware → Firmware) (s : State) : (modFirmware f s).sealCache = s.sealCache := rfl
@[simp] theorem modFirmware_keys (f : Firmware → Firmware) (s : State) : (modFirmware f s).keys = s.keys := rfl
@[simp] theorem modFirmware_sensors (f : Firmware → Firmware) (s : State) : (modFirmware f s).sensors = s.sensors := rfl
@[simp] theorem modFirmware_bonds (f : Firmware → Firmware) (s : State) : (modFirmware f s).bonds = s.bonds := rfl
@[simp] theorem modFirmware_thermal (f : Firmware → Firmware) (s : State) : (modFirmware f s).thermal = s.thermal := rfl
@[simp] theorem modFirmware_mailboxes (f : Firmware → Firmware) (s : State) : (modFirmware f s).mailboxes = s.mailboxes := rfl
@[simp] theorem modFirmware_tasks (f : Firmware → Firmware) (s : State) : (modFirmware f s).tasks = s.tasks := rfl
@[simp] theorem modFirmware_nextTicket (f : Firmware → Firmware) (s : State) : (modFirmware f s).nextTicket = s.nextTicket := rfl
@[simp] theorem modFirmware_mover (f : Firmware → Firmware) (s : State) : (modFirmware f s).mover = s.mover := rfl
@[simp] theorem modFirmware_repairLog (f : Firmware → Firmware) (s : State) : (modFirmware f s).repairLog = s.repairLog := rfl
@[simp] theorem modFirmware_repairLogB (f : Firmware → Firmware) (s : State) : (modFirmware f s).repairLogB = s.repairLogB := rfl
@[simp] theorem modFirmware_log (f : Firmware → Firmware) (s : State) : (modFirmware f s).log = s.log := rfl
@[simp] theorem modFirmware_sideband (f : Firmware → Firmware) (s : State) : (modFirmware f s).sideband = s.sideband := rfl
@[simp] theorem modFirmware_fuses (f : Firmware → Firmware) (s : State) : (modFirmware f s).fuses = s.fuses := rfl
@[simp] theorem modFirmware_rotation (f : Firmware → Firmware) (s : State) : (modFirmware f s).rotation = s.rotation := rfl
@[simp] theorem modFirmware_salts (f : Firmware → Firmware) (s : State) : (modFirmware f s).salts = s.salts := rfl

@[simp] theorem modFirmware_self (f : Firmware → Firmware) (s : State) : (modFirmware f s).firmware = f s.firmware := rfl

/-! ### modLog -/

@[simp] theorem modLog_pending (f : LogState → LogState) (s : State) : (modLog f s).pending = s.pending := rfl
@[simp] theorem modLog_hubTimer (f : LogState → LogState) (s : State) : (modLog f s).hubTimer = s.hubTimer := rfl
@[simp] theorem modLog_drawn (f : LogState → LogState) (s : State) : (modLog f s).drawn = s.drawn := rfl
@[simp] theorem modLog_presented (f : LogState → LogState) (s : State) : (modLog f s).presented = s.presented := rfl
@[simp] theorem modLog_device (f : LogState → LogState) (s : State) : (modLog f s).device = s.device := rfl
@[simp] theorem modLog_params (f : LogState → LogState) (s : State) : (modLog f s).params = s.params := rfl
@[simp] theorem modLog_dram (f : LogState → LogState) (s : State) : (modLog f s).dram = s.dram := rfl
@[simp] theorem modLog_ports (f : LogState → LogState) (s : State) : (modLog f s).ports = s.ports := rfl
@[simp] theorem modLog_quarters (f : LogState → LogState) (s : State) : (modLog f s).quarters = s.quarters := rfl
@[simp] theorem modLog_channels (f : LogState → LogState) (s : State) : (modLog f s).channels = s.channels := rfl
@[simp] theorem modLog_blocks (f : LogState → LogState) (s : State) : (modLog f s).blocks = s.blocks := rfl
@[simp] theorem modLog_partitions (f : LogState → LogState) (s : State) : (modLog f s).partitions = s.partitions := rfl
@[simp] theorem modLog_granuleMap (f : LogState → LogState) (s : State) : (modLog f s).granuleMap = s.granuleMap := rfl
@[simp] theorem modLog_refills (f : LogState → LogState) (s : State) : (modLog f s).refills = s.refills := rfl
@[simp] theorem modLog_tables (f : LogState → LogState) (s : State) : (modLog f s).tables = s.tables := rfl
@[simp] theorem modLog_directory (f : LogState → LogState) (s : State) : (modLog f s).directory = s.directory := rfl
@[simp] theorem modLog_directoryBad (f : LogState → LogState) (s : State) : (modLog f s).directoryBad = s.directoryBad := rfl
@[simp] theorem modLog_queues (f : LogState → LogState) (s : State) : (modLog f s).queues = s.queues := rfl
@[simp] theorem modLog_profiles (f : LogState → LogState) (s : State) : (modLog f s).profiles = s.profiles := rfl
@[simp] theorem modLog_freeCaches (f : LogState → LogState) (s : State) : (modLog f s).freeCaches = s.freeCaches := rfl
@[simp] theorem modLog_kennel (f : LogState → LogState) (s : State) : (modLog f s).kennel = s.kennel := rfl
@[simp] theorem modLog_waysDisabled (f : LogState → LogState) (s : State) : (modLog f s).waysDisabled = s.waysDisabled := rfl
@[simp] theorem modLog_sealCache (f : LogState → LogState) (s : State) : (modLog f s).sealCache = s.sealCache := rfl
@[simp] theorem modLog_keys (f : LogState → LogState) (s : State) : (modLog f s).keys = s.keys := rfl
@[simp] theorem modLog_sensors (f : LogState → LogState) (s : State) : (modLog f s).sensors = s.sensors := rfl
@[simp] theorem modLog_bonds (f : LogState → LogState) (s : State) : (modLog f s).bonds = s.bonds := rfl
@[simp] theorem modLog_thermal (f : LogState → LogState) (s : State) : (modLog f s).thermal = s.thermal := rfl
@[simp] theorem modLog_mailboxes (f : LogState → LogState) (s : State) : (modLog f s).mailboxes = s.mailboxes := rfl
@[simp] theorem modLog_tasks (f : LogState → LogState) (s : State) : (modLog f s).tasks = s.tasks := rfl
@[simp] theorem modLog_nextTicket (f : LogState → LogState) (s : State) : (modLog f s).nextTicket = s.nextTicket := rfl
@[simp] theorem modLog_mover (f : LogState → LogState) (s : State) : (modLog f s).mover = s.mover := rfl
@[simp] theorem modLog_repairLog (f : LogState → LogState) (s : State) : (modLog f s).repairLog = s.repairLog := rfl
@[simp] theorem modLog_repairLogB (f : LogState → LogState) (s : State) : (modLog f s).repairLogB = s.repairLogB := rfl
@[simp] theorem modLog_firmware (f : LogState → LogState) (s : State) : (modLog f s).firmware = s.firmware := rfl
@[simp] theorem modLog_sideband (f : LogState → LogState) (s : State) : (modLog f s).sideband = s.sideband := rfl
@[simp] theorem modLog_fuses (f : LogState → LogState) (s : State) : (modLog f s).fuses = s.fuses := rfl
@[simp] theorem modLog_rotation (f : LogState → LogState) (s : State) : (modLog f s).rotation = s.rotation := rfl
@[simp] theorem modLog_salts (f : LogState → LogState) (s : State) : (modLog f s).salts = s.salts := rfl

@[simp] theorem modLog_self (f : LogState → LogState) (s : State) : (modLog f s).log = f s.log := rfl

/-! ### modSideband -/

@[simp] theorem modSideband_pending (f : Sideband → Sideband) (s : State) : (modSideband f s).pending = s.pending := rfl
@[simp] theorem modSideband_hubTimer (f : Sideband → Sideband) (s : State) : (modSideband f s).hubTimer = s.hubTimer := rfl
@[simp] theorem modSideband_drawn (f : Sideband → Sideband) (s : State) : (modSideband f s).drawn = s.drawn := rfl
@[simp] theorem modSideband_presented (f : Sideband → Sideband) (s : State) : (modSideband f s).presented = s.presented := rfl
@[simp] theorem modSideband_device (f : Sideband → Sideband) (s : State) : (modSideband f s).device = s.device := rfl
@[simp] theorem modSideband_params (f : Sideband → Sideband) (s : State) : (modSideband f s).params = s.params := rfl
@[simp] theorem modSideband_dram (f : Sideband → Sideband) (s : State) : (modSideband f s).dram = s.dram := rfl
@[simp] theorem modSideband_ports (f : Sideband → Sideband) (s : State) : (modSideband f s).ports = s.ports := rfl
@[simp] theorem modSideband_quarters (f : Sideband → Sideband) (s : State) : (modSideband f s).quarters = s.quarters := rfl
@[simp] theorem modSideband_channels (f : Sideband → Sideband) (s : State) : (modSideband f s).channels = s.channels := rfl
@[simp] theorem modSideband_blocks (f : Sideband → Sideband) (s : State) : (modSideband f s).blocks = s.blocks := rfl
@[simp] theorem modSideband_partitions (f : Sideband → Sideband) (s : State) : (modSideband f s).partitions = s.partitions := rfl
@[simp] theorem modSideband_granuleMap (f : Sideband → Sideband) (s : State) : (modSideband f s).granuleMap = s.granuleMap := rfl
@[simp] theorem modSideband_refills (f : Sideband → Sideband) (s : State) : (modSideband f s).refills = s.refills := rfl
@[simp] theorem modSideband_tables (f : Sideband → Sideband) (s : State) : (modSideband f s).tables = s.tables := rfl
@[simp] theorem modSideband_directory (f : Sideband → Sideband) (s : State) : (modSideband f s).directory = s.directory := rfl
@[simp] theorem modSideband_directoryBad (f : Sideband → Sideband) (s : State) : (modSideband f s).directoryBad = s.directoryBad := rfl
@[simp] theorem modSideband_queues (f : Sideband → Sideband) (s : State) : (modSideband f s).queues = s.queues := rfl
@[simp] theorem modSideband_profiles (f : Sideband → Sideband) (s : State) : (modSideband f s).profiles = s.profiles := rfl
@[simp] theorem modSideband_freeCaches (f : Sideband → Sideband) (s : State) : (modSideband f s).freeCaches = s.freeCaches := rfl
@[simp] theorem modSideband_kennel (f : Sideband → Sideband) (s : State) : (modSideband f s).kennel = s.kennel := rfl
@[simp] theorem modSideband_waysDisabled (f : Sideband → Sideband) (s : State) : (modSideband f s).waysDisabled = s.waysDisabled := rfl
@[simp] theorem modSideband_sealCache (f : Sideband → Sideband) (s : State) : (modSideband f s).sealCache = s.sealCache := rfl
@[simp] theorem modSideband_keys (f : Sideband → Sideband) (s : State) : (modSideband f s).keys = s.keys := rfl
@[simp] theorem modSideband_sensors (f : Sideband → Sideband) (s : State) : (modSideband f s).sensors = s.sensors := rfl
@[simp] theorem modSideband_bonds (f : Sideband → Sideband) (s : State) : (modSideband f s).bonds = s.bonds := rfl
@[simp] theorem modSideband_thermal (f : Sideband → Sideband) (s : State) : (modSideband f s).thermal = s.thermal := rfl
@[simp] theorem modSideband_mailboxes (f : Sideband → Sideband) (s : State) : (modSideband f s).mailboxes = s.mailboxes := rfl
@[simp] theorem modSideband_tasks (f : Sideband → Sideband) (s : State) : (modSideband f s).tasks = s.tasks := rfl
@[simp] theorem modSideband_nextTicket (f : Sideband → Sideband) (s : State) : (modSideband f s).nextTicket = s.nextTicket := rfl
@[simp] theorem modSideband_mover (f : Sideband → Sideband) (s : State) : (modSideband f s).mover = s.mover := rfl
@[simp] theorem modSideband_repairLog (f : Sideband → Sideband) (s : State) : (modSideband f s).repairLog = s.repairLog := rfl
@[simp] theorem modSideband_repairLogB (f : Sideband → Sideband) (s : State) : (modSideband f s).repairLogB = s.repairLogB := rfl
@[simp] theorem modSideband_firmware (f : Sideband → Sideband) (s : State) : (modSideband f s).firmware = s.firmware := rfl
@[simp] theorem modSideband_log (f : Sideband → Sideband) (s : State) : (modSideband f s).log = s.log := rfl
@[simp] theorem modSideband_fuses (f : Sideband → Sideband) (s : State) : (modSideband f s).fuses = s.fuses := rfl
@[simp] theorem modSideband_rotation (f : Sideband → Sideband) (s : State) : (modSideband f s).rotation = s.rotation := rfl
@[simp] theorem modSideband_salts (f : Sideband → Sideband) (s : State) : (modSideband f s).salts = s.salts := rfl

@[simp] theorem modSideband_self (f : Sideband → Sideband) (s : State) : (modSideband f s).sideband = f s.sideband := rfl

/-! ### modFuses -/

@[simp] theorem modFuses_pending (f : FuseArray → FuseArray) (s : State) : (modFuses f s).pending = s.pending := rfl
@[simp] theorem modFuses_hubTimer (f : FuseArray → FuseArray) (s : State) : (modFuses f s).hubTimer = s.hubTimer := rfl
@[simp] theorem modFuses_drawn (f : FuseArray → FuseArray) (s : State) : (modFuses f s).drawn = s.drawn := rfl
@[simp] theorem modFuses_presented (f : FuseArray → FuseArray) (s : State) : (modFuses f s).presented = s.presented := rfl
@[simp] theorem modFuses_device (f : FuseArray → FuseArray) (s : State) : (modFuses f s).device = s.device := rfl
@[simp] theorem modFuses_params (f : FuseArray → FuseArray) (s : State) : (modFuses f s).params = s.params := rfl
@[simp] theorem modFuses_dram (f : FuseArray → FuseArray) (s : State) : (modFuses f s).dram = s.dram := rfl
@[simp] theorem modFuses_ports (f : FuseArray → FuseArray) (s : State) : (modFuses f s).ports = s.ports := rfl
@[simp] theorem modFuses_quarters (f : FuseArray → FuseArray) (s : State) : (modFuses f s).quarters = s.quarters := rfl
@[simp] theorem modFuses_channels (f : FuseArray → FuseArray) (s : State) : (modFuses f s).channels = s.channels := rfl
@[simp] theorem modFuses_blocks (f : FuseArray → FuseArray) (s : State) : (modFuses f s).blocks = s.blocks := rfl
@[simp] theorem modFuses_partitions (f : FuseArray → FuseArray) (s : State) : (modFuses f s).partitions = s.partitions := rfl
@[simp] theorem modFuses_granuleMap (f : FuseArray → FuseArray) (s : State) : (modFuses f s).granuleMap = s.granuleMap := rfl
@[simp] theorem modFuses_refills (f : FuseArray → FuseArray) (s : State) : (modFuses f s).refills = s.refills := rfl
@[simp] theorem modFuses_tables (f : FuseArray → FuseArray) (s : State) : (modFuses f s).tables = s.tables := rfl
@[simp] theorem modFuses_directory (f : FuseArray → FuseArray) (s : State) : (modFuses f s).directory = s.directory := rfl
@[simp] theorem modFuses_directoryBad (f : FuseArray → FuseArray) (s : State) : (modFuses f s).directoryBad = s.directoryBad := rfl
@[simp] theorem modFuses_queues (f : FuseArray → FuseArray) (s : State) : (modFuses f s).queues = s.queues := rfl
@[simp] theorem modFuses_profiles (f : FuseArray → FuseArray) (s : State) : (modFuses f s).profiles = s.profiles := rfl
@[simp] theorem modFuses_freeCaches (f : FuseArray → FuseArray) (s : State) : (modFuses f s).freeCaches = s.freeCaches := rfl
@[simp] theorem modFuses_kennel (f : FuseArray → FuseArray) (s : State) : (modFuses f s).kennel = s.kennel := rfl
@[simp] theorem modFuses_waysDisabled (f : FuseArray → FuseArray) (s : State) : (modFuses f s).waysDisabled = s.waysDisabled := rfl
@[simp] theorem modFuses_sealCache (f : FuseArray → FuseArray) (s : State) : (modFuses f s).sealCache = s.sealCache := rfl
@[simp] theorem modFuses_keys (f : FuseArray → FuseArray) (s : State) : (modFuses f s).keys = s.keys := rfl
@[simp] theorem modFuses_sensors (f : FuseArray → FuseArray) (s : State) : (modFuses f s).sensors = s.sensors := rfl
@[simp] theorem modFuses_bonds (f : FuseArray → FuseArray) (s : State) : (modFuses f s).bonds = s.bonds := rfl
@[simp] theorem modFuses_thermal (f : FuseArray → FuseArray) (s : State) : (modFuses f s).thermal = s.thermal := rfl
@[simp] theorem modFuses_mailboxes (f : FuseArray → FuseArray) (s : State) : (modFuses f s).mailboxes = s.mailboxes := rfl
@[simp] theorem modFuses_tasks (f : FuseArray → FuseArray) (s : State) : (modFuses f s).tasks = s.tasks := rfl
@[simp] theorem modFuses_nextTicket (f : FuseArray → FuseArray) (s : State) : (modFuses f s).nextTicket = s.nextTicket := rfl
@[simp] theorem modFuses_mover (f : FuseArray → FuseArray) (s : State) : (modFuses f s).mover = s.mover := rfl
@[simp] theorem modFuses_repairLog (f : FuseArray → FuseArray) (s : State) : (modFuses f s).repairLog = s.repairLog := rfl
@[simp] theorem modFuses_repairLogB (f : FuseArray → FuseArray) (s : State) : (modFuses f s).repairLogB = s.repairLogB := rfl
@[simp] theorem modFuses_firmware (f : FuseArray → FuseArray) (s : State) : (modFuses f s).firmware = s.firmware := rfl
@[simp] theorem modFuses_log (f : FuseArray → FuseArray) (s : State) : (modFuses f s).log = s.log := rfl
@[simp] theorem modFuses_sideband (f : FuseArray → FuseArray) (s : State) : (modFuses f s).sideband = s.sideband := rfl
@[simp] theorem modFuses_rotation (f : FuseArray → FuseArray) (s : State) : (modFuses f s).rotation = s.rotation := rfl
@[simp] theorem modFuses_salts (f : FuseArray → FuseArray) (s : State) : (modFuses f s).salts = s.salts := rfl

@[simp] theorem modFuses_self (f : FuseArray → FuseArray) (s : State) : (modFuses f s).fuses = f s.fuses := rfl

/-! ### modQueue -/

@[simp] theorem modQueue_pending (q : Nat) (f : Queue → Queue) (s : State) : (modQueue q f s).pending = s.pending := rfl
@[simp] theorem modQueue_hubTimer (q : Nat) (f : Queue → Queue) (s : State) : (modQueue q f s).hubTimer = s.hubTimer := rfl
@[simp] theorem modQueue_drawn (q : Nat) (f : Queue → Queue) (s : State) : (modQueue q f s).drawn = s.drawn := rfl
@[simp] theorem modQueue_presented (q : Nat) (f : Queue → Queue) (s : State) : (modQueue q f s).presented = s.presented := rfl
@[simp] theorem modQueue_device (q : Nat) (f : Queue → Queue) (s : State) : (modQueue q f s).device = s.device := rfl
@[simp] theorem modQueue_params (q : Nat) (f : Queue → Queue) (s : State) : (modQueue q f s).params = s.params := rfl
@[simp] theorem modQueue_dram (q : Nat) (f : Queue → Queue) (s : State) : (modQueue q f s).dram = s.dram := rfl
@[simp] theorem modQueue_ports (q : Nat) (f : Queue → Queue) (s : State) : (modQueue q f s).ports = s.ports := rfl
@[simp] theorem modQueue_quarters (q : Nat) (f : Queue → Queue) (s : State) : (modQueue q f s).quarters = s.quarters := rfl
@[simp] theorem modQueue_channels (q : Nat) (f : Queue → Queue) (s : State) : (modQueue q f s).channels = s.channels := rfl
@[simp] theorem modQueue_blocks (q : Nat) (f : Queue → Queue) (s : State) : (modQueue q f s).blocks = s.blocks := rfl
@[simp] theorem modQueue_partitions (q : Nat) (f : Queue → Queue) (s : State) : (modQueue q f s).partitions = s.partitions := rfl
@[simp] theorem modQueue_granuleMap (q : Nat) (f : Queue → Queue) (s : State) : (modQueue q f s).granuleMap = s.granuleMap := rfl
@[simp] theorem modQueue_refills (q : Nat) (f : Queue → Queue) (s : State) : (modQueue q f s).refills = s.refills := rfl
@[simp] theorem modQueue_tables (q : Nat) (f : Queue → Queue) (s : State) : (modQueue q f s).tables = s.tables := rfl
@[simp] theorem modQueue_directory (q : Nat) (f : Queue → Queue) (s : State) : (modQueue q f s).directory = s.directory := rfl
@[simp] theorem modQueue_directoryBad (q : Nat) (f : Queue → Queue) (s : State) : (modQueue q f s).directoryBad = s.directoryBad := rfl
@[simp] theorem modQueue_profiles (q : Nat) (f : Queue → Queue) (s : State) : (modQueue q f s).profiles = s.profiles := rfl
@[simp] theorem modQueue_freeCaches (q : Nat) (f : Queue → Queue) (s : State) : (modQueue q f s).freeCaches = s.freeCaches := rfl
@[simp] theorem modQueue_kennel (q : Nat) (f : Queue → Queue) (s : State) : (modQueue q f s).kennel = s.kennel := rfl
@[simp] theorem modQueue_waysDisabled (q : Nat) (f : Queue → Queue) (s : State) : (modQueue q f s).waysDisabled = s.waysDisabled := rfl
@[simp] theorem modQueue_sealCache (q : Nat) (f : Queue → Queue) (s : State) : (modQueue q f s).sealCache = s.sealCache := rfl
@[simp] theorem modQueue_keys (q : Nat) (f : Queue → Queue) (s : State) : (modQueue q f s).keys = s.keys := rfl
@[simp] theorem modQueue_sensors (q : Nat) (f : Queue → Queue) (s : State) : (modQueue q f s).sensors = s.sensors := rfl
@[simp] theorem modQueue_bonds (q : Nat) (f : Queue → Queue) (s : State) : (modQueue q f s).bonds = s.bonds := rfl
@[simp] theorem modQueue_thermal (q : Nat) (f : Queue → Queue) (s : State) : (modQueue q f s).thermal = s.thermal := rfl
@[simp] theorem modQueue_mailboxes (q : Nat) (f : Queue → Queue) (s : State) : (modQueue q f s).mailboxes = s.mailboxes := rfl
@[simp] theorem modQueue_tasks (q : Nat) (f : Queue → Queue) (s : State) : (modQueue q f s).tasks = s.tasks := rfl
@[simp] theorem modQueue_nextTicket (q : Nat) (f : Queue → Queue) (s : State) : (modQueue q f s).nextTicket = s.nextTicket := rfl
@[simp] theorem modQueue_mover (q : Nat) (f : Queue → Queue) (s : State) : (modQueue q f s).mover = s.mover := rfl
@[simp] theorem modQueue_repairLog (q : Nat) (f : Queue → Queue) (s : State) : (modQueue q f s).repairLog = s.repairLog := rfl
@[simp] theorem modQueue_repairLogB (q : Nat) (f : Queue → Queue) (s : State) : (modQueue q f s).repairLogB = s.repairLogB := rfl
@[simp] theorem modQueue_firmware (q : Nat) (f : Queue → Queue) (s : State) : (modQueue q f s).firmware = s.firmware := rfl
@[simp] theorem modQueue_log (q : Nat) (f : Queue → Queue) (s : State) : (modQueue q f s).log = s.log := rfl
@[simp] theorem modQueue_sideband (q : Nat) (f : Queue → Queue) (s : State) : (modQueue q f s).sideband = s.sideband := rfl
@[simp] theorem modQueue_fuses (q : Nat) (f : Queue → Queue) (s : State) : (modQueue q f s).fuses = s.fuses := rfl
@[simp] theorem modQueue_rotation (q : Nat) (f : Queue → Queue) (s : State) : (modQueue q f s).rotation = s.rotation := rfl
@[simp] theorem modQueue_salts (q : Nat) (f : Queue → Queue) (s : State) : (modQueue q f s).salts = s.salts := rfl

/-! ### setGranule -/

@[simp] theorem setGranule_pending (g : Nat) (e : BitVec 16) (s : State) : (setGranule g e s).pending = s.pending := rfl
@[simp] theorem setGranule_hubTimer (g : Nat) (e : BitVec 16) (s : State) : (setGranule g e s).hubTimer = s.hubTimer := rfl
@[simp] theorem setGranule_drawn (g : Nat) (e : BitVec 16) (s : State) : (setGranule g e s).drawn = s.drawn := rfl
@[simp] theorem setGranule_presented (g : Nat) (e : BitVec 16) (s : State) : (setGranule g e s).presented = s.presented := rfl
@[simp] theorem setGranule_device (g : Nat) (e : BitVec 16) (s : State) : (setGranule g e s).device = s.device := rfl
@[simp] theorem setGranule_params (g : Nat) (e : BitVec 16) (s : State) : (setGranule g e s).params = s.params := rfl
@[simp] theorem setGranule_dram (g : Nat) (e : BitVec 16) (s : State) : (setGranule g e s).dram = s.dram := rfl
@[simp] theorem setGranule_ports (g : Nat) (e : BitVec 16) (s : State) : (setGranule g e s).ports = s.ports := rfl
@[simp] theorem setGranule_quarters (g : Nat) (e : BitVec 16) (s : State) : (setGranule g e s).quarters = s.quarters := rfl
@[simp] theorem setGranule_channels (g : Nat) (e : BitVec 16) (s : State) : (setGranule g e s).channels = s.channels := rfl
@[simp] theorem setGranule_blocks (g : Nat) (e : BitVec 16) (s : State) : (setGranule g e s).blocks = s.blocks := rfl
@[simp] theorem setGranule_partitions (g : Nat) (e : BitVec 16) (s : State) : (setGranule g e s).partitions = s.partitions := rfl
@[simp] theorem setGranule_refills (g : Nat) (e : BitVec 16) (s : State) : (setGranule g e s).refills = s.refills := rfl
@[simp] theorem setGranule_tables (g : Nat) (e : BitVec 16) (s : State) : (setGranule g e s).tables = s.tables := rfl
@[simp] theorem setGranule_directory (g : Nat) (e : BitVec 16) (s : State) : (setGranule g e s).directory = s.directory := rfl
@[simp] theorem setGranule_directoryBad (g : Nat) (e : BitVec 16) (s : State) : (setGranule g e s).directoryBad = s.directoryBad := rfl
@[simp] theorem setGranule_queues (g : Nat) (e : BitVec 16) (s : State) : (setGranule g e s).queues = s.queues := rfl
@[simp] theorem setGranule_profiles (g : Nat) (e : BitVec 16) (s : State) : (setGranule g e s).profiles = s.profiles := rfl
@[simp] theorem setGranule_freeCaches (g : Nat) (e : BitVec 16) (s : State) : (setGranule g e s).freeCaches = s.freeCaches := rfl
@[simp] theorem setGranule_kennel (g : Nat) (e : BitVec 16) (s : State) : (setGranule g e s).kennel = s.kennel := rfl
@[simp] theorem setGranule_waysDisabled (g : Nat) (e : BitVec 16) (s : State) : (setGranule g e s).waysDisabled = s.waysDisabled := rfl
@[simp] theorem setGranule_sealCache (g : Nat) (e : BitVec 16) (s : State) : (setGranule g e s).sealCache = s.sealCache := rfl
@[simp] theorem setGranule_keys (g : Nat) (e : BitVec 16) (s : State) : (setGranule g e s).keys = s.keys := rfl
@[simp] theorem setGranule_sensors (g : Nat) (e : BitVec 16) (s : State) : (setGranule g e s).sensors = s.sensors := rfl
@[simp] theorem setGranule_bonds (g : Nat) (e : BitVec 16) (s : State) : (setGranule g e s).bonds = s.bonds := rfl
@[simp] theorem setGranule_thermal (g : Nat) (e : BitVec 16) (s : State) : (setGranule g e s).thermal = s.thermal := rfl
@[simp] theorem setGranule_mailboxes (g : Nat) (e : BitVec 16) (s : State) : (setGranule g e s).mailboxes = s.mailboxes := rfl
@[simp] theorem setGranule_tasks (g : Nat) (e : BitVec 16) (s : State) : (setGranule g e s).tasks = s.tasks := rfl
@[simp] theorem setGranule_nextTicket (g : Nat) (e : BitVec 16) (s : State) : (setGranule g e s).nextTicket = s.nextTicket := rfl
@[simp] theorem setGranule_mover (g : Nat) (e : BitVec 16) (s : State) : (setGranule g e s).mover = s.mover := rfl
@[simp] theorem setGranule_repairLog (g : Nat) (e : BitVec 16) (s : State) : (setGranule g e s).repairLog = s.repairLog := rfl
@[simp] theorem setGranule_repairLogB (g : Nat) (e : BitVec 16) (s : State) : (setGranule g e s).repairLogB = s.repairLogB := rfl
@[simp] theorem setGranule_firmware (g : Nat) (e : BitVec 16) (s : State) : (setGranule g e s).firmware = s.firmware := rfl
@[simp] theorem setGranule_log (g : Nat) (e : BitVec 16) (s : State) : (setGranule g e s).log = s.log := rfl
@[simp] theorem setGranule_sideband (g : Nat) (e : BitVec 16) (s : State) : (setGranule g e s).sideband = s.sideband := rfl
@[simp] theorem setGranule_fuses (g : Nat) (e : BitVec 16) (s : State) : (setGranule g e s).fuses = s.fuses := rfl
@[simp] theorem setGranule_rotation (g : Nat) (e : BitVec 16) (s : State) : (setGranule g e s).rotation = s.rotation := rfl
@[simp] theorem setGranule_salts (g : Nat) (e : BitVec 16) (s : State) : (setGranule g e s).salts = s.salts := rfl

/-! ### setDirectory -/

@[simp] theorem setDirectory_pending (i : Nat) (e : BitVec 64) (s : State) : (setDirectory i e s).pending = s.pending := rfl
@[simp] theorem setDirectory_hubTimer (i : Nat) (e : BitVec 64) (s : State) : (setDirectory i e s).hubTimer = s.hubTimer := rfl
@[simp] theorem setDirectory_drawn (i : Nat) (e : BitVec 64) (s : State) : (setDirectory i e s).drawn = s.drawn := rfl
@[simp] theorem setDirectory_presented (i : Nat) (e : BitVec 64) (s : State) : (setDirectory i e s).presented = s.presented := rfl
@[simp] theorem setDirectory_device (i : Nat) (e : BitVec 64) (s : State) : (setDirectory i e s).device = s.device := rfl
@[simp] theorem setDirectory_params (i : Nat) (e : BitVec 64) (s : State) : (setDirectory i e s).params = s.params := rfl
@[simp] theorem setDirectory_dram (i : Nat) (e : BitVec 64) (s : State) : (setDirectory i e s).dram = s.dram := rfl
@[simp] theorem setDirectory_ports (i : Nat) (e : BitVec 64) (s : State) : (setDirectory i e s).ports = s.ports := rfl
@[simp] theorem setDirectory_quarters (i : Nat) (e : BitVec 64) (s : State) : (setDirectory i e s).quarters = s.quarters := rfl
@[simp] theorem setDirectory_channels (i : Nat) (e : BitVec 64) (s : State) : (setDirectory i e s).channels = s.channels := rfl
@[simp] theorem setDirectory_blocks (i : Nat) (e : BitVec 64) (s : State) : (setDirectory i e s).blocks = s.blocks := rfl
@[simp] theorem setDirectory_partitions (i : Nat) (e : BitVec 64) (s : State) : (setDirectory i e s).partitions = s.partitions := rfl
@[simp] theorem setDirectory_granuleMap (i : Nat) (e : BitVec 64) (s : State) : (setDirectory i e s).granuleMap = s.granuleMap := rfl
@[simp] theorem setDirectory_refills (i : Nat) (e : BitVec 64) (s : State) : (setDirectory i e s).refills = s.refills := rfl
@[simp] theorem setDirectory_tables (i : Nat) (e : BitVec 64) (s : State) : (setDirectory i e s).tables = s.tables := rfl
@[simp] theorem setDirectory_directoryBad (i : Nat) (e : BitVec 64) (s : State) : (setDirectory i e s).directoryBad = s.directoryBad := rfl
@[simp] theorem setDirectory_queues (i : Nat) (e : BitVec 64) (s : State) : (setDirectory i e s).queues = s.queues := rfl
@[simp] theorem setDirectory_profiles (i : Nat) (e : BitVec 64) (s : State) : (setDirectory i e s).profiles = s.profiles := rfl
@[simp] theorem setDirectory_freeCaches (i : Nat) (e : BitVec 64) (s : State) : (setDirectory i e s).freeCaches = s.freeCaches := rfl
@[simp] theorem setDirectory_kennel (i : Nat) (e : BitVec 64) (s : State) : (setDirectory i e s).kennel = s.kennel := rfl
@[simp] theorem setDirectory_waysDisabled (i : Nat) (e : BitVec 64) (s : State) : (setDirectory i e s).waysDisabled = s.waysDisabled := rfl
@[simp] theorem setDirectory_sealCache (i : Nat) (e : BitVec 64) (s : State) : (setDirectory i e s).sealCache = s.sealCache := rfl
@[simp] theorem setDirectory_keys (i : Nat) (e : BitVec 64) (s : State) : (setDirectory i e s).keys = s.keys := rfl
@[simp] theorem setDirectory_sensors (i : Nat) (e : BitVec 64) (s : State) : (setDirectory i e s).sensors = s.sensors := rfl
@[simp] theorem setDirectory_bonds (i : Nat) (e : BitVec 64) (s : State) : (setDirectory i e s).bonds = s.bonds := rfl
@[simp] theorem setDirectory_thermal (i : Nat) (e : BitVec 64) (s : State) : (setDirectory i e s).thermal = s.thermal := rfl
@[simp] theorem setDirectory_mailboxes (i : Nat) (e : BitVec 64) (s : State) : (setDirectory i e s).mailboxes = s.mailboxes := rfl
@[simp] theorem setDirectory_tasks (i : Nat) (e : BitVec 64) (s : State) : (setDirectory i e s).tasks = s.tasks := rfl
@[simp] theorem setDirectory_nextTicket (i : Nat) (e : BitVec 64) (s : State) : (setDirectory i e s).nextTicket = s.nextTicket := rfl
@[simp] theorem setDirectory_mover (i : Nat) (e : BitVec 64) (s : State) : (setDirectory i e s).mover = s.mover := rfl
@[simp] theorem setDirectory_repairLog (i : Nat) (e : BitVec 64) (s : State) : (setDirectory i e s).repairLog = s.repairLog := rfl
@[simp] theorem setDirectory_repairLogB (i : Nat) (e : BitVec 64) (s : State) : (setDirectory i e s).repairLogB = s.repairLogB := rfl
@[simp] theorem setDirectory_firmware (i : Nat) (e : BitVec 64) (s : State) : (setDirectory i e s).firmware = s.firmware := rfl
@[simp] theorem setDirectory_log (i : Nat) (e : BitVec 64) (s : State) : (setDirectory i e s).log = s.log := rfl
@[simp] theorem setDirectory_sideband (i : Nat) (e : BitVec 64) (s : State) : (setDirectory i e s).sideband = s.sideband := rfl
@[simp] theorem setDirectory_fuses (i : Nat) (e : BitVec 64) (s : State) : (setDirectory i e s).fuses = s.fuses := rfl
@[simp] theorem setDirectory_rotation (i : Nat) (e : BitVec 64) (s : State) : (setDirectory i e s).rotation = s.rotation := rfl
@[simp] theorem setDirectory_salts (i : Nat) (e : BitVec 64) (s : State) : (setDirectory i e s).salts = s.salts := rfl

/-! ### setFreeCache -/

@[simp] theorem setFreeCache_pending (slice pd : Nat) (cells : List Nat) (s : State) : (setFreeCache slice pd cells s).pending = s.pending := rfl
@[simp] theorem setFreeCache_hubTimer (slice pd : Nat) (cells : List Nat) (s : State) : (setFreeCache slice pd cells s).hubTimer = s.hubTimer := rfl
@[simp] theorem setFreeCache_drawn (slice pd : Nat) (cells : List Nat) (s : State) : (setFreeCache slice pd cells s).drawn = s.drawn := rfl
@[simp] theorem setFreeCache_presented (slice pd : Nat) (cells : List Nat) (s : State) : (setFreeCache slice pd cells s).presented = s.presented := rfl
@[simp] theorem setFreeCache_device (slice pd : Nat) (cells : List Nat) (s : State) : (setFreeCache slice pd cells s).device = s.device := rfl
@[simp] theorem setFreeCache_params (slice pd : Nat) (cells : List Nat) (s : State) : (setFreeCache slice pd cells s).params = s.params := rfl
@[simp] theorem setFreeCache_dram (slice pd : Nat) (cells : List Nat) (s : State) : (setFreeCache slice pd cells s).dram = s.dram := rfl
@[simp] theorem setFreeCache_ports (slice pd : Nat) (cells : List Nat) (s : State) : (setFreeCache slice pd cells s).ports = s.ports := rfl
@[simp] theorem setFreeCache_quarters (slice pd : Nat) (cells : List Nat) (s : State) : (setFreeCache slice pd cells s).quarters = s.quarters := rfl
@[simp] theorem setFreeCache_channels (slice pd : Nat) (cells : List Nat) (s : State) : (setFreeCache slice pd cells s).channels = s.channels := rfl
@[simp] theorem setFreeCache_blocks (slice pd : Nat) (cells : List Nat) (s : State) : (setFreeCache slice pd cells s).blocks = s.blocks := rfl
@[simp] theorem setFreeCache_partitions (slice pd : Nat) (cells : List Nat) (s : State) : (setFreeCache slice pd cells s).partitions = s.partitions := rfl
@[simp] theorem setFreeCache_granuleMap (slice pd : Nat) (cells : List Nat) (s : State) : (setFreeCache slice pd cells s).granuleMap = s.granuleMap := rfl
@[simp] theorem setFreeCache_refills (slice pd : Nat) (cells : List Nat) (s : State) : (setFreeCache slice pd cells s).refills = s.refills := rfl
@[simp] theorem setFreeCache_tables (slice pd : Nat) (cells : List Nat) (s : State) : (setFreeCache slice pd cells s).tables = s.tables := rfl
@[simp] theorem setFreeCache_directory (slice pd : Nat) (cells : List Nat) (s : State) : (setFreeCache slice pd cells s).directory = s.directory := rfl
@[simp] theorem setFreeCache_directoryBad (slice pd : Nat) (cells : List Nat) (s : State) : (setFreeCache slice pd cells s).directoryBad = s.directoryBad := rfl
@[simp] theorem setFreeCache_queues (slice pd : Nat) (cells : List Nat) (s : State) : (setFreeCache slice pd cells s).queues = s.queues := rfl
@[simp] theorem setFreeCache_profiles (slice pd : Nat) (cells : List Nat) (s : State) : (setFreeCache slice pd cells s).profiles = s.profiles := rfl
@[simp] theorem setFreeCache_kennel (slice pd : Nat) (cells : List Nat) (s : State) : (setFreeCache slice pd cells s).kennel = s.kennel := rfl
@[simp] theorem setFreeCache_waysDisabled (slice pd : Nat) (cells : List Nat) (s : State) : (setFreeCache slice pd cells s).waysDisabled = s.waysDisabled := rfl
@[simp] theorem setFreeCache_sealCache (slice pd : Nat) (cells : List Nat) (s : State) : (setFreeCache slice pd cells s).sealCache = s.sealCache := rfl
@[simp] theorem setFreeCache_keys (slice pd : Nat) (cells : List Nat) (s : State) : (setFreeCache slice pd cells s).keys = s.keys := rfl
@[simp] theorem setFreeCache_sensors (slice pd : Nat) (cells : List Nat) (s : State) : (setFreeCache slice pd cells s).sensors = s.sensors := rfl
@[simp] theorem setFreeCache_bonds (slice pd : Nat) (cells : List Nat) (s : State) : (setFreeCache slice pd cells s).bonds = s.bonds := rfl
@[simp] theorem setFreeCache_thermal (slice pd : Nat) (cells : List Nat) (s : State) : (setFreeCache slice pd cells s).thermal = s.thermal := rfl
@[simp] theorem setFreeCache_mailboxes (slice pd : Nat) (cells : List Nat) (s : State) : (setFreeCache slice pd cells s).mailboxes = s.mailboxes := rfl
@[simp] theorem setFreeCache_tasks (slice pd : Nat) (cells : List Nat) (s : State) : (setFreeCache slice pd cells s).tasks = s.tasks := rfl
@[simp] theorem setFreeCache_nextTicket (slice pd : Nat) (cells : List Nat) (s : State) : (setFreeCache slice pd cells s).nextTicket = s.nextTicket := rfl
@[simp] theorem setFreeCache_mover (slice pd : Nat) (cells : List Nat) (s : State) : (setFreeCache slice pd cells s).mover = s.mover := rfl
@[simp] theorem setFreeCache_repairLog (slice pd : Nat) (cells : List Nat) (s : State) : (setFreeCache slice pd cells s).repairLog = s.repairLog := rfl
@[simp] theorem setFreeCache_repairLogB (slice pd : Nat) (cells : List Nat) (s : State) : (setFreeCache slice pd cells s).repairLogB = s.repairLogB := rfl
@[simp] theorem setFreeCache_firmware (slice pd : Nat) (cells : List Nat) (s : State) : (setFreeCache slice pd cells s).firmware = s.firmware := rfl
@[simp] theorem setFreeCache_log (slice pd : Nat) (cells : List Nat) (s : State) : (setFreeCache slice pd cells s).log = s.log := rfl
@[simp] theorem setFreeCache_sideband (slice pd : Nat) (cells : List Nat) (s : State) : (setFreeCache slice pd cells s).sideband = s.sideband := rfl
@[simp] theorem setFreeCache_fuses (slice pd : Nat) (cells : List Nat) (s : State) : (setFreeCache slice pd cells s).fuses = s.fuses := rfl
@[simp] theorem setFreeCache_rotation (slice pd : Nat) (cells : List Nat) (s : State) : (setFreeCache slice pd cells s).rotation = s.rotation := rfl
@[simp] theorem setFreeCache_salts (slice pd : Nat) (cells : List Nat) (s : State) : (setFreeCache slice pd cells s).salts = s.salts := rfl

/-! ### passTo -/

@[simp] theorem passTo_pending (t : Nat) (s : State) : (passTo t s).pending = s.pending := rfl
@[simp] theorem passTo_drawn (t : Nat) (s : State) : (passTo t s).drawn = s.drawn := rfl
@[simp] theorem passTo_presented (t : Nat) (s : State) : (passTo t s).presented = s.presented := rfl
@[simp] theorem passTo_device (t : Nat) (s : State) : (passTo t s).device = s.device := rfl
@[simp] theorem passTo_params (t : Nat) (s : State) : (passTo t s).params = s.params := rfl
@[simp] theorem passTo_dram (t : Nat) (s : State) : (passTo t s).dram = s.dram := rfl
@[simp] theorem passTo_ports (t : Nat) (s : State) : (passTo t s).ports = s.ports := rfl
@[simp] theorem passTo_quarters (t : Nat) (s : State) : (passTo t s).quarters = s.quarters := rfl
@[simp] theorem passTo_channels (t : Nat) (s : State) : (passTo t s).channels = s.channels := rfl
@[simp] theorem passTo_blocks (t : Nat) (s : State) : (passTo t s).blocks = s.blocks := rfl
@[simp] theorem passTo_partitions (t : Nat) (s : State) : (passTo t s).partitions = s.partitions := rfl
@[simp] theorem passTo_granuleMap (t : Nat) (s : State) : (passTo t s).granuleMap = s.granuleMap := rfl
@[simp] theorem passTo_refills (t : Nat) (s : State) : (passTo t s).refills = s.refills := rfl
@[simp] theorem passTo_tables (t : Nat) (s : State) : (passTo t s).tables = s.tables := rfl
@[simp] theorem passTo_directory (t : Nat) (s : State) : (passTo t s).directory = s.directory := rfl
@[simp] theorem passTo_directoryBad (t : Nat) (s : State) : (passTo t s).directoryBad = s.directoryBad := rfl
@[simp] theorem passTo_queues (t : Nat) (s : State) : (passTo t s).queues = s.queues := rfl
@[simp] theorem passTo_profiles (t : Nat) (s : State) : (passTo t s).profiles = s.profiles := rfl
@[simp] theorem passTo_freeCaches (t : Nat) (s : State) : (passTo t s).freeCaches = s.freeCaches := rfl
@[simp] theorem passTo_kennel (t : Nat) (s : State) : (passTo t s).kennel = s.kennel := rfl
@[simp] theorem passTo_waysDisabled (t : Nat) (s : State) : (passTo t s).waysDisabled = s.waysDisabled := rfl
@[simp] theorem passTo_sealCache (t : Nat) (s : State) : (passTo t s).sealCache = s.sealCache := rfl
@[simp] theorem passTo_keys (t : Nat) (s : State) : (passTo t s).keys = s.keys := rfl
@[simp] theorem passTo_sensors (t : Nat) (s : State) : (passTo t s).sensors = s.sensors := rfl
@[simp] theorem passTo_bonds (t : Nat) (s : State) : (passTo t s).bonds = s.bonds := rfl
@[simp] theorem passTo_thermal (t : Nat) (s : State) : (passTo t s).thermal = s.thermal := rfl
@[simp] theorem passTo_mailboxes (t : Nat) (s : State) : (passTo t s).mailboxes = s.mailboxes := rfl
@[simp] theorem passTo_tasks (t : Nat) (s : State) : (passTo t s).tasks = s.tasks := rfl
@[simp] theorem passTo_nextTicket (t : Nat) (s : State) : (passTo t s).nextTicket = s.nextTicket := rfl
@[simp] theorem passTo_mover (t : Nat) (s : State) : (passTo t s).mover = s.mover := rfl
@[simp] theorem passTo_repairLog (t : Nat) (s : State) : (passTo t s).repairLog = s.repairLog := rfl
@[simp] theorem passTo_repairLogB (t : Nat) (s : State) : (passTo t s).repairLogB = s.repairLogB := rfl
@[simp] theorem passTo_firmware (t : Nat) (s : State) : (passTo t s).firmware = s.firmware := rfl
@[simp] theorem passTo_log (t : Nat) (s : State) : (passTo t s).log = s.log := rfl
@[simp] theorem passTo_sideband (t : Nat) (s : State) : (passTo t s).sideband = s.sideband := rfl
@[simp] theorem passTo_fuses (t : Nat) (s : State) : (passTo t s).fuses = s.fuses := rfl
@[simp] theorem passTo_rotation (t : Nat) (s : State) : (passTo t s).rotation = s.rotation := rfl
@[simp] theorem passTo_salts (t : Nat) (s : State) : (passTo t s).salts = s.salts := rfl

/-! ### drawOne -/

@[simp] theorem drawOne_pending (s : State) : (drawOne s).pending = s.pending := rfl
@[simp] theorem drawOne_hubTimer (s : State) : (drawOne s).hubTimer = s.hubTimer := rfl
@[simp] theorem drawOne_presented (s : State) : (drawOne s).presented = s.presented := rfl
@[simp] theorem drawOne_device (s : State) : (drawOne s).device = s.device := rfl
@[simp] theorem drawOne_params (s : State) : (drawOne s).params = s.params := rfl
@[simp] theorem drawOne_dram (s : State) : (drawOne s).dram = s.dram := rfl
@[simp] theorem drawOne_ports (s : State) : (drawOne s).ports = s.ports := rfl
@[simp] theorem drawOne_quarters (s : State) : (drawOne s).quarters = s.quarters := rfl
@[simp] theorem drawOne_channels (s : State) : (drawOne s).channels = s.channels := rfl
@[simp] theorem drawOne_blocks (s : State) : (drawOne s).blocks = s.blocks := rfl
@[simp] theorem drawOne_partitions (s : State) : (drawOne s).partitions = s.partitions := rfl
@[simp] theorem drawOne_granuleMap (s : State) : (drawOne s).granuleMap = s.granuleMap := rfl
@[simp] theorem drawOne_refills (s : State) : (drawOne s).refills = s.refills := rfl
@[simp] theorem drawOne_tables (s : State) : (drawOne s).tables = s.tables := rfl
@[simp] theorem drawOne_directory (s : State) : (drawOne s).directory = s.directory := rfl
@[simp] theorem drawOne_directoryBad (s : State) : (drawOne s).directoryBad = s.directoryBad := rfl
@[simp] theorem drawOne_queues (s : State) : (drawOne s).queues = s.queues := rfl
@[simp] theorem drawOne_profiles (s : State) : (drawOne s).profiles = s.profiles := rfl
@[simp] theorem drawOne_freeCaches (s : State) : (drawOne s).freeCaches = s.freeCaches := rfl
@[simp] theorem drawOne_kennel (s : State) : (drawOne s).kennel = s.kennel := rfl
@[simp] theorem drawOne_waysDisabled (s : State) : (drawOne s).waysDisabled = s.waysDisabled := rfl
@[simp] theorem drawOne_sealCache (s : State) : (drawOne s).sealCache = s.sealCache := rfl
@[simp] theorem drawOne_keys (s : State) : (drawOne s).keys = s.keys := rfl
@[simp] theorem drawOne_sensors (s : State) : (drawOne s).sensors = s.sensors := rfl
@[simp] theorem drawOne_bonds (s : State) : (drawOne s).bonds = s.bonds := rfl
@[simp] theorem drawOne_thermal (s : State) : (drawOne s).thermal = s.thermal := rfl
@[simp] theorem drawOne_mailboxes (s : State) : (drawOne s).mailboxes = s.mailboxes := rfl
@[simp] theorem drawOne_tasks (s : State) : (drawOne s).tasks = s.tasks := rfl
@[simp] theorem drawOne_nextTicket (s : State) : (drawOne s).nextTicket = s.nextTicket := rfl
@[simp] theorem drawOne_mover (s : State) : (drawOne s).mover = s.mover := rfl
@[simp] theorem drawOne_repairLog (s : State) : (drawOne s).repairLog = s.repairLog := rfl
@[simp] theorem drawOne_repairLogB (s : State) : (drawOne s).repairLogB = s.repairLogB := rfl
@[simp] theorem drawOne_firmware (s : State) : (drawOne s).firmware = s.firmware := rfl
@[simp] theorem drawOne_log (s : State) : (drawOne s).log = s.log := rfl
@[simp] theorem drawOne_sideband (s : State) : (drawOne s).sideband = s.sideband := rfl
@[simp] theorem drawOne_fuses (s : State) : (drawOne s).fuses = s.fuses := rfl
@[simp] theorem drawOne_rotation (s : State) : (drawOne s).rotation = s.rotation := rfl
@[simp] theorem drawOne_salts (s : State) : (drawOne s).salts = s.salts := rfl

end Sys2Proof.Laws
end

