-- ==== Sys2Proof/Tests/Slice0.lean ====
section
/-! SUPPORT. Tests: well-formedness, small checks against the spec's own figures, and for every statement with hypotheses
states and operands that meet them. -/

namespace Sys2Proof.Tests

open Sys2Proof Sys2Proof.Machine Sys2Proof.Safety

set_option Elab.async false

/-! ### Small states -/

/-- A partition of one mapped granule that every requester may read and write. -/
def openPartition (ptype : PType) (base : Nat) : Partition :=
  { valid := true, ptype := ptype, base := base, granules := 1, rights := 0x7FFFF, owner := 0xF }

/-- A line whose first policer runs in mode 1 with bursts of 1 byte. -/
def runningPolicer : Line := linePut (linePut (linePut 0 120 2 1) 192 24 1) 216 24 1

/-- A READY stack: partner attached on port 0, partitions 0 to 3 of the four types, a table of each kind, an ACTIVE queue 0
and an empty BUFFER pool of which one cell is the queue's spare. -/
def ready : State :=
  { State.reset with
    device := { dev := .ready }
    partitions := (((State.reset.partitions.set 0 (openPartition .raw 0)).set 1 (openPartition .table 1)).set 2
      { openPartition .buffer 2 with buffer := { used := 1, fresh := 1 } }).set 3
      { openPartition .counter 3 with granules := 2, counter := { regionBase := 1, regionGranules := 1 } }
    granuleMap := [(0, 1), (1, 65), (2, 129), (3, 193), (4, 257)]
    tables := (State.reset.tables.set 0 { valid := true, partition := 1, keyLen := 4, bucketLog2 := 10, regionBlocks := 1024 }).set 1
      { valid := true, prefixKind := true, partition := 1, keyLen := 4, baseBlock := 1024, regionBlocks := 1024, dirBits := 10 }
    queues := [(0, { state := .active, partition := 2, owner := 0xF })]
    kennel := [{ pd := 3, index := 0, set := 0, way := 0, data := 0, dirty := true, dirtySince := 0, use := .counter, owner := none },
      { pd := 3, index := 1048576, set := 0, way := 1, data := runningPolicer, dirty := false, dirtySince := 0, use := .counter, owner := none }]
    ports := State.reset.ports.set 0
      { partnerState := .attached, phy := { state := .active, rxMask := 0xF, txMask := 0xF }, link := { session := true } } }

/-- A request with these fields, of class 0 and without a deadline. -/
def request (pd lengthCode address aux : Nat) (payload : List Byte) : Req :=
  { hdr := { tag := 5, partition := BitVec.ofNat 6 pd, cls := 0, deadline := 0, lengthCode := BitVec.ofNat 4 lengthCode
             address := BitVec.ofNat 36 address, aux := BitVec.ofNat 48 aux }
    payload := payload }

/-- What Collie leaves of a request's class. -/
def classIn (s : State) (op : BitVec 6) (r : Req) : PortClass :=
  match decideRequest (entered 0 op r s) 0 s.ports[(0 : Fin 4)].held r (newJob 0 op r s) false with
  | .pass c => c
  | .hold _ => {}

def passIn (s : State) (op : BitVec 6) (r : Req) : Bool := passes 0 op r (classIn s op r) s

def pass (op : BitVec 6) (r : Req) : Bool := passIn ready op r

def after (op : BitVec 6) (r : Req) : State := admitted 0 op r (classIn ready op r) ready

def job (op : BitVec 6) (r : Req) : Job := admittedJob 0 op r ready

/-- A line read or updated without a failure. -/
def isData : LineResult → Bool
  | .data _ => true
  | .fail _ _ => false

def readReq : Req := request 0 7 (67108864 - 512) 0 []

/-! ### Well-formedness: one ill-formed command for each check -/

theorem test_request_payload_in_slots : wellFormed (.write 0 (request 0 0 0 0 (List.replicate 15 0))) = false := by decide +kernel
theorem test_request_payload_bound : wellFormed (.enqueue 0 (request 0 0 0 0 (List.replicate 16400 0))) = false := by
  decide +kernel
theorem test_reserved_opcode_is_reserved : wellFormed (.reservedOpcode 0 0x01 (request 0 0 0 0 [])) = false := by decide +kernel
theorem test_check_counts_every_lane : wellFormed (.checkWindowEnd 0 [0, 0]) = false := by decide +kernel
theorem test_group_counts_every_lane : wellFormed (.groupRetrain 0 .rx 0 [0]) = false := by decide +kernel
theorem test_flit_is_256_bytes : wellFormed (.dataFlit 0 (List.replicate 255 0)) = false := by decide +kernel
theorem test_image_is_a_row_block : wellFormed (.skwr 0 0 [0]) = false := by decide +kernel
theorem test_four_quarters : wellFormed (.governorWindow 0 0 [0]) = false := by decide +kernel
theorem test_frame_fits_its_buffer :
    wellFormed (.identify 0 { seq := 0, argLength := 0, notify := false, reserved := 0, args := List.replicate 4081 0 }) = false := by
  decide +kernel
theorem test_transfer_moves_bytes : wellFormed (.mbData false true true 2 [1]) = false ∧
    wellFormed (.mbData false true false 257 []) = false := by decide +kernel
theorem test_register_write_has_bytes : wellFormed (.registerWrite true true 2 (.write [])) = false := by decide +kernel

/-! ### Requests -/

def bad : Req := request 63 15 1 0xFFFFFFFFFFFF []
/-- RequestsRefusedAtTheirPort. -/
theorem witness_RefusedRequests : arrives 0 bad ready = true ∧
    (definedOps.all fun op => unquiesced 0 op bad ready && (checkRequest (entered 0 op bad ready) 0 op bad).isSome) = true ∧
    definedOps.contains 0x3F = false ∧ unquiesced 0 0x3F bad ready = true := by decide +kernel
/-- RequestsRefusedAtTheirPort, CompletionsGoOutOnTheirPort. -/
theorem witness_DuplicateTag :
    let s := modPort 0 (fun x => { x with outstanding := [(5, 0)] }) ready
    portServes s 0 = true ∧ tagOutstanding s.ports[(0 : Fin 4)] bad.hdr.tag = true := by decide +kernel

def nopFence : Req := request 0 0 0 1 []
def waiting : State := modPort 0 (fun x => { x with outstanding := [(7, 0)], fences := [{ job := job opNop nopFence, waits := [] }] }) ready
/-- What a fence received at port 0 waits for. -/
def fenceWaits (s : State) : List (BitVec 14) :=
  let u := freeSlots 0 (requestSlots opNop nopFence) (entered 0 opNop nopFence s)
  (u.ports[(0 : Fin 4)].outstanding.map (·.1)).filter (· ≠ nopFence.hdr.tag) ++ u.ports[(0 : Fin 4)].sending.filterMap (·.1)
/-- NopAndItsFence. -/
theorem witness_Nop : pass opNop (request 0 0 0 0 []) = true ∧ auxF nopFence.hdr 0 0 = 1 ∧
    arrives 0 nopFence ready = true ∧ checkRequest (entered 0 opNop nopFence ready) 0 opNop nopFence = none ∧ fenceWaits ready = [] ∧
    arrives 0 nopFence waiting = true ∧ checkRequest (entered 0 opNop nopFence waiting) 0 opNop nopFence = none ∧
    fenceWaits waiting ≠ [] ∧
    (waiting.ports[(0 : Fin 4)].fences.find? (fun g => g.job.tag = 5 ∧ g.waits = [])).isSome = true ∧
    ready.ports[(0 : Fin 4)].fences.find? (fun g => g.job.tag = 5 ∧ g.waits = []) = none := by decide +kernel

def writeReq : Req := request 0 0 (67108864 - 64) 0 (List.replicate 64 1)
def maskReq : Req := request 0 0 0 0 ([1, 0, 0, 0, 0, 0, 0, 0] ++ List.replicate 8 0 ++ List.replicate 64 5)
def atomReq : Req := request 0 0 56 0 (List.replicate 8 1 ++ List.replicate 8 0)
/-- What the READ of `readReq` finds. -/
def readOutcome (s : State) : Option (QStatus × Bool) :=
  (readLines (.port 0) (some (ownerOf (admittedJob 0 opRead readReq s))) 0 (linesTouched opRead readReq.hdr)
    { data := [], failed := none, kennel := true } (admitted 0 opRead readReq (classIn s opRead readReq) s)).1.failed
/-- `ready` with the partition read in a quarter that is out of reach. -/
def quarterGone : State :=
  setGranule 0 5 (modPartition 0 (fun x => { x with quarter := 1 }) (modQuarter 1 (fun x => { x with state := .isolated }) ready))
/-- ReadsAndWritesComplete. -/
theorem witness_Reads : pass opRead readReq = true ∧ readOutcome ready = none ∧
    passIn quarterGone opRead readReq = true ∧ readOutcome quarterGone = some (.dataError, true) := by decide +kernel
/-- `ready` with the write queue of the written line's channel full. -/
def full : State := match hashPlace ready 1048575 with
  | some pl => modChannel pl.channel (fun x => { x with
      writeQueue := (List.range 64).map fun i => { bank := 0, row := i, line := 0, data := 0, issued := none, poison := false } }) ready
  | none => ready
/-- ReadsAndWritesComplete. -/
theorem witness_Writes : pass opWrite writeReq = true ∧
    (let w := writeLines (job opWrite writeReq) 0 [(1048575, 1)] 0 none (after opWrite writeReq)
     w.1 = 0 ∧ w.2.1 = none) ∧ passIn full opWrite writeReq = true ∧
    (let w := writeLines (job opWrite writeReq) 0 [(1048575, 1)] 0 none (admitted 0 opWrite writeReq (classIn full opWrite writeReq) full)
     w.1 = 1 ∧ w.2.1 = none) ∧
    pass opWriteMask maskReq = true ∧ natAt maskReq.payload 0 8 ≠ 2 ^ 64 - 1 ∧
    isData (updateLine (.port 0) 0 0 (halfRead (.port 0) 0 0) id (after opWriteMask maskReq)).1 = true := by
  decide +kernel
/-- AtomicsAddSwapAndCompare. -/
theorem witness_Atomics : ([opAtomAdd, opAtomFadd, opAtomSwap, opAtomCas].all fun op => pass op atomReq) = true ∧
    pass opAtomPadd (request 0 0 48 0 (List.replicate 16 1)) = true ∧
    isData (updateLine (.port 0) 0 0 (partitionRead (.port 0) 0 0) id (after opAtomAdd atomReq)).1 = true := by
  decide +kernel
/-- AtomicsAddSwapAndCompare. -/
theorem witness_AtomicWords : (7 : Nat) < 8 ∧ (6 : Nat) % 2 = 0 ∧ (2 ^ 64 - 1 : Nat) < 2 ^ 64 := by decide

def copyReq : Req := request 0 0 2048 0 []
def fillReq : Req := request 0 0 0 1 (List.replicate 16 7)
def copyOutcome (s : State) : Option Nat := (copyBlocksLoop (.port 0) 0 ((blockList 0 1).zip (blockList 2048 1)) none s).1
/-- `ready` with a poisoned write waiting for the first line. -/
def poisoned : State := match hashPlace ready 0 with
  | some pl => modChannel pl.channel (fun x => { x with
      writeQueue := [{ bank := pl.bank, row := pl.row, line := pl.line, data := 0, issued := none, poison := true }] }) ready
  | none => ready
/-- RowBlocksCopiedAndFilled. -/
theorem witness_CopyPoisoned : passIn poisoned opSkeinCopy copyReq = true ∧
    ((blockList 0 1 ++ blockList 2048 1).any fun b =>
      blockLost (admitted 0 opSkeinCopy copyReq (classIn poisoned opSkeinCopy copyReq) poisoned) 0 b) = false ∧
    (copyOutcome (admitted 0 opSkeinCopy copyReq (classIn poisoned opSkeinCopy copyReq) poisoned)).isSome = true := by decide +kernel
/-- RowBlocksCopiedAndFilled. -/
theorem witness_RowBlocks : pass opSkeinCopy copyReq = true ∧
    ((blockList 0 1 ++ blockList 2048 1).any fun b => blockLost (after opSkeinCopy copyReq) 0 b) = false ∧
    copyOutcome (after opSkeinCopy copyReq) = none ∧
    pass opRowFill fillReq = true ∧ ((blockList 0 2).any fun b => blockLost (after opRowFill fillReq) 0 b) = false := by decide +kernel

/-- The key of every lookup here, and the entry line that holds it. -/
def key : List Byte := [1, 2, 3, 4]
def entryLine : Line := imageEntry (lineOf key) 0
def exactReq : Req := request 1 0 0 (4 * 2 ^ 4) key
def prefixReq : Req := request 1 0 0 1 key
def insertReq : Req := request 1 0 0 0 (key ++ List.replicate 60 0)
/-- `ready` with a line of table partition 1 stored. -/
def withLine (block slot : Nat) (l : Line) : State :=
  match blockPlace ready 1 block with
  | some pl => storeCoded { pl with line := Fin.ofNat 32 slot } (encodeLine l) ready
  | none => ready
def hashes : KeyHash := keyHash ready.tables[(0 : Fin 16)] 0x04030201
def stashed : State := modTable 0 (fun t => { t with stashCount := 1, stash := [(hashes.stashSet, [entryLine])] }) ready
def second : State := withLine hashes.b2 9 entryLine
/-- The channel of the second bucket of `key` does not hold a lookup. -/
def bucketFree (s : State) : Bool :=
  match blockPlace s 1 hashes.b2 with
  | some pl => !channelWaits s (admittedJob 0 opLookupExact exactReq s) pl.channel
  | none => true
/-- LookupsAndTableUpdates. -/
theorem witness_LookupExact : pass opLookupExact exactReq = true ∧ bucketFree (after opLookupExact exactReq) = true ∧
    (exactSearch (after opLookupExact exactReq) 0 0x04030201 0).1 = .miss := by decide +kernel
/-- LookupsAndTableUpdates. -/
theorem witness_LookupExactStash : passIn stashed opLookupExact exactReq = true ∧ bucketFree stashed = true ∧
    (exactSearch stashed 0 0x04030201 0).1 = .stash entryLine := by decide +kernel
/-- LookupsAndTableUpdates. -/
theorem witness_LookupExactSecond : passIn second opLookupExact exactReq = true ∧ bucketFree second = true ∧
    (exactSearch second 0 0x04030201 0).1 = .bucket true 9 entryLine := by decide +kernel
/-- A node entry that matches every key, in the node that a directory entry names. -/
def anyNode : Line := linePut 0 136 2 1
def noded : State := setDirectory (keyIndex 0x04030201 10) (BitVec.ofNat 64 (2 + 1024 * 2 ^ 16)) (withLine 1024 0 anyNode)
/-- LookupsAndTableUpdates. -/
theorem witness_LookupPrefix : pass opLookupPrefix prefixReq = true ∧
    (prefixSearch (after opLookupPrefix prefixReq) 1 0x04030201).1 = .node none false ∧
    passIn noded opLookupPrefix prefixReq = true ∧ (prefixSearch noded 1 0x04030201).1 = .node (some anyNode) false := by decide +kernel
/-- What a TABLE_UPDATE leaves before its change: the rows of its key read. -/
def updateRead (r : Req) : State := readRows (.port 0) 0 [hashes.b1, hashes.b2] (after opTableUpdate r)
/-- LookupsAndTableUpdates. -/
theorem witness_TableInsert : pass opTableUpdate insertReq = true ∧ quarterOut (after opTableUpdate insertReq) 0 = false ∧
    firstLost (after opTableUpdate insertReq) 1 [hashes.b1, hashes.b2] = none ∧ auxF insertReq.hdr 5 4 = 0 ∧
    (updateRead insertReq).tables[(0 : Fin 16)].prefixKind = false ∧ (updateRead insertReq).tables[(0 : Fin 16)].entryCount = 0 ∧
    findEntry (updateRead insertReq) (updateRead insertReq).tables[(0 : Fin 16)] 0x04030201 = none ∧
    (freeSlot (blockPeek (updateRead insertReq) 1 hashes.b1)).isSome = true := by decide +kernel
def deleteReq : Req := request 1 0 0 (1 * 2 ^ 4) (key ++ List.replicate 60 0)
/-- LookupsAndTableUpdates. -/
theorem witness_TableDelete : pass opTableUpdate deleteReq = true ∧ auxF deleteReq.hdr 5 4 = 1 ∧
    firstLost (after opTableUpdate deleteReq) 1 [hashes.b1, hashes.b2] = none ∧
    findEntry (updateRead deleteReq) (updateRead deleteReq).tables[(0 : Fin 16)] 0x04030201 = none := by decide +kernel
def dirReq : Req := request 1 0 0 (1 + 2 ^ 6 + 1023 * 2 ^ 12) ([2, 0, 0, 4] ++ List.replicate 60 0)
/-- LookupsAndTableUpdates. -/
theorem witness_TableDirectory : pass opTableUpdate dirReq = true ∧ quarterOut (after opTableUpdate dirReq) 0 = false ∧
    auxF dirReq.hdr 6 6 = 1 ∧ auxF dirReq.hdr 5 4 = 0 ∧ directoryEntry (after opTableUpdate dirReq) 1023 = 0 ∧
    (after opTableUpdate dirReq).directoryBad = [] ∧ (BitVec.ofNat 64 (natAt dirReq.payload 0 8)).toNat % 4 ≠ 0 := by
  decide +kernel

def ctrReq : Req := request 3 0 48 (7 * 2 ^ 32 + 100) []
def polReq : Req := request 3 0 67108864 (100 + 2 * 2 ^ 14) []
def ctrReadReq : Req := request 3 3 0 1 []
def isDone (n : Nat) : CounterResult → Bool
  | .done v _ => decide (v = BitVec.ofNat 64 n)
  | _ => false
/-- CountersCompleteAndFlush. -/
theorem witness_Counters : pass opCtrUpdate ctrReq = true ∧
    isDone 0 (counterOp (job opCtrUpdate ctrReq) 3 0 (counterChange false 48 7 100) (noteSlots 3 0 1 (after opCtrUpdate ctrReq))).1 = true ∧
    pass opPolUpdate polReq = true ∧
    isDone 2 (counterOp (job opPolUpdate polReq) 3 1048576 (policerChange (tickNow ready) 0 100 2) (noteSlots 3 1048576 2 (after opPolUpdate polReq))).1 = true ∧
    pass opCtrRead ctrReadReq = true ∧
    isDone 0 (counterOp (job opCtrRead ctrReadReq) 3 0 (counterRead 0 4 true) (noteSlots 3 0 1 (after opCtrRead ctrReadReq))).1 = true := by decide +kernel
/-- CountersCompleteAndFlush, CountersAndBucketsStayInBounds. -/
theorem witness_HeldCounters : (kennelHit ready 3 0).isSome = true ∧ (kennelHit ready 3 0).map (·.dirty) = some true ∧
    ready.partitions[(3 : Fin 64)].valid = true ∧ ready.partitions[(3 : Fin 64)].ptype = .counter ∧
    policerRuns (policerAt runningPolicer 0) = true := by decide +kernel

def enqReq : Req := request 2 0 0 (60 * 2 ^ 18) (List.replicate 64 9)
def deqReq : Req :=
  let r := request 2 0 0 (2 ^ 18 + 2 ^ 32) []
  { r with hdr := { r.hdr with tag := 6 } }
def queryReq : Req := request 2 0 0 0 []
def dropping : State := modPartition 2 (fun x => { x with buffer := { x.buffer with used := 262144 } }) ready
/-- QueuesServeTheirRequests. -/
theorem witness_Enqueue : pass opEnqueue enqReq = true ∧ bobbinIsolated (after opEnqueue enqReq) 0 = false ∧
    (queueAt (after opEnqueue enqReq) 0).state ≠ .broken ∧
    (dropRule (after opEnqueue enqReq) 0 1 0).isNone = true ∧ (takeCells 0 2 1 (after opEnqueue enqReq)).1.length = 1 ∧
    passIn dropping opEnqueue enqReq = true ∧ (dropRule dropping 0 1 0).isSome = true := by decide +kernel
/-- QueuesServeTheirRequests. -/
theorem witness_DequeueAndQuery : pass opDequeue deqReq = true ∧ pass opQueueQuery queryReq = true ∧
    quarterOut (after opQueueQuery queryReq) 0 = false := by decide +kernel
/-- The queue after an ENQUEUE, after its link, and with a stream that waits and then runs. -/
def queued : State := (match execEnqueue 0 enqReq ready with | .next t => t | _ => ready)
def linked : State := (match execPacketLink 0 queued with | .next t => t | _ => ready)
def streaming : State := (match execDequeue 0 deqReq linked with | .next t => t | _ => ready)
def running : State := (match execStreamStart 0 streaming with | .next t => t | _ => ready)
/-- Of the oldest admission, once its lines are written: they are all in, and nothing ended it. -/
def headAdmission (s : State) : Option (Bool × Bool × Bool) :=
  match (queueAt (settleVoids 0 s) 0).admissions with
  | b :: _ => (queueAt (writeAdmission 0 b (settleVoids 0 s)) 0).admissions.head?.map fun a => (admissionWritten a, a.voided, a.ended)
  | [] => none
/-- QueuesServeTheirRequests. -/
theorem witness_PacketLink : blockStopped queued (.bobbin 0) = false ∧ quarterOut queued 0 = false ∧
    headAdmission queued = some (true, false, false) := by decide +kernel
def starting : State := skim 0 (settleVoids 0 streaming)
def emptyStart : State := skim 0 (settleVoids 0 (match execDequeue 0 deqReq ready with | .next t => t | _ => ready))
def startsHere (s : State) : Bool :=
  match (queueAt s 0).streams with
  | t :: _ => !t.running && !earlierStream s 0 t && decide (runningStreams s 0 < 512) && !bobbinIsolated s 0
  | [] => false
/-- QueuesServeTheirRequests. -/
theorem witness_StreamStart : blockStopped streaming (.bobbin 0) = false ∧ startsHere starting = true ∧
    (queueAt starting 0).state ≠ .broken ∧ (queueAt starting 0).packets = 1 ∧
    startsHere emptyStart = true ∧ (queueAt emptyStart 0).state ≠ .broken ∧ (queueAt emptyStart 0).packets = 0 := by decide +kernel
def isWhole : Packet → Bool
  | .whole cells _ len _ bytes => decide (cells.length = 1) && decide (len = 60) && decide (bytes = List.replicate 60 9)
  | _ => false
/-- QueuesServeTheirRequests. -/
theorem witness_Handover : ((queueAt running 0).streams.head?.map (·.running)) = some true ∧ (queueAt running 0).packets ≠ 0 ∧
    blockStopped running (.bobbin 0) = false ∧ bobbinIsolated running 0 = false ∧ (queueAt running 0).state ≠ .broken ∧
    cellsReady running 2 [(queueAt running 0).head] = true ∧ isWhole (readPacket (.port 0) 0 running).1 = true ∧
    packetCredit (modLink 0 (fun l => { l with partnerGranted := 4096 }) running) 0 60 = true := by decide +kernel

def respReq : Req := request 0 0 0 1 []
def ringReq : Req := request 0 0 0 2 (List.replicate 64 0)
/-- MailboxAndWindowRequests. -/
theorem witness_MailboxAndWindow : pass opMailbox respReq = true ∧ pass opMailbox (request 0 7 (4096 - 512) 1 []) = true ∧
    pass opMailbox ringReq = true ∧ pass opMailbox (request 0 0 0 0 (List.replicate 64 0)) = true ∧
    pass opStatusRead (request 0 0 65472 0 []) = true := by decide +kernel

def gated : State := modPort 0 (fun x => { x with
  held := [{ opcode := opRead, req := readReq, job := job opRead readReq, reason := .gate, passGate := false }]
  link := { x.link with partnerPanic := true } }) ready
/-- HeldRequestsAndGuarantees. -/
theorem witness_HeldRequests : (gated.ports[(0 : Fin 4)].held.find? (fun e => e.req.hdr.tag = 5 ∧ e.reason = .gate)).isSome = true ∧
    linkHolds (serveReady gated) 0 = false ∧ linkHolds (serveReady (modPhy 0 (fun x => { x with state := .switch }) gated)) 0 = true ∧
    gated.ports[(0 : Fin 4)].link.partnerPanic = true ∧ gated.ports[(0 : Fin 4)].link.panicIgnored = false ∧
    gated.ports[(0 : Fin 4)].panicMax ≠ 0 := by decide +kernel
/-- CountersAndBucketsStayInBounds. -/
theorem witness_Buckets : (match chargeClass { ceiling := 1, ceilingBurst := 64, ceilTokens := 4194304 } 64 false with
    | .pass e => decide (e.ceilTokens = 0) | .hold _ => false) = true := by decide +kernel
/-- HeldRequestsAndGuarantees. -/
theorem witness_Guarantees : firstRoom (modClass 3 7 (fun c => { c with floorRoomAt := some 5 }) ready) = some 5 := by decide +kernel

/-! ### Containment -/

def isolatingQuarter : State := modQuarter 1 (fun x => { x with isolating := true, cause := 1, isolatedAt := 5 }) ready
/-- BlocksFenceAndResume. -/
theorem witness_Blocks : blockStopped ready (.kennel 7) = false ∧ ready.device.fatal = false ∧
    (quarterOf (.channel 31)).map (quarterOut ready) = some false ∧ quarterOf .copy = none ∧
    (blockAt (modBlock .copy (fun x => { x with resetting := true }) ready) .copy).resetting = true := by decide +kernel
/-- QuartersIsolateAndReset. -/
theorem witness_Quarters : (quarterOf (.pointer 3)).isSome = true ∧ isolatingQuarter.quarters[(1 : Fin 4)].isolating = true ∧
    isolatingQuarter.quarters[(1 : Fin 4)].autoReset = true ∧
    (modQuarter 2 (fun x => { x with isolations := [7, 9] }) isolatingQuarter).quarters[(2 : Fin 4)].isolations.length = 2 ∧
    (modQuarter 3 (fun x => { x with state := .resetting }) ready).quarters[(3 : Fin 4)].state = .resetting := by decide +kernel
/-- QuartersIsolateAndReset. -/
theorem witness_QuartersTogether :
    let s := modQuarter 0 (fun x => { x with isolations := [0] }) ready
    s.quarters[(1 : Fin 4)].isolating = false ∧ s.quarters[(1 : Fin 4)].state = .inService ∧ s.device.fatal = false ∧
      (s.quarters[(0 : Fin 4)].isolations.any fun t => decide (s.hubTimer < t + 100000)) = true := by decide +kernel

/-! ### Lanes, training and the link -/

/-- `ready` with port 0 in a training state. -/
def training (st : PortState) (g : Gauge) : State := modPhy 0 (fun x => { x with
  state := st, gauge := g, partnerGauges := 0xF, highest := .g106 }) ready
/-- The same port with every lane made by `f`. -/
def lanesAs (st : PortState) (g : Gauge) (f : Nat → Lane → Lane) : State := mapLanes 0 f (training st g)
/-- A good set of a kind with its gauge argument, as port 0 of `ready` would send it on lane 0, without and with an ack. -/
def goodSet (kind arg : Nat) : BitVec 128 := orderedSet ready.ports[(0 : Fin 4)].phy {} 0 kind arg
def ackSet (kind arg : Nat) : BitVec 128 := orderedSet ready.ports[(0 : Fin 4)].phy { sets := 8, setKind := kind, echo := true } 0 kind arg
/-- ControlSetsTakeEffect. -/
theorem witness_BadSets : portLive ready 0 = true ∧ clocked ready ready.ports[(0 : Fin 4)].phy.gauge = true ∧
    osGood 0 = false := by decide +kernel
/-- TS1 in ACQUIRE: the lane counted and locked, and whether that is enough for ALIGN. -/
def ts1Enough (s : State) : Bool :=
  let u := modLane 0 0 (fun l => { l with locked := true }) (modLane 0 0 (fun l => countSet (goodSet 0xA1 0) l) s)
  let locked := groupsWith u.ports[(0 : Fin 4)] (·.locked)
  decide (u.ports[(0 : Fin 4)].phy.latched.widthMin ≤ maskLanes locked) &&
    lanesAll u.ports[(0 : Fin 4)] locked (fun l => decide (l.sets = 8) && decide (l.setKind = 0xA1))
def acquired : State := lanesAs .acquire .g10 fun _ l => { l with locked := true, sets := 8, setKind := 0xA1 }
/-- TrainingSetsAdvanceTheirStates. -/
theorem witness_Ts1Acquire : setHeard 0 (goodSet 0xA1 0) (training .acquire .g10) = true ∧ setHeard 0 (goodSet 0xA1 0) acquired = true ∧
    osKind (goodSet 0xA1 0) = 0xA1 ∧ (training .acquire .g10).ports[(0 : Fin 4)].phy.climb = .up ∧
    ts1Enough (training .acquire .g10) = false ∧ ts1Enough acquired = true := by decide +kernel
/-- All lanes acknowledged, in an order. -/
def aligned (st : PortState) (f : Nat → Nat) : State := lanesAs st .g10 fun i l => { l with acked := true, partnerLane := f i }
def inOrder (s : State) (f : Nat → Nat) : Bool :=
  (List.finRange 16).all fun i => !maskHas s.ports[(0 : Fin 4)].phy.rxMask i || decide (s.ports[(0 : Fin 4)].lanes[i].partnerLane = f i)
/-- TrainingSetsAdvanceTheirStates. -/
theorem witness_Ts1Align : setHeard 0 (goodSet 0xA1 0) (training .align .g10) = true ∧
    lanesAll (training .align .g10).ports[(0 : Fin 4)] 0xF (·.acked) = false ∧
    setHeard 0 (ackSet 0xA1 0) (aligned .align id) = true ∧ osAck (ackSet 0xA1 0) = true ∧
    lanesAll (aligned .align id).ports[(0 : Fin 4)] 0xF (·.acked) = true ∧ inOrder (aligned .align id) id = true ∧
    inOrder (aligned .align (15 - ·)) (15 - ·) = true ∧ inOrder (aligned .align (15 - ·)) id = false := by decide +kernel
/-- TrainingSetsAdvanceTheirStates. -/
theorem witness_Ts2 : setHeard 0 (goodSet 0xA2 0) (training .caps .g10) = true ∧ osKind (goodSet 0xA2 0) = 0xA2 ∧
    lanesAll (training .caps .g10).ports[(0 : Fin 4)] 0xF (·.acked) = false ∧
    setHeard 0 (ackSet 0xA2 0) (aligned .caps id) = true ∧ lanesAll (aligned .caps id).ports[(0 : Fin 4)] 0xF (·.acked) = true := by
  decide +kernel
/-- TS_EQ in EQ: whether both sides then hold. -/
def eqHolds (s : State) : Bool :=
  let os := ackSet 0xA3 0
  let u := modLane 0 0 (fun l => { takeRequest .g25 os l with
    ask := 0, acked := osAck os && decide (bitsOf os.toNat 34 29 = 0) }) (modLane 0 0 (fun l => countSet os l) s)
  lanesAll u.ports[(0 : Fin 4)] u.ports[(0 : Fin 4)].phy.rxMask (fun l => l.acked && decide (l.ask = 0) && laneAck u.ports[(0 : Fin 4)].phy 0xA3 l)
def equalised : State := lanesAs .eq .g25 fun _ l => { l with sets := 8, setKind := 0xA3, acked := true, ask := 0 }
/-- TrainingSetsAdvanceTheirStates. -/
theorem witness_TsEq : setHeard 0 (ackSet 0xA3 0) (training .eq .g25) = true ∧ setHeard 0 (ackSet 0xA3 0) equalised = true ∧
    osKind (ackSet 0xA3 0) = 0xA3 ∧ eqHolds (training .eq .g25) = false ∧ eqHolds equalised = true := by decide +kernel
def judged (quick : Bool) : State := modPhy 0 (fun x => { x with judged := true, quick := quick }) (aligned .check id)
/-- TrainingSetsAdvanceTheirStates. -/
theorem witness_TsCheck : setHeard 0 (goodSet 0xA4 0) (training .check .g25) = true ∧ osKind (ackSet 0xA4 0) = 0xA4 ∧
    (training .check .g25).ports[(0 : Fin 4)].phy.judged = false ∧
    ([false, true].all fun q => setHeard 0 (ackSet 0xA4 0) (judged q) && lanesAll (judged q).ports[(0 : Fin 4)] 0xF (·.acked)) = true := by
  decide +kernel
/-- ControlSetsTakeEffect. -/
theorem witness_ControlSets : (setHeard 0 (goodSet 0xA5 2) (training .active .g10) && setHeard 0 (goodSet 0xA6 0) ready &&
    setHeard 0 (goodSet 0xA7 0) ready && setHeard 0 (goodSet 0xA8 0) (training .active .g106) &&
    setHeard 0 (goodSet 0xA9 2) (training .acquire .g10) && setHeard 0 (goodSet 0xAA 0) ready) = true ∧
    gaugeOf (bitsOf (goodSet 0xA5 2).toNat 73 72) = .g53 ∧ gaugeCommon (training .active .g10).ports[(0 : Fin 4)].phy .g53 = true ∧
    (training .active .g10).ports[(0 : Fin 4)].phy.climb = .up ∧ ready.device.refclk ≠ 1 ∧
    bitsOf (goodSet 0xA9 2).toNat 73 72 = 2 := by decide +kernel
/-- TapsStayLegal. -/
theorem witness_Taps : tapsLegal .g106 { cm2 := 0, cm1 := 0, cp1 := 0 } = true := by decide +kernel
/-- A port in EQ without a retry left, with all, one or no group at hold. -/
def lastEq (f : Nat → Bool) : State :=
  modPhy 0 (fun x => { x with retried := true }) (lanesAs .eq .g25 fun i l => { l with acked := f i, ask := 0 })
/-- TrainingTimeoutsAndChecks. -/
theorem witness_Timeouts : ([PortState.detect, .acquire, .align, .caps, .eq, .check, .switch].all fun st =>
    portLive (training st .g10) 0) = true ∧ (training .acquire .g10).ports[(0 : Fin 4)].phy.climb ≠ .recover ∧
    (training .acquire .g10).ports[(0 : Fin 4)].phy.acquireTimeouts < 2 ∧
    mayRetry (training .eq .g25).ports[(0 : Fin 4)].phy = true ∧
    mayRetry (lastEq fun i => decide (i < 4)).ports[(0 : Fin 4)].phy = false ∧
    heldGroups (lastEq fun i => decide (i < 4)).ports[(0 : Fin 4)] = 1 ∧ heldGroups (lastEq fun _ => false).ports[(0 : Fin 4)] = 0 ∧
    (lastEq fun _ => false).ports[(0 : Fin 4)].phy.latched.widthMin ≤ maskLanes 1 ∧
    (training .check .g10).ports[(0 : Fin 4)].phy.quick = false ∧ (judged true).ports[(0 : Fin 4)].phy.quick = true ∧
    (training .switch .g10).ports[(0 : Fin 4)].phy.returning = false ∧ clocked (training .switch .g10) .g106 = true := by decide +kernel
def fallbackCheck : State :=
  mapLanes 0 (fun _ l => { l with locked := true, acked := true, txPass := true })
    (modPhy 0 (fun x => { x with quick := true, climb := .fallback }) (training .check .g53))
/-- TrainingTimeoutsAndChecks. -/
theorem witness_CheckCounts : portLive fallbackCheck 0 = true ∧ fallbackCheck.ports[(0 : Fin 4)].phy.quick = true ∧
    lanesAll fallbackCheck.ports[(0 : Fin 4)] 0xF (fun l => l.acked && l.locked && l.txPass) = true ∧
    (training .check .g25).ports[(0 : Fin 4)].phy.quick = false ∧ portLive (training .check .g25) 0 = true ∧
    lanesAll (training .check .g25).ports[(0 : Fin 4)] 0xF (·.acked) = false := by decide +kernel
def narrowMessage : BitVec 128 := widthMessage 1 false 0
/-- WidthIdleAndLaneLoss. -/
theorem witness_Width : portLive ready 0 = true ∧ ready.ports[(0 : Fin 4)].phy.rxMask.getLsbD 3 = true ∧
    causeLoses .cdr = true ∧ causeLoses (.corrected 33) = true ∧ causeLoses (.corrected 32) = false ∧
    causeLoses (.headers (List.replicate 16 0)) = true ∧ ready.ports[(0 : Fin 4)].phy.latched.widthMin ≤ maskLanes 7 ∧
    (modPhy 0 (fun x => { x with rxMask := 8 }) ready).ports[(0 : Fin 4)].phy.rxMask &&& ~~~(1#4 <<< 3) = 0 ∧
    bitsOf narrowMessage.toNat 7 0 = 3 ∧ bitsOf narrowMessage.toNat 127 12 = 0 ∧ bitsOf narrowMessage.toNat 11 8 = 1 ∧
    ready.ports[(0 : Fin 4)].phy.latched.widthMin ≤ maskLanes 1 ∧
    maskLanes 1 < (modPhy 0 (fun x => { x with latched := { x.latched with widthMin := 8 } }) ready).ports[(0 : Fin 4)].phy.latched.widthMin ∧
    (modLink 0 (fun l => { l with widthAsked := some (7, false) }) ready).ports[(0 : Fin 4)].link.widthAsked = some (7, false) ∧
    (let s := modPhy 0 (fun x => { x with rxMask := 7, stable := 8 }) ready
     let x := s.ports[(0 : Fin 4)].phy
     x.rxMask.getLsbD 3 = false ∧ x.stable.getLsbD 3 = true ∧ x.retired.getLsbD 3 = false ∧
     readdPending s.ports[(0 : Fin 4)].link = false) := by decide +kernel
/-- WidthIdleAndLaneLoss. -/
theorem witness_IdleAndLoss : txQuiet ready.ports[(0 : Fin 4)] = true ∧ ready.ports[(0 : Fin 4)].phy.idleEntryNs ≠ 0 ∧
    ready.ports[(0 : Fin 4)].phy.txIdle = false ∧ ready.ports[(0 : Fin 4)].phy.rxIdle = false ∧
    portLive (training .active .g106) 0 = true ∧ (training .active .g106).device.refclk ≠ 1 ∧
    (let x := (modPhy 0 (fun x => { x with fckLost := true, autoFckRestore := true }) (training .active .g53)).ports[(0 : Fin 4)].phy
     x.fckLost = true ∧ x.autoFckRestore = true ∧ gaugeCommon x .g106 = true ∧ x.gauge ≠ .g106) ∧
    (modPhy 0 (fun x => { x with climb := .recover }) (training .align .g10)).ports[(0 : Fin 4)].phy.climb = .recover := by decide +kernel

/-- One byte of CRC-32C, and the register after bytes with each value worked out before the next byte is taken. -/
def crcByte (c : Nat) (b : Byte) : Nat :=
  (List.range 8).foldl (fun v _ => if v.testBit 0 then (v / 2) ^^^ 0x82F63B78 else v / 2) (c ^^^ b.toNat)
def crcEager : List Byte → Nat → Nat
  | [], c => c
  | b :: bs, c =>
    match crcByte c b with
    | 0 => crcEager bs 0
    | k + 1 => crcEager bs (k + 1)
theorem crc_eager (bs : List Byte) (c : Nat) : crcEager bs c = bs.foldl crcByte c := by
  induction bs generalizing c with
  | nil => rfl
  | cons b bs ih =>
    rw [crcEager, List.foldl_cons, ← ih]
    cases crcByte c b <;> rfl
theorem crc32c_eager (bs : List Byte) : crc32c bs = crcEager bs 0xFFFFFFFF ^^^ 0xFFFFFFFF := by rw [crc_eager]; rfl

/-- A flit with an empty body and its last twelve bytes: CRC and check bytes. -/
def flitOf (first : Nat) (tail : List Byte) : List Byte := natToBytes 4 first ++ List.replicate 240 0 ++ tail
def nullFlit : List Byte := flitOf 0 [205, 49, 157, 19, 151, 0, 62, 97, 219, 119, 34, 52]
def fullFlit : List Byte := flitOf 0xF1 [28, 249, 44, 112, 235, 6, 205, 154, 224, 46, 7, 59]
def tagFlit : List Byte := flitOf 0x23 [214, 191, 226, 227, 114, 134, 215, 14, 185, 203, 11, 31]
/-- FlitsAreReceived. -/
theorem witness_NullFlit : linkUp ready 0 = true ∧ retuneHolds ready 0 = false ∧ bitsOf (natAt nullFlit 0 4) 16 0 = 0 ∧ fecFlit nullFlit = some (nullFlit, false) := by decide +kernel
/-- FlitsAreReceived. -/
theorem witness_NullFlitCrc : crc32c (nullFlit.take 244) = natAt nullFlit 244 4 := by rw [crc32c_eager]; decide +kernel
/-- In order, accepted already, and one ahead of the next. -/
theorem witness_DataFlit : fecFlit fullFlit = some (fullFlit, false) ∧ bitsOf (natAt fullFlit 0 4) 2 0 = 1 ∧
    bitsOf (natAt fullFlit 0 4) 7 4 = 15 ∧ bitsOf (natAt fullFlit 0 4) 16 8 = ready.ports[(0 : Fin 4)].link.rxNext % 512 ∧
    256 ≤ (bitsOf (natAt fullFlit 0 4) 16 8 + 512 - 1) % 512 ∧ (bitsOf (natAt fullFlit 0 4) 16 8 + 512 - 511) % 512 = 1 := by
  decide +kernel
/-- FlitsAreReceived. -/
theorem witness_DataFlitCrc : crc32c (fullFlit.take 244) = natAt fullFlit 244 4 := by rw [crc32c_eager]; decide +kernel
def sealedLink : State := modLink 0 (fun l => { l with sealOn := true, partnerSealOn := true }) ready
/-- FlitsAreReceived. -/
theorem witness_TagFlit : linkUp sealedLink 0 = true ∧ retuneHolds sealedLink 0 = false ∧
    bitsOf (natAt tagFlit 0 4) 2 0 = 3 ∧ bitsOf (natAt tagFlit 0 4) 7 4 = 2 ∧ bitsOf (natAt tagFlit 0 4) 16 8 = 0 ∧ fecFlit tagFlit = some (tagFlit, false) := by decide +kernel
/-- FlitsAreReceived. -/
theorem witness_TagFlitCrc : crc32c (tagFlit.take 244) = natAt tagFlit 244 4 := by rw [crc32c_eager]; decide +kernel
def sentFlit : State := modLink 0 (fun l => { l with
  replay := [{ ftype := 1, seq := 0, count := 1, slots := [0] }], txNext := 1, ackOwed := true }) ready
/-- LinkMessagesTakeEffect, LinkCommandsKeepReplayOrder. -/
theorem witness_LinkMessages : linkUp sentFlit 0 = true ∧ bitsOf (1 : BitVec 128).toNat 7 0 = 1 ∧ bitsOf (2 : BitVec 128).toNat 7 0 = 2 ∧
    bitsOf (1 : BitVec 128).toNat 127 64 = 0 ∧ bitsOf (2 : BitVec 128).toNat 127 18 = 0 ∧ sentFlit.ports[(0 : Fin 4)].link.replays < 4 ∧
    4 ≤ (modLink 0 (fun l => { l with replays := 4 }) sentFlit).ports[(0 : Fin 4)].link.replays ∧
    sentFlit.ports[(0 : Fin 4)].partnerState = .attached ∧
    sentFlit.ports[(0 : Fin 4)].link.replay ≠ [] ∧ sentFlit.ports[(0 : Fin 4)].link.ackOwed = true ∧
    heartbeatRuns sentFlit.ports[(0 : Fin 4)].phy = true ∧
    ((List.finRange 4).all fun q => replayInOrder sentFlit.ports[q].link) = true := by decide +kernel
/-- LinkMessagesTakeEffect. -/
theorem witness_AckDue : (pump 0 (modLink 0 (fun l => { l with ackOwed := true }) ready)).ports[(0 : Fin 4)].link.ackOwed = true := by
  decide +kernel
/-- HeadersAndFramesReadBack. -/
theorem witness_Frames : memWf ([] : Memory) = true ∧ (List.replicate 4080 (0 : Byte)).length = 4080 := by decide +kernel
/-- A HELLO of identity 7 that asks for 1,024 slots. -/
def helloMessage : BitVec 512 := BitVec.ofNat 512 (0x10 + 2 ^ 8 + 7 * 2 ^ 64 + 1024 * 2 ^ 256)
def unattached : State := modPort 0 (fun x => { x with partnerState := .linked, lockedUntil := some 0 }) ready
/-- PartnersAttachAndDetach. -/
theorem witness_Hello : bitsOf helloMessage.toNat 7 0 = 0x10 ∧ helloResult unattached 0 helloMessage = 0 ∧
    helloResult (modPartition 63 (fun x => { x with binding := some { identity := 7, key := 1 } }) unattached) 0 helloMessage = 2 ∧
    helloResult (modLink 0 (fun l => { l with sealOn := true }) unattached) 0 helloMessage = 5 ∧
    [1, 3, 4].contains (helloResult unattached 0 (helloMessage ^^^ BitVec.ofNat 512 (7 * 2 ^ 64))) = true ∧
    unattached.ports[(0 : Fin 4)].lockedUntil = some 0 ∧ unattached.ports[(0 : Fin 4)].link.authFailed = false ∧
    unattached.ports[(0 : Fin 4)].partnerState = .linked ∧ ready.ports[(0 : Fin 4)].partnerState = .attached := by decide +kernel
/-- PartnersAttachAndDetach, AttachAndDetachSettleTheirPort. -/
theorem witness_Detach : drained ready.ports[(0 : Fin 4)] = true ∧ ready.ports[(0 : Fin 4)].partnerState = .attached ∧
    (modPort 0 (fun x => { x with draining := true }) ready).ports[(0 : Fin 4)].draining = true ∧
    (let x := (modPort 0 (fun x => { x with partnerState := .detaching, waitingHello := some helloMessage, recordsDropped := 3 }) ready).ports[(0 : Fin 4)]
     x.partnerState = .detaching ∧ x.waitingHello.isSome = true ∧ x.recordsDropped ≠ 0 ∧ x.records.length < 64) := by decide +kernel

/-! ### Channels -/

/-- `ready` with row 65,535 of bank 15 of channel 31 open and a write of its last line queued. -/
def opened : State := modChannel 31 (fun x => { x with
  banks := x.banks.set 15 { openRow := some 65535 }
  writeQueue := [{ bank := 15, row := 65535, line := 31, data := 1, issued := none, poison := false }] }) ready
/-- `opened` with a write of another row of the bank queued as well. -/
def conflicting : State := modChannel 31 (fun x => { x with
  writeQueue := x.writeQueue ++ [{ bank := 15, row := 0, line := 0, data := 1, issued := none, poison := false }] }) opened
/-- BanksOpenCloseAndRefresh. -/
theorem witness_Activate : channelIssues ready 31 = true ∧ ready.channels[(31 : Fin 32)].banks[(15 : Fin 16)].openRow = none ∧
    actFits ready 31 = true ∧ 100 ≤ ready.channels[(31 : Fin 32)].actBudget ∧ refreshFirst ready.channels[(31 : Fin 32)] 15 = false ∧
    refreshFirst (modBank 31 15 (fun b => { b with debt := 4 }) ready).channels[(31 : Fin 32)] 15 = true := by decide +kernel
/-- BanksOpenCloseAndRefresh. -/
theorem witness_PrechargeAndRefresh : channelIssues conflicting 31 = true ∧ closeDue conflicting 31 15 = true ∧
    channelIssues (modBank 0 0 (fun b => { b with debt := 1 }) ready) 0 = true ∧
    refreshDue (modBank 0 0 (fun b => { b with debt := 1 }) ready) 0 0 = true := by decide +kernel
/-- ColumnsAndSkeinsMoveLines, StoredLineReadsBack. -/
theorem witness_Columns : channelIssues opened 31 = true ∧
    opened.channels[(31 : Fin 32)].banks[(15 : Fin 16)].openRow = some 65535 ∧ 100 ≤ opened.channels[(31 : Fin 32)].colBudget ∧
    readServes opened { channel := 31, bank := 15, row := 65535, line := 0 } = true ∧
    ((wqEntry opened { channel := 31, bank := 15, row := 65535, line := 31 }).map (·.issued)) = some none ∧ memWf opened.dram = true ∧
    opened.mover = none := by decide +kernel
/-- LineHashIsOneToOne. -/
theorem witness_LineHash : (hashPlace ready 0).isSome = true ∧ (hashPlace ready 1048575).isSome = true := by decide +kernel
def waitingRequest : QueuedReq := { opcode := opRead, req := readReq, job := job opRead readReq, promoted := false }
def timedRequest : QueuedReq := { waitingRequest with job := { waitingRequest.job with deadline := 1000 } }
def busyChannel : State := modLink 0 (fun l => { l with partnerPanic := true }) (modChannel 0 (fun x => { x with
  requests := [waitingRequest], waiting := [{ job := job opWrite writeReq, pd := 0, address := 1048575, data := 1 }], fallback := true }) ready)
/-- ChannelsScheduleRetryAndSleep. -/
theorem witness_Refreshes : ready.channels[(0 : Fin 32)].state = .active ∧ quarterOut ready 0 = false ∧
    ready.channels[(0 : Fin 32)].banks[(15 : Fin 16)].debt < 7 ∧ channelIssues (modBank 0 15 (fun b => { b with debt := 7 }) ready) 0 = true ∧
    ready.hubTimer < 64 * (ready.channels[(0 : Fin 32)].windowAt + 2) := by decide +kernel
/-- ChannelsScheduleRetryAndSleep. -/
theorem witness_Fallback : panicTrigger busyChannel 0 = true ∧
    (let s := modChannel 0 (fun x => { x with requests := [timedRequest] }) ready
     panicTrigger s 0 = false ∧ slackMoments s 0 ≠ []) ∧
    (let s := modChannel 0 (fun x => { x with fallback := true }) ready
     s.channels[(0 : Fin 32)].fallback = true ∧ fallbackTrigger s 0 = false) := by decide +kernel
/-- ChannelsScheduleRetryAndSleep. -/
theorem witness_QueueEvents : oldest (busyChannel.channels[(0 : Fin 32)].requests.filter fun r => !r.promoted) = some waitingRequest ∧
    wqFull busyChannel 0 = false ∧ busyChannel.channels[(0 : Fin 32)].waiting.length = 1 ∧
    (let u := modChannel 0 (fun y => { y with waiting := [] }) (noteTrigger 0 busyChannel)
     (hostWrite (.port 0) 0 1048575 (policerImage u u.partitions[(0 : Fin 64)] 1048575 1) u).1.isNone = true) := by decide +kernel
/-- ChannelsScheduleRetryAndSleep. -/
theorem witness_ParityAndRetry : channelIssues ready 0 = true ∧ ready.channels[(0 : Fin 32)].alertTrimAt = none ∧
    ready.channels[(0 : Fin 32)].alerts < 2 ∧
    (let s := modChannel 0 (fun x => { x with alerts := 2 }) ready
     channelIssues s 0 = true ∧ s.channels[(0 : Fin 32)].alertTrimAt = none ∧ 2 ≤ s.channels[(0 : Fin 32)].alerts) ∧
    (let s := modChannel 0 (fun x => { x with alertTrimAt := some 0 }) ready
     channelIssues s 0 = true ∧ s.hubTimer ≤ 0 + 1000000) := by decide +kernel
def sleeping : State := modChannel 0 (fun x => { x with state := .selfRefresh, requests := [waitingRequest] }) ready
/-- ChannelsScheduleRetryAndSleep. -/
theorem witness_Sleep : channelIssues ready 31 = true ∧ channelIdle ready 31 = true ∧ ready.channels[(31 : Fin 32)].state = .active ∧
    ready.channels[(31 : Fin 32)].pdIdleUs ≠ 0 ∧
    (let s := modChannel 31 (fun x => { x with state := .powerDown, srIdleMs := 1 }) ready
     channelIssues s 31 = true ∧ channelIdle s 31 = true ∧ targetAdmitted s = false) ∧
    sleeping.channels[(0 : Fin 32)].requests ≠ [] ∧ sleeping.channels[(0 : Fin 32)].heldByCommand = false ∧
    sleeping.channels[(0 : Fin 32)].keeperActed = false ∧ quarterOut sleeping 0 = false ∧ sleeping.device.fatal = false ∧
    trimDrifted sleeping 0 = false := by decide +kernel

/-! ### Integrity, movers and repair -/

def spotted : State := modChannel 0 (fun x => { x with spots := [{ bank := 0, row := 0, line := 0, bad := false, since := 0 }] }) ready
/-- TerrierChecksItsLines. -/
theorem witness_Terrier : spotted.channels[(0 : Fin 32)].spots.length = 1 ∧ terrierRuns spotted 0 = true ∧
    spotted.channels[(0 : Fin 32)].state ≠ .retired ∧ channelAsleep (terrierWake 0 spotted) 0 = false ∧
    (wqEntry (modChannel 0 (fun y => { y with spots := [] }) (terrierWake 0 spotted)) { channel := 0, bank := 0, row := 0, line := 0 }).isNone = true ∧
    ready.params.scrubEnable = true ∧ ready.channels[(0 : Fin 32)].lateRaised = false ∧ quarterOut ready 0 = false := by decide +kernel
def veiledRekey : State := modPartition 5 (fun _ => { openPartition .raw 5 with
  mode := .veiled, sealing := { rekey := some { slot := 1, pointer := 0, quarantined := 0 } } }) ready
/-- Where the rekey's pointer stands after a step. -/
def rekeyAfter (s : State) : Option Nat :=
  let t := modSeal 5 (fun y => { y with rekey := y.rekey.map fun k => { k with pointer := k.pointer + 1 } }) (rekeyLine 5 0 0 0 s)
  t.partitions[(5 : Fin 64)].sealing.rekey.map (·.pointer)
/-- RefillsRekeysAndRetirements. -/
theorem witness_Refills : refillRuns ready { granule := 9, slabs := [(0, 1023), (31, 0)] } = true ∧ rekeyRuns veiledRekey 5 = true ∧
    rekeyAfter veiledRekey = some 1 ∧
    (modFuses (fun f => { f with keyLockedUntil := some 5 }) ready).fuses.keyLockedUntil = some 5 := by decide +kernel
def retirement3 : Task := { ticket := 1, opcode := 0x0603, mb := 0, byStack := false, state := .queued, paused := false, status := .ok
                            progress := 0, result := 0, work := .retire 3 }
def retiring3 : State := { ready with tasks := [retirement3], mover := some (.slabs 3 [(0, 4, 5), (1, 4, 6)] 1023) }
/-- Both channels of the copy awake. -/
def copying3 : State := leaveSelfRefresh 3 (leaveSelfRefresh 4 (resumeCopies retiring3))
/-- RefillsRekeysAndRetirements. -/
theorem witness_Retirements : mayStart retiring3 [] retirement3 = true ∧ copyServes retiring3 3 = true ∧ copyServes retiring3 4 = true ∧
    retiring3.channels[(3 : Fin 32)].poisonFill = false ∧ retiring3.firmware.rebooting = false ∧
    channelAsleep copying3 3 = false ∧ channelAsleep copying3 4 = false ∧ thermalEmergency retiring3 = false ∧
    relocSource retiring3 3 0 = none := by decide +kernel
def goodProbe : TrimProbe :=
  let t : TapProbe := { pass := 0xFFFFFFFFFFFFFFFF, path := .column, narrowWire := 0 }
  { cclk := t, skclk := t, rx := t, dead := [], below90 := false }
/-- TrimsAndRepairs. -/
theorem witness_Trims : trimServes ready 0 = true ∧ goodProbe.below90 = false ∧ goodProbe.dead = [] ∧ ready.params.autoRepair = true ∧
    (let s := modVertical 0 (fun v => { v with trimFails := 1, suspects := [(.column, 0)] }) ready
     s.channels[(0 : Fin 32)].vertical.trimFails = 1 ∧ s.channels[(0 : Fin 32)].vertical.suspects.contains (.column, 0) = true ∧
     trimServes s 0 = true) ∧
    trimServes (modVertical 0 (fun v => { v with trimFails := 2 }) ready) 0 = true ∧
    autoResetOpen (modBlock (.channel 0) (fun x => { x with fenced := true }) ready) (.channel 0) = true ∧
    autoResetOpen (modBlock .copy (fun x => { x with fenced := true }) ready) .copy = true := by decide +kernel
/-- RowsKeepersAndBonds. -/
theorem witness_Rows :
    let s := modBank 0 0 (fun b => { b with badRows := [(65599, 3)] }) ready
    s.params.autoPpr = true ∧ s.params.rowSuspectPasses ≤ sparseGet 0 s.channels[(0 : Fin 32)].banks[(0 : Fin 16)].badRows 65599 ∧
      s.channels[(0 : Fin 32)].retire ≠ .migrating ∧ ((runningWork s).any fun w => decide (workChannel w = some 0)) = false ∧
      channelIssues s 0 = true ∧ s.channels[(0 : Fin 32)].keeperActed = false ∧ s.channels[(0 : Fin 32)].state = .active := by
  decide +kernel
/-- TrimsBondsAndFactorsStayInRange. -/
theorem witness_Bounds : (10 : Nat) ≤ 10 ∧ (100 : Nat) ≤ 100 ∧ (63 : Nat) < 64 ∧ ({} : Bond).residual.length ≤ 64 := by decide +kernel
/-- ThermalLoopsRun. -/
theorem witness_Thermal : ready.thermal.tripped = false ∧ (0 : Int) ≤ capDw ready ∧
    (let t := (modThermal (fun t => { t with flowLow := true, flowCoolSince := some 4 }) ready).thermal
     t.flowCoolSince = some 4 ∧ t.flowLow = true) := by decide +kernel
/-- ClocksAndRailsFailAndReturn. -/
theorem witness_ClocksAndRails : ready.device.refclk ≠ 1 ∧ devReady ready = true ∧ ready.quarters[(3 : Fin 4)].pllLocked = true ∧
    (modDevice (fun d => { d with refclk := 2 }) ready).device.refclk = 2 ∧
    (([.vddIo, .vddSd, .vddSdh, .vddCore, .vddSram, .vddDram, .vpp, .vfuse] : List Rail).all fun r =>
      !railFaulted ready r && railFaulted (setRail r true ready) r) = true ∧
    serdesUp (setRail .vddSd false (setRail .vddSd true ready)) = true ∧
    serdesUp (setRail .vddSd false (setRail .vddSdh true (setRail .vddSd true ready))) = false ∧ fuseRuns ready = false ∧
    (modFuses (fun f => { f with vfuseRaised := some 0 }) { ready with hubTimer := hourNs }).fuses.vfuseRaised = some 0 := by decide +kernel
/-- CoresRebootAndTasksEnd. -/
theorem witness_Cores : coresRun ready = true ∧ ready.firmware.lockstepAt = none ∧
    coresRun (modFirmware (fun x => { x with lockstepAt := some 0 }) ready) = true ∧
    (modFirmware (fun x => { x with rebooting := true }) ready).firmware.rebooting = true ∧
    (let s := modLog (fun l => { l with suppressed := [(0x2010, (1, 0))] }) ready
     s.log.suppressed ≠ [] ∧ s.log.second = s.hubTimer / 1000000000) := by decide +kernel

/-! ### Management commands -/

/-- A frame of these argument bytes. -/
def frame (args : List Byte) : Frame := { seq := 1, argLength := BitVec.ofNat 16 args.length, notify := false, reserved := 0, args := args }
def zeros (n : Nat) : List Byte := List.replicate n 0
def takes (opcode : BitVec 16) (args : List Byte) : Bool := accepted opcode 0 (frame args) ready
/-- DoorbellsCheckTheirCommands. -/
theorem witness_RepeatedDoorbell : let s := modMailbox 0 (fun x => { x with lastSeq := some 1 }) ready
    mailboxServes s 0 = true ∧ s.mailboxes[(0 : Fin 6)].busy = none ∧ s.mailboxes[(0 : Fin 6)].lastSeq = some (frame [1]).seq := by
  decide +kernel
/-- DoorbellsCheckTheirCommands. -/
theorem witness_Doorbells : taken 0x0001 0 (frame [1]) ready = true ∧
    (match checkCommand ready 0 0x0001 (frame [1]) with | .error st => decide (st = .badLength) | .ok _ => false) = true ∧
    mailboxServes ready 5 = true ∧
    (modMailbox 0 (fun x => { x with busy := some (1, 1) }) ready).mailboxes[(0 : Fin 6)].busy.isSome = true := by decide +kernel
/-- ResponseIsWrittenWhole. -/
theorem witness_Response : memWf ready.mailboxes[(0 : Fin 6)].response = true ∧ (zeros 4080).length ≤ 4080 := by decide +kernel

def paramArgs : List Byte := [1, 0, 0, 0, 0x00, 0x91, 0, 0]
def keyed : State := { ready with
  keys := ready.keys.set 9 { kind := .gcm, key := 5 }
  fuses := { ready.fuses with policy := 0xF, keywrap := some 1, selected := List.replicate 6 (List.replicate 36 none) } }
/-- ReportingCommandsAnswer. -/
theorem witness_Reports : (takes 1 [] && takes 2 [] && takes 3 (zeros 2) && takes 4 (zeros 8 ++ [127, 0]) && takes 6 [] && takes 0x803 []) = true ∧
    takes 0x10 paramArgs = true ∧ argsClear (frame paramArgs) [(0, 2), (4, 4)] = true ∧
    ((readEntries (frame paramArgs)).all fun e => paramExists e.1 e.2) = true ∧
    takes 0x802 [0, 0, 31, 0] = true ∧ argsClear (frame [0, 0, 31, 0]) [(0, 1), (2, 2)] = true ∧
    takes 0xA00 [5, 3] = true ∧ fuseArgs (frame [5, 3]) = true := by decide +kernel
def memArgs : List Byte := [0, 1, 0, 0] ++ natToBytes 8 (67108864 - 64)
/-- ReportingCommandsAnswer. -/
theorem witness_MemoryReports : takes 0xB00 memArgs = true ∧ argsClear (frame memArgs) [(0, 2), (4, 8)] = true ∧
    memExtent ready (frame memArgs) false = some (0, [1048575]) ∧ memRight ready 0 0 0 = true ∧ partitionOrphaned ready 0 = false ∧
    ([1048575].find? (memHeld ready 0)) = none ∧
    (memReadLines 0 0 [1048575] [] none (wakeLines 0 [1048575] (begun 0xB00 0 (frame memArgs) ready))).2.1 = none ∧
    takes 0xB02 [0xC0, 0xFF, 0x40, 0] = true ∧ arg (frame [0xC0, 0xFF, 0x40, 0]) 0 2 + arg (frame [0xC0, 0xFF, 0x40, 0]) 2 2 ≤ 65536 := by
  decide +kernel
/-- ReportingCommandsAnswer. -/
theorem witness_ExportRecord (key : List Nat) (s : State) : exportRecord key s ≠ [] := by
  intro h
  have := congrArg List.length h
  simp [exportRecord, cmac, aesEncrypt, numBytes] at this
/-- ReportingCommandsAnswer. -/
theorem witness_Export : accepted 0x903 0 (frame [9, 0, 0, 0, 0, 0, 0, 0]) keyed = true ∧
    (gcmSlot (begun 0x903 0 (frame [9, 0, 0, 0, 0, 0, 0, 0]) keyed) 9).isSome = true ∧
    argsClear (frame [9, 0, 0, 0, 0, 0, 0, 0]) [(0, 1), (4, 4)] = true := by decide +kernel

def writeArgs : List Byte := [1, 0, 0, 0, 0x02, 0x91, 0, 0, 3, 0, 0, 0, 0, 0, 0, 0]
/-- SettingCommandsTakeEffect. -/
theorem witness_Settings : takes 5 (zeros 8) = true ∧ takes 0x11 writeArgs = true ∧
    argsClear (frame writeArgs) [(0, 2), (4, 12)] = true ∧ (writeParams (writeEntries (frame writeArgs)) ready).1 = .ok ∧
    takes 0x12 [0x02, 0x91, 0, 0, 1] = true ∧ paramExists 0x9102 0 = true ∧ paramWritable 0x9102 = true ∧
    takes 0x502 [3, 15] = true ∧ takes 0x604 [31, 1] = true ∧ channelMapped ready 31 = false ∧ takes 0x605 [16] = true ∧
    takes 0x902 [0, 0] = true ∧ takes 0xB03 ([0x08, 0xFC, 0, 0] ++ zeros 8) = true ∧
    (modSensor 16 (fun x => { x with suspect := true, agreeing := 4000 }) ready).sensors[(16 : Fin 17)].suspect = true := by decide +kernel
/-- SettingCommandsTakeEffect. -/
theorem witness_FirmwareSettings : accepted 0x900 0 (frame ([0xFF, 0xFF, 0x0F, 0, 1, 0, 0, 0] ++ [7])) keyed = true ∧
    argsClear (frame ([0xFF, 0xFF, 0x0F, 0, 1, 0, 0, 0] ++ [7])) [(0, 6), (8, 1)] = true ∧
    accepted 0x900 0 (frame ([0xFF, 0xFF, 0x0F, 0, 1, 0, 0, 0] ++ [7]))
      (modFirmware (fun x => { x with activating := true }) keyed) = true ∧
    takes 0xA01 ([1] ++ zeros 519) = true ∧ imageClear 1 (fuseImage (frame ([1] ++ zeros 519))) = true ∧
    argsClear (frame ([1] ++ zeros 519)) [(0, 3), (8, 512)] = true := by decide +kernel
def memWriteArgs : List Byte := [0, 1, 0, 0] ++ zeros 8 ++ List.replicate 64 1
/-- SettingCommandsTakeEffect. -/
theorem witness_MemWrite : takes 0xB01 memWriteArgs = true ∧ memExtent ready (frame memWriteArgs) true = some (0, [0]) ∧
    argsClear (frame memWriteArgs) [(0, 2), (4, 72)] = true ∧ memRight ready 0 0 1 = true ∧ debugBlind ready 0 0 = false ∧
    ([0].find? (memHeld ready 0)) = none ∧
    (memWriteLines 0 0 (frame memWriteArgs) [(0, 0)] none (wakeLines 0 [0] (begun 0xB01 0 (frame memWriteArgs) ready))).1 = none := by
  decide +kernel

def createArgs : List Byte := [63, 0, 0, 0, 3, 15, 0, 0] ++ natToBytes 2 1023 ++ natToBytes 2 1 ++ natToBytes 4 0 ++ zeros 16
def created : Partition := { valid := true, quarter := 3, owner := 15, base := 1023, granules := 1, rights := rightsAtCreation 15 }
/-- PartitionCommandsAndQuiescePoints. -/
theorem witness_Create : takes 0x100 createArgs = true ∧ argsClear (frame createArgs) [(0, 7), (8, 8)] = true ∧
    rangeFree ready 63 1023 1024 = true ∧ (makePartition created 63 (begun 0x100 0 (frame createArgs) ready)).map (fun t => decide (ready.refills.length ≤ t.refills.length)) = some true := by decide +kernel
/-- `ready` with partition 0 where it may grow. -/
def roomy : State := modPartition 0 (fun _ => openPartition .raw 900) ready
/-- PartitionCommandsAndQuiescePoints. -/
theorem witness_Changes : accepted 0x101 0 (frame [0, 0, 2, 0]) roomy = true ∧ rekeying roomy 0 = false ∧ regionsInside roomy 0 2 = true ∧
    argsClear (frame [0, 0, 2, 0]) [(0, 1), (2, 2)] = true ∧ rangeFree roomy 0 900 902 = true ∧ resizeAhead roomy 0 = none ∧
    roomy.partitions[(0 : Fin 64)].granules = 1 ∧ roomy.partitions[(0 : Fin 64)].mode = .plain ∧
    takes 0x102 [0] = true ∧ rekeying ready 0 = false ∧ resizeAhead ready 0 = none ∧
    (ready.tables.any fun t => (t.valid || t.quiescing) && decide (t.partition = 0)) = false ∧ queuesFree ready 0 = true ∧
    takes 0x103 [0, 2, 0, 0, 1, 0, 0, 0] = true ∧ argsClear (frame [0, 2, 0, 0, 1, 0, 0, 0]) [(0, 3), (4, 4)] = true ∧
    1 ≤ collieShare ready 0 ∧ sharesNaming ready 0 = 0 ∧
    takes 0x104 [0, 0, 0, 0, 0xFF, 0xFF, 0x07, 0] = true ∧ argsClear (frame [0, 0, 0, 0, 0xFF, 0xFF, 0x07, 0]) [(0, 1), (4, 4)] = true ∧
    arg (frame [0, 0, 0, 0, 0xFF, 0xFF, 0x07, 0]) 4 4 < 2 ^ 19 := by decide +kernel
def changing : State := modPartition 0 (fun x => { x with pendingChanges := [(.rights 7, some 0)] }) ready
/-- What stands at the quiesce point before the first change is applied. -/
def quiesced : State := flushPartition 0 (modPartition 0 (fun x => { x with pendingChanges := [] }) changing)
/-- PartitionCommandsAndQuiescePoints. -/
theorem witness_Quiesce : changing.partitions[(0 : Fin 64)].pendingChanges = [(.rights 7, some 0)] ∧ partitionBusy changing 0 = false ∧
    quiesced.partitions[(0 : Fin 64)].valid = true ∧ changeRefused quiesced 0 (.rights 7) = false ∧
    (applyChange 0 (.rights 7) quiesced).map (fun t => decide (quiesced.refills.length ≤ t.refills.length)) = some true ∧
    (modTable 0 (fun t => { t with quiescing := true }) ready).tables[(0 : Fin 16)].quiescing = true ∧ ready.tables[(0 : Fin 16)].valid = true ∧
    tableBusy (modTable 0 (fun t => { t with quiescing := true }) ready) 0 = false := by
  decide +kernel

/-! ### Keys, tables, queues and classes -/

/-- A key of 32 bytes 7 wrapped for a stack of serial 0 whose KEYWRAP secret is 1. -/
def wrappedKey : List Byte := [20, 150, 57, 169, 116, 107, 7, 44, 147, 115, 229, 1, 181, 110, 144, 205, 210, 102, 12, 224, 4, 221, 9, 186,
  249, 61, 125, 173, 138, 51, 233, 120, 233, 223, 18, 122, 46, 130, 119, 196]
/-- FIPS 197, appendix C.3. -/
theorem test_aes256_example : aesEncrypt (List.range 32) ((List.range 16).map (17 * ·)) =
    [0x8E, 0xA2, 0xB7, 0xCA, 0x51, 0x67, 0x45, 0xBF, 0xEA, 0xFC, 0x49, 0x90, 0x4B, 0x49, 0x60, 0x89] := by decide +kernel
/-- RFC 3394, section 4.6. -/
theorem test_unwrap_example : keyUnwrap (List.range 32) [0x28, 0xC9, 0xF4, 0x04, 0xC4, 0xB8, 0x10, 0xF4, 0xCB, 0xCC, 0xB3, 0x5C, 0xFB,
    0x87, 0xF8, 0x26, 0x3F, 0x57, 0x86, 0xE2, 0xD8, 0x0E, 0xD3, 0x26, 0xCB, 0xC7, 0xF0, 0xE7, 0x1A, 0x99, 0xF4, 0x3B, 0xFB, 0x98, 0x8B,
    0x9B, 0x7A, 0x02, 0xDD, 0x21] = some ((List.range 16).map (17 * ·) ++ List.range 16) := by decide +kernel
def wrapKey : List Nat := [182, 122, 191, 130, 64, 107, 97, 186, 49, 182, 155, 229, 174, 246, 118, 243, 146, 89, 188, 4, 197, 244, 150,
  74, 176, 195, 171, 177, 59, 235, 234, 73]
theorem witness_WrapKey : keyWrapKey keyed 1 = wrapKey := by decide +kernel
/-- KeyTableQueueCommands. -/
theorem witness_KeyUnwraps : keyUnwrap (keyWrapKey keyed 1) (wrappedKey.map BitVec.toNat) = some (List.replicate 32 7) := by
  rw [witness_WrapKey]; decide +kernel
/-- KeyTableQueueCommands. -/
theorem witness_Keys : accepted 0x0110 0 (frame ([8, 3, 0, 0] ++ wrappedKey)) keyed = true ∧
    argsClear (frame ([8, 3, 0, 0] ++ wrappedKey)) [(0, 2), (4, 40)] = true ∧ keyed.keys[(8 : Fin 64)].kind = .empty ∧
    slotUser keyed 8 = none ∧ keyed.fuses.keywrap = some 1 ∧ takes 0x111 [63] = true ∧ slotUser ready 63 = none := by decide +kernel

def tableArgs : List Byte := [15, 0, 1, 4, 10, 0, 0, 0] ++ natToBytes 4 4096 ++ natToBytes 4 1024 ++ zeros 16
/-- KeyTableQueueCommands. -/
theorem witness_Tables : takes 0x200 tableArgs = true ∧ argsClear (frame tableArgs) [(0, 7), (8, 12)] = true ∧
    tableTaken ready.tables[(15 : Fin 16)] = false ∧ tableFieldsFit false 4 10 0 0 1024 = true ∧
    regionClear ready 1 4096 1024 = true ∧ ready.partitions[(1 : Fin 64)].quarter = 0 ∧
    accepted 0x202 0 (frame [1, 2, 0, 0, 255, 3, 0, 0]) { ready with directoryBad := [1023] } = true ∧
    argsClear (frame [1, 2, 0, 0, 255, 3, 0, 0]) [(0, 3), (4, 4)] = true ∧ ready.tables[(1 : Fin 16)].dirBase = 0 := by decide +kernel

def queueArgs : List Byte := [4, 0, 0, 0, 2, 0, 15, 1]
/-- KeyTableQueueCommands. -/
theorem witness_QueueCommands : takes 0x300 queueArgs = true ∧ homeSlice 4 = 0 ∧ ready.partitions[(2 : Fin 64)].quarter = 0 ∧
    (queueAt ready 4).state = .free ∧ ownerSubset ready 2 0xF = true ∧ freeCells ready 2 ≠ 0 ∧
    (takeCell 0 2 (begun 0x300 0 (frame queueArgs) ready)).1.isSome = true ∧
    takes 0x301 [0, 0, 0, 0, 1, 31, 0, 0] = true ∧ takes 0x302 (zeros 4) = true ∧ (queueAt ready 0).cells = 0 ∧
    (queueAt ready 0).streams = [] ∧ takes 0x303 (zeros 4) = true ∧
    (takeCell 0 2 (begun 0x303 0 (frame (zeros 4)) ready)).1.isSome = true := by decide +kernel

def classArgs : List Byte := [3, 7, 4, 63] ++ natToBytes 4 100 ++ natToBytes 4 64 ++ natToBytes 4 0 ++ natToBytes 4 1048576 ++ zeros 12
/-- KeyTableQueueCommands. -/
theorem witness_CollieSet : takes 0x400 classArgs = true ∧ argsClear (frame classArgs) [(0, 28)] = true ∧
    ledgerFits (modClass 3 7 (fun c => { c with
      floor := 100, floorBurst := 64, ceiling := 0, ceilingBurst := 1048576, scope := 4, kennelPd := 63, floorAdmitted := 100 }) ready) = true := by decide +kernel

/-! ### Long commands -/

def opens (opcode : BitVec 16) (args : List Byte) (w : Work) : Bool :=
  takes opcode args && activityOpen 0 opcode w (begun opcode 0 (frame args) ready)
/-- LongCommandsAreAccepted. -/
theorem witness_Long : roomForTask ready = true ∧ takes 0x201 [0] = true ∧ takes 0x304 [2] = true ∧
    ((queuesOf ready 2).any fun q => decide ((queueAt ready q).cells ≠ 0) || !(queueAt ready q).streams.isEmpty) = false ∧
    (opens 0x500 [3] (.portTrain 3) && opens 0x503 [0, 0, 15, 0] (.retune 0 15) && opens 0x600 [31] (.vtrim 31) &&
      opens 0x601 [0, 0, 0, 0] (.wireRepair 0 (pathOf 0) 0) &&
      opens 0x602 [31, 15, 0, 0, 0x3F, 0, 1, 0] (.rowRepair 31 15 65599) && opens 0x603 [31] (.retire 31)) = true ∧
    chanRetired ready 31 = false ∧ linkUp ready 0 = true ∧ ready.ports[(3 : Fin 4)].phy.enable = true ∧
    retirement ready 31 = none ∧ reserveTakes ready 31 = true ∧ takes 0x701 [3] = true := by decide +kernel
def testArgs : List Byte := [1, 0, 3, 4, 0, 0, 1, 0, 0, 0, 0, 0]
/-- LongCommandsAreAccepted. -/
theorem witness_PortTest : opens 0x501 testArgs (.portTest 1 (testArg (frame testArgs))) = true ∧
    argsClear (frame testArgs) [(0, 7), (8, 4)] = true ∧ ready.ports[(1 : Fin 4)].phy.enable = true ∧ bitsOf 4 1 0 ≠ 3 := by
  decide +kernel
def sealedKey : State := { ready with
  keys := (ready.keys.set 9 { kind := .xts, key := 5 }).set 10 { kind := .xts, key := 6 }
  partitions := ready.partitions.set 0 { openPartition .raw 0 with mode := .veiled, keySlot := 9 } }
/-- LongCommandsAreAccepted. -/
theorem witness_Rekey : accepted 0x105 0 (frame [0, 10]) sealedKey = true ∧
    activityOpen 0 0x105 (.rekey 0) (begun 0x105 0 (frame [0, 10]) sealedKey) = true ∧ rekeying sealedKey 0 = false ∧
    resizeAhead sealedKey 0 = none ∧ slotFits sealedKey .veiled 10 = true := by decide +kernel
def copyBlock : List Byte := [12, 0, 0, 0, 0, 0, 0, 0]
/-- LongCommandsAreAccepted. -/
theorem witness_SelfTests : blockArg (frame copyBlock) = some .copy ∧ argsClear (frame copyBlock) [(0, 1), (2, 6)] = true ∧
    bistPatterns ready 0 = some ready.params.bistPatterns ∧ bistPatterns ready 1048576 = some 1048576 ∧
    bistAllowed ready .copy = true ∧ mbistAllowed ready .copy = none ∧
    opens 0x800 copyBlock (.bist .copy ready.params.bistPatterns) = true ∧
    opens 0x801 [12, 0, 0, 0] (.mbist .copy) = true := by decide +kernel
def importing : State := { State.reset with device := { dev := .ready }, keys := State.reset.keys.set 9 { kind := .gcm, key := 5 } }
def importArgs : List Byte := [9, 0, 16, 0, 0, 0, 0, 0] ++ zeros 16
/-- LongCommandsAreAccepted. -/
theorem witness_Firmware : accepted 0x901 0 (frame [0]) keyed = true ∧ accepted 0x904 0 (frame importArgs) importing = true ∧
    argsClear (frame importArgs) [(0, 8), (8, 16)] = true ∧ (importing.partitions.any (·.valid)) = false ∧
    (gcmSlot importing 9).isSome = true := by decide +kernel
/-- `keyed` with VFUSE on, user slot 0 loaded and the policy open. -/
def burning : State := modFuses (fun f => { f with
  vfuseOk := true, selected := (List.replicate 6 (List.replicate 36 none)).set 5 [some 1, none, none, none] }) keyed
/-- LongCommandsAreAccepted. -/
theorem witness_FuseCommands : accepted 0xA02 0 (frame ([5, 0, 1] ++ zeros 5 ++ List.replicate 64 1)) burning = true ∧
    argsClear (frame ([5, 0, 1] ++ zeros 5 ++ List.replicate 64 1)) [(0, 3), (8, 64)] = true ∧ fuseDead burning 5 0 = false ∧
    fuseBlockState burning 5 1 0 = .blank ∧ nextUser burning 1 = some 0 ∧
    imageFits burning 5 0 1 (fuseImage (frame ([5, 0, 1] ++ zeros 5 ++ List.replicate 64 1))) = true ∧
    fuseRefusal burning = none ∧
    accepted 0xA03 0 (frame [2, 0, 1]) burning = true ∧ fuseArgs (frame [2, 0, 1]) = true ∧ fuseDead burning 2 0 = false ∧
    lockFits burning 2 0 = true ∧
    accepted 0xA04 0 (frame [5, 0]) burning = true ∧ reburnable burning 5 0 = true := by decide +kernel

/-! ### Resets, maintenance and start-up -/

def queuedWork : State := { ready with tasks := [newTask ready 0 0x600 .queued (.vtrim 3)] }
/-- ResetAndMaintenanceCommands. -/
theorem witness_Maintenance : takes 0x700 [0] = true ∧ takes 0x702 [12, 0, 0, 0] = true ∧
    (blockAt ready .copy).resetting = false ∧ accepted 0x804 0 (frame [1, 0]) queuedWork = true ∧
    (queuedWork.tasks.find? (fun t => decide (t.ticket = 1) && decide (t.state = .queued))).isSome = true ∧
    (nextWork queuedWork).isSome = true ∧ devReady queuedWork = true ∧
    (modFirmware (fun x => { x with probation := some (7, 3), snapshot := some ([1], 8) }) ready).firmware.probation = some (7, 3) := by
  decide +kernel
def coldHeld : State := modDevice (fun d => { d with rstLow := true }) State.reset
/-- ResetsKeepWhatTheyKeep, StartupPhasesAndRestart. -/
theorem witness_Resets : ioFaulted ready = false ∧ ready.thermal.tripped = false ∧ coldHeld.device.rstLow = true ∧
    warmAllowed ready = true ∧ (modDevice (fun d => { d with wrstLow := true, warm := true }) ready).device.dev ≠ .startFailed ∧
    ready.device.refclk ≠ 1 ∧ (modDevice (fun d => { d with refclk := 1 }) State.reset).device.dev = .fuseLoad := by decide +kernel

/-- StartupPhasesAndRestart. -/
theorem witness_Startup : ([DevState.fuseLoad, .sram, .core, .dramInit, .fill].all fun d =>
      let s := modDevice (fun x => { x with dev := d }) State.reset
      decide (s.device.dev = d) && !s.device.rstLow && !s.thermal.tripped) = true ∧
    ({} : StartReport).hubPll = true ∧ ({} : StartReport).managementPll = true ∧ ({} : StartReport).channelsBad = [] ∧
    (let s := modDevice (fun d => { d with warm := true }) ready
     s.device.warm = true ∧ s.device.wrstLow = false ∧ s.device.rstLow = false ∧ s.device.refclk ≠ 1 ∧ s.thermal.tripped = false) := by
  decide +kernel

/-! ### Sideband and TAP -/

/-- RegistersMoveMailboxData. -/
theorem witness_Registers : (registersAnswer true ready && registersAnswer false ready) = true ∧ ready.sideband.i3c = false ∧
    (pointerOf ready true).getLsbD 15 = false ∧
    (pointerOf (setPointer false 0x8FFF ready) false).getLsbD 15 = true ∧
    (pointerOf (setPointer false 0x8FFF ready) false).toNat % 8192 = 4095 := by decide +kernel
/-- CommonCommandCodes. -/
theorem witness_CommonCodes : (0x58 : BitVec 7).toNat = 0x58 + ready.sideband.strap.toNat ∧
    (modSideband (fun b => { b with i3c := true }) ready).sideband.i3c = true ∧ ready.log.ibiPending = [] ∧
    (260 : BitVec 16).toNat ≤ 260 := by decide +kernel
/-- TapInstructions. -/
theorem witness_Tap : (modSideband (fun b => { b with tapReset := false }) ready).sideband.tapReset = false ∧
    debugOpen ready = false ∧ registersAnswer true ready = true ∧
    (let s := modSideband (fun b => { b with wspTarget := 12 }) (modFuses (fun f => { f with policy := 0xF }) ready)
     debugOpen s = true ∧ (wspBlock s).map (wspConnects s) = some false) ∧
    bitsOf (0x0002_0000_0000 : BitVec 48).toNat 47 32 = 2 ∧ bitsOf (0x8002_0000_8FFF : BitVec 48).toNat 47 32 = 0x8002 := by
  decide +kernel

/-! ### The whole machine -/

/-- StepsKeepCanonicalForm. -/
theorem witness_Canonical : canonical ready = true := by decide +kernel
/-- CommandsLeaveTheQueue, QueriesLeaveMemory, StepRunsFrontCommand. -/
theorem witness_Next : (match step { ready with pending := [.getpid] } with | .next t => decide (t.sideband.nacked = true) | _ => false) = true ∧
    (match exec .getpid ready with | .next t => decide (t.pending = []) | _ => false) = true := by decide +kernel
def ioOff : State := modDevice (fun d => { d with railState := 16 }) ready
/-- OnlyFaultedPinsStop. -/
theorem witness_Stops : usesPins (.idcode) = true ∧ ioFaulted ioOff = true ∧ usesPins .maintStart = false ∧ ioFaulted ready = false := by
  decide +kernel

/-- EveryFormCompletes. -/
theorem witness_EveryForm : portLive ready 0 = true ∧ linkUp ready 0 = true ∧ channelIssues ready 31 = true ∧ takes 1 [] = true ∧
    ioFaulted ready = false := by decide +kernel

/-! ### Clauses of their own -/

/-- ChannelsScheduleRetryAndSleep. -/
theorem witness_ReadRetry : let pl : Place := { channel := 31, bank := 15, row := 65599, line := 31 }
    columnFits ready 31 = true ∧ (wqEntry ready pl).isNone = true ∧
    classifyLine (storedLine ready pl ^^^ BitVec.ofNat 576 (2 ^ 5 + 2 ^ 100 + 2 ^ 200 + 2 ^ 300)) (erasureSet ready pl) = .uncorrectable ∧
    classifyLine (storedLine ready pl) (erasureSet ready pl) = .clean 0 := by decide +kernel
/-- BanksOpenCloseAndRefresh. -/
theorem witness_NopWord :
    let s := modChannel 31 (fun x => { x with
      writeQueue := [{ bank := 15, row := 65535, line := 31, data := 1, issued := some 0, poison := false }] }) ready
    channelIssues s 31 = true ∧ s.channels[(31 : Fin 32)].writeQueue.any (fun e => e.issued.isSome) = true := by decide +kernel
/-- A channel in fallback mode with a request whose slack falls below the threshold before 64 CCLK are over. -/
def lastTail : State := modChannel 0 (fun x => { x with fallback := true, requests := [{ timedRequest with
  job := { timedRequest.job with deadline := 20 } }] }) ready
/-- ChannelsScheduleRetryAndSleep. -/
theorem witness_FallbackTail : lastTail.channels[(0 : Fin 32)].fallback = true ∧ fallbackTrigger lastTail 0 = false ∧
    (slackMoments lastTail 0).filter (fun t => decide (t ≤ max (lastTail.channels[(0 : Fin 32)].fallbackAt + 64) lastTail.hubTimer)) ≠ [] := by
  decide +kernel
/-- TrimsAndRepairs. -/
theorem witness_EchoTest :
    let s := modBlock (.channel 31) (fun x => { x with fenced := true }) ready
    let t := modChannel 31 (fun x => { x with echoDue := true }) s
    autoResetOpen s (.channel 31) = true ∧ s.channels[(31 : Fin 32)].echoDue = false ∧
      autoResetOpen t (.channel 31) = true ∧ t.channels[(31 : Fin 32)].echoDue = true := by decide +kernel
/-- QuartersIsolateAndReset. -/
theorem witness_HeldCause : (modQuarter 1 (fun x => { x with cause := 3 }) isolatingQuarter).quarters[(1 : Fin 4)].isolating = true ∧
    (modQuarter 1 (fun x => { x with cause := 3 }) isolatingQuarter).quarters[(1 : Fin 4)].cause = 3 ∧
    isolatingQuarter.quarters[(1 : Fin 4)].cause ≠ 4 := by decide +kernel
/-- PartnersAttachAndDetach. -/
theorem witness_HelloPort : portLive unattached 0 = true := by decide +kernel
/-- A rise of 8 °C within a second that the power does not explain. -/
def risen : State := modThermal (fun t => { t with history := List.replicate 2000 (0, 0) }) ready
/-- ThermalLoopsRun. -/
theorem witness_ThermalLoops : ready.thermal.nextSensor = 0 ∧ (16 : Fin 17) ≠ ready.thermal.nextSensor ∧
    capDw ready < ((100000 : Nat) : Int) ∧ risen.thermal.history[1999]? = some (0, 0) ∧ risen.thermal.flowLow = false ∧
    ((256 * risen.thermal.flowLossRate : Nat) : Int) <
      10 * (((List.finRange 17).filter fun k => k.val ≠ 0).foldl (fun (t : Int) k => t + risen.sensors[k].value) 0 - 0) ∧
    risen.thermal.powerEstDw ≤ 0 + 50 ∧ ready.thermal.flowCoolSince = none := by decide +kernel
/-- CoresRebootAndTasksEnd. -/
theorem witness_TasksEnd :
    let s := { ready with tasks := [{ newTask ready 0 0x600 .running (.vtrim 3) with ticket := 9 }] }
    s.firmware.rebooting = false ∧ s.device.warm = false ∧
    (s.tasks.find? fun t => decide (t.ticket = (9 : BitVec 16).toNat) && decide (t.ticket ≠ 0) && decide (t.state = .running)).isSome = true ∧
    (s.tasks.find? fun t => decide (t.ticket = (8 : BitVec 16).toNat) && decide (t.ticket ≠ 0) && decide (t.state = .running)) = none ∧
    ready.log.suppressed = [] ∧ ready.firmware.romGood = true ∧
    (modFirmware (fun x => { x with rebooting := true, romGood := false }) ready).firmware.romGood = false := by decide +kernel

/-! ### The configuration store -/

/-- What the store takes of a command's effect on `ready`. -/
def takesStore (opcode : BitVec 16) (args : List Byte) (f : State → State) : Bool :=
  let u := begun opcode 0 (frame args) ready
  (commitStore u (f u)).isSome
/-- SettingCommandsTakeEffect, KeyTableQueueCommands. -/
theorem witness_Stored :
    (takesStore 0x11 writeArgs (fun u => claimRegions 0 (keepParams (writeParams (writeEntries (frame writeArgs)) u).2)) &&
      takesStore 0x12 [0x02, 0x91, 0, 0, 1] (modFirmware fun x => { x with persisted := [] }) &&
      takesStore 0x604 [31, 1] (holdChannel 31) && takesStore 0x400 classArgs (fun u => recomputeLedger u (modClass 3 7 (fun c => { c with
        floor := 100, floorAdmitted := 100, scope := 4 }) u)) &&
      takesStore 0x302 (zeros 4) (fun u => modQueue 0 (fun _ => {}) (giveCell 0 2 u 0))) = true := by decide +kernel
/-- SettingCommandsTakeEffect. -/
theorem witness_StoredMemory : takesStore 0xB01 memWriteArgs (fun u =>
    (memWriteLines 0 0 (frame memWriteArgs) [(0, 0)] none (wakeLines 0 [0] u)).2) = true := by decide +kernel
/-- KeyTableQueueCommands. -/
theorem witness_StoredQueues :
    (takesStore 0x300 queueArgs (fun u => modQueue 4 (fun y => { y with state := .active }) (takeCell 0 2 u).2) &&
      takesStore 0x303 (zeros 4) (fun u => modBuffer 2 (fun b => { b with leaked := b.leaked + 1 }) (endQueueWork 0 (takeCell 0 2 u).2))) = true := by
  decide +kernel
/-- PartitionCommandsAndQuiescePoints, KeyTableQueueCommands, LongCommandsAreAccepted. -/
theorem witness_StoredPartition : ((makePartition created 63 (begun 0x100 0 (frame createArgs) ready)).bind
      (commitStore (begun 0x100 0 (frame createArgs) ready))).isSome = true ∧
    ((applyChange 0 (.rights 7) quiesced).bind (commitStore quiesced)).map (fun v => changeWaits 0 v) = some false ∧
    ready.firmware.stuck.contains (.table 15) = false ∧ ready.firmware.stuck = [] := by decide +kernel
/-- LongCommandsAreAccepted. -/
theorem witness_StoredTasks :
    let u (opcode : BitVec 16) (args : List Byte) := begun opcode 0 (frame args) ready
    (commitStore (u 0x304 [2]) (taskBegun 0 0x304 (.bufferReset 2) (fun _ s => bufferWatch 2 (resetBuffer 2 s)) (u 0x304 [2]))).isSome = true ∧
    (commitStore (u 0x500 [3]) (taskBegun 0 0x500 (.portTrain 3) (beginTrain 3) (u 0x500 [3]))).isSome = true ∧
    (commitStore (u 0x501 testArgs) (taskBegun 0 0x501 (.portTest 1 (testArg (frame testArgs)))
      (beginTest 1 (testArg (frame testArgs))) (u 0x501 testArgs))).isSome = true ∧
    (commitStore (u 0x800 copyBlock) (taskBegun 0 0x800 (.bist .copy 1) (fun _ s => beginTestRun .copy s) (u 0x800 copyBlock))).isSome = true := by
  decide +kernel
/-- LongCommandsAreAccepted, ResetAndMaintenanceCommands. -/
theorem witness_StoredReset : (commitStore (begun 0x701 0 (frame [3]) ready) (taskBegun 0 0x701 (.quarterReset 3)
      (fun _ s => beginQuarterReset 3 s) (begun 0x701 0 (frame [3]) ready))).isSome = true ∧
    (commitStore (begun 0x804 0 (frame [1, 0]) queuedWork) (withdraw (newTask ready 0 0x600 .queued (.vtrim 3))
      (begun 0x804 0 (frame [1, 0]) queuedWork))).isSome = true := by decide +kernel
/-- ResetAndMaintenanceCommands. -/
theorem witness_StoredWarm : (commitStore (begun 0x700 0 (frame [0]) ready) (startWarm 3 (some 0) (begun 0x700 0 (frame [0]) ready))).isSome = true ∧
    (commitStore (begun 0x702 0 (frame copyBlock) ready) (startBlockReset .copy (echoTest .copy [] (drawOne
      (fenceBlock .copy false false (begun 0x702 0 (frame copyBlock) ready)))))).isSome = true := by decide +kernel
/-- `ready` with a word of the parameter record that MRAM no longer takes. -/
def stuckStore : State := modFirmware (fun x => { x with stuck := [.parameters], persisted := [(0x9102, 0, 0)] }) ready
/-- DoorbellsCheckTheirCommands. -/
theorem witness_Stuck : taken 0x12 0 (frame [0x02, 0x91, 0, 0, 1]) stuckStore = true ∧
    (match checkCommand stuckStore 0 0x12 (frame [0x02, 0x91, 0, 0, 1]) with
     | .ok c => decide (c.set = .change) && (commitStore (begun 0x12 0 (frame [0x02, 0x91, 0, 0, 1]) stuckStore)
        (c.run 0 (frame [0x02, 0x91, 0, 0, 1]) (begun 0x12 0 (frame [0x02, 0x91, 0, 0, 1]) stuckStore)).2).isNone
     | .error _ => false) = true := by decide +kernel
/-- P:5002 of partition 3, whose change waits. -/
def regionArgs : List Byte := [1, 0, 0, 0, 0x02, 0x50, 3, 0] ++ zeros 8
/-- SettingCommandsTakeEffect. -/
theorem witness_RegionWaits : takes 0x11 regionArgs = true ∧ (writeParams (writeEntries (frame regionArgs)) ready).1 = .ok ∧
    changeWaits 0 (claimRegions 0 (keepParams (writeParams (writeEntries (frame regionArgs)) ready).2)) = true := by decide +kernel
/-- KeyTableQueueCommands. -/
theorem witness_KeyLoads : loadFits keyed 8 3 = true ∧ secretsTested keyed = false := by decide +kernel

/-! ### Pins and registers -/

/-- ResetsKeepWhatTheyKeep, StartupPhasesAndRestart. -/
theorem witness_WarmPin : warmIgnored coldHeld = true ∧ warmIgnored ready = false ∧
    (let s := modDevice (fun d => { d with dev := .startFailed, wrstLow := true }) ready
     warmIgnored s = false ∧ s.device.wrstLow = true ∧ s.device.dev = .startFailed) ∧
    State.reset.device.fusesSensed = false ∧ ({} : StartReport).refclk = true := by decide +kernel
/-- RegistersMoveMailboxData, TapInstructions. -/
theorem witness_ShortIdent : ready.device.rstLow = false ∧ registersAnswer true (modThermal (fun t => { t with tripped := true }) ready) = false ∧
    (let s := modSideband (fun b => { b with wspTarget := 9 }) (modFuses (fun f => { f with policy := 0xF }) ready)
     (wspBlock s).map holdsSecrets = some true) := by decide +kernel

/-! ### The spec's own examples -/

/-- R418: sixteen pulses wait at most; the seventeenth of one round trip overruns its crossing. -/
theorem test_crossing_overrun : (samplePulses [(61, 16)] ready).device.overruns = 0 ∧
    (samplePulses [(61, 17)] ready).device.overruns = 1 ∧
    (samplePulses [(61, 17)] ready).device.overrunStatus.getLsbD 61 = true := by decide +kernel

/-- R31. -/
theorem test_header_example : headerSlot opRead {
    tag := 0x0123, partition := 5, cls := 2, deadline := 62, lengthCode := 3
    address := 0x40000100, aux := 0 } = 0x0000000000000400_00100307C85048C1 := by decide +kernel
/-- R35. -/
theorem test_payload_slots_example : payloadSlots opEnqueue (request 2 0 0 (16100 * 2 ^ 18) []).hdr = 1007 ∧
    payloadSlots opEnqueue (request 2 0 0 0 []).hdr = 0 := by decide +kernel
/-- R156. -/
theorem test_line_hash_example :
    hashPlace { State.reset with granuleMap := [(48, BitVec.ofNat 16 (3 + 48 * 16))] } (0xC1234840 / 64) =
      some { channel := 18, bank := 0, row := 3090, line := 1 } := by decide +kernel

/-- A node entry of R206. -/
def nodeOf (prefixBytes : List Byte) (length kind child result flags : Nat) : Line :=
  lineOf (prefixBytes ++ zeros (16 - prefixBytes.length) ++ natToBytes 1 length ++
    natToBytes 7 (kind + child * 2 ^ 8) ++ natToBytes 16 result ++ natToBytes 24 flags)
def rowOf (ls : List Line) : List (Option Line) := (ls ++ List.replicate (32 - ls.length) 0).map some
/-- 2001:db8:a40:1c22::17. -/
def ipv6Key : Nat := natAt ([0x20, 0x01, 0x0D, 0xB8, 0x0A, 0x40, 0x1C, 0x22] ++ zeros 7 ++ [0x17]) 0 16
def node4096 : List Line := [nodeOf [0x20, 0x01, 0x0D, 0xB8] 32 1 0 0xA 0, nodeOf [0x20, 0x01, 0x0D, 0xB8, 0x0A] 40 3 5000 0xB 0,
  nodeOf [0x20, 0x01, 0x0D, 0xB8, 0x0B] 40 1 0 0xC 0]
def node5000 : List Line := [nodeOf [0x20, 0x01, 0x0D, 0xB8, 0x0A, 0x40] 42 1 0 0xD 0,
  nodeOf [0x20, 0x01, 0x0D, 0xB8, 0x0A, 0x40, 0x1C] 54 1 0 0xE 0, nodeOf [0x20, 0x01, 0x0D, 0xB8, 0x0A, 0x40, 0x1C, 0x20] 59 1 0 0xF 0x42,
  nodeOf [0x20, 0x01, 0x0D, 0xB8, 0x0A, 0x40, 0x1C, 0x40] 58 1 0 0x10 0]
/-- R218. -/
theorem test_prefix_example : keyIndex ipv6Key 18 = 32772 ∧ nodeBest ipv6Key (rowOf node4096) = node4096[1]? ∧
    (node4096[1]?.map nodeChild) = some 5000 ∧ nodeBest ipv6Key (rowOf node5000) = node5000[2]? ∧
    (node5000[2]?.map fun e => (nodeLength e, lineGet e 192 128)) = some (59, 0xF) := by decide +kernel

/-- R233: queue 1,000 of 480,000 cells admits 7 more, queue 2,000 of 520,000 drops them. -/
def settled (n : Nat) : Staged Nat := { old := n, new := n, since := 0 }
def deepPool : State := { ready with
  partitions := ready.partitions.set 9 { openPartition .buffer 512 with
    granules := 256, buffer := { used := 59000000, fresh := 59000000 } }
  profiles := ready.profiles.set 3 { limit := settled 4194304, minimum := settled 2048, alpha := settled 4 }
  queues := [(1000, { state := .active, partition := 9, owner := 0xF, profile := 3, cells := 480000 }),
    (2000, { state := .active, partition := 9, owner := 0xF, profile := 3, cells := 520000 })] }
theorem test_drop_rule_example : freeCells deepPool 9 = 8108864 ∧ (dropRule deepPool 1000 7 0).isNone = true ∧
    ((dropRule deepPool 2000 7 0).map fun f => (f {}).dropThreshold) = some 1 := by decide +kernel

/-- R261: the three packets of a mode 1 policer. -/
def examplePolicer : Policer := {
  tc := 3000 * 65536, tx := 8000 * 65536, last := 0, mode := 1, aware := false, reservedClear := true
  cir := 131072, xir := 262144, cbs := 10000, xbs := 20000 }
def policerStep (now len : Nat) (p : Policer) : Nat × Policer := policerColour len 0 (policerRefill now p)
theorem test_policer_example :
    let a := policerStep 1000 1500 examplePolicer
    let b := policerStep 1500 9000 a.2
    let c := policerStep 1750 9000 b.2
    (a.1, a.2.tc / 65536, a.2.tx / 65536) = (0, 3500, 10500) ∧ (b.1, b.2.tc / 65536, b.2.tx / 65536) = (1, 4500, 3500) ∧
      (c.1, c.2.tc / 65536, c.2.tx / 65536) = (2, 5000, 4500) := by decide +kernel

/-- R301: the four guarantees of Q1. -/
def pledge (p : Fin 4) (k : Fin 8) (f : PortClass → PortClass) : State → State := modClass p k (fun c => f { c with scope := 2 })
def pledged : State :=
  pledge 1 0 (fun c => { c with target := 500, targetAdmitted := 500, ceiling := 40000 })
  (pledge 1 2 (fun c => { c with floor := 150000, floorAdmitted := 150000 })
  (pledge 0 3 (fun c => { c with floor := 100000, floorAdmitted := 100000 })
  (pledge 2 5 (fun c => { c with floor := 60000, floorAdmitted := 60000 }) (pledge 3 4 id ready))))
def hotPair (s : State) : State := { s with
  channels := s.channels.mapIdx fun i x => if i = 10 ∨ i = 11 then { x with hot := true, thermalPct := 88 } else x }
theorem test_ledger_example : ledgerFits pledged = true ∧ capacityOf pledged 8 = 4567000 ∧ largestCharge pledged (3, 4) 2 = 15300 := by
  decide +kernel
/-- R301: layer D6 hot and throttled trims P2 class 5. -/
theorem test_trim_example : capacityOf (hotPair pledged) 10 = 3767960 ∧
    (recomputeLedger pledged (hotPair pledged)).ports[(2 : Fin 4)].classes[(5 : Fin 8)].floor = 11400 := by decide +kernel

/-- R323. -/
theorem test_wire_example : errorWires .column 0 [(18, 2 ^ 11)] = [(37, 18)] ∧ errorWires .skein 5 [(18, 2 ^ 11)] = [(3179, 18)] := by
  decide +kernel
/-- R352. -/
theorem test_metadata_example : metaOffset 0 (542929 / 8) * 64 = 4343424 ∧ metaOffset 1 8483 * 64 = 8931520 := by decide +kernel
/-- R388: 0.487 and 1.747 equivalent cycles. -/
theorem test_wear_example : (rangeWear (16 * 30) + 500) / 1000 = 487 ∧ (rangeWear (16 * 50) + 500) / 1000 = 1747 := by decide +kernel
/-- R472. -/
theorem test_frame_example : (frameBytes 0x0011 { frame (zeros 28) with seq := 7 }).take 16 =
    [0x11, 0, 7, 0, 0x1C, 0, 0, 0, 0, 0, 0, 0, 0, 0, 0, 0] ∧
    writeEntries (frame [2, 0, 0, 0, 0x10, 0x2A, 0, 0, 0x30, 0, 0, 0, 0, 0, 0, 0, 0x01, 0x20, 5, 0, 0xDC, 5, 0, 0, 0, 0, 0, 0]) =
      [(0x2A10, 0, 48), (0x2001, 5, 1500)] := by decide +kernel

/-! ### Boundary values -/

/-- RecordsEnterTheLog. -/
theorem witness_Records : (recordsOf 0x103B 1 1 0 3 [] ready)[0]?.isSome = true ∧ (recordBytes
    { code := 65535, level := 3, severity := 4, overrun := true, cont := true, instKind := 255, instNum := 65535
      timestamp := 5, epoch := 6, payload := 7 }).length = 32 := by decide +kernel

end Sys2Proof.Tests
end

section
/-! PROOFS. The requests of the family of transactions: the words of an atomic, the fields of a request header and of a
command frame, the ends of requests and what the flit packer sends of them, NOP and its fence. -/

namespace Sys2Proof.Transactions

open Sys2Proof Sys2Proof.Machine Sys2Proof.Safety Sys2Proof.Laws

/-! ### Fields of a line -/

theorem testBit_lineGet (l : Line) (lo n i : Nat) :
    (lineGet l lo n).testBit i = (decide (i < n) && l.toNat.testBit (lo + i)) := by
  simp [lineGet, Nat.testBit_mod_two_pow, Nat.testBit_div_two_pow, Nat.add_comm]

/-- A field taken out of a number and another put in its place, in parts below, of and above the field. -/
theorem replaceField_eq (x lo n v : Nat) :
    x - x / 2 ^ lo % 2 ^ n * 2 ^ lo + v * 2 ^ lo =
      2 ^ lo * (2 ^ n * (x / 2 ^ lo / 2 ^ n) + v) + x % 2 ^ lo := by
  have hq := Nat.div_add_mod (x / 2 ^ lo) (2 ^ n)
  have hx := Nat.div_add_mod x (2 ^ lo)
  generalize x / 2 ^ lo / 2 ^ n = h at *
  generalize x / 2 ^ lo % 2 ^ n = f at *
  have : x = 2 ^ lo * (2 ^ n * h) + f * 2 ^ lo + x % 2 ^ lo := by
    rw [← hq] at hx
    linarith
  have : x - f * 2 ^ lo = 2 ^ lo * (2 ^ n * h) + x % 2 ^ lo := by omega
  rw [this]
  ring

theorem testBit_replaceField (x lo n v i : Nat) :
    (x - x / 2 ^ lo % 2 ^ n * 2 ^ lo + v % 2 ^ n * 2 ^ lo).testBit i =
      if lo ≤ i ∧ i < lo + n then v.testBit (i - lo) else x.testBit i := by
  rw [replaceField_eq, Nat.testBit_two_pow_mul_add _ (Nat.mod_lt _ (Nat.two_pow_pos lo)),
    Nat.testBit_two_pow_mul_add _ (Nat.mod_lt _ (Nat.two_pow_pos n))]
  by_cases below : i < lo
  · simp [below, Nat.testBit_mod_two_pow]
  · by_cases inside : i - lo < n
    · have : lo ≤ i ∧ i < lo + n := by omega
      simp [below, inside, this, Nat.testBit_mod_two_pow]
    · have : ¬(lo ≤ i ∧ i < lo + n) := by omega
      rw [if_neg below, if_neg inside, if_neg this, Nat.testBit_div_two_pow, Nat.testBit_div_two_pow]
      congr 1
      omega

theorem testBit_linePut (l : Line) (lo n v i : Nat) (hn : 0 < n) (hi : i < 512) :
    (linePut l lo n v).toNat.testBit i =
      if lo ≤ i ∧ i < lo + n then v.testBit (i - lo) else l.toNat.testBit i := by
  rw [← testBit_replaceField, linePut, BitVec.testBit_toNat, BitVec.getLsbD_ofNat, decide_eq_true hi, Bool.true_and,
    bitsOf, Nat.shiftRight_eq_div_pow, show lo + n - 1 + 1 - lo = n by omega]

/-- A field reads back as what was put there. -/
theorem lineGet_linePut_same (l : Line) (lo n v : Nat) (hn : 0 < n) (hl : lo + n ≤ 512) :
    lineGet (linePut l lo n v) lo n = v % 2 ^ n := by
  refine Nat.eq_of_testBit_eq fun i => ?_
  rw [testBit_lineGet, Nat.testBit_mod_two_pow]
  by_cases hi : i < n
  · simp [hi, testBit_linePut l lo n v (lo + i) hn (by omega)]
  · simp [hi]

/-- A field beside the one that is put keeps its value. -/
theorem lineGet_linePut_apart (l : Line) (lo n v lo' n' : Nat) (hn : 0 < n) (hl : lo' + n' ≤ 512)
    (hd : lo' + n' ≤ lo ∨ lo + n ≤ lo') : lineGet (linePut l lo n v) lo' n' = lineGet l lo' n' := by
  refine Nat.eq_of_testBit_eq fun i => ?_
  rw [testBit_lineGet, testBit_lineGet]
  by_cases hi : i < n'
  · rw [testBit_linePut l lo n v (lo' + i) hn (by omega), if_neg (by omega)]
  · simp [hi]

/-! ### The words of an atomic -/

/-- Word `k` of a line (R38). -/
def word (l : Line) (k : Nat) : Nat := lineGet l (64 * k) 64

/-- A line with word `w` replaced. -/
def putWord (l : Line) (w v : Nat) : Line := linePut l (64 * w) 64 v

theorem word_putWord_same (l : Line) (w v : Nat) (hw : w < 8) : word (putWord l w v) w = v % 2 ^ 64 :=
  lineGet_linePut_same l (64 * w) 64 v (by omega) (by omega)

theorem word_putWord_other (l : Line) (w v k : Nat) (hk : k < 8) (h : k ≠ w) : word (putWord l w v) k = word l k :=
  lineGet_linePut_apart l (64 * w) 64 v (64 * k) 64 (by omega) (by omega) (by omega)

/-- ATOM_ADD and ATOM_FADD make the same of the line. -/
theorem atomicLine_add (op : BitVec 6) (hop : op = opAtomAdd ∨ op = opAtomFadd) (w a b : Nat) (old : Line) :
    atomicLine op (8 * w) a b old = putWord old w (word old w + a) := by
  rw [atomicLine, if_pos hop, show 8 * (8 * w) = 64 * w by omega]
  rfl

theorem atomicLine_swap (w a b : Nat) (old : Line) : atomicLine opAtomSwap (8 * w) a b old = putWord old w a := by
  rw [atomicLine, if_neg (by decide), if_pos rfl, show 8 * (8 * w) = 64 * w by omega]
  rfl

theorem atomicLine_cas (w a b : Nat) (old : Line) :
    atomicLine opAtomCas (8 * w) a b old = if word old w = a then putWord old w b else old := by
  rw [atomicLine, if_neg (by decide), if_neg (by decide), if_pos rfl, show 8 * (8 * w) = 64 * w by omega]
  rfl

theorem atomicLine_padd (w a b : Nat) (old : Line) :
    atomicLine opAtomPadd (8 * w) a b old =
      putWord (putWord old w (word old w + a)) (w + 1) (word old (w + 1) + b) := by
  rw [atomicLine, if_neg (by decide), if_neg (by decide), if_neg (by decide),
    show 8 * (8 * w) = 64 * w by omega, show 64 * w + 64 = 64 * (w + 1) by omega]
  rfl

/-- An atomic on one word keeps every other word. -/
theorem word_atomicLine_other (op : BitVec 6) (hop : op ∈ [opAtomAdd, opAtomFadd, opAtomSwap, opAtomCas])
    (w a b k : Nat) (old : Line) (hk : k < 8) (h : k ≠ w) :
    word (atomicLine op (8 * w) a b old) k = word old k := by
  simp only [List.mem_cons, List.not_mem_nil, or_false] at hop
  rcases hop with rfl | rfl | rfl | rfl
  · rw [atomicLine_add _ (.inl rfl), word_putWord_other _ _ _ _ hk h]
  · rw [atomicLine_add _ (.inr rfl), word_putWord_other _ _ _ _ hk h]
  · rw [atomicLine_swap, word_putWord_other _ _ _ _ hk h]
  · rw [atomicLine_cas]
    split
    · exact word_putWord_other _ _ _ _ hk h
    · rfl

/-- ATOM_CAS writes the swap value only where the word equals the comparand. -/
theorem word_atomicLine_cas (w a b : Nat) (old : Line) (hw : w < 8) (hb : b < 2 ^ 64) :
    word (atomicLine opAtomCas (8 * w) a b old) w = if word old w = a then b else word old w := by
  rw [atomicLine_cas]
  split
  · rw [word_putWord_same _ _ _ hw, Nat.mod_eq_of_lt hb]
  · rfl

/-- ATOM_PADD128 adds to each word of its pair and keeps the others. -/
theorem word_atomicLine_padd (w a b : Nat) (old : Line) (hw : w + 1 < 8) :
    word (atomicLine opAtomPadd (8 * w) a b old) w = (word old w + a) % 2 ^ 64 ∧
      word (atomicLine opAtomPadd (8 * w) a b old) (w + 1) = (word old (w + 1) + b) % 2 ^ 64 ∧
      ∀ k, k < 8 → k ≠ w → k ≠ w + 1 → word (atomicLine opAtomPadd (8 * w) a b old) k = word old k := by
  rw [atomicLine_padd]
  refine ⟨?_, word_putWord_same _ _ _ hw, fun k hk h h' => ?_⟩
  · rw [word_putWord_other _ _ _ _ (by omega) (by omega), word_putWord_same _ _ _ (by omega)]
  · rw [word_putWord_other _ _ _ _ hk h', word_putWord_other _ _ _ _ hk h]

/-! ### The request of an atomic -/

/-- An atomic that passes its port and finds its line ends OK, its line's Kennel copy dropped. -/
theorem receive_performAtomic (p : Fin 4) (r : Req) (c : PortClass) (op : BitVec 6) (s t : State) (old : Line)
    (h : passes p op r c s = true)
    (hu : updateLine (.port p) (pdOf r.hdr) (r.hdr.address.toNat / 64)
      (partitionRead (.port p) (pdOf r.hdr) (r.hdr.address.toNat / 64))
      (atomicLine op (r.hdr.address.toNat % 64) (natAt r.payload 0 8) (natAt r.payload 8 8))
      (admitted p op r c s) = (.data old, t)) :
    receive (performAtomic op) p op r s = panicCheck p (complete (admittedJob p op r s) .ok
      (if op = opAtomAdd ∨ op = opAtomPadd then 0
        else BitVec.ofNat 64 (lineGet old (8 * (r.hdr.address.toNat % 64)) 64)) []
      (kennelDrop (pdOf r.hdr) (r.hdr.address.toNat / 64) t)) := by
  have hj : (admittedJob p op r s).port = p := rfl
  rw [receive_of_passes _ p op r c s h, performed, performAtomic]
  simp only [hj, hu]

/-- Each atomic command hands its opcode's request to its port. -/
theorem exec_atomic (p : Fin 4) (r : Req) (op : BitVec 6) (i : Instr) (s : State)
    (h : (op, i) ∈ [(opAtomAdd, Instr.atomAdd p r), (opAtomFadd, .atomFadd p r), (opAtomSwap, .atomSwap p r),
       (opAtomCas, .atomCas p r), (opAtomPadd, .atomPadd128 p r)]) :
    exec i s = .next (receive (performAtomic op) p op r s) := by
  simp only [List.mem_cons, List.not_mem_nil, or_false, Prod.mk.injEq] at h
  rcases h with ⟨rfl, rfl⟩ | ⟨rfl, rfl⟩ | ⟨rfl, rfl⟩ | ⟨rfl, rfl⟩ | ⟨rfl, rfl⟩ <;> rfl

/-- Settles O4: the request by `receive_of_passes`, the words by what each atomic puts where. -/
theorem atomicsAddSwapAndCompare : Obligations.AtomicsAddSwapAndCompare := by
  unfold Obligations.AtomicsAddSwapAndCompare
  refine ⟨fun p r c op i s hi hp => ?_, fun w a b old hw ha hb => ?_⟩
  · intro pd n off new old t hu
    rw [exec_atomic p r op i s hi, receive_performAtomic p r c op s t old hp hu]
  · intro wd sum
    refine ⟨?_, ?_, ?_, word_atomicLine_cas w a b old hw hb,
      fun op hop k hk h => word_atomicLine_other op hop w a b k old hk h,
      fun hev => word_atomicLine_padd w a b old (by omega)⟩
    · exact atomicLine_add opAtomAdd (.inl rfl) w a b old ▸ word_putWord_same _ _ _ hw
    · exact atomicLine_add opAtomFadd (.inr rfl) w a b old ▸ word_putWord_same _ _ _ hw
    · exact (atomicLine_swap w a b old ▸ word_putWord_same _ _ _ hw).trans (Nat.mod_eq_of_lt ha)

/-! ### Fields of a number -/

/-- A word of `w` bits is the field from which it is cut. -/
theorem ofNat_of_bitsOf {w : Nat} (x : BitVec w) (n lo : Nat) (hw : 0 < w) (h : bitsOf n (lo + w - 1) lo = x.toNat) :
    BitVec.ofNat w (n / 2 ^ lo) = x := by
  apply BitVec.eq_of_toNat_eq
  rw [BitVec.toNat_ofNat, ← h, bitsOf, Nat.shiftRight_eq_div_pow, show lo + w - 1 + 1 - lo = w by omega]

/-- A flag is the field of one bit from which it is cut. -/
theorem bitAt_of_bitsOf (b : Bool) (n i : Nat) (h : bitsOf n i i = boolNat b) : bitAt n i = b := by
  rw [bitsOf, Nat.shiftRight_eq_div_pow, Nat.add_sub_cancel_left, pow_one] at h
  rw [bitAt, Nat.testBit_eq_decide_div_mod_eq, h]
  cases b <;> rfl

/-! ### Request headers (R30) -/

theorem headerSlot_fields (op : BitVec 6) (h : Hdr) :
    let n := (headerSlot op h).toNat
    bitsOf n 5 0 = op.toNat ∧ bitsOf n 19 6 = h.tag.toNat ∧ bitsOf n 25 20 = h.partition.toNat ∧
      bitsOf n 28 26 = h.cls.toNat ∧ bitsOf n 39 29 = h.deadline.toNat ∧ bitsOf n 43 40 = h.lengthCode.toNat ∧
      bitsOf n 79 44 = h.address.toNat ∧ bitsOf n 127 80 = h.aux.toNat := by
  have h0 := op.isLt
  have h1 := h.tag.isLt
  have h2 := h.partition.isLt
  have h3 := h.cls.isLt
  have h4 := h.deadline.isLt
  have h5 := h.lengthCode.isLt
  have h6 := h.address.isLt
  have h7 := h.aux.isLt
  simp only [headerSlot, BitVec.toNat_ofNat, bitsOf, Nat.shiftRight_eq_div_pow]
  refine ⟨?_, ?_, ?_, ?_, ?_, ?_, ?_, ?_⟩ <;> omega

/-- A header comes out of its slot as it went in. -/
theorem slotHeader_headerSlot (op : BitVec 6) (h : Hdr) : slotHeader (headerSlot op h) = (op, h) := by
  obtain ⟨h0, h1, h2, h3, h4, h5, h6, h7⟩ := headerSlot_fields op h
  have hop := ofNat_of_bitsOf op _ 0 (by decide) h0
  rw [pow_zero, Nat.div_one] at hop
  simp only [slotHeader, hop, ofNat_of_bitsOf h.tag _ 6 (by decide) h1, ofNat_of_bitsOf h.partition _ 20 (by decide) h2,
    ofNat_of_bitsOf h.cls _ 26 (by decide) h3, ofNat_of_bitsOf h.deadline _ 29 (by decide) h4,
    ofNat_of_bitsOf h.lengthCode _ 40 (by decide) h5, ofNat_of_bitsOf h.address _ 44 (by decide) h6,
    ofNat_of_bitsOf h.aux _ 80 (by decide) h7]

/-! ### Command frames (R441) -/

theorem memBytes_append (m : Memory) (a k n : Nat) : memBytes m a (k + n) = memBytes m a k ++ memBytes m (a + k) n := by
  simp [memBytes, List.range_add, Nat.add_assoc]

/-- Two byte strings written one after the other each read back. -/
theorem memBytes_write_append (m : Memory) (a : Nat) (bs cs : List Byte) (h : memWf m = true) :
    memBytes (memWrite m a (bs ++ cs)) a bs.length = bs ∧
      memBytes (memWrite m a (bs ++ cs)) (a + bs.length) cs.length = cs := by
  have hall := memBytes_write_same m a (bs ++ cs) h
  rw [List.length_append, memBytes_append] at hall
  exact List.append_inj hall (by simp [memBytes])

/-- The number that a frame's header bytes spell. -/
def frameHead (opcode : BitVec 16) (f : Frame) : Nat :=
  opcode.toNat + f.seq.toNat * 2 ^ 16 + f.argLength.toNat * 2 ^ 32 + boolNat f.notify * 2 ^ 48 +
    f.reserved.toNat * 2 ^ 49

theorem frameHead_fields (opcode : BitVec 16) (f : Frame) :
    frameHead opcode f < 256 ^ 16 ∧ bitsOf (frameHead opcode f) 15 0 = opcode.toNat ∧
      bitsOf (frameHead opcode f) 31 16 = f.seq.toNat ∧ bitsOf (frameHead opcode f) 47 32 = f.argLength.toNat ∧
      bitsOf (frameHead opcode f) 48 48 = boolNat f.notify ∧
      bitsOf (frameHead opcode f) 127 49 = f.reserved.toNat := by
  have h0 := opcode.isLt
  have h1 := f.seq.isLt
  have h2 := f.argLength.isLt
  have h3 : boolNat f.notify < 2 := by cases f.notify <;> decide
  have h4 := f.reserved.isLt
  simp only [frameHead, bitsOf, Nat.shiftRight_eq_div_pow]
  refine ⟨?_, ?_, ?_, ?_, ?_, ?_⟩ <;> omega

/-- A frame whose arguments fill the request buffer reads back from it. -/
theorem frameOf_memWrite_frameBytes (opcode : BitVec 16) (f : Frame) (buffer : Memory) (hb : memWf buffer = true)
    (ha : f.args.length = 4080) : frameOf (memWrite buffer 0 (frameBytes opcode f)) = (opcode, f) := by
  have hw : frameBytes opcode f = natToBytes 16 (frameHead opcode f) ++ f.args := by
    rw [frameBytes, List.take_of_length_le (by omega)]
    rfl
  obtain ⟨hhead, hargs⟩ := memBytes_write_append buffer 0 (natToBytes 16 (frameHead opcode f)) f.args hb
  rw [natToBytes_length] at hhead hargs
  rw [ha] at hargs
  obtain ⟨hlt, h0, h1, h2, h3, h4⟩ := frameHead_fields opcode f
  have hop := ofNat_of_bitsOf opcode _ 0 (by decide) h0
  rw [pow_zero, Nat.div_one] at hop
  simp only [frameOf, hw, hhead, hargs, bytesToNat_natToBytes, Nat.mod_eq_of_lt hlt, hop,
    bitAt_of_bitsOf f.notify _ 48 h3,
    ofNat_of_bitsOf f.seq _ 16 (by decide) h1, ofNat_of_bitsOf f.argLength _ 32 (by decide) h2,
    ofNat_of_bitsOf f.reserved _ 49 (by decide) h4]

/-- Settles O22: the fields of a slot by `headerSlot_fields`, the frame by `frameOf_memWrite_frameBytes`. -/
theorem headersAndFramesReadBack : Obligations.HeadersAndFramesReadBack := by
  unfold Obligations.HeadersAndFramesReadBack
  refine ⟨fun op h => ?_, frameOf_memWrite_frameBytes⟩
  obtain ⟨h0, h1, h2, h3, h4, h5, h6, h7⟩ := headerSlot_fields op h
  exact ⟨h0, h1, h2, h3, h4, h5, h6, h7, slotHeader_headerSlot op h⟩

/-! ### A port's books -/

/-- What a port keeps of its requests' ends: the completions handed over, the tags outstanding, the completions not yet
wholly sent, and the fences. -/
def books (x : Port) : List Completion × List (BitVec 14 × Nat) × List (Option (BitVec 14) × Nat) × List Fence :=
  (x.completions, x.outstanding, x.sending, x.fences)

/-- No port's books differ. -/
def SameBooks (s t : State) : Prop := ∀ q : Fin 4, books t.ports[q] = books s.ports[q]

theorem SameBooks.refl (s : State) : SameBooks s s := fun _ => rfl

theorem SameBooks.trans {s t u : State} (h : SameBooks s t) (h' : SameBooks t u) : SameBooks s u :=
  fun q => (h' q).trans (h q)

theorem sameBooks_foldl {α : Type} (f : State → α → State) (h : ∀ s a, SameBooks s (f s a)) (l : List α)
    (s : State) : SameBooks s (l.foldl f s) := by
  induction l generalizing s with
  | nil => exact SameBooks.refl s
  | cons a l ih => exact (h s a).trans (ih _)

theorem modPort_sameBooks (p : Fin 4) (f : Port → Port) (s : State) (h : books (f s.ports[p]) = books s.ports[p]) :
    SameBooks s (modPort p f s) := by
  intro q
  by_cases hq : q = p
  · rw [hq, modPort_self, h]
  · rw [modPort_other p f q hq]

theorem modClass_sameBooks (p : Fin 4) (k : Fin 8) (f : PortClass → PortClass) (s : State) :
    SameBooks s (modClass p k f s) := modPort_sameBooks p _ s rfl

theorem modLog_sameBooks (f : LogState → LogState) (s : State) : SameBooks s (modLog f s) := fun _ => rfl

/-! ### Events leave the books alone -/

theorem queuePortRecord_books (r : EventRec) (x : Port) : books (queuePortRecord r x) = books x := by
  unfold queuePortRecord
  dsimp only
  split
  · split <;> rfl
  · rfl

theorem deliverRecord_ports (r : EventRec) (s : State) :
    (deliverRecord r s).ports = s.ports.map (queuePortRecord r) := by
  unfold deliverRecord
  dsimp only
  split
  · split <;> rfl
  · rfl

theorem deliverRecord_sameBooks (r : EventRec) (s : State) : SameBooks s (deliverRecord r s) := by
  intro q
  rw [deliverRecord_ports]
  simp [queuePortRecord_books]

theorem rollSecond_sameBooks (s : State) : SameBooks s (rollSecond s) := by
  unfold rollSecond
  split
  · exact SameBooks.refl s
  · exact (modLog_sameBooks _ s).trans
      (sameBooks_foldl _ (fun s _ => sameBooks_foldl _ (fun s r => deliverRecord_sameBooks r s) _ s) _ _)

theorem admitRecord_sameBooks (r : EventRec) (s : State) : SameBooks s (admitRecord r s) := by
  unfold admitRecord
  split
  · exact deliverRecord_sameBooks r s
  · split
    · exact (modLog_sameBooks _ s).trans (deliverRecord_sameBooks r _)
    · exact modLog_sameBooks _ s

theorem raise_sameBooks (code kind num : Nat) (items : List (Nat × Nat)) (s : State) :
    SameBooks s (raise code kind num items s) :=
  (rollSecond_sameBooks s).trans (sameBooks_foldl _ (fun s r => admitRecord_sameBooks r s) _ _)

theorem missReport_sameBooks (p : Fin 4) (k : Fin 8) (s : State) : SameBooks s (missReport p k s) := by
  unfold missReport
  dsimp only
  split
  · exact (modLog_sameBooks _ s).trans ((modClass_sameBooks _ _ _ _).trans (raise_sameBooks _ _ _ _ _))
  · exact SameBooks.refl s

theorem accountDone_sameBooks (j : Job) (late isolated : Bool) (s : State) :
    SameBooks s (accountDone j late isolated s) :=
  (modClass_sameBooks _ _ _ s).trans (missReport_sameBooks _ _ _)

/-! ### The lanes leave the books alone -/

theorem books_foldl {α : Type} (f : Port → α → Port) (h : ∀ x a, books (f x a) = books x) (l : List α)
    (x : Port) : books (l.foldl f x) = books x := by
  induction l generalizing x with
  | nil => rfl
  | cons a l ih => rw [List.foldl_cons, ih, h]

theorem sendSet_books (kind arg times : Nat) (x : Port) : books (sendSet kind arg times x) = books x :=
  books_foldl (fun y _ => driveSet kind arg y) (fun _ _ => rfl) _ x

theorem blockTime_books (bs : List Byte) (x : Port) (k : Nat) : books (blockTime bs x k) = books x := by
  change books (alignDue x) = books x
  unfold alignDue
  split
  · exact sendSet_books 0xAA 0 1 x
  · rfl

theorem putImage_books (image : List Byte) (x : Port) : books (putImage image x) = books x := by
  unfold putImage
  dsimp only
  split
  · split
    · rfl
    · exact books_foldl _ (blockTime_books _) _ _
  · exact books_foldl _ (blockTime_books _) _ _

@[simp] theorem emitFlit_books (f : Flit) (x : Port) : books (emitFlit f x) = books x := putImage_books _ _

@[simp] theorem statusFlit_books (x : Port) : books (statusFlit x) = books x := emitFlit_books _ _

@[simp] theorem fillFlit_books (x : Port) : books (fillFlit x) = books x := by
  unfold fillFlit
  split
  · rfl
  · split
    · exact emitFlit_books _ x
    · split
      · exact emitFlit_books _ x
      · exact statusFlit_books x

@[simp] theorem fillGroup_books (x : Port) : books (fillGroup x) = books x := by simp [fillGroup]

@[simp] theorem applyWiden_books (x : Port) : books (applyWiden x) = books x := by
  unfold applyWiden
  split
  · split
    · exact fillGroup_books x
    · rfl
  · rfl

@[simp] theorem putStatus_books (x : Port) : books (putStatus x) = books x := by simp [putStatus]

@[simp] theorem putFlit_books (f : Flit) (x : Port) : books (putFlit f x) = books x := by
  unfold putFlit
  split <;> simp

@[simp] theorem leaveIdle_books (x : Port) : books (leaveIdle x) = books x := by
  unfold leaveIdle
  split
  · rw [putStatus_books]
    exact (sendSet_books 0xA7 0 4 _).trans (applyWiden_books x)
  · rfl

@[simp] theorem sendSequenced_books (key : List Nat) (ftype : Nat) (slots : List (BitVec 128)) (x : Port) :
    books (sendSequenced key ftype slots x) = books x := putFlit_books _ _

@[simp] theorem closeGroup_books (key : List Nat) (x : Port) : books (closeGroup key x) = books x := by
  unfold closeGroup
  split
  · rfl
  · exact sendSequenced_books _ _ _ _

/-! ### What the flit packer sends -/

/-- A fence once the completions of some tags have been sent: it waits for none of them (R61). -/
def fenceAfter (sent : List (Option (BitVec 14))) (f : Fence) : Fence :=
  { f with waits := f.waits.filter fun g => !sent.contains (some g) }

/-- The packer has wholly sent the completions of `sent`, the first of those that waited, in their order; no fence waits
for their tags (R50, R61). -/
def Sends (sent : List (Option (BitVec 14))) (x y : Port) : Prop :=
  y.completions = x.completions ∧ y.outstanding = x.outstanding ∧
    x.sending.map (·.1) = sent ++ y.sending.map (·.1) ∧ y.fences = x.fences.map (fenceAfter sent)

theorem Sends.of_books {sent : List (Option (BitVec 14))} {x x' y y' : Port} (hx : books x' = books x)
    (hy : books y' = books y) (h : Sends sent x y) : Sends sent x' y' := by
  simp only [books, Prod.mk.injEq] at hx hy
  obtain ⟨hx1, hx2, hx3, hx4⟩ := hx
  obtain ⟨hy1, hy2, hy3, hy4⟩ := hy
  simpa only [Sends, hx1, hx2, hx3, hx4, hy1, hy2, hy3, hy4] using h

theorem fenceAfter_nil (f : Fence) : fenceAfter [] f = f := by simp [fenceAfter]

theorem Sends.refl (x : Port) : Sends [] x x := ⟨rfl, rfl, rfl, by simp [funext fenceAfter_nil]⟩

theorem Sends.trans {a b : List (Option (BitVec 14))} {x y z : Port} (h : Sends a x y) (h' : Sends b y z) :
    Sends (a ++ b) x z := by
  obtain ⟨hc, ho, hs, hf⟩ := h
  obtain ⟨hc', ho', hs', hf'⟩ := h'
  refine ⟨hc'.trans hc, ho'.trans ho, by rw [hs, hs', List.append_assoc], ?_⟩
  rw [hf', hf, List.map_map]
  refine List.map_congr_left fun f _ => ?_
  simp [fenceAfter, List.filter_filter, Bool.and_comm]

/-- The slots of a flit free the tags of the completions that leave the list. -/
theorem takeSlots_freedTags (n : Nat) (l : List (Option (BitVec 14) × Nat)) :
    ∃ sent : List (Option (BitVec 14)), l.map (·.1) = sent ++ (takeSlots n l).map (·.1) ∧
      ∀ g, (freedTags n l).contains g = sent.contains (some g) := by
  induction l generalizing n with
  | nil => exact ⟨[], rfl, fun _ => rfl⟩
  | cons e l ih =>
    obtain ⟨t, k⟩ := e
    by_cases hk : k ≤ n
    · obtain ⟨sent, hl, hg⟩ := ih (n - k)
      refine ⟨t :: sent, by simp [takeSlots, hk, hl], fun g => ?_⟩
      cases t with
      | none => simpa [freedTags, hk] using hg g
      | some t =>
        rw [freedTags, if_pos hk, List.contains_cons, List.contains_cons, hg g]
        rfl
    · exact ⟨[], by simp [takeSlots, hk], fun g => by simp [freedTags, hk]⟩

/-- One flit sends some of the completions that wait, or none. -/
theorem packOne_sends (key : List Nat) (x : Port) : ∃ sent, Sends sent x (packOne key x) := by
  unfold packOne
  dsimp only
  split
  · split
    · exact ⟨[], Sends.of_books rfl ((sendSequenced_books _ _ _ _).trans (leaveIdle_books _)) (Sends.refl x)⟩
    · exact ⟨[], Sends.refl x⟩
  · split
    · exact ⟨[], Sends.of_books rfl ((sendSequenced_books _ _ _ _).trans (leaveIdle_books _)) (Sends.refl x)⟩
    · split
      · exact ⟨[], Sends.refl x⟩
      · obtain ⟨sent, hs, hg⟩ := takeSlots_freedTags (min 15 (min x.link.txData.length (creditAvailable x.link)))
          x.sending
        refine ⟨sent, Sends.of_books rfl ((sendSequenced_books _ _ _ _).trans (leaveIdle_books _))
          ⟨rfl, rfl, hs, ?_⟩⟩
        simp only [hg]
        rfl

/-- The packer sends the completions that wait in their order. -/
theorem packFlits_sends (key : List Nat) (n : Nat) (x : Port) : ∃ sent, Sends sent x (packFlits key n x) := by
  induction n generalizing x with
  | zero => exact ⟨[], Sends.refl x⟩
  | succ n ih =>
    unfold packFlits
    split
    · obtain ⟨a, ha⟩ := packOne_sends key x
      dsimp only
      split
      · exact ⟨a, ha⟩
      · obtain ⟨b, hb⟩ := ih (if 16 ≤ (packOne key x).link.txGroup.length then closeGroup key (packOne key x)
          else packOne key x)
        refine ⟨a ++ b, (Sends.of_books rfl ?_ ha).trans hb⟩
        split
        · exact closeGroup_books key _
        · rfl
    · exact ⟨[], Sends.refl x⟩

theorem pump_sends (p : Fin 4) (s : State) : ∃ sent, Sends sent s.ports[p] (pump p s).ports[p] := by
  obtain ⟨sent, h⟩ := packFlits_sends (linkKey s p) 256 s.ports[p]
  refine ⟨sent, Sends.of_books rfl ?_ h⟩
  rw [pump, modSend, modPort_self, fillGroup_books]
  dsimp only
  split
  · exact closeGroup_books _ _
  · rfl

theorem pump_other (p q : Fin 4) (h : q ≠ p) (s : State) : (pump p s).ports[q] = s.ports[q] := modPort_other p _ q h s

/-! ### A completion handed over -/

/-- A completion put behind those not yet sent. -/
def queued (c : Completion) (x : Port) : Port :=
  { x with
    completions := x.completions ++ [c]
    sending := x.sending ++ [(if c.last && !c.dupTag then some c.tag else none, (completionSlots c).length)]
    link := { x.link with txData := x.link.txData ++ completionSlots c } }

theorem handOver_eq (p : Fin 4) (c : Completion) (s : State) : handOver p c s = pump p (modPort p (queued c) s) := rfl

/-- A completion waits behind those not yet sent, and the packer sends what it may. -/
theorem handOver_sends (p : Fin 4) (c : Completion) (s : State) :
    ∃ sent, Sends sent (queued c s.ports[p]) (handOver p c s).ports[p] := by
  rw [handOver_eq]
  simpa only [modPort_self] using pump_sends p (modPort p (queued c) s)

theorem handOver_other (p q : Fin 4) (h : q ≠ p) (c : Completion) (s : State) :
    (handOver p c s).ports[q] = s.ports[q] := (pump_other p q h _).trans (modPort_other p _ q h s)

/-! ### The end of a request -/

/-- The completion of `completeAs` (R45, R46). -/
def endOf (j : Job) (st : QStatus) (kennel : Bool) (result : Word) (data : List Byte) (s : State) : Completion :=
  { opcode := j.opcode, tag := j.tag, status := st, last := true, dupTag := false,
    kennel := decide (st = .ok) && kennel, late := isLate s j.arrived j.deadline,
    result := if st = .ok then result else 0, data := if st = .ok then data else [] }

/-- The state in which a request's completion is handed over: its tag taken out and its class's books made. -/
def settled (j : Job) (isolated : Bool) (s : State) : State :=
  accountDone j (isLate s j.arrived j.deadline) isolated
    (modPort j.port (fun x => { x with outstanding := x.outstanding.eraseP (fun e => e.1 = j.tag) }) s)

theorem completeAs_eq (j : Job) (st : QStatus) (isolated kennel : Bool) (result : Word) (data : List Byte) (s : State) :
    completeAs j st isolated kennel result data s =
      handOver j.port (endOf j st kennel result data s) (settled j isolated s) := by
  simp [completeAs, endOf, settled]

/-- The end of a request changes its own port's books by its tag alone before the completion goes out. -/
theorem settled_books (j : Job) (isolated : Bool) (s : State) :
    books (settled j isolated s).ports[j.port] = books { s.ports[j.port] with
      outstanding := s.ports[j.port].outstanding.eraseP (fun e => e.1 = j.tag) } := by
  rw [settled, accountDone_sameBooks, modPort_self]

theorem settled_books_other (j : Job) (isolated : Bool) (s : State) (q : Fin 4) (h : q ≠ j.port) :
    books (settled j isolated s).ports[q] = books s.ports[q] := by
  rw [settled, accountDone_sameBooks, modPort_other _ _ _ h]

theorem completeAs_dram (j : Job) (st : QStatus) (isolated kennel : Bool) (result : Word) (data : List Byte)
    (s : State) :
    (completeAs j st isolated kennel result data s).dram = s.dram := by
  obtain ⟨_, _, _, h⟩ := completeAs_events j st isolated kennel result data s
  rw [h]

/-- The end of a request on its own port: its completion stands last of all, its tag is out, and of the completions that
wait the packer has sent the first in their order. -/
theorem completeAs_port (j : Job) (st : QStatus) (isolated kennel : Bool) (result : Word) (data : List Byte)
    (s : State) :
    let t := completeAs j st isolated kennel result data s
    t.ports[j.port].completions = s.ports[j.port].completions ++ [endOf j st kennel result data s] ∧
      t.ports[j.port].outstanding = s.ports[j.port].outstanding.eraseP (fun e => e.1 = j.tag) ∧
      ∃ sent : List (Option (BitVec 14)),
        s.ports[j.port].sending.map (·.1) ++ [some j.tag] = sent ++ t.ports[j.port].sending.map (·.1) ∧
        t.ports[j.port].fences = s.ports[j.port].fences.map (fenceAfter sent) := by
  have hb := settled_books j isolated s
  simp only [books, Prod.mk.injEq] at hb
  obtain ⟨bc, bo, bs, bf⟩ := hb
  obtain ⟨sent, hc, ho, hs, hf⟩ := handOver_sends j.port (endOf j st kennel result data s) (settled j isolated s)
  simp only [queued, bc, bo, bs, bf, List.map_append] at hc ho hs hf
  rw [completeAs_eq]
  exact ⟨hc, ho, sent, hs, hf⟩

theorem completeAs_other (j : Job) (st : QStatus) (isolated kennel : Bool) (result : Word) (data : List Byte)
    (s : State) (q : Fin 4) (h : q ≠ j.port) :
    books (completeAs j st isolated kennel result data s).ports[q] = books s.ports[q] := by
  rw [completeAs_eq, handOver_other _ _ h, settled_books_other j isolated s q h]

/-! ### The completion of a duplicate tag -/

theorem portServes_modLink (p : Fin 4) (f : LinkState → LinkState) (s : State) :
    portServes (modLink p f s) p = portServes s p := by
  rw [portServes, portServes, portLive_modLink, modLink, modPort_self]

theorem tagOutstanding_modLink (p : Fin 4) (f : LinkState → LinkState) (s : State) (tag : BitVec 14) :
    tagOutstanding (modLink p f s).ports[p] tag = tagOutstanding s.ports[p] tag := by
  rw [tagOutstanding, modLink, modPort_self]
  rfl

theorem portLive_of_portServes (p : Fin 4) (s : State) (h : portServes s p = true) : portLive s p = true := by
  simp only [portServes, Bool.and_eq_true] at h
  obtain ⟨⟨⟨hl, _⟩, _⟩, _⟩ := h
  exact hl

/-- A request whose tag is outstanding is answered at once and not evaluated (R51). -/
theorem receive_of_duplicate (perform : Perform) (p : Fin 4) (op : BitVec 6) (r : Req) (s : State)
    (h : portServes s p = true) (hd : tagOutstanding s.ports[p] r.hdr.tag = true) :
    ∃ u, receive perform p op r s = handOver p
      { opcode := op, tag := r.hdr.tag, status := .unsupported, last := true, dupTag := true, kennel := false,
        late := false, result := 0, data := [] } u := by
  simp only [receive, ingress, portLive_of_portServes p s h, portServes_modLink, h, tagOutstanding_modLink, hd,
    Bool.not_true, Bool.false_eq_true, if_false, if_true]
  exact ⟨_, rfl⟩

/-- Settles O58: the duplicate tag by `receive_of_duplicate`, the end of a request by `completeAs_port`. -/
theorem completionsGoOutOnTheirPort : Obligations.CompletionsGoOutOnTheirPort := by
  unfold Obligations.CompletionsGoOutOnTheirPort
  refine ⟨fun p op perform r s h hd => ?_, fun j st isolated kennel result data s => ?_⟩
  · obtain ⟨u, hu⟩ := receive_of_duplicate perform p op r s h hd
    exact ⟨u, _, hu, rfl, rfl, rfl, rfl, rfl⟩
  · obtain ⟨hc, ho, _⟩ := completeAs_port j st isolated kennel result data s
    refine ⟨_, hc, rfl, rfl, rfl, rfl, rfl, fun hok => ?_, fun hno => ?_, ho,
      completeAs_dram j st isolated kennel result data s, fun q hq => ?_⟩
    · simp [endOf, hok]
    · simp [endOf, hno]
    · have hb := completeAs_other j st isolated kennel result data s q hq
      simp only [books, Prod.mk.injEq] at hb
      obtain ⟨hqc, hqo, _, _⟩ := hb
      exact ⟨hqc, hqo⟩

/-! ### NOP and fences -/

theorem quiesceHolds_nop (s : State) (h : Hdr) : quiesceHolds s opNop h = false := by
  simp [quiesceHolds, unpartitionedOps]

/-- A fence that passes its checks is performed as it is received, its slots free (R61). -/
theorem receive_of_fence (perform : Perform) (p : Fin 4) (r : Req) (s : State) (h : arrives p r s = true)
    (hc : checkRequest (entered p opNop r s) p opNop r = none) (hf : auxF r.hdr 0 0 = 1) :
    receive perform p opNop r s = panicCheck p (perform (newJob p opNop r s) r
      (freeSlots p (requestSlots opNop r) (entered p opNop r s))) := by
  have hi : isFence opNop r = true := by simp [isFence, hf]
  rw [receive_of_arrives perform p opNop r s h, evaluate]
  simp only [quiesceHolds_nop, hc, hi, Bool.false_eq_true, if_false, if_true]

/-- A NOP that passes as any request does asks for no fence. -/
theorem fence_of_passes_nop (p : Fin 4) (r : Req) (c : PortClass) (s : State) (h : passes p opNop r c s = true) :
    ¬auxF r.hdr 0 0 = 1 := by
  intro hf
  simp [passes, isFence, hf] at h

theorem performNop_of_no_fence (j : Job) (r : Req) (s : State) (h : ¬auxF r.hdr 0 0 = 1) :
    performNop j r s = completeWith j .ok s := if_neg fun hc => h hc.1

theorem exec_nop (p : Fin 4) (r : Req) (s : State) : exec (.nop p r) s = .next (receive performNop p opNop r s) := rfl

theorem exec_fenceComplete (p : Fin 4) (tag : BitVec 14) (s : State) :
    exec (.fenceComplete p tag) s = .next (fenceDone p tag s) := rfl

/-- Settles O2: NOP by `receive_of_passes` and `receive_of_fence`, the sent completions by `completeAs_port`, and
FENCE_COMPLETE by what it finds. -/
theorem nopAndItsFence : Obligations.NopAndItsFence := by
  unfold Obligations.NopAndItsFence
  refine ⟨fun p r c s h => ?_, fun p r s h hc hf => ?_, fun j st isolated kennel result data s => ?_,
    fun p tag s => ⟨fun f hf => ?_, fun hn => ?_⟩⟩
  · rw [exec_nop, receive_of_passes _ p opNop r c s h, performed,
      performNop_of_no_fence _ r _ (fence_of_passes_nop p r c s h)]
  · intro j u waits
    rw [exec_nop, receive_of_fence performNop p r s h hc hf]
    refine ⟨fun hw => ?_, fun hw => ?_⟩
    · rw [performNop, if_neg fun h => h.2 hw]
    · rw [performNop, if_pos ⟨hf, hw⟩]
      rfl
  · obtain ⟨_, _, hsent⟩ := completeAs_port j st isolated kennel result data s
    exact hsent
  · rw [exec_fenceComplete, fenceDone, hf]
  · rw [exec_fenceComplete, fenceDone, hn]

end Sys2Proof.Transactions
end

section
/-! PROOFS. Event records: the fields of a record's bytes, the records of one event, and what the delivery of a record
changes in the log and in the ports and what it leaves alone. -/

namespace Sys2Proof.EventRecords

open Sys2Proof Sys2Proof.Machine Sys2Proof.Laws Sys2Proof.Transactions

/-! ### Whole byte strings -/

theorem bytesAt_zero_length (bs : List Byte) : bytesAt bs 0 bs.length = bs := by
  apply List.ext_getElem
  · simp [bytesAt]
  · intro i _ hi
    simp [bytesAt, hi]

/-- The bytes of a number, read whole, spell it again. -/
theorem natAt_natToBytes (n v : Nat) (h : v < 256 ^ n) : natAt (natToBytes n v) 0 n = v := by
  have hall := bytesAt_zero_length (natToBytes n v)
  rw [natToBytes_length] at hall
  rw [natAt, hall, bytesToNat_natToBytes, Nat.mod_eq_of_lt h]

/-! ### The bytes of a record (R452) -/

/-- The number that a record's 32 bytes spell. -/
def recordNumber (r : EventRec) : Nat :=
  r.code % 65536 + r.level * 2 ^ 16 + r.severity * 2 ^ 18 + boolNat r.overrun * 2 ^ 21 + boolNat r.cont * 2 ^ 22 +
    r.instKind % 256 * 2 ^ 24 + r.instNum % 65536 * 2 ^ 32 + r.timestamp % 2 ^ 64 * 2 ^ 64 +
    r.epoch % 2 ^ 32 * 2 ^ 128 + r.payload.toNat * 2 ^ 160

theorem recordBytes_eq (r : EventRec) : recordBytes r = natToBytes 32 (recordNumber r) := rfl

theorem recordBytes_length (r : EventRec) : (recordBytes r).length = 32 := natToBytes_length 32 _

theorem boolNat_lt_two (b : Bool) : boolNat b < 2 := by cases b <;> decide

theorem recordNumber_fields (r : EventRec) (hc : r.code < 65536) (hl : r.level < 4) (hs : r.severity < 5)
    (hk : r.instKind < 256) (hn : r.instNum < 65536) :
    let n := recordNumber r
    n < 256 ^ 32 ∧ bitsOf n 15 0 = r.code ∧ bitsOf n 17 16 = r.level ∧ bitsOf n 20 18 = r.severity ∧
      bitsOf n 21 21 = boolNat r.overrun ∧ bitsOf n 22 22 = boolNat r.cont ∧ bitsOf n 23 23 = boolNat false ∧
      bitsOf n 31 24 = r.instKind ∧ bitsOf n 47 32 = r.instNum ∧ bitsOf n 63 48 = 0 ∧
      bitsOf n 127 64 = r.timestamp % 2 ^ 64 ∧ bitsOf n 159 128 = r.epoch % 2 ^ 32 ∧
      bitsOf n 255 160 = r.payload.toNat := by
  have ho := boolNat_lt_two r.overrun
  have hi := boolNat_lt_two r.cont
  have ht : r.timestamp % 2 ^ 64 < 2 ^ 64 := Nat.mod_lt _ (Nat.two_pow_pos 64)
  have he : r.epoch % 2 ^ 32 < 2 ^ 32 := Nat.mod_lt _ (Nat.two_pow_pos 32)
  have hp := r.payload.isLt
  simp only [recordNumber, bitsOf, Nat.shiftRight_eq_div_pow, Nat.mod_eq_of_lt hc, Nat.mod_eq_of_lt hk,
    Nat.mod_eq_of_lt hn, show boolNat false = 0 from rfl]
  generalize r.timestamp % 2 ^ 64 = stamp at *
  generalize r.epoch % 2 ^ 32 = epoch at *
  refine ⟨?_, ?_, ?_, ?_, ?_, ?_, ?_, ?_, ?_, ?_, ?_, ?_, ?_⟩ <;> omega

/-! ### The records of an event (R454) -/

/-- Each payload of an event stands in the record of its place, which continues the one before it unless it is the
first. -/
theorem recordsAt_getElem? (stamp code level severity kind num : Nat) (items : List (Nat × Nat)) (s : State) (i : Nat) :
    (recordsAt stamp code level severity kind num items s)[i]? = (packItems items)[i]?.map fun w =>
      { code := code, level := level, severity := severity, overrun := countOverran items s, cont := decide (0 < i),
        instKind := kind, instNum := num, timestamp := stamp, epoch := s.device.epoch, payload := w } :=
  List.getElem?_mapIdx

/-! ### Delivery (R455) -/

/-- A record takes the next place of the log, and of the input buffer. -/
theorem deliverRecord_log (r : EventRec) (s : State) :
    (deliverRecord r s).log.count = s.log.count + 1 ∧
      (deliverRecord r s).log.records = (r :: s.log.records).take logRingSize ∧
      (deliverRecord r s).log.input = bufferRecord s.hubTimer r s.log.input := by
  unfold deliverRecord
  dsimp only
  split
  · split <;> exact ⟨rfl, rfl, rfl⟩
  · exact ⟨rfl, rfl, rfl⟩

/-- Delivery reaches only the ports, the log and the sideband. -/
theorem deliverRecord_frame (r : EventRec) (s : State) :
    (deliverRecord r s).dram = s.dram ∧ (deliverRecord r s).channels = s.channels ∧
      (deliverRecord r s).partitions = s.partitions ∧ (deliverRecord r s).mailboxes = s.mailboxes ∧
      (deliverRecord r s).device = s.device := by
  obtain ⟨ports, log, sideband, hrest⟩ := deliverRecord_events r s
  rw [hrest]
  exact ⟨rfl, rfl, rfl, rfl, rfl⟩

theorem queuePortRecord_link (r : EventRec) (x : Port) : (queuePortRecord r x).link = x.link := by
  unfold queuePortRecord
  dsimp only
  split
  · split <;> rfl
  · rfl

theorem queuePortRecord_of_not_attached (r : EventRec) (x : Port) (h : x.partnerState ≠ .attached) :
    queuePortRecord r x = x := if_neg fun hc => h hc.1

theorem deliverRecord_port (r : EventRec) (s : State) (p : Fin 4) :
    (deliverRecord r s).ports[p] = queuePortRecord r s.ports[p] := by
  rw [deliverRecord_ports]
  simp

theorem deliverRecord_completions (r : EventRec) (s : State) (p : Fin 4) :
    (deliverRecord r s).ports[p].completions = s.ports[p].completions :=
  congrArg Prod.fst (deliverRecord_sameBooks r s p)

/-- Settles O59: the bytes by `recordNumber_fields`, the records of an event by `recordsAt_getElem?`, and a record's
delivery by `deliverRecord_log`, `deliverRecord_frame` and `deliverRecord_port`. -/
theorem recordsEnterTheLog : Obligations.RecordsEnterTheLog := by
  unfold Obligations.RecordsEnterTheLog
  refine ⟨fun r hc hl hs hk hn => ?_, fun code level severity kind num items s i r h => ?_, fun r s => ?_⟩
  · obtain ⟨hlt, hcode, hlevel, hsev, hover, hcont, hzero, hkind, hnum, hgap, hstamp, hepoch, hpay⟩ :=
      recordNumber_fields r hc hl hs hk hn
    dsimp only
    rw [recordBytes_eq, natAt_natToBytes 32 _ hlt]
    exact ⟨recordBytes_length r, hcode, hlevel, hsev, bitAt_of_bitsOf _ _ _ hover, bitAt_of_bitsOf _ _ _ hcont,
      bitAt_of_bitsOf _ _ _ hzero, hkind, hnum, hgap, hstamp, hepoch, hpay⟩
  · rw [recordsOf, recordsAt_getElem?] at h
    obtain ⟨w, hw, rfl⟩ := Option.map_eq_some_iff.mp h
    exact ⟨rfl, rfl, rfl, rfl, rfl, rfl, rfl, rfl, rfl, hw⟩
  · obtain ⟨hcount, hrecords, hinput⟩ := deliverRecord_log r s
    obtain ⟨hdram, hchannels, hpartitions, hmailboxes, hdevice⟩ := deliverRecord_frame r s
    refine ⟨hcount, hrecords, hinput, hdram, hchannels, hpartitions, hmailboxes, hdevice,
      fun p => ⟨?_, deliverRecord_completions r s p, fun hp => ?_⟩⟩
    · rw [deliverRecord_port, queuePortRecord_link]
    · rw [deliverRecord_port, queuePortRecord_of_not_attached r _ hp]

end Sys2Proof.EventRecords
end

section
/-! PROOFS. What every operation keeps: the queue of commands, and the canonical form of memory and of the sparse
tables. -/

namespace Sys2Proof.Frames

open Sys2Proof Sys2Proof.Machine Sys2Proof.Laws Sys2Proof.Safety

/-! ### States that keep another's queue and canonical form -/

/-- `t` has the commands of `s` behind it, and is in canonical form if `s` is. -/
def Kept (s t : State) : Prop := t.pending = s.pending ∧ (canonical s = true → canonical t = true)

/-- An outcome that, where it is a next state, keeps `s`. -/
def Runs (s : State) (o : Out) : Prop := ∀ t, o = .next t → Kept s t

theorem Kept.refl (s : State) : Kept s s := ⟨rfl, id⟩

theorem Kept.trans {r s t : State} (h : Kept r s) (h' : Kept s t) : Kept r t :=
  ⟨h'.1.trans h.1, fun x => h'.2 (h.2 x)⟩

theorem canonical_iff (s : State) : canonical s = true ↔
    memWf s.dram = true ∧ sparseWf 0 s.granuleMap = true ∧ sparseWf {} s.queues = true ∧
      sparseWf 0 s.directory = true ∧ sparseWf [] s.freeCaches = true ∧
      sparseWf { low := 0, nominal := 0, high := 0 } s.fuses.words = true := by
  simp only [canonical, Bool.and_eq_true, and_assoc]

/-- Everything but the queue of commands and the sparse parts may differ. -/
theorem Kept.update {r s : State} (h : Kept r s) {hubTimer drawn presented : Nat} {device : Device} {params : DeviceParams}
    {ports : Vector Port 4} {quarters : Vector Quarter 4} {channels : Vector Channel 32} {blocks : List (BlockId × Block)}
    {partitions : Vector Partition 64} {refills : List Refill} {tables : Vector Table 16} {directoryBad : List Nat}
    {profiles : Vector Profile 32} {kennel : List KennelLine} {waysDisabled : List (Nat × Nat)}
    {sealCache : List MetaLine} {keys : Vector KeySlot 64} {sensors : Vector Sensor 17} {bonds : Vector Bond 20}
    {thermal : Thermal} {mailboxes : Vector Mailbox 6} {tasks : List Task} {nextTicket : Nat} {mover : Option Mover}
    {repairLog repairLogB : List Repair} {firmware : Firmware} {log : LogState} {sideband : Sideband}
    {rotation : List Nat} {salts : Vector (BitVec 31) 4} :
    Kept r { s with
      hubTimer := hubTimer, drawn := drawn, presented := presented, device := device, params := params, ports := ports
      quarters := quarters, channels := channels, blocks := blocks, partitions := partitions, refills := refills
      tables := tables, directoryBad := directoryBad, profiles := profiles, kennel := kennel
      waysDisabled := waysDisabled, sealCache := sealCache, keys := keys, sensors := sensors, bonds := bonds
      thermal := thermal, mailboxes := mailboxes, tasks := tasks, nextTicket := nextTicket, mover := mover
      repairLog := repairLog, repairLogB := repairLogB, firmware := firmware, log := log, sideband := sideband
      rotation := rotation, salts := salts } := h

/-- The memory may change where it stays in canonical form. -/
theorem Kept.dram {r s : State} (h : Kept r s) {m : Memory} (hm : memWf s.dram = true → memWf m = true) :
    Kept r { s with dram := m } := by
  refine ⟨h.1, fun hr => ?_⟩
  obtain ⟨hd, hrest⟩ := (canonical_iff s).mp (h.2 hr)
  exact (canonical_iff _).mpr ⟨hm hd, hrest⟩

/-- The directory may change where it stays in canonical form. -/
theorem Kept.directory {r s : State} (h : Kept r s) {d : Sparse (BitVec 64)}
    (hd : sparseWf 0 s.directory = true → sparseWf 0 d = true) : Kept r { s with directory := d } := by
  refine ⟨h.1, fun hr => ?_⟩
  obtain ⟨hm, hg, hq, hdir, hrest⟩ := (canonical_iff s).mp (h.2 hr)
  exact (canonical_iff _).mpr ⟨hm, hg, hq, hd hdir, hrest⟩

theorem kept_events {r s t : State} (he : Events s t) (h : Kept r s) : Kept r t := by
  obtain ⟨_, _, _, rfl⟩ := he
  exact h.update

theorem kept_layers {r s t : State} (hl : Layers s t) (h : Kept r s) : Kept r t := by
  obtain ⟨_, _, _, _, _, _, _, rfl, hm⟩ := hl
  exact (h.dram hm).update

theorem kept_lines {r s t : State} (hl : Lines s t) (h : Kept r s) : Kept r t := by
  obtain ⟨_, _, _, _, hl⟩ := hl
  exact kept_layers hl h.update

/-- One of two states. -/
theorem kept_ite {r s t : State} {c : Prop} [Decidable c] (hs : Kept r s) (ht : Kept r t) :
    Kept r (if c then s else t) := by
  split
  · exact hs
  · exact ht

/-- One of two pairs, or of two triples. -/
theorem kept_ite_snd {α : Type} {r : State} {x y : α × State} {c : Prop} [Decidable c] (hx : Kept r x.2)
    (hy : Kept r y.2) : Kept r (if c then x else y).2 := by
  split
  · exact hx
  · exact hy

theorem kept_ite_triple {α β : Type} {r : State} {x y : α × β × State} {c : Prop} [Decidable c] (hx : Kept r x.2.2)
    (hy : Kept r y.2.2) : Kept r (if c then x else y).2.2 := by
  split
  · exact hx
  · exact hy

/-- A fold of steps that each keep it. -/
theorem kept_foldl {α : Type} {f : State → α → State} {r s : State} (hf : ∀ s a, Kept r s → Kept r (f s a))
    {l : List α} (h : Kept r s) : Kept r (l.foldl f s) := by
  induction l generalizing s with
  | nil => exact h
  | cons a l ih => exact ih (hf s a h)

/-- A fold that carries a value before the state. -/
theorem kept_foldl_snd {α β : Type} {f : β × State → α → β × State} {r : State} {b : β × State}
    (hf : ∀ b a, Kept r b.2 → Kept r (f b a).2) {l : List α} (h : Kept r b.2) : Kept r (l.foldl f b).2 := by
  induction l generalizing b with
  | nil => exact h
  | cons a l ih => exact ih (hf b a h)

/-- A fold that carries two values before the state. -/
theorem kept_foldl_triple {α β γ : Type} {f : β × γ × State → α → β × γ × State} {r : State} {b : β × γ × State}
    (hf : ∀ b a, Kept r b.2.2 → Kept r (f b a).2.2) {l : List α} (h : Kept r b.2.2) : Kept r (l.foldl f b).2.2 := by
  induction l generalizing b with
  | nil => exact h
  | cons a l ih => exact ih (hf b a h)

/-- A fold of steps that may fail. -/
theorem kept_foldl_bind {α : Type} {f : α → State → Option State} {r s t : State} {l : List α}
    (hf : ∀ s a t, Kept r s → f a s = some t → Kept r t) (h : Kept r s)
    (e : l.foldl (fun o a => o.bind (f a)) (some s) = some t) : Kept r t := by
  induction l generalizing s with
  | nil =>
    cases e
    exact h
  | cons a l ih =>
    rw [List.foldl_cons, Option.bind_some] at e
    cases hs : f a s with
    | none =>
      have none_stays (l : List α) : l.foldl (fun o a => o.bind (f a)) none = none := by
        induction l with
        | nil => rfl
        | cons _ l ih => exact ih
      rw [hs, none_stays] at e
      cases e
    | some u =>
      rw [hs] at e
      exact ih (hf s a u h hs) e

/-- The state of a pair that is known. -/
theorem kept_of_eq {α : Type} {r t : State} {x : α × State} {a : α} (e : x = (a, t)) (h : Kept r x.2) : Kept r t := by
  rw [e] at h
  exact h

/-- The state of a triple that is known. -/
theorem kept_of_eq_triple {α β : Type} {r t : State} {x : α × β × State} {a : α} {b : β} (e : x = (a, b, t))
    (h : Kept r x.2.2) : Kept r t := by
  rw [e] at h
  exact h

theorem runs_next {r t : State} (h : Kept r t) : Runs r (.next t) := fun _ e => by
  cases e
  exact h

theorem runs_fault {r : State} {f : Fault} : Runs r (.fault f) := fun _ e => by cases e

/-! ### The state's updates -/

theorem modQueue_kept (q : Nat) (f : Queue → Queue) {r s : State} (h : Kept r s) : Kept r (modQueue q f s) := by
  refine ⟨h.1, fun hr => ?_⟩
  obtain ⟨hd, hg, hq, hrest⟩ := (canonical_iff s).mp (h.2 hr)
  exact (canonical_iff _).mpr ⟨hd, hg, modQueue_wf q f s hq, hrest⟩

theorem setGranule_kept (g : Nat) (e : BitVec 16) {r s : State} (h : Kept r s) : Kept r (setGranule g e s) := by
  refine ⟨h.1, fun hr => ?_⟩
  obtain ⟨hd, hg, hrest⟩ := (canonical_iff s).mp (h.2 hr)
  exact (canonical_iff _).mpr ⟨hd, setGranule_wf g e s hg, hrest⟩

theorem setDirectory_kept (i : Nat) (e : BitVec 64) {r s : State} (h : Kept r s) : Kept r (setDirectory i e s) := by
  refine ⟨h.1, fun hr => ?_⟩
  obtain ⟨hd, hg, hq, hdir, hrest⟩ := (canonical_iff s).mp (h.2 hr)
  exact (canonical_iff _).mpr ⟨hd, hg, hq, setDirectory_wf i e s hdir, hrest⟩

theorem setFreeCache_kept (slice pd : Nat) (cells : List Nat) {r s : State} (h : Kept r s) :
    Kept r (setFreeCache slice pd cells s) := by
  refine ⟨h.1, fun hr => ?_⟩
  obtain ⟨hd, hg, hq, hdir, hc, hw⟩ := (canonical_iff s).mp (h.2 hr)
  exact (canonical_iff _).mpr ⟨hd, hg, hq, hdir, setFreeCache_wf slice pd cells s hc, hw⟩

/-- The fuse array may change where its words stay in canonical form. -/
theorem modFuses_wf {f : FuseArray → FuseArray} {r s : State} (h : Kept r s)
    (hw : sparseWf { low := 0, nominal := 0, high := 0 } s.fuses.words = true →
      sparseWf { low := 0, nominal := 0, high := 0 } (f s.fuses).words = true) : Kept r (modFuses f s) := by
  refine ⟨h.1, fun hr => ?_⟩
  obtain ⟨hd, hg, hq, hdir, hc, hfw⟩ := (canonical_iff s).mp (h.2 hr)
  exact (canonical_iff _).mpr ⟨hd, hg, hq, hdir, hc, hw hfw⟩

/-- A change of the fuse array that leaves its words. -/
theorem modFuses_kept {f : FuseArray → FuseArray} (hf : ∀ x, (f x).words = x.words) {r s : State} (h : Kept r s) :
    Kept r (modFuses f s) := modFuses_wf h fun hw => (hf s.fuses).symm ▸ hw

theorem modBlock_kept (b : BlockId) (f : Block → Block) {r s : State} (h : Kept r s) : Kept r (modBlock b f s) :=
  kept_ite h.update h.update

theorem respondTo_kept (m : Fin 6) (x : Reply) {r s : State} (h : Kept r s) : Kept r (respondTo m x s) := by
  obtain ⟨_, he, _⟩ := respondTo_events m x s
  exact kept_events he h.update

/-! ### The state's parts -/

theorem modLane_kept (p : Fin 4) (l : Fin 16) (f : Lane → Lane) {s₀ s : State} (hk : Kept s₀ s) :
    Kept s₀ (modLane p l f s) :=
  kept_events (modPort_events _ _ _) hk

theorem mapLanes_kept (p : Fin 4) (f : Nat → Lane → Lane) {s₀ s : State} (hk : Kept s₀ s) : Kept s₀ (mapLanes p f s) :=
  kept_events (modPort_events _ _ _) hk

theorem modBuffer_kept (pd : Fin 64) (f : BufferState → BufferState) {s₀ s : State} (hk : Kept s₀ s) :
    Kept s₀ (modBuffer pd f s) :=
  kept_lines (modPartition_lines _ _ _) hk

theorem modCounter_kept (pd : Fin 64) (f : CounterState → CounterState) {s₀ s : State} (hk : Kept s₀ s) :
    Kept s₀ (modCounter pd f s) :=
  kept_lines (modPartition_lines _ _ _) hk

theorem modTable_kept (td : Fin 16) (f : Table → Table) {s₀ s : State} (hk : Kept s₀ s) : Kept s₀ (modTable td f s) :=
  Kept.update hk

theorem modProfile_kept (i : Fin 32) (f : Profile → Profile) {s₀ s : State} (hk : Kept s₀ s) :
    Kept s₀ (modProfile i f s) :=
  Kept.update hk

theorem modMailbox_kept (m : Fin 6) (f : Mailbox → Mailbox) {s₀ s : State} (hk : Kept s₀ s) :
    Kept s₀ (modMailbox m f s) :=
  Kept.update hk

theorem modSensor_kept (k : Fin 17) (f : Sensor → Sensor) {s₀ s : State} (hk : Kept s₀ s) : Kept s₀ (modSensor k f s) :=
  Kept.update hk

theorem modBond_kept (i : Fin 20) (f : Bond → Bond) {s₀ s : State} (hk : Kept s₀ s) : Kept s₀ (modBond i f s) :=
  Kept.update hk

theorem modKey_kept (k : Fin 64) (f : KeySlot → KeySlot) {s₀ s : State} (hk : Kept s₀ s) : Kept s₀ (modKey k f s) :=
  Kept.update hk

theorem modDevice_kept (f : Device → Device) {s₀ s : State} (hk : Kept s₀ s) : Kept s₀ (modDevice f s) :=
  Kept.update hk

theorem modThermal_kept (f : Thermal → Thermal) {s₀ s : State} (hk : Kept s₀ s) : Kept s₀ (modThermal f s) :=
  Kept.update hk

theorem modFirmware_kept (f : Firmware → Firmware) {s₀ s : State} (hk : Kept s₀ s) : Kept s₀ (modFirmware f s) :=
  Kept.update hk

theorem drawOne_kept {s₀ s : State} (hk : Kept s₀ s) : Kept s₀ (drawOne s) :=
  Kept.update hk

theorem noteCommit_kept (rs : List ConfigRecord) {s₀ s : State} (hk : Kept s₀ s) : Kept s₀ (noteCommit rs s) :=
  modFirmware_kept _ hk

/-! ### Lines in the layers -/

theorem closeRows_kept (c : Fin 32) {s₀ s : State} (hk : Kept s₀ s) : Kept s₀ (closeRows c s) :=
  kept_foldl (fun _ _ hk => kept_layers (closeRow_layers _ _ _) hk) hk

theorem payBank_kept (c : Fin 32) (b : Fin 16) {s₀ s : State} (hk : Kept s₀ s) : Kept s₀ (payBank c s b) :=
  kept_foldl (fun _ _ hk => kept_layers (refreshNow_layers _ _ _) hk) hk

theorem payDebts_kept (c : Fin 32) {s₀ s : State} (hk : Kept s₀ s) : Kept s₀ (payDebts c s) :=
  kept_foldl (fun _ _ hk => payBank_kept _ _ hk) hk

theorem holdTrim_kept (c : Fin 32) {s₀ s : State} (hk : Kept s₀ s) : Kept s₀ (holdTrim c s) :=
  kept_layers (modChannel_layers _ _ _) (kept_layers (wakePowerDown_layers _ _) hk)

theorem exitRefreshAt_kept (begun : Nat) (due : Bool) (c : Fin 32) {s₀ s : State} (hk : Kept s₀ s) :
    Kept s₀ (exitRefreshAt begun due c s) := by
  unfold exitRefreshAt
  dsimp only
  split
  · exact holdTrim_kept _ (kept_layers (modChannel_layers _ _ _) (kept_layers (passTo_layers _ _) hk))
  · exact kept_layers (modChannel_layers _ _ _) (kept_layers (passTo_layers _ _) hk)

theorem exitRefresh_kept (due : Bool) (c : Fin 32) {s₀ s : State} (hk : Kept s₀ s) : Kept s₀ (exitRefresh due c s) :=
  exitRefreshAt_kept _ _ _ hk

theorem endDrain_kept (c : Fin 32) {s₀ s : State} (hk : Kept s₀ s) : Kept s₀ (endDrain c s) :=
  kept_ite (kept_layers (drainTo_layers _ _ _ _) hk) hk

theorem rewriteQueue_kept (c : Fin 32) {s₀ s : State} (hk : Kept s₀ s) : Kept s₀ (rewriteQueue c s) :=
  kept_ite (kept_layers (modChannel_layers _ _ _) (kept_layers (drainAll_layers _ _) hk)) hk

theorem leaveRefreshAt_kept (begun : Nat) (c : Fin 32) {s₀ s : State} (hk : Kept s₀ s) :
    Kept s₀ (leaveRefreshAt begun c s) := by
  unfold leaveRefreshAt
  dsimp only
  split
  · exact rewriteQueue_kept _ (exitRefreshAt_kept _ _ _ (kept_ite (kept_events (raise_events _ _ _ _ _) (kept_layers
      (modChannel_layers _ _ _) hk)) (kept_layers (modChannel_layers _ _ _) hk)))
  · exact hk

theorem leaveSelfRefresh_kept (c : Fin 32) {s₀ s : State} (hk : Kept s₀ s) : Kept s₀ (leaveSelfRefresh c s) :=
  leaveRefreshAt_kept _ _ hk

/-! ### The Kennel -/

theorem kennelInstallFor_kept (pd : Fin 64) (index : Nat) (data : Line) (dirty : Bool) (use : KennelUse)
    (owner : Option Nat) {s₀ s : State} (hk : Kept s₀ s) : Kept s₀ (kennelInstallFor pd index data dirty use owner s) :=
  kept_ite (kept_events (countKennelMiss_events _ _ _) (kept_lines (kennelInstall_lines _ _ _ _ _ _ _) hk)) (kept_lines
    (kennelInstall_lines _ _ _ _ _ _ _) hk)

/-! ### Port ingress -/

theorem present_kept {perform : Perform} (q : QueuedReq) {s₀ s : State}
    (hperform : ∀ j r u, Kept s₀ u → Kept s₀ (perform j r u)) (hk : Kept s₀ s) : Kept s₀ (present perform q s) := by
  unfold present
  split
  · exact kept_layers (setRequests_layers _ _ _) (kept_layers (countPromoted_layers _ _) hk)
  · exact kept_layers (setRequests_layers _ _ _) hk
  · exact hperform _ _ _ (kept_layers (countPromoted_layers _ _) hk)
  · exact hperform _ _ _ hk

theorem toHub_kept {perform : Perform} (j : Job) (r : Req) {s₀ s : State}
    (hperform : ∀ j r u, Kept s₀ u → Kept s₀ (perform j r u)) (hk : Kept s₀ s) : Kept s₀ (toHub perform j r s) :=
  present_kept _ hperform (Kept.update hk)

theorem evaluate_kept {perform : Perform} (p : Fin 4) (h : Held) {s₀ s : State}
    (hperform : ∀ j r u, Kept s₀ u → Kept s₀ (perform j r u)) (hk : Kept s₀ s) : Kept s₀ (evaluate perform p h s) := by
  unfold evaluate
  dsimp only
  split
  · exact kept_events (holdRequest_events _ _ _) hk
  · split
    · exact kept_events (completeWith_events _ _ _) (kept_events (freeSlots_events _ _ _) hk)
    · split
      · exact hperform _ _ _ (kept_events (freeSlots_events _ _ _) hk)
      · split
        · exact toHub_kept _ _ hperform (kept_events (freeSlots_events _ _ _) (kept_events
            (modClass_events _ _ _ _) hk))
        · exact kept_events (holdRequest_events _ _ _) hk

theorem ingress_kept {perform : Perform} (p : Fin 4) (op : BitVec 6) (r : Req) {s₀ s : State}
    (hperform : ∀ j r u, Kept s₀ u → Kept s₀ (perform j r u)) (hk : Kept s₀ s) : Kept s₀
    (ingress perform p op r s) := by
  unfold ingress
  dsimp only
  split
  · exact kept_ite (kept_events (freeSlots_events _ _ _) hk) (kept_events (raise_events _ _ _ _ _) (kept_events
      (freeSlots_events _ _ _) hk))
  · split
    · exact kept_events (handOver_events _ _ _) (kept_events (raiseLimited_events _ _ _ _ _) (kept_events
        (modPort_events _ _ _) (kept_events (freeSlots_events _ _ _) hk)))
    · exact kept_layers (panicCheck_layers _ _) (evaluate_kept _ _ hperform (kept_events (modPort_events _ _ _) hk))

theorem receive_kept {perform : Perform} (p : Fin 4) (op : BitVec 6) (r : Req) {s₀ s : State}
    (hperform : ∀ j r u, Kept s₀ u → Kept s₀ (perform j r u)) (hk : Kept s₀ s) : Kept s₀ (receive perform p op r s) :=
  kept_ite hk (ingress_kept _ _ _ hperform (kept_events (modLink_events _ _ _) hk))

/-! ### Requests on memory -/

theorem performNop_kept (j : Job) (r : Req) {s₀ s : State} (hk : Kept s₀ s) : Kept s₀ (performNop j r s) :=
  kept_ite (kept_events (modPort_events _ _ _) hk) (kept_events (completeWith_events _ _ _) hk)

theorem execNop_kept (p : Fin 4) (r : Req) {s₀ s : State} (hk : Kept s₀ s) : Runs s₀ (execNop p r s) :=
  runs_next (receive_kept _ _ _ (fun _ _ _ hk => performNop_kept _ _ hk) hk)

theorem fenceDone_kept (p : Fin 4) (tag : BitVec 14) {s₀ s : State} (hk : Kept s₀ s) : Kept s₀ (fenceDone p tag s) := by
  unfold fenceDone
  split
  · exact kept_events (completeWith_events _ _ _) (kept_events (modPort_events _ _ _) hk)
  · exact hk

theorem execFenceComplete_kept (p : Fin 4) (tag : BitVec 14) {s₀ s : State} (hk : Kept s₀ s) :
    Runs s₀ (execFenceComplete p tag s) :=
  runs_next (fenceDone_kept _ _ hk)

theorem readLines_kept (who : Requester) (owner : Option Nat) (pd : Fin 64) (is : List Nat) (acc : Reading)
    {s₀ s : State} (hk : Kept s₀ s) : Kept s₀ (readLines who owner pd is acc s).2 := by
  induction is generalizing acc s with
  | nil => exact hk
  | cons i is ih =>
    have h : Kept s₀ (hostRead who owner pd i s).2.2 := kept_lines (hostRead_lines _ _ _ _ _) hk
    unfold readLines
    split <;> rename_i e <;> exact ih _ (kept_of_eq_triple e h)

theorem performRead_kept (j : Job) (r : Req) {s₀ s : State} (hk : Kept s₀ s) : Kept s₀ (performRead j r s) := by
  unfold performRead
  dsimp only
  split
  · exact kept_events (completeAs_events _ _ _ _ _ _ _) (kept_ite (kept_events (countKennelMiss_events _ _ _)
      (readLines_kept _ _ _ _ _ hk)) (readLines_kept _ _ _ _ _ hk))
  · exact kept_events (completeAs_events _ _ _ _ _ _ _) (kept_ite (kept_events (countKennelMiss_events _ _ _)
      (readLines_kept _ _ _ _ _ hk)) (readLines_kept _ _ _ _ _ hk))

theorem execRead_kept (p : Fin 4) (r : Req) {s₀ s : State} (hk : Kept s₀ s) : Runs s₀ (execRead p r s) :=
  runs_next (receive_kept _ _ _ (fun _ _ _ hk => performRead_kept _ _ hk) hk)

theorem awaitRoom_kept (c : Fin 32) (w : WaitingWrite) {s₀ s : State} (hk : Kept s₀ s) : Kept s₀ (awaitRoom c w s) :=
  kept_layers (modChannel_layers _ _ _) hk

theorem writeLines_kept (j : Job) (pd : Fin 64) (ls : List (Nat × Line)) (n : Nat) (f : Option (QStatus × Bool))
    {s₀ s : State} (hk : Kept s₀ s) : Kept s₀ (writeLines j pd ls n f s).2.2 := by
  induction ls generalizing n f s with
  | nil => exact hk
  | cons l ls ih =>
    unfold writeLines
    extract_lets out
    clear_value out
    cases out with
    | some c => exact ih _ _ (awaitRoom_kept _ _ hk)
    | none =>
      dsimp only
      split <;> rename_i e <;> exact ih _ _ (kept_of_eq e (kept_lines (hostWrite_lines _ _ _ _ _) hk))

theorem writeOutcome_kept (j : Job) (n : Nat) (f : Option (QStatus × Bool)) {s₀ s : State} (hk : Kept s₀ s) :
    Kept s₀ (writeOutcome j n f s) := by
  unfold writeOutcome
  dsimp only
  split
  · exact kept_events (modPort_events _ _ _) hk
  · split
    · exact kept_events (completeAs_events _ _ _ _ _ _ _) hk
    · exact kept_events (completeWith_events _ _ _) hk

theorem performWrite_kept (j : Job) (r : Req) {s₀ s : State} (hk : Kept s₀ s) : Kept s₀ (performWrite j r s) :=
  writeOutcome_kept _ _ _ (writeLines_kept _ _ _ _ _ hk)

theorem execWrite_kept (p : Fin 4) (r : Req) {s₀ s : State} (hk : Kept s₀ s) : Runs s₀ (execWrite p r s) :=
  runs_next (receive_kept _ _ _ (fun _ _ _ hk => performWrite_kept _ _ hk) hk)

theorem settleLine_kept (j : Job) (st : QStatus) (isolated : Bool) {s₀ s : State} (hk : Kept s₀ s) :
    Kept s₀ (settleLine j st isolated s) := by
  unfold settleLine
  dsimp only
  split
  · exact hk
  · exact kept_ite (kept_events (completeAs_events _ _ _ _ _ _ _) (kept_events (modPort_events _ _ _) hk)) (kept_events
      (modPort_events _ _ _) hk)

theorem updateLine_kept (who : Requester) (pd : Fin 64) (index : Nat) {half : State → LineResult × State}
    (f : Line → Line) {s₀ s : State} (hhalf : ∀ u, Kept s₀ u → Kept s₀ (half u).2) (hk : Kept s₀ s) : Kept s₀
    (updateLine who pd index half f s).2 := by
  unfold updateLine
  split
  · rename_i st iso s e1
    exact kept_of_eq e1 (hhalf _ hk)
  · rename_i old s e1
    split
    · rename_i s e2
      exact kept_of_eq e2 (kept_lines (partitionWrite_lines _ _ _ _ _) (kept_of_eq e1 (hhalf _ hk)))
    · rename_i e s e2
      exact kept_of_eq e2 (kept_lines (partitionWrite_lines _ _ _ _ _) (kept_of_eq e1 (hhalf _ hk)))

theorem performWriteMask_kept (j : Job) (r : Req) {s₀ s : State} (hk : Kept s₀ s) :
    Kept s₀ (performWriteMask j r s) := by
  unfold performWriteMask
  dsimp only
  split
  · exact writeOutcome_kept _ _ _ (writeLines_kept _ _ _ _ _ hk)
  · split
    · rename_i old s e
      refine kept_events (completeWith_events _ _ _) ?_
      split
      · exact kept_lines (kennelUpdate_lines _ _ _ _) ((kept_of_eq e (updateLine_kept _ _ _ _ (fun _ hk => kept_lines
          (halfRead_lines _ _ _ _) hk) hk)))
      · exact kept_lines (kennelDrop_lines _ _ _) ((kept_of_eq e (updateLine_kept _ _ _ _ (fun _ hk => kept_lines
          (halfRead_lines _ _ _ _) hk) hk)))
    · rename_i st iso s e
      exact kept_events (completeAs_events _ _ _ _ _ _ _) ((kept_of_eq e (updateLine_kept _ _ _ _
        (fun _ hk => kept_lines (halfRead_lines _ _ _ _) hk) hk)))

theorem execWriteMask_kept (p : Fin 4) (r : Req) {s₀ s : State} (hk : Kept s₀ s) : Runs s₀ (execWriteMask p r s) :=
  runs_next (receive_kept _ _ _ (fun _ _ _ hk => performWriteMask_kept _ _ hk) hk)

theorem performAtomic_kept (op : BitVec 6) (j : Job) (r : Req) {s₀ s : State} (hk : Kept s₀ s) :
    Kept s₀ (performAtomic op j r s) := by
  unfold performAtomic
  dsimp only
  split
  · rename_i old s e
    exact kept_events (complete_events _ _ _ _ _) (kept_lines (kennelDrop_lines _ _ _) ((kept_of_eq e
      (updateLine_kept _ _ _ _ (fun _ hk => kept_lines (partitionRead_lines _ _ _ _) hk) hk))))
  · rename_i st iso s e
    exact kept_events (completeAs_events _ _ _ _ _ _ _) ((kept_of_eq e (updateLine_kept _ _ _ _ (fun _ hk => kept_lines
      (partitionRead_lines _ _ _ _) hk) hk)))

theorem execAtomAdd_kept (p : Fin 4) (r : Req) {s₀ s : State} (hk : Kept s₀ s) : Runs s₀ (execAtomAdd p r s) :=
  runs_next (receive_kept _ _ _ (fun _ _ _ hk => performAtomic_kept _ _ _ hk) hk)

theorem execAtomFadd_kept (p : Fin 4) (r : Req) {s₀ s : State} (hk : Kept s₀ s) : Runs s₀ (execAtomFadd p r s) :=
  runs_next (receive_kept _ _ _ (fun _ _ _ hk => performAtomic_kept _ _ _ hk) hk)

theorem execAtomSwap_kept (p : Fin 4) (r : Req) {s₀ s : State} (hk : Kept s₀ s) : Runs s₀ (execAtomSwap p r s) :=
  runs_next (receive_kept _ _ _ (fun _ _ _ hk => performAtomic_kept _ _ _ hk) hk)

theorem execAtomCas_kept (p : Fin 4) (r : Req) {s₀ s : State} (hk : Kept s₀ s) : Runs s₀ (execAtomCas p r s) :=
  runs_next (receive_kept _ _ _ (fun _ _ _ hk => performAtomic_kept _ _ _ hk) hk)

theorem execAtomPadd128_kept (p : Fin 4) (r : Req) {s₀ s : State} (hk : Kept s₀ s) : Runs s₀ (execAtomPadd128 p r s) :=
  runs_next (receive_kept _ _ _ (fun _ _ _ hk => performAtomic_kept _ _ _ hk) hk)

theorem blockRead_kept (who : Requester) (pd : Fin 64) (block : Nat) {s₀ s : State} (hk : Kept s₀ s) :
    Kept s₀ (blockRead who pd block s).2 := by
  unfold blockRead
  split
  · exact kept_layers (rowRead_layers _ _ _ _ _) hk
  · exact hk

theorem blockWrite_kept (pd : Fin 64) (block : Nat) (image : List (Option Line)) {s₀ s : State} (hk : Kept s₀ s) :
    Kept s₀ (blockWrite pd block image s) := by
  unfold blockWrite
  split
  · exact kept_lines (kennelDropBlock_lines _ _ _) (kept_layers (rowWriteBoth_layers _ _ _) hk)
  · exact hk

theorem countCopied_kept {s₀ s : State} (hk : Kept s₀ s) : Kept s₀ (countCopied s) :=
  kept_lines (modParams_lines _ _) hk

theorem copyBlocksLoop_kept (who : Requester) (pd : Fin 64) (bs : List (Nat × Nat)) (bad : Option Nat)
    {s₀ s : State} (hk : Kept s₀ s) : Kept s₀ (copyBlocksLoop who pd bs bad s).2 := by
  induction bs generalizing bad s with
  | nil => exact hk
  | cons b bs ih => exact ih _ (countCopied_kept (blockWrite_kept _ _ _ (blockRead_kept _ _ _ hk)))

theorem performSkeinCopy_kept (j : Job) (r : Req) {s₀ s : State} (hk : Kept s₀ s) :
    Kept s₀ (performSkeinCopy j r s) := by
  unfold performSkeinCopy
  dsimp only
  split
  · exact kept_events (completeAs_events _ _ _ _ _ _ _) hk
  · split
    · rename_i a s e
      exact kept_events (completeWith_events _ _ _) (kept_events (raise_events _ _ _ _ _) (kept_of_eq e
        (copyBlocksLoop_kept _ _ _ _ hk)))
    · rename_i s e
      exact kept_events (completeWith_events _ _ _) (kept_of_eq e (copyBlocksLoop_kept _ _ _ _ hk))

theorem execSkeinCopy_kept (p : Fin 4) (r : Req) {s₀ s : State} (hk : Kept s₀ s) : Runs s₀ (execSkeinCopy p r s) :=
  runs_next (receive_kept _ _ _ (fun _ _ _ hk => performSkeinCopy_kept _ _ hk) hk)

theorem performRowFill_kept (j : Job) (r : Req) {s₀ s : State} (hk : Kept s₀ s) : Kept s₀ (performRowFill j r s) := by
  unfold performRowFill
  dsimp only
  split
  · exact kept_events (completeAs_events _ _ _ _ _ _ _) hk
  · exact kept_events (completeWith_events _ _ _) (kept_foldl (fun _ _ hk => countCopied_kept
      (blockWrite_kept _ _ _ hk)) hk)

theorem execRowFill_kept (p : Fin 4) (r : Req) {s₀ s : State} (hk : Kept s₀ s) : Runs s₀ (execRowFill p r s) :=
  runs_next (receive_kept _ _ _ (fun _ _ _ hk => performRowFill_kept _ _ hk) hk)

theorem performReserved_kept (j : Job) (r : Req) {s₀ s : State} (hk : Kept s₀ s) : Kept s₀ (performReserved j r s) :=
  kept_events (completeWith_events _ _ _) hk

theorem execReservedOpcode_kept (p : Fin 4) (op : BitVec 6) (r : Req) {s₀ s : State} (hk : Kept s₀ s) :
    Runs s₀ (execReservedOpcode p op r s) :=
  runs_next (receive_kept _ _ _ (fun _ _ _ hk => performReserved_kept _ _ hk) hk)

/-! ### Requests of the Pointer slices -/

theorem reportBad_kept (td : Fin 16) (block : Nat) (row : List (Option Line)) {s₀ s : State} (hk : Kept s₀ s) :
    Kept s₀ (reportBad td block row s) :=
  kept_foldl (fun _ _ hk => kept_ite (kept_events (raise_events _ _ _ _ _) (modTable_kept _ _ hk)) hk) hk

theorem reportDirectory_kept (td : Fin 16) (i : Nat) {s₀ s : State} (hk : Kept s₀ s) :
    Kept s₀ (reportDirectory td i s) :=
  kept_ite hk (kept_events (raise_events _ _ _ _ _) (modTable_kept _ _ hk))

theorem readRows_kept (who : Requester) (td : Fin 16) (blocks : List Nat) {s₀ s : State} (hk : Kept s₀ s) :
    Kept s₀ (readRows who td blocks s) :=
  kept_foldl (fun _ _ hk => reportBad_kept _ _ _ (blockRead_kept _ _ _ hk)) hk

theorem lookupEnd_kept (j : Job) (td : Fin 16) (key : Nat) (found : Found) {s₀ s : State} (hk : Kept s₀ s) :
    Kept s₀ (lookupEnd j td key found s) := by
  unfold lookupEnd
  dsimp only
  split
  · refine kept_events (complete_events _ _ _ _ _) (modTable_kept _ _ ?_)
    split
    · exact kept_lines (kennelTouch_lines _ _) hk
    · exact hk
  · exact kept_events (complete_events _ _ _ _ _) (kept_ite (kennelInstallFor_kept _ _ _ _ _ _ hk) hk)
  · exact kept_events (complete_events _ _ _ _ _) hk
  · exact kept_events (complete_events _ _ _ _ _) hk
  · exact kept_events (completeAs_events _ _ _ _ _ _ _) (modTable_kept _ _ hk)
  · exact kept_events (completeAs_events _ _ _ _ _ _ _) (modTable_kept _ _ hk)

theorem lookupSecond_kept (j : Job) (td : Fin 16) (key : Nat) (seq : BitVec 32) (firstBad : Bool) {s₀ s : State}
    (hk : Kept s₀ s) : Kept s₀ (lookupSecond j td key seq firstBad s) := by
  unfold lookupSecond
  dsimp only
  split
  · refine lookupEnd_kept _ _ _ _ (readRows_kept _ _ _ ?_)
    refine modTable_kept _ _ ?_
    split
    · exact hk
    · exact readRows_kept _ _ _ hk
  · refine lookupEnd_kept _ _ _ _ ?_
    split
    · exact hk
    · exact readRows_kept _ _ _ hk

theorem performLookupExact_kept (j : Job) (r : Req) {s₀ s : State} (hk : Kept s₀ s) :
    Kept s₀ (performLookupExact j r s) := by
  unfold performLookupExact
  dsimp only
  split
  · exact lookupSecond_kept _ _ _ _ _ hk
  · split
    · exact kept_layers (setRequests_layers _ _ _) (readRows_kept _ _ _ (modTable_kept _ _ hk))
    · exact lookupEnd_kept _ _ _ _ (readRows_kept _ _ _ (modTable_kept _ _ hk))

theorem execLookupExact_kept (p : Fin 4) (r : Req) {s₀ s : State} (hk : Kept s₀ s) : Runs s₀ (execLookupExact p r s) :=
  runs_next (receive_kept _ _ _ (fun _ _ _ hk => performLookupExact_kept _ _ hk) hk)

theorem performLookupPrefix_kept (j : Job) (r : Req) {s₀ s : State} (hk : Kept s₀ s) :
    Kept s₀ (performLookupPrefix j r s) := by
  unfold performLookupPrefix
  dsimp only
  split
  · exact kept_events (complete_events _ _ _ _ _) (readRows_kept _ _ _ (modTable_kept _ _ hk))
  · split
    · refine kept_events (complete_events _ _ _ _ _) ?_
      split
      · exact kept_events (raiseLimited_events _ _ _ _ _) (modTable_kept _ _ (readRows_kept _ _ _
          (modTable_kept _ _ hk)))
      · exact readRows_kept _ _ _ (modTable_kept _ _ hk)
    · refine kept_events (complete_events _ _ _ _ _) ?_
      split
      · exact kept_events (raiseLimited_events _ _ _ _ _) (modTable_kept _ _ (readRows_kept _ _ _
          (modTable_kept _ _ hk)))
      · exact readRows_kept _ _ _ (modTable_kept _ _ hk)
  · exact kept_events (completeAs_events _ _ _ _ _ _ _) (modTable_kept _ _ (readRows_kept _ _ _ (modTable_kept _ _ hk)))
  · exact kept_events (completeAs_events _ _ _ _ _ _ _) (modTable_kept _ _ (readRows_kept _ _ _ (modTable_kept _ _ hk)))
  · exact kept_events (completeAs_events _ _ _ _ _ _ _) (modTable_kept _ _ (reportDirectory_kept _ _
      (readRows_kept _ _ _ (modTable_kept _ _ hk))))

theorem execLookupPrefix_kept (p : Fin 4) (r : Req) {s₀ s : State} (hk : Kept s₀ s) :
    Runs s₀ (execLookupPrefix p r s) :=
  runs_next (receive_kept _ _ _ (fun _ _ _ hk => performLookupPrefix_kept _ _ hk) hk)

theorem commitCount_kept (td : Fin 16) (target : Target) {s₀ s : State} (hk : Kept s₀ s) :
    Kept s₀ (commitCount td target s) :=
  modTable_kept _ _ hk

theorem commitRow_kept (td : Fin 16) (block : Nat) (f : Nat → Option Line → Option Line) {s₀ s : State}
    (hk : Kept s₀ s) : Kept s₀ (commitRow td block f s) :=
  commitCount_kept _ _ (blockWrite_kept _ _ _ hk)

theorem stashWatch_kept (td : Fin 16) {s₀ s : State} (hk : Kept s₀ s) : Kept s₀ (stashWatch td s) :=
  kept_ite (kept_events (raise_events _ _ _ _ _) (modTable_kept _ _ hk)) (kept_ite (modTable_kept _ _ hk) hk)

theorem commitStash_kept (td : Fin 16) (set : Nat) (es : List Line) {s₀ s : State} (hk : Kept s₀ s) :
    Kept s₀ (commitStash td set es s) :=
  stashWatch_kept _ (commitCount_kept _ _ (modTable_kept _ _ hk))

theorem commitWrite_kept (td : Fin 16) (w : TableWrite) {s₀ s : State} (hk : Kept s₀ s) :
    Kept s₀ (commitWrite td w s) := by
  unfold commitWrite
  dsimp only
  split
  · exact commitRow_kept _ _ _ hk
  · exact commitStash_kept _ _ _ hk

theorem commitMoves_kept (td : Fin 16) (ws : List TableWrite) {s₀ s : State} (hk : Kept s₀ s) :
    Kept s₀ (commitMoves td ws s) :=
  kept_foldl (fun _ _ hk => commitWrite_kept _ _ hk) hk

theorem replaceEntry_kept (td : Fin 16) (key : Nat) (place : Option (Nat × Nat)) (e : Option Line) {s₀ s : State}
    (hk : Kept s₀ s) : Kept s₀ (replaceEntry td key place e s) := by
  unfold replaceEntry
  dsimp only
  split
  · exact commitRow_kept _ _ _ hk
  · exact commitStash_kept _ _ _ hk

theorem stashMove_kept (td : Fin 16) (block : Nat) (slot : Nat) {s₀ s : State} (hk : Kept s₀ s) :
    Kept s₀ (stashMove td block slot s) := by
  unfold stashMove
  dsimp only
  split
  · exact hk
  · exact commitStash_kept _ _ _ (commitWrite_kept _ _ hk)

theorem setEntryCount_kept (td : Fin 16) (n : Nat) {s₀ s : State} (hk : Kept s₀ s) : Kept s₀ (setEntryCount td n s) :=
  modTable_kept _ _ hk

theorem tableFull_kept (j : Job) (td : Fin 16) {s₀ s : State} (hk : Kept s₀ s) : Kept s₀ (tableFull j td s) :=
  kept_events (completeWith_events _ _ _) (kept_events (raiseLimited_events _ _ _ _ _) (modTable_kept _ _ hk))

theorem updateLost_kept (j : Job) (pd : Fin 64) (block : Nat) {s₀ s : State} (hk : Kept s₀ s) :
    Kept s₀ (updateLost j pd block s) :=
  kept_events (completeAs_events _ _ _ _ _ _ _) hk

theorem exactInsert_kept (j : Job) (td : Fin 16) (img : Line) (noOverwrite : Bool) {s₀ s : State} (hk : Kept s₀ s) :
    Kept s₀ (exactInsert j td img noOverwrite s) := by
  unfold exactInsert
  dsimp only
  split
  · exact kept_ite (kept_events (complete_events _ _ _ _ _) hk) (kept_events (complete_events _ _ _ _ _)
      (replaceEntry_kept _ _ _ _ hk))
  · split
    · exact tableFull_kept _ _ hk
    · split
      · exact updateLost_kept _ _ _ hk
      · split
        · exact tableFull_kept _ _ (readRows_kept _ _ _ hk)
        · exact kept_events (complete_events _ _ _ _ _) (setEntryCount_kept _ _ (commitMoves_kept _ _
            (readRows_kept _ _ _ hk)))

theorem exactChange_kept (j : Job) (td : Fin 16) (img : Line) (delete : Bool) (genCheck : Option Nat) {s₀ s : State}
    (hk : Kept s₀ s) : Kept s₀ (exactChange j td img delete genCheck s) := by
  unfold exactChange
  dsimp only
  split
  · exact kept_events (completeWith_events _ _ _) hk
  · refine kept_ite ?_ ?_
    · exact kept_events (complete_events _ _ _ _ _) hk
    · refine kept_ite ?_ ?_
      · refine kept_events (complete_events _ _ _ _ _) ?_
        split
        · exact stashMove_kept _ _ _ (setEntryCount_kept _ _ (replaceEntry_kept _ _ _ _ hk))
        · exact setEntryCount_kept _ _ (replaceEntry_kept _ _ _ _ hk)
      · exact kept_events (complete_events _ _ _ _ _) (replaceEntry_kept _ _ _ _ hk)

theorem prefixNode_kept (j : Job) (td : Fin 16) (r : Req) {s₀ s : State} (hk : Kept s₀ s) :
    Kept s₀ (prefixNode j td r s) := by
  unfold prefixNode
  dsimp only
  split
  · exact kept_events (completeWith_events _ _ _) hk
  · split
    · exact kept_ite (tableFull_kept _ _ hk) (kept_events (completeWith_events _ _ _) hk)
    · exact kept_ite (tableFull_kept _ _ hk) (kept_events (complete_events _ _ _ _ _) (setEntryCount_kept _ _
        (commitRow_kept _ _ _ hk)))

theorem prefixDirectory_kept (j : Job) (td : Fin 16) (r : Req) {s₀ s : State} (hk : Kept s₀ s) :
    Kept s₀ (prefixDirectory j td r s) := by
  unfold prefixDirectory
  dsimp only
  split
  · exact kept_events (completeWith_events _ _ _) (reportDirectory_kept _ _ hk)
  · split
    · exact kept_ite (tableFull_kept _ _ hk) (kept_events (completeWith_events _ _ _) hk)
    · exact kept_ite (tableFull_kept _ _ hk) (kept_events (complete_events _ _ _ _ _) (commitCount_kept _ _
        (setDirectory_kept _ _ (setEntryCount_kept _ _ hk))))

theorem performTableUpdate_kept (j : Job) (r : Req) {s₀ s : State} (hk : Kept s₀ s) :
    Kept s₀ (performTableUpdate j r s) := by
  unfold performTableUpdate
  dsimp only
  split
  · exact kept_events (completeAs_events _ _ _ _ _ _ _) hk
  · split
    · exact updateLost_kept _ _ _ hk
    · split
      · exact kept_ite (prefixDirectory_kept _ _ _ (readRows_kept _ _ _ hk)) (prefixNode_kept _ _ _
          (readRows_kept _ _ _ hk))
      · exact kept_ite (exactInsert_kept _ _ _ _ (readRows_kept _ _ _ hk)) (exactChange_kept _ _ _ _ _
          (readRows_kept _ _ _ hk))

theorem execTableUpdate_kept (p : Fin 4) (r : Req) {s₀ s : State} (hk : Kept s₀ s) : Runs s₀ (execTableUpdate p r s) :=
  runs_next (receive_kept _ _ _ (fun _ _ _ hk => performTableUpdate_kept _ _ hk) hk)

/-! ### Requests and steps of the Bobbin slices -/

theorem bufferWatch_kept (pd : Fin 64) {s₀ s : State} (hk : Kept s₀ s) : Kept s₀ (bufferWatch pd s) :=
  kept_ite (kept_events (raise_events _ _ _ _ _) (modBuffer_kept _ _ hk)) (kept_ite (modBuffer_kept _ _ hk) hk)

theorem readCell_kept (who : Requester) (pd : Fin 64) (cell : Nat) {s₀ s : State} (hk : Kept s₀ s) :
    Kept s₀ (readCell who pd cell s).2 := by
  unfold readCell
  refine kept_foldl_snd ?_ hk
  intro _ _ hk
  split
  · rename_i l s e2
    exact kept_of_eq e2 (kept_lines (partitionRead_lines _ _ _ _) hk)
  · rename_i st isolated s e2
    exact kept_of_eq e2 (kept_lines (partitionRead_lines _ _ _ _) hk)

theorem writeCell_kept (pd : Fin 64) (cell : Nat) (bytes : List Byte) {s₀ s : State} (hk : Kept s₀ s) :
    Kept s₀ (writeCell pd cell bytes s).2 := by
  unfold writeCell
  refine kept_foldl_snd (fun _ _ hk => ?_) hk
  exact kept_lines (partitionWrite_lines _ _ _ _ _) hk

theorem popPointer_kept (slice : Fin 4) (pd : Fin 64) {s₀ s : State} (hk : Kept s₀ s) :
    Kept s₀ (popPointer slice pd s) := by
  unfold popPointer
  dsimp only
  split
  · exact hk
  · split
    · rename_i bs s e
      exact setFreeCache_kept _ _ _ (modBuffer_kept _ _ (kept_of_eq e (readCell_kept _ _ _ hk)))
    · rename_i s e
      exact kept_events (raise_events _ _ _ _ _) (modBuffer_kept _ _ (kept_of_eq e (readCell_kept _ _ _ hk)))

theorem refillCache_kept (slice : Fin 4) (pd : Fin 64) {s₀ s : State} (hk : Kept s₀ s) :
    Kept s₀ (refillCache slice pd s) :=
  kept_ite hk (kept_ite (popPointer_kept _ _ hk) (kept_ite hk (setFreeCache_kept _ _ _ (modBuffer_kept _ _ hk))))

theorem takeCell_kept (slice : Fin 4) (pd : Fin 64) {s₀ s : State} (hk : Kept s₀ s) :
    Kept s₀ (takeCell slice pd s).2 := by
  have hu : Kept s₀ (refillCache slice pd (refillCache slice pd s)) := refillCache_kept _ _ (refillCache_kept _ _ hk)
  unfold takeCell
  dsimp only
  generalize refillCache slice pd (refillCache slice pd s) = u at hu ⊢
  split
  · exact hu
  · dsimp only
    exact bufferWatch_kept _ (modBuffer_kept _ _ (setFreeCache_kept _ _ _ hu))

theorem takeCells_kept (slice : Fin 4) (pd : Fin 64) (n : Nat) {s₀ s : State} (hk : Kept s₀ s) :
    Kept s₀ (takeCells slice pd n s).2 := by
  induction n generalizing s with
  | zero => exact hk
  | succ n ih =>
    unfold takeCells
    split <;> rename_i e
    · exact kept_of_eq e (takeCell_kept _ _ hk)
    · exact ih (kept_of_eq e (takeCell_kept _ _ hk))

theorem spillCache_kept (slice : Fin 4) (pd : Fin 64) {s₀ s : State} (hk : Kept s₀ s) :
    Kept s₀ (spillCache slice pd s) := by
  unfold spillCache
  dsimp only
  split
  · exact hk
  · split
    · exact hk
    · split
      · rename_i s e
        exact modBuffer_kept _ _ (setFreeCache_kept _ _ _ (kept_of_eq e (writeCell_kept _ _ _ hk)))
      · rename_i s e
        exact kept_of_eq e (writeCell_kept _ _ _ hk)

theorem giveCell_kept (slice : Fin 4) (pd : Fin 64) (cell : Nat) {s₀ s : State} (hk : Kept s₀ s) :
    Kept s₀ (giveCell slice pd s cell) :=
  bufferWatch_kept _ (spillCache_kept _ _ (setFreeCache_kept _ _ _ (modBuffer_kept _ _ hk)))

theorem giveCells_kept (slice : Fin 4) (pd : Fin 64) (cells : List Nat) {s₀ s : State} (hk : Kept s₀ s) :
    Kept s₀ (giveCells slice pd cells s) :=
  kept_foldl (fun _ _ hk => giveCell_kept _ _ _ hk) hk

theorem writeArrived_kept (q : Nat) (a : Admission) (n w : Nat) {s₀ s : State} (hk : Kept s₀ s) :
    Kept s₀ (writeArrived q a n w s).2.2 := by
  induction n generalizing w s with
  | zero => exact hk
  | succ n ih =>
    unfold writeArrived
    split
    · exact hk
    · refine kept_ite_triple hk ?_
      split <;> rename_i e
      · exact ih _ (kept_of_eq e (kept_lines (partitionWrite_lines _ _ _ _ _) hk))
      · exact kept_of_eq e (kept_lines (partitionWrite_lines _ _ _ _ _) hk)

theorem skimVoids_kept (q n : Nat) {s₀ s : State} (hk : Kept s₀ s) : Kept s₀ (skimVoids q n s) := by
  induction n generalizing s with
  | zero => exact hk
  | succ n ih =>
    unfold skimVoids
    refine kept_ite ?_ hk
    split <;> rename_i e
    · have h := kept_of_eq e (kept_lines (partitionRead_lines _ _ _ _) hk)
      exact kept_ite (ih (giveCell_kept _ _ _ (modQueue_kept _ _ h))) h
    · exact kept_of_eq e (kept_lines (partitionRead_lines _ _ _ _) hk)

theorem skim_kept (q : Nat) {s₀ s : State} (hk : Kept s₀ s) : Kept s₀ (skim q s) :=
  skimVoids_kept _ _ hk

theorem voidPacket_kept (q : Nat) (ad : Admission) {s₀ s : State} (hk : Kept s₀ s) : Kept s₀ (voidPacket q ad s) :=
  kept_ite (modQueue_kept _ _ hk) (skim_kept _ (giveCells_kept _ _ _ (modBuffer_kept _ _ (modQueue_kept _ _ (kept_lines
    (partitionWrite_lines _ _ _ _ _) hk)))))

theorem settleVoids_kept (q : Nat) {s₀ s : State} (hk : Kept s₀ s) : Kept s₀ (settleVoids q s) :=
  kept_foldl (fun _ _ hk => voidPacket_kept _ _ hk) hk

theorem endAdmission_kept (q : Nat) (ad : Admission) (st : QStatus) (isolated : Bool) (voided : Bool) {s₀ s : State}
    (hk : Kept s₀ s) : Kept s₀ (endAdmission q ad st isolated voided s) :=
  kept_ite (modQueue_kept _ _ hk) (kept_events (completeAs_events _ _ _ _ _ _ _) (modQueue_kept _ _ hk))

theorem writeAdmission_kept (q : Nat) (ad : Admission) {s₀ s : State} (hk : Kept s₀ s) :
    Kept s₀ (writeAdmission q ad s) := by
  unfold writeAdmission
  dsimp only
  split
  · exact voidPacket_kept _ _ hk
  · split
    · exact modQueue_kept _ _ (writeArrived_kept _ _ _ _ hk)
    · exact voidPacket_kept _ _ (endAdmission_kept _ _ _ _ _ (modQueue_kept _ _ (writeArrived_kept _ _ _ _ hk)))

theorem performEnqueue_kept (j : Job) (r : Req) {s₀ s : State} (hk : Kept s₀ s) : Kept s₀ (performEnqueue j r s) := by
  unfold performEnqueue
  dsimp only
  split
  · exact kept_events (completeAs_events _ _ _ _ _ _ _) hk
  · split
    · exact kept_events (completeWith_events _ _ _) hk
    · split
      · exact kept_events (completeWith_events _ _ _) (modBuffer_kept _ _ hk)
      · split
        · exact kept_events (completeWith_events _ _ _) (modBuffer_kept _ _ (giveCells_kept _ _ _
            (takeCells_kept _ _ _ hk)))
        · exact writeAdmission_kept _ _ (modQueue_kept _ _ (kept_layers (modQuarter_layers _ _ _)
            (takeCells_kept _ _ _ hk)))

theorem arrivePayload_kept (p : Fin 4) (fills : Option (BitVec 14)) (bytes : List Byte) {s₀ s : State}
    (hk : Kept s₀ s) : Kept s₀ (arrivePayload p fills bytes s) := by
  unfold arrivePayload
  dsimp only
  split
  · exact kept_events (modLink_events _ _ _) hk
  · split
    · exact kept_events (modPort_events _ _ _) hk
    · split
      · exact Kept.update (kept_events (modLink_events _ _ _) hk)
      · split
        · exact Kept.update (kept_events (modLink_events _ _ _) hk)
        · exact writeAdmission_kept _ _ (modQueue_kept _ _ (Kept.update (kept_events (modLink_events _ _ _) hk)))

theorem execEnqueue_kept (p : Fin 4) (r : Req) {s₀ s : State} (hk : Kept s₀ s) : Runs s₀ (execEnqueue p r s) :=
  runs_next (receive_kept _ _ _ (fun _ _ _ hk => performEnqueue_kept _ _ hk) hk)

theorem linkPacket_kept (q : Nat) {s₀ s : State} (hk : Kept s₀ s) : Kept s₀ (linkPacket q s) := by
  unfold linkPacket
  dsimp only
  split
  · exact hk
  · split
    · split
      · refine skim_kept _ ?_
        split
        · refine modBuffer_kept _ _ (modQueue_kept _ _ ?_)
          split
          · exact writeAdmission_kept _ _ (settleVoids_kept _ hk)
          · exact settleVoids_kept _ hk
        · refine kept_events (complete_events _ _ _ _ _) (modBuffer_kept _ _ ?_)
          refine modQueue_kept _ _ ?_
          split
          · exact writeAdmission_kept _ _ (settleVoids_kept _ hk)
          · exact settleVoids_kept _ hk
      · split
        · exact writeAdmission_kept _ _ (settleVoids_kept _ hk)
        · exact settleVoids_kept _ hk
    · split
      · exact writeAdmission_kept _ _ (settleVoids_kept _ hk)
      · exact settleVoids_kept _ hk

theorem execPacketLink_kept (q : BitVec 18) {s₀ s : State} (hk : Kept s₀ s) : Runs s₀ (execPacketLink q s) :=
  runs_next (linkPacket_kept _ hk)

theorem performDequeue_kept (j : Job) (r : Req) {s₀ s : State} (hk : Kept s₀ s) : Kept s₀ (performDequeue j r s) := by
  unfold performDequeue
  dsimp only
  split
  · exact kept_events (completeAs_events _ _ _ _ _ _ _) hk
  · exact kept_ite (kept_events (completeWith_events _ _ _) hk) (kept_layers (watchGates_layers _)
      (modQueue_kept _ _ hk))

theorem execDequeue_kept (p : Fin 4) (r : Req) {s₀ s : State} (hk : Kept s₀ s) : Runs s₀ (execDequeue p r s) :=
  runs_next (receive_kept _ _ _ (fun _ _ _ hk => performDequeue_kept _ _ hk) hk)

theorem endStream_kept (q : Nat) (t : Stream) (st : QStatus) (isolated : Bool) {s₀ s : State} (hk : Kept s₀ s) :
    Kept s₀ (endStream q t st isolated s) :=
  kept_events (completeAs_events _ _ _ _ _ _ _) (kept_layers (watchGates_layers _) (modQueue_kept _ _ hk))

theorem startStream_kept (q : Nat) {s₀ s : State} (hk : Kept s₀ s) : Kept s₀ (startStream q s) := by
  unfold startStream
  dsimp only
  split
  · exact hk
  · split
    · split
      · exact skim_kept _ (settleVoids_kept _ hk)
      · split
        · exact endStream_kept _ _ _ _ (skim_kept _ (settleVoids_kept _ hk))
        · split
          · exact endStream_kept _ _ _ _ (skim_kept _ (settleVoids_kept _ hk))
          · split
            · exact endStream_kept _ _ _ _ (skim_kept _ (settleVoids_kept _ hk))
            · exact kept_layers (watchGates_layers _) (modQueue_kept _ _ (skim_kept _ (settleVoids_kept _ hk)))
    · exact skim_kept _ (settleVoids_kept _ hk)

theorem execStreamStart_kept (q : BitVec 18) {s₀ s : State} (hk : Kept s₀ s) : Runs s₀ (execStreamStart q s) :=
  runs_next (startStream_kept _ hk)

theorem followCells_kept (who : Requester) (pd : Fin 64) (len time n k cell : Nat) (cells : List Nat)
    (bytes : List Byte) (bad : Bool) {s₀ s : State} (hk : Kept s₀ s) :
    Kept s₀ (followCells who pd len time n k cell cells bytes bad s).2 := by
  induction n generalizing k cell cells bytes bad s with
  | zero => exact hk
  | succ n ih =>
    unfold followCells
    split <;> rename_i e
    · exact kept_of_eq e (kept_lines (partitionRead_lines _ _ _ _) hk)
    · refine ih _ _ _ _ _ (kept_foldl_triple (fun b _ hb => ?_)
        (kept_of_eq e (kept_lines (partitionRead_lines _ _ _ _) hk)))
      split <;> rename_i e <;> exact kept_of_eq e (kept_lines (partitionRead_lines _ _ _ _) hb)

theorem readPacket_kept (who : Requester) (q : Nat) {s₀ s : State} (hk : Kept s₀ s) :
    Kept s₀ (readPacket who q s).2 := by
  unfold readPacket
  dsimp only
  split
  · rename_i st isolated s e1
    exact kept_of_eq e1 (kept_lines (partitionRead_lines _ _ _ _) hk)
  · rename_i l s e1
    exact followCells_kept _ _ _ _ _ _ _ _ _ _ (kept_of_eq e1 (kept_lines (partitionRead_lines _ _ _ _) hk))

theorem headLength_kept (q : Nat) {s₀ s : State} (hk : Kept s₀ s) : Kept s₀ (headLength q s).2 := by
  unfold headLength
  split
  · rename_i l s e1
    exact kept_of_eq e1 (kept_lines (partitionRead_lines _ _ _ _) hk)
  · rename_i st isolated s e1
    exact kept_of_eq e1 (kept_lines (partitionRead_lines _ _ _ _) hk)

theorem passPacket_kept (q : Nat) (cells : List Nat) (next : Nat) {s₀ s : State} (hk : Kept s₀ s) :
    Kept s₀ (passPacket q cells next s) :=
  skim_kept _ (giveCells_kept _ _ _ (modQueue_kept _ _ hk))

theorem debitPacket_kept (j : Job) (len : Nat) {s₀ s : State} (hk : Kept s₀ s) : Kept s₀ (debitPacket j len s) := by
  unfold debitPacket
  exact kept_events (modClass_events _ _ _ _) hk

theorem streamAfter_kept (q : Nat) (t : Stream) (len : Nat) {s₀ s : State} (hk : Kept s₀ s) :
    Kept s₀ (streamAfter q t len s).2.2 :=
  kept_ite_triple hk (kept_ite_triple hk (headLength_kept _ hk))

theorem breakQueue_kept (q : Nat) (cell : Nat) {s₀ s : State} (hk : Kept s₀ s) : Kept s₀ (breakQueue q cell s) :=
  kept_events (raise_events _ _ _ _ _) (modQueue_kept _ _ hk)

theorem handPacket_kept (q : Nat) (t : Stream) (cells : List Nat) (next : Nat) (len : Nat) (time : Nat)
    (bytes : List Byte) {s₀ s : State} (hk : Kept s₀ s) : Kept s₀ (handPacket q t cells next len time bytes s) := by
  unfold handPacket
  dsimp only
  split
  · exact kept_events (complete_events _ _ _ _ _) (modQueue_kept _ _ (streamAfter_kept _ _ _ (kept_layers
      (modQuarter_layers _ _ _) (modBuffer_kept _ _ (debitPacket_kept _ _ (passPacket_kept _ _ _ hk))))))
  · exact kept_events (handOver_events _ _ _) (modQueue_kept _ _ (streamAfter_kept _ _ _ (kept_layers
      (modQuarter_layers _ _ _) (modBuffer_kept _ _ (debitPacket_kept _ _ (passPacket_kept _ _ _ hk))))))

theorem handoverStep_kept (q : Nat) {s₀ s : State} (hk : Kept s₀ s) : Kept s₀ (handoverStep q s) := by
  unfold handoverStep
  dsimp only
  split
  · exact hk
  · split
    · exact hk
    · split
      · exact endStream_kept _ _ _ _ hk
      · split
        · exact hk
        · split
          · exact endStream_kept _ _ _ _ hk
          · split
            · exact endStream_kept _ _ _ _ hk
            · split
              · exact hk
              · split
                · rename_i cell s e
                  exact endStream_kept _ _ _ _ (breakQueue_kept _ _ (kept_of_eq e (readPacket_kept _ _ hk)))
                · rename_i cells next s e
                  exact endStream_kept _ _ _ _ (kept_events (raiseLimited_events _ _ _ _ _) (passPacket_kept _ _ _
                    (kept_of_eq e (readPacket_kept _ _ hk))))
                · rename_i cells next len time bytes s' e
                  exact kept_ite hk (handPacket_kept _ _ _ _ _ _ _ (kept_of_eq e (readPacket_kept _ _ hk)))

theorem execDequeueHandover_kept (q : BitVec 18) {s₀ s : State} (hk : Kept s₀ s) : Runs s₀ (execDequeueHandover q s) :=
  runs_next (handoverStep_kept _ hk)

theorem performQueueQuery_kept (j : Job) (r : Req) {s₀ s : State} (hk : Kept s₀ s) :
    Kept s₀ (performQueueQuery j r s) :=
  kept_ite (kept_events (completeAs_events _ _ _ _ _ _ _) hk) (kept_events (complete_events _ _ _ _ _) hk)

theorem execQueueQuery_kept (p : Fin 4) (r : Req) {s₀ s : State} (hk : Kept s₀ s) : Runs s₀ (execQueueQuery p r s) :=
  runs_next (receive_kept _ _ _ (fun _ _ _ hk => performQueueQuery_kept _ _ hk) hk)

/-! ### Counters and policers -/

theorem counterAtChannel_kept (who : Requester) (pd : Fin 64) (index : Nat) (f : LineChange) {s₀ s : State}
    (hk : Kept s₀ s) : Kept s₀ (counterAtChannel who pd index f s).2 := by
  unfold counterAtChannel
  dsimp only
  split
  · rename_i st iso s e1
    exact kept_of_eq e1 (kept_lines (partitionRead_lines _ _ _ _) hk)
  · rename_i l s e1
    split
    · exact kept_of_eq e1 (kept_lines (partitionRead_lines _ _ _ _) hk)
    · split
      · rename_i s e2
        exact kept_of_eq e2 (kept_lines (partitionWrite_lines _ _ _ _ _) (kept_of_eq e1 (kept_lines
          (partitionRead_lines _ _ _ _) hk)))
      · rename_i e s e2
        exact kept_of_eq e2 (kept_lines (partitionWrite_lines _ _ _ _ _) (kept_of_eq e1 (kept_lines
          (partitionRead_lines _ _ _ _) hk)))

theorem counterAtKennel_kept (k : KennelLine) (f : LineChange) {s₀ s : State} (hk : Kept s₀ s) :
    Kept s₀ (counterAtKennel k f s).2 :=
  kept_ite (kept_lines (kennelTouch_lines _ _) hk) (kept_lines (kennelUpdate_lines _ _ _ _) hk)

theorem counterOp_kept (j : Job) (pd : Fin 64) (index : Nat) (f : LineChange) {s₀ s : State} (hk : Kept s₀ s) :
    Kept s₀ (counterOp j pd index f s).2 := by
  unfold counterOp
  dsimp only
  refine kept_ite_snd hk ?_
  split
  · exact counterAtKennel_kept _ _ (modCounter_kept _ _ hk)
  · refine kept_ite_snd ?_ ?_
    · exact counterAtChannel_kept _ _ _ _ hk
    · split
      · rename_i st iso s e1
        exact kept_of_eq e1 (kept_lines (partitionRead_lines _ _ _ _) hk)
      · rename_i l s e1
        split
        · exact counterAtKennel_kept _ _ (kennelInstallFor_kept _ _ _ _ _ _ (kept_of_eq e1 (kept_lines
            (partitionRead_lines _ _ _ _) hk)))
        · exact counterAtChannel_kept _ _ _ _ (kennelInstallFor_kept _ _ _ _ _ _ (kept_of_eq e1 (kept_lines
            (partitionRead_lines _ _ _ _) hk)))

theorem counterEnd_kept (j : Job) (x : CounterResult × State) {after : State → State} {s₀ : State}
    (ha : ∀ u, Kept s₀ u → Kept s₀ (after u)) (hk : Kept s₀ x.2) : Kept s₀ (counterEnd j x after) := by
  unfold counterEnd
  split
  · exact kept_events (complete_events _ _ _ _ _) (ha _ hk)
  · exact kept_events (completeAs_events _ _ _ _ _ _ _) hk

theorem noteSlots_kept (pd : Fin 64) (index : Nat) (n : Nat) {s₀ s : State} (hk : Kept s₀ s) :
    Kept s₀ (noteSlots pd index n s) := by
  unfold noteSlots
  split
  · exact hk
  · exact kept_layers (modQuarter_layers _ _ _) hk

theorem performCtrUpdate_kept (j : Job) (r : Req) {s₀ s : State} (hk : Kept s₀ s) :
    Kept s₀ (performCtrUpdate j r s) := by
  unfold performCtrUpdate
  dsimp only
  split
  · rename_i st iso s e
    exact kept_events (completeAs_events _ _ _ _ _ _ _) (kept_of_eq e (counterOp_kept _ _ _ _
      (noteSlots_kept _ _ _ hk)))
  · rename_i hit data s e
    refine kept_events (completeWith_events _ _ _) ?_
    split
    · exact modCounter_kept _ _ (kept_of_eq e (counterOp_kept _ _ _ _ (noteSlots_kept _ _ _ hk)))
    · exact kept_events (raiseLimited_events _ _ _ _ _) (modCounter_kept _ _ (modCounter_kept _ _ (kept_of_eq e
        (counterOp_kept _ _ _ _ (noteSlots_kept _ _ _ hk)))))

theorem execCtrUpdate_kept (p : Fin 4) (r : Req) {s₀ s : State} (hk : Kept s₀ s) : Runs s₀ (execCtrUpdate p r s) :=
  runs_next (receive_kept _ _ _ (fun _ _ _ hk => performCtrUpdate_kept _ _ hk) hk)

theorem performCtrRead_kept (j : Job) (q : Req) {s₀ s : State} (hk : Kept s₀ s) : Kept s₀ (performCtrRead j q s) :=
  counterEnd_kept _ _ (fun _ hk => hk) (counterOp_kept _ _ _ _ (noteSlots_kept _ _ _ hk))

theorem execCtrRead_kept (p : Fin 4) (r : Req) {s₀ s : State} (hk : Kept s₀ s) : Runs s₀ (execCtrRead p r s) :=
  runs_next (receive_kept _ _ _ (fun _ _ _ hk => performCtrRead_kept _ _ hk) hk)

theorem performPolUpdate_kept (j : Job) (r : Req) {s₀ s : State} (hk : Kept s₀ s) :
    Kept s₀ (performPolUpdate j r s) := by
  unfold performPolUpdate
  dsimp only
  split
  · rename_i st iso s e
    exact kept_events (completeAs_events _ _ _ _ _ _ _) (kept_of_eq e (counterOp_kept _ _ _ _
      (noteSlots_kept _ _ _ hk)))
  · rename_i res data s e
    refine kept_events (complete_events _ _ _ _ _) ?_
    split
    · exact kept_events (raiseLimited_events _ _ _ _ _) (modCounter_kept _ _ (kept_of_eq e (counterOp_kept _ _ _ _
        (noteSlots_kept _ _ _ hk))))
    · exact modCounter_kept _ _ (kept_of_eq e (counterOp_kept _ _ _ _ (noteSlots_kept _ _ _ hk)))

theorem execPolUpdate_kept (p : Fin 4) (r : Req) {s₀ s : State} (hk : Kept s₀ s) : Runs s₀ (execPolUpdate p r s) :=
  runs_next (receive_kept _ _ _ (fun _ _ _ hk => performPolUpdate_kept _ _ hk) hk)

theorem sweepLine_kept (f : LineChange) (pd : Fin 64) (index : Nat) {s₀ s : State} (hk : Kept s₀ s) :
    Kept s₀ (sweepLine f pd s index) := by
  unfold sweepLine
  dsimp only
  refine kept_ite hk ?_
  split
  · exact counterAtKennel_kept _ _ hk
  · exact counterAtChannel_kept _ _ _ _ hk

theorem sweepPolicers_kept (pd : Fin 64) {s₀ s : State} (hk : Kept s₀ s) : Kept s₀ (sweepPolicers pd s) :=
  kept_foldl (fun _ _ hk => sweepLine_kept _ _ _ hk) hk

theorem fillPolicers_kept (pd : Fin 64) (q : Fin 4) {s₀ s : State} (hk : Kept s₀ s) : Kept s₀ (fillPolicers pd q s) :=
  kept_foldl (fun _ _ hk => sweepLine_kept _ _ _ hk) hk

theorem execPolicerSweep_kept (pd : Fin 64) (late : Bool) {s₀ s : State} (hk : Kept s₀ s) :
    Runs s₀ (execPolicerSweep pd late s) :=
  runs_next (kept_ite (sweepPolicers_kept _ (kept_ite (kept_events (raise_events _ _ _ _ _) hk) hk)) (kept_ite
    (kept_events (raise_events _ _ _ _ _) hk) hk))

theorem flushHeld_kept (pd : Fin 64) (index : Nat) {s₀ s : State} (hk : Kept s₀ s) :
    Kept s₀ (flushHeld pd index s) := by
  unfold flushHeld
  split
  · exact kept_ite (kept_lines (kennelWriteBack_lines _ _) (kept_layers (passTo_layers _ _) hk)) hk
  · exact hk

theorem execCounterFlush_kept (pd : Fin 64) (line : BitVec 30) {s₀ s : State} (hk : Kept s₀ s) :
    Runs s₀ (execCounterFlush pd line s) :=
  runs_next (flushHeld_kept _ _ hk)

/-! ### Collie's ledger, trims and restorations -/

theorem trimEvent_kept (pk : Fin 4 × Fin 8) (kind : Nat) (admitted : Nat) (remaining : Nat) (f : PortClass → PortClass)
    {s₀ s : State} (hk : Kept s₀ s) : Kept s₀ (trimEvent pk kind admitted remaining f s) :=
  kept_events (raise_events _ _ _ _ _) (kept_events (modClass_events _ _ _ _) hk)

theorem trimClass_kept (pk : Fin 4 × Fin 8) {s₀ s : State} (hk : Kept s₀ s) : Kept s₀ (trimClass s pk) := by
  unfold trimClass
  dsimp only
  exact kept_ite (kept_ite (trimEvent_kept _ _ _ _ _ (kept_ite (trimEvent_kept _ _ _ _ _ hk) hk)) (kept_ite
    (trimEvent_kept _ _ _ _ _ hk) hk)) (kept_ite (trimEvent_kept _ _ _ _ _ hk) hk)

theorem trimShare_kept (pk : Fin 4 × Fin 8) {s₀ s : State} (hk : Kept s₀ s) : Kept s₀ (trimShare s pk) :=
  kept_ite hk (trimEvent_kept _ _ _ _ _ hk)

theorem noteClass_kept (dropped : Bool) (pk : Fin 4 × Fin 8) {s₀ s : State} (hk : Kept s₀ s) :
    Kept s₀ (noteClass dropped s pk) := by
  unfold noteClass
  exact kept_events (modClass_events _ _ _ _) hk

theorem noteRooms_kept (dropped : Bool) {s₀ s : State} (hk : Kept s₀ s) : Kept s₀ (noteRooms dropped s) :=
  kept_foldl (fun _ _ hk => noteClass_kept _ _ hk) hk

theorem restoreEvent_kept (pk : Fin 4 × Fin 8) (kind : Nat) (whole : Bool) (f : PortClass → PortClass) {s₀ s : State}
    (hk : Kept s₀ s) : Kept s₀ (restoreEvent pk kind whole f s) :=
  kept_ite (kept_events (raise_events _ _ _ _ _) (kept_events (modClass_events _ _ _ _) hk)) (kept_events
    (modClass_events _ _ _ _) hk)

theorem restoreClass_kept (pk : Fin 4 × Fin 8) {s₀ s : State} (hk : Kept s₀ s) : Kept s₀ (restoreClass s pk) := by
  unfold restoreClass
  dsimp only
  exact kept_ite (restoreEvent_kept _ _ _ _ (kept_ite (restoreEvent_kept _ _ _ _ (kept_ite
    (restoreEvent_kept _ _ _ _ hk) hk)) (kept_ite (restoreEvent_kept _ _ _ _ hk) hk))) (kept_ite
    (restoreEvent_kept _ _ _ _ (kept_ite (restoreEvent_kept _ _ _ _ hk) hk)) (kept_ite
    (restoreEvent_kept _ _ _ _ hk) hk))

theorem recomputeLedger_kept (before : State) {s₀ s : State} (hk : Kept s₀ s) : Kept s₀ (recomputeLedger before s) := by
  unfold recomputeLedger
  dsimp only
  refine noteRooms_kept _ (Kept.update ?_)
  exact kept_ite (kept_ite hk (kept_foldl (fun _ _ hk => trimClass_kept _ hk) hk)) (kept_foldl
    (fun _ _ hk => trimShare_kept _ hk) (kept_ite hk (kept_foldl (fun _ _ hk => trimClass_kept _ hk) hk)))

theorem restoreGuarantees_kept {s₀ s : State} (hk : Kept s₀ s) : Kept s₀ (restoreGuarantees s) := by
  unfold restoreGuarantees
  split
  · exact hk
  · exact noteRooms_kept _ (kept_foldl (fun _ _ hk => restoreClass_kept _ hk) (kept_layers (passTo_layers _ _) hk))

theorem execGuaranteeRestored_kept {s₀ s : State} (hk : Kept s₀ s) : Runs s₀ (execGuaranteeRestored s) :=
  runs_next (restoreGuarantees_kept hk)

theorem requestBusy_kept (p : Fin 4) (tag : BitVec 14) {s₀ s : State} (hk : Kept s₀ s) :
    Kept s₀ (requestBusy p tag s) := by
  unfold requestBusy
  dsimp only
  split
  · exact hk
  · exact kept_layers (panicCheck_layers _ _) (kept_events (completeWith_events _ _ _) (kept_events
      (raiseLimited_events _ _ _ _ _) (kept_events (freeSlots_events _ _ _) (kept_events (modPort_events _ _ _)
      (kept_layers (passTo_layers _ _) hk)))))

theorem panicStuck_kept (p : Fin 4) {s₀ s : State} (hk : Kept s₀ s) : Kept s₀ (panicStuck p s) := by
  unfold panicStuck
  dsimp only
  split
  · exact kept_events (raise_events _ _ _ _ _) (kept_events (modLink_events _ _ _) (kept_layers (noteTriggers_layers _)
      (kept_layers (passTo_layers _ _) hk)))
  · exact hk

theorem execPartnerPanicStuck_kept (p : Fin 4) {s₀ s : State} (hk : Kept s₀ s) : Runs s₀ (execPartnerPanicStuck p s) :=
  runs_next (panicStuck_kept _ hk)

theorem windowClass_kept (pk : Fin 4 × Fin 8) {s₀ s : State} (hk : Kept s₀ s) : Kept s₀ (windowClass s pk) :=
  kept_events (missReport_events _ _ _) (kept_events (modClass_events _ _ _ _) hk)

theorem execMissWindow_kept {s₀ s : State} (hk : Kept s₀ s) : Runs s₀ (execMissWindow s) :=
  runs_next (kept_foldl (fun _ _ hk => windowClass_kept _ hk) hk)

/-! ### Attachment and detachment -/

theorem raiseOrphans_kept (p : Fin 4) (before : State) {s₀ s : State} (hk : Kept s₀ s) :
    Kept s₀ (raiseOrphans p before s) := by
  unfold raiseOrphans
  dsimp only
  split
  · exact kept_foldl (fun _ _ hk => kept_events (raise_events _ _ _ _ _) hk) hk
  · exact kept_events (raise_events _ _ _ _ _) (kept_foldl (fun _ _ hk => kept_events (raise_events _ _ _ _ _) hk) hk)

theorem settleBobbin_kept (p : Fin 4) {s₀ s : State} (hk : Kept s₀ s) : Kept s₀ (settleBobbin p s) :=
  kept_foldl (fun _ _ hk => modQueue_kept _ _ (kept_foldl (fun _ _ hk => voidPacket_kept _ _ hk) hk)) hk

theorem settleChannels_kept (p : Fin 4) {s₀ s : State} (hk : Kept s₀ s) : Kept s₀ (settleChannels p s) :=
  kept_foldl (fun _ _ hk => kept_layers (setRequests_layers _ _ _) (kept_layers (modChannel_layers _ _ _) (kept_layers
    (noteTrigger_layers _ _) hk))) hk

theorem settlePort_kept (p : Fin 4) {s₀ s : State} (hk : Kept s₀ s) : Kept s₀ (settlePort p s) := by
  unfold settlePort
  exact kept_layers (panicCheck_layers _ _) (kept_events (modPort_events _ _ _) (settleChannels_kept _
    (settleBobbin_kept _ hk)))

theorem detachPort_kept (p : Fin 4) (reason : Nat) {s₀ s : State} (hk : Kept s₀ s) : Kept s₀ (detachPort p reason s) :=
  kept_ite hk (raiseOrphans_kept _ _ (kept_events (raise_events _ _ _ _ _) (settlePort_kept _ (kept_events
    (modPort_events _ _ _) hk))))

theorem portDown_kept (p : Fin 4) (reason : Nat) {s₀ s : State} (hk : Kept s₀ s) : Kept s₀ (portDown p reason s) :=
  kept_events (modPort_events _ _ _) (detachPort_kept _ _ hk)

theorem startSession_kept (p : Fin 4) {s₀ s : State} (hk : Kept s₀ s) : Kept s₀ (startSession p s) := by
  unfold startSession
  exact kept_events (modPort_events _ _ _) (Kept.update (portDown_kept _ _ hk))

theorem attachPartner_kept (p : Fin 4) (m : BitVec 512) {s₀ s : State} (hk : Kept s₀ s) :
    Kept s₀ (attachPartner p m s).2 := by
  unfold attachPartner
  dsimp only
  split
  · exact kept_foldl (fun _ _ hk => kept_events (raise_events _ _ _ _ _) hk) (noteCommit_kept _ (Kept.update
      (kept_events (modPort_events _ _ _) hk)))
  · exact kept_events (raise_events _ _ _ _ _) (kept_foldl (fun _ _ hk => kept_events (raise_events _ _ _ _ _) hk)
      (noteCommit_kept _ (Kept.update (kept_events (modPort_events _ _ _) hk))))

theorem countMismatch_kept (p : Fin 4) {s₀ s : State} (hk : Kept s₀ s) : Kept s₀ (countMismatch p s) :=
  kept_ite (kept_events (raise_events _ _ _ _ _) (kept_events (modPort_events _ _ _) hk)) (kept_events
    (modPort_events _ _ _) hk)

theorem answerHello_kept (p : Fin 4) (m : BitVec 512) {s₀ s : State} (hk : Kept s₀ s) :
    Kept s₀ (answerHello p m s) := by
  unfold answerHello
  dsimp only
  refine kept_ite ?_ ?_
  · refine kept_events (raise_events _ _ _ _ _) (kept_events (pump_events _ _) ?_)
    refine kept_events (modLink_events _ _ _) ?_
    exact kept_ite_snd (attachPartner_kept _ _ hk) (kept_ite_snd (countMismatch_kept _ hk) (kept_ite_snd (kept_events
      (raise_events _ _ _ _ _) hk) hk))
  · refine kept_events (pump_events _ _) (kept_events (modLink_events _ _ _) ?_)
    exact kept_ite_snd (attachPartner_kept _ _ hk) (kept_ite_snd (countMismatch_kept _ hk) (kept_ite_snd (kept_events
      (raise_events _ _ _ _ _) hk) hk))

theorem receiveHello_kept (p : Fin 4) (m : BitVec 512) {s₀ s : State} (hk : Kept s₀ s) :
    Kept s₀ (receiveHello p m s) := by
  unfold receiveHello
  dsimp only
  split
  · exact hk
  · split
    · exact kept_events (raise_events _ _ _ _ _) hk
    · split
      · exact hk
      · split
        · exact hk
        · exact kept_events (modPort_events _ _ _) hk
        · exact kept_events (modPort_events _ _ _) (detachPort_kept _ _ hk)
        · exact answerHello_kept _ _ hk

theorem execHello_kept (p : Fin 4) (msg : BitVec 512) {s₀ s : State} (hk : Kept s₀ s) : Runs s₀ (execHello p msg s) :=
  runs_next (receiveHello_kept _ _ hk)

theorem helloTimeout_kept (p : Fin 4) {s₀ s : State} (hk : Kept s₀ s) : Kept s₀ (helloTimeout p s) :=
  kept_ite (kept_events (raise_events _ _ _ _ _) (kept_layers (passTo_layers _ _) hk)) hk

theorem execHelloTimeout_kept (p : Fin 4) {s₀ s : State} (hk : Kept s₀ s) : Runs s₀ (execHelloTimeout p s) :=
  runs_next (helloTimeout_kept _ hk)

theorem lockoutEnd_kept (p : Fin 4) {s₀ s : State} (hk : Kept s₀ s) : Kept s₀ (lockoutEnd p s) := by
  unfold lockoutEnd
  split
  · exact kept_events (modPort_events _ _ _) (kept_layers (passTo_layers _ _) hk)
  · exact hk

theorem execBindLockoutEnd_kept (p : Fin 4) {s₀ s : State} (hk : Kept s₀ s) : Runs s₀ (execBindLockoutEnd p s) :=
  runs_next (lockoutEnd_kept _ hk)

theorem receiveDetach_kept (p : Fin 4) {s₀ s : State} (hk : Kept s₀ s) : Kept s₀ (receiveDetach p s) :=
  kept_ite (kept_events (modPort_events _ _ _) hk) hk

theorem execDetach_kept (p : Fin 4) {s₀ s : State} (hk : Kept s₀ s) : Runs s₀ (execDetach p s) :=
  runs_next (receiveDetach_kept _ hk)

theorem detachAck_kept (p : Fin 4) {s₀ s : State} (hk : Kept s₀ s) : Kept s₀ (detachAck p s) :=
  kept_ite (detachPort_kept _ _ (kept_events (pump_events _ _) (kept_events (modLink_events _ _ _) hk))) hk

theorem execDetachAck_kept (p : Fin 4) {s₀ s : State} (hk : Kept s₀ s) : Runs s₀ (execDetachAck p s) :=
  runs_next (detachAck_kept _ hk)

theorem cleanupDone_kept (p : Fin 4) {s₀ s : State} (hk : Kept s₀ s) : Kept s₀ (cleanupDone p s) := by
  unfold cleanupDone
  dsimp only
  split
  · exact hk
  · split
    · exact kept_ite (receiveHello_kept _ _ (kept_events (modPort_events _ _ _) hk)) (kept_events
        (modPort_events _ _ _) hk)
    · exact kept_events (modPort_events _ _ _) hk

theorem execDetachCleanupDone_kept (p : Fin 4) {s₀ s : State} (hk : Kept s₀ s) : Runs s₀ (execDetachCleanupDone p s) :=
  runs_next (cleanupDone_kept _ hk)

theorem eventOverflow_kept (p : Fin 4) {s₀ s : State} (hk : Kept s₀ s) : Kept s₀ (eventOverflow p s) :=
  kept_ite (kept_events (pump_events _ _) (kept_events (raise_events _ _ _ _ _) (kept_events
    (modPort_events _ _ _) hk))) hk

theorem execEventOverflow_kept (p : Fin 4) {s₀ s : State} (hk : Kept s₀ s) : Runs s₀ (execEventOverflow p s) :=
  runs_next (eventOverflow_kept _ hk)

/-! ### Training of a port -/

theorem enterState_kept (p : Fin 4) (st : PortState) (f : Phy → Phy) {s₀ s : State} (hk : Kept s₀ s) :
    Kept s₀ (enterState p st f s) :=
  kept_events (modPort_events _ _ _) (mapLanes_kept _ _ (kept_events (modPhy_events _ _ _) hk))

theorem enterAcquire_kept (p : Fin 4) (f : Phy → Phy) {s₀ s : State} (hk : Kept s₀ s) : Kept s₀ (enterAcquire p f s) :=
  mapLanes_kept _ _ (enterState_kept _ _ _ hk)

theorem toDetect_kept (p : Fin 4) {s₀ s : State} (hk : Kept s₀ s) : Kept s₀ (toDetect p s) :=
  kept_events (modLink_events _ _ _) (enterState_kept _ _ _ hk)

theorem dropPort_kept (p : Fin 4) (reason : Nat) {s₀ s : State} (hk : Kept s₀ s) : Kept s₀ (dropPort p reason s) :=
  kept_ite hk (kept_events (modPort_events _ _ _) (toDetect_kept _ (portDown_kept _ _ hk)))

theorem startSwitch_kept (p : Fin 4) (g : Gauge) (c : Climb) {s₀ s : State} (hk : Kept s₀ s) :
    Kept s₀ (startSwitch p g c s) := by
  unfold startSwitch
  exact enterState_kept _ _ _ (kept_events (modPort_events _ _ _) hk)

theorem enterRecovery_kept (p : Fin 4) {s₀ s : State} (hk : Kept s₀ s) : Kept s₀ (enterRecovery p s) :=
  enterAcquire_kept _ _ hk

theorem restartRecovery_kept (p : Fin 4) {s₀ s : State} (hk : Kept s₀ s) : Kept s₀ (restartRecovery p s) :=
  enterAcquire_kept _ _ hk

theorem enterActive_kept (p : Fin 4) {s₀ s : State} (hk : Kept s₀ s) : Kept s₀ (enterActive p s) := by
  unfold enterActive
  dsimp only
  refine kept_events (pump_events _ _) ?_
  split
  · refine kept_events (raise_events _ _ _ _ _) ?_
    split
    · exact kept_events (modSend_events _ _ _) (kept_events (modLink_events _ _ _) (enterState_kept _ _ _ hk))
    · exact kept_events (modSend_events _ _ _) (startSession_kept _ (kept_events (modLink_events _ _ _)
        (enterState_kept _ _ _ hk)))
  · split
    · exact kept_events (modSend_events _ _ _) (kept_events (modLink_events _ _ _) (enterState_kept _ _ _ hk))
    · exact kept_events (modSend_events _ _ _) (startSession_kept _ (kept_events (modLink_events _ _ _)
        (enterState_kept _ _ _ hk)))

theorem failTraining_kept (p : Fin 4) {s₀ s : State} (hk : Kept s₀ s) : Kept s₀ (failTraining p s) :=
  toDetect_kept _ (portDown_kept _ _ hk)

theorem enterEq_kept (p : Fin 4) (retry : Bool) {s₀ s : State} (hk : Kept s₀ s) : Kept s₀ (enterEq p retry s) := by
  unfold enterEq
  exact enterState_kept _ _ _ (mapLanes_kept _ _ hk)

theorem settleGauge_kept (p : Fin 4) {s₀ s : State} (hk : Kept s₀ s) : Kept s₀ (settleGauge p s) := by
  unfold settleGauge
  exact kept_ite (enterActive_kept _ (kept_events (modPhy_events _ _ _) hk)) (startSwitch_kept _ _ _ (kept_events
    (modPhy_events _ _ _) hk))

theorem stepUp_kept (p : Fin 4) {s₀ s : State} (hk : Kept s₀ s) : Kept s₀ (stepUp p s) := by
  unfold stepUp
  dsimp only
  split
  · exact startSwitch_kept _ _ _ (kept_events (modPhy_events _ _ _) hk)
  · exact settleGauge_kept _ hk

theorem stepRecover_kept (p : Fin 4) {s₀ s : State} (hk : Kept s₀ s) : Kept s₀ (stepRecover p s) := by
  unfold stepRecover
  dsimp only
  split
  · exact enterActive_kept _ hk
  · split
    · exact startSwitch_kept _ _ _ hk
    · exact enterActive_kept _ hk

theorem storeTaps_kept (p : Fin 4) {s₀ s : State} (hk : Kept s₀ s) : Kept s₀ (storeTaps p s) :=
  drawOne_kept (mapLanes_kept _ _ hk)

theorem stepEnd_kept (p : Fin 4) {s₀ s : State} (hk : Kept s₀ s) : Kept s₀ (stepEnd p s) := by
  unfold stepEnd
  dsimp only
  split
  · split
    · exact kept_ite (stepUp_kept _ (kept_events (modPhy_events _ _ _) (storeTaps_kept _ hk))) (failTraining_kept _
        (storeTaps_kept _ hk))
    · split
      · exact enterEq_kept _ _ (storeTaps_kept _ hk)
      · exact kept_ite (stepUp_kept _ (kept_events (modPhy_events _ _ _) (storeTaps_kept _ hk))) (settleGauge_kept _
          (storeTaps_kept _ hk))
  · split
    · exact enterEq_kept _ _ (storeTaps_kept _ hk)
    · exact kept_ite (enterActive_kept _ (kept_events (modPhy_events _ _ _) (storeTaps_kept _ hk))) (failTraining_kept _
        (storeTaps_kept _ hk))
  · exact kept_ite (enterActive_kept _ (kept_events (modPhy_events _ _ _) (storeTaps_kept _ hk))) (enterRecovery_kept _
      (storeTaps_kept _ hk))
  · split
    · exact enterEq_kept _ _ (storeTaps_kept _ hk)
    · exact kept_ite (stepRecover_kept _ (kept_events (modPhy_events _ _ _) (storeTaps_kept _ hk)))
        (restartRecovery_kept _ (storeTaps_kept _ hk))

theorem stepGone_kept (p : Fin 4) {s₀ s : State} (hk : Kept s₀ s) : Kept s₀ (stepGone p s) := by
  unfold stepGone
  dsimp only
  split
  · exact kept_ite (failTraining_kept _ hk) (settleGauge_kept _ hk)
  · exact failTraining_kept _ hk
  · exact enterRecovery_kept _ hk
  · exact restartRecovery_kept _ hk

theorem eqFails_kept (p : Fin 4) {s₀ s : State} (hk : Kept s₀ s) : Kept s₀ (eqFails p s) := by
  unfold eqFails
  exact kept_ite (enterEq_kept _ _ hk) (kept_ite (stepGone_kept _ hk) (enterState_kept _ _ _ hk))

theorem checkFails_kept (p : Fin 4) {s₀ s : State} (hk : Kept s₀ s) : Kept s₀ (checkFails p s) := by
  unfold checkFails
  exact kept_ite (enterEq_kept _ _ (mapLanes_kept _ _ hk)) (stepEnd_kept _ (mapLanes_kept _ _ hk))

theorem enterQuick_kept (p : Fin 4) {s₀ s : State} (hk : Kept s₀ s) : Kept s₀ (enterQuick p s) := by
  unfold enterQuick
  exact enterState_kept _ _ _ (mapLanes_kept _ _ hk)

theorem afterAlign_kept (p : Fin 4) {s₀ s : State} (hk : Kept s₀ s) : Kept s₀ (afterAlign p s) := by
  unfold afterAlign
  dsimp only
  split
  · exact kept_ite (enterState_kept _ _ _ hk) (enterEq_kept _ _ hk)
  · exact kept_ite (stepRecover_kept _ hk) (kept_ite (enterQuick_kept _ hk) (enterEq_kept _ _ hk))
  · exact kept_ite (enterQuick_kept _ hk) (enterEq_kept _ _ hk)
  · exact kept_ite (enterQuick_kept _ hk) (enterEq_kept _ _ hk)

theorem receiverDetect_kept (p : Fin 4) (activity : BitVec 16) {s₀ s : State} (hk : Kept s₀ s) :
    Kept s₀ (receiverDetect p activity s) :=
  kept_ite (kept_ite (kept_events (modPhy_events _ _ _) (kept_layers (passTo_layers _ _) hk)) (enterAcquire_kept _ _
    (kept_layers (passTo_layers _ _) hk))) hk

theorem execReceiverDetect_kept (p : Fin 4) (activity : BitVec 16) {s₀ s : State} (hk : Kept s₀ s) :
    Runs s₀ (execReceiverDetect p activity s) :=
  runs_next (receiverDetect_kept _ _ hk)

theorem acquireTimeout_kept (p : Fin 4) {s₀ s : State} (hk : Kept s₀ s) : Kept s₀ (acquireTimeout p s) := by
  unfold acquireTimeout
  dsimp only
  split
  · split
    · exact restartRecovery_kept _ (kept_layers (passTo_layers _ _) hk)
    · split
      · exact kept_events (raise_events _ _ _ _ _) (kept_events (modPhy_events _ _ _) (failTraining_kept _ (kept_events
          (modPhy_events _ _ _) (kept_layers (passTo_layers _ _) hk))))
      · exact failTraining_kept _ (kept_events (modPhy_events _ _ _) (kept_layers (passTo_layers _ _) hk))
  · exact hk

theorem execAcquireTimeout_kept (p : Fin 4) {s₀ s : State} (hk : Kept s₀ s) : Runs s₀ (execAcquireTimeout p s) :=
  runs_next (acquireTimeout_kept _ hk)

theorem stateTimeout_kept (p : Fin 4) (st : PortState) (ns : Nat) {f : State → State} {s₀ s : State}
    (hf : ∀ u, Kept s₀ u → Kept s₀ (f u)) (hk : Kept s₀ s) : Kept s₀ (stateTimeout p st ns f s) :=
  kept_ite (hf _ (kept_layers (passTo_layers _ _) hk)) hk

theorem execAlignTimeout_kept (p : Fin 4) {s₀ s : State} (hk : Kept s₀ s) : Runs s₀ (execAlignTimeout p s) :=
  runs_next (stateTimeout_kept _ _ _ (fun _ hk => enterAcquire_kept _ _ hk) hk)

theorem execCapsTimeout_kept (p : Fin 4) {s₀ s : State} (hk : Kept s₀ s) : Runs s₀ (execCapsTimeout p s) :=
  runs_next (stateTimeout_kept _ _ _ (fun _ hk => enterAcquire_kept _ _ hk) hk)

theorem execEqTimeout_kept (p : Fin 4) {s₀ s : State} (hk : Kept s₀ s) : Runs s₀ (execEqTimeout p s) :=
  runs_next (stateTimeout_kept _ _ _ (fun _ hk => eqFails_kept _ hk) hk)

theorem execCheckTimeout_kept (p : Fin 4) {s₀ s : State} (hk : Kept s₀ s) : Runs s₀ (execCheckTimeout p s) :=
  runs_next (stateTimeout_kept _ _ _ (fun _ hk => checkFails_kept _ hk) hk)

theorem switchFails_kept (p : Fin 4) {s₀ s : State} (hk : Kept s₀ s) : Kept s₀ (switchFails p s) := by
  unfold switchFails
  dsimp only
  split
  · split
    · exact failTraining_kept _ hk
    · exact failTraining_kept _ hk
    · exact enterRecovery_kept _ hk
    · exact restartRecovery_kept _ hk
  · split
    · exact startSwitch_kept _ _ _ (kept_events (modPhy_events _ _ _) (kept_events (modPhy_events _ _ _) hk))
    · exact startSwitch_kept _ _ _ (kept_events (modPhy_events _ _ _) hk)

theorem execSwitchTimeout_kept (p : Fin 4) {s₀ s : State} (hk : Kept s₀ s) : Runs s₀ (execSwitchTimeout p s) :=
  runs_next (stateTimeout_kept _ _ _ (fun _ hk => switchFails_kept _ hk) hk)

theorem newGaugeLock_kept (p : Fin 4) {s₀ s : State} (hk : Kept s₀ s) : Kept s₀ (newGaugeLock p s) :=
  kept_ite (enterAcquire_kept _ _ hk) hk

theorem execNewGaugeLock_kept (p : Fin 4) {s₀ s : State} (hk : Kept s₀ s) : Runs s₀ (execNewGaugeLock p s) :=
  runs_next (newGaugeLock_kept _ hk)

theorem judgeLanes_kept (p : Fin 4) (threshold : Nat) (errors : List Nat) {s₀ s : State} (hk : Kept s₀ s) :
    Kept s₀ (judgeLanes p threshold errors s) :=
  kept_events (modPort_events _ _ _) (kept_events (modPhy_events _ _ _) (mapLanes_kept _ _ hk))

theorem quickEnd_kept (p : Fin 4) {s₀ s : State} (hk : Kept s₀ s) : Kept s₀ (quickEnd p s) := by
  unfold quickEnd
  exact kept_ite (enterEq_kept _ _ hk) (kept_ite (stepRecover_kept _ hk) (enterActive_kept _ hk))

theorem checkDone_kept (p : Fin 4) {s₀ s : State} (hk : Kept s₀ s) : Kept s₀ (checkDone p s) :=
  kept_ite (kept_ite (quickEnd_kept _ hk) (stepEnd_kept _ hk)) hk

theorem checkWindowEnd_kept (p : Fin 4) (errors : List Nat) {s₀ s : State} (hk : Kept s₀ s) :
    Kept s₀ (checkWindowEnd p errors s) :=
  kept_ite (checkDone_kept _ (judgeLanes_kept _ _ _ (kept_layers (passTo_layers _ _) hk))) hk

theorem execCheckWindowEnd_kept (p : Fin 4) (errors : List Nat) {s₀ s : State} (hk : Kept s₀ s) :
    Runs s₀ (execCheckWindowEnd p errors s) :=
  runs_next (checkWindowEnd_kept _ _ hk)

theorem fallbackCheckEnd_kept (p : Fin 4) (errors : List Nat) {s₀ s : State} (hk : Kept s₀ s) :
    Kept s₀ (fallbackCheckEnd p errors s) :=
  kept_ite (checkDone_kept _ (judgeLanes_kept _ _ _ (kept_layers (passTo_layers _ _) hk))) hk

theorem execFallbackCheckEnd_kept (p : Fin 4) (errors : List Nat) {s₀ s : State} (hk : Kept s₀ s) :
    Runs s₀ (execFallbackCheckEnd p errors s) :=
  runs_next (fallbackCheckEnd_kept _ _ hk)

theorem noteAck_kept (p : Fin 4) (lane : Fin 16) (ack : Bool) {s₀ s : State} (hk : Kept s₀ s) :
    Kept s₀ (noteAck p lane ack s) :=
  modLane_kept _ _ _ hk

theorem receiveTs1_kept (p : Fin 4) (lane : Fin 16) (inverted : Bool) (fckInverted : Bool) (os : BitVec 128)
    {s₀ s : State} (hk : Kept s₀ s) : Kept s₀ (receiveTs1 p lane inverted fckInverted os s) := by
  unfold receiveTs1
  dsimp only
  split
  · exact kept_ite (enterState_kept _ _ _ (kept_events (modPhy_events _ _ _) (modLane_kept _ _ _ hk))) (kept_events
      (modPhy_events _ _ _) (modLane_kept _ _ _ hk))
  · split
    · exact kept_ite (kept_ite (afterAlign_kept _ (kept_events (modPhy_events _ _ _) (noteAck_kept _ _ _ hk)))
        (noteAck_kept _ _ _ hk)) (noteAck_kept _ _ _ hk)
    · exact hk

theorem receiveTs2_kept (p : Fin 4) (lane : Fin 16) (os : BitVec 128) {s₀ s : State} (hk : Kept s₀ s) :
    Kept s₀ (receiveTs2 p lane os s) := by
  unfold receiveTs2
  dsimp only
  split
  · split
    · exact enterEq_kept _ _ (kept_events (modPhy_events _ _ _) (kept_events (modPhy_events _ _ _)
        (noteAck_kept _ _ _ hk)))
    · exact kept_events (modPhy_events _ _ _) (noteAck_kept _ _ _ hk)
  · exact hk

theorem receiveTsEq_kept (p : Fin 4) (lane : Fin 16) (ask : BitVec 6) (os : BitVec 128) {s₀ s : State}
    (hk : Kept s₀ s) : Kept s₀ (receiveTsEq p lane ask os s) :=
  kept_ite (kept_ite (enterState_kept _ _ _ (modLane_kept _ _ _ hk)) (modLane_kept _ _ _ hk)) hk

theorem receiveTsCheck_kept (p : Fin 4) (lane : Fin 16) (os : BitVec 128) {s₀ s : State} (hk : Kept s₀ s) :
    Kept s₀ (receiveTsCheck p lane os s) :=
  kept_ite (checkDone_kept _ (modLane_kept _ _ _ (noteAck_kept _ _ _ hk))) hk

theorem receiveGaugeSwitch_kept (p : Fin 4) (os : BitVec 128) {s₀ s : State} (hk : Kept s₀ s) :
    Kept s₀ (receiveGaugeSwitch p os s) := by
  unfold receiveGaugeSwitch
  exact kept_ite (startSwitch_kept _ _ _ (kept_events (modPhy_events _ _ _) hk)) hk

theorem lanesLostAll_kept (p : Fin 4) {s₀ s : State} (hk : Kept s₀ s) : Kept s₀ (lanesLostAll p s) :=
  toDetect_kept _ (portDown_kept _ _ (kept_events (raise_events _ _ _ _ _) hk))

theorem startFallback_kept (p : Fin 4) {s₀ s : State} (hk : Kept s₀ s) : Kept s₀ (startFallback p s) := by
  unfold startFallback
  exact startSwitch_kept _ _ _ (kept_events (raise_events _ _ _ _ _) (kept_events (modPhy_events _ _ _) hk))

theorem fallBack_kept (p : Fin 4) {s₀ s : State} (hk : Kept s₀ s) : Kept s₀ (fallBack p s) :=
  kept_ite (lanesLostAll_kept _ (kept_events (raise_events _ _ _ _ _) (kept_events (modPhy_events _ _ _) hk)))
    (startFallback_kept _ hk)

theorem receiveFckDown_kept (p : Fin 4) {s₀ s : State} (hk : Kept s₀ s) : Kept s₀ (receiveFckDown p s) :=
  kept_ite (fallBack_kept _ hk) hk

theorem receiveLoop_kept (p : Fin 4) (os : BitVec 128) {s₀ s : State} (hk : Kept s₀ s) : Kept s₀ (receiveLoop p os s) :=
  kept_ite (kept_events (modPort_events _ _ _) (kept_events (modPhy_events _ _ _) hk)) hk

theorem actOnSet_kept (p : Fin 4) (lane : Fin 16) (inverted : Bool) (fckInverted : Bool) (ask : BitVec 6)
    (os : BitVec 128) {s₀ s : State} (hk : Kept s₀ s) : Kept s₀ (actOnSet p lane inverted fckInverted ask os s) := by
  unfold actOnSet
  extract_lets kind x
  have hidle (b : Bool) : Kept s₀ (if x.state = .active then modPhy p (fun x => { x with rxIdle := b }) s else s) :=
    kept_ite (kept_events (modPhy_events _ _ _) hk) hk
  exact kept_ite (receiveTs1_kept _ _ _ _ _ hk) (kept_ite (receiveTs2_kept _ _ _ hk)
    (kept_ite (receiveTsEq_kept _ _ _ _ hk) (kept_ite (receiveTsCheck_kept _ _ _ hk)
      (kept_ite (receiveGaugeSwitch_kept _ _ hk) (kept_ite (hidle true) (kept_ite (hidle false)
        (kept_ite (receiveFckDown_kept _ hk) (kept_ite (receiveLoop_kept _ _ hk) hk))))))))

theorem receiveSet_kept (p : Fin 4) (lane : Fin 16) (inverted : Bool) (fckInverted : Bool) (ask : BitVec 6)
    (os : BitVec 128) {s₀ s : State} (hk : Kept s₀ s) : Kept s₀ (receiveSet p lane inverted fckInverted ask os s) :=
  kept_ite hk (kept_ite (modLane_kept _ _ _ hk) (kept_ite hk (kept_events (modPort_events _ _ _)
    (actOnSet_kept _ _ _ _ _ _ (modLane_kept _ _ _ hk)))))

theorem execTs1_kept (p : Fin 4) (lane : Fin 16) (inverted : Swaps) (os : BitVec 128) {s₀ s : State} (hk : Kept s₀ s) :
    Runs s₀ (execTs1 p lane inverted os s) :=
  runs_next (receiveSet_kept _ _ _ _ _ _ hk)

theorem execTs2_kept (p : Fin 4) (lane : Fin 16) (os : BitVec 128) {s₀ s : State} (hk : Kept s₀ s) :
    Runs s₀ (execTs2 p lane os s) :=
  runs_next (receiveSet_kept _ _ _ _ _ _ hk)

theorem execTsEq_kept (p : Fin 4) (lane : Fin 16) (os : EqSet) {s₀ s : State} (hk : Kept s₀ s) :
    Runs s₀ (execTsEq p lane os s) :=
  runs_next (receiveSet_kept _ _ _ _ _ _ hk)

theorem execTsCheck_kept (p : Fin 4) (lane : Fin 16) (os : BitVec 128) {s₀ s : State} (hk : Kept s₀ s) :
    Runs s₀ (execTsCheck p lane os s) :=
  runs_next (receiveSet_kept _ _ _ _ _ _ hk)

theorem execGaugeSwitch_kept (p : Fin 4) (lane : Fin 16) (os : BitVec 128) {s₀ s : State} (hk : Kept s₀ s) :
    Runs s₀ (execGaugeSwitch p lane os s) :=
  runs_next (receiveSet_kept _ _ _ _ _ _ hk)

theorem execIdleEnter_kept (p : Fin 4) (lane : Fin 16) (os : BitVec 128) {s₀ s : State} (hk : Kept s₀ s) :
    Runs s₀ (execIdleEnter p lane os s) :=
  runs_next (receiveSet_kept _ _ _ _ _ _ hk)

theorem execIdleExit_kept (p : Fin 4) (lane : Fin 16) (os : BitVec 128) {s₀ s : State} (hk : Kept s₀ s) :
    Runs s₀ (execIdleExit p lane os s) :=
  runs_next (receiveSet_kept _ _ _ _ _ _ hk)

theorem execFckDown_kept (p : Fin 4) (lane : Fin 16) (os : BitVec 128) {s₀ s : State} (hk : Kept s₀ s) :
    Runs s₀ (execFckDown p lane os s) :=
  runs_next (receiveSet_kept _ _ _ _ _ _ hk)

theorem execLoopReq_kept (p : Fin 4) (lane : Fin 16) (os : BitVec 128) {s₀ s : State} (hk : Kept s₀ s) :
    Runs s₀ (execLoopReq p lane os s) :=
  runs_next (receiveSet_kept _ _ _ _ _ _ hk)

theorem execAlign_kept (p : Fin 4) (lane : Fin 16) (os : BitVec 128) {s₀ s : State} (hk : Kept s₀ s) :
    Runs s₀ (execAlign p lane os s) :=
  runs_next (receiveSet_kept _ _ _ _ _ _ hk)

theorem idleEntry_kept (p : Fin 4) {s₀ s : State} (hk : Kept s₀ s) : Kept s₀ (idleEntry p s) :=
  kept_ite (kept_events (modPort_events _ _ _) hk) hk

theorem execElectricalIdleEntry_kept (p : Fin 4) {s₀ s : State} (hk : Kept s₀ s) :
    Runs s₀ (execElectricalIdleEntry p s) :=
  runs_next (idleEntry_kept _ hk)

theorem heartbeatStatus_kept (p : Fin 4) {s₀ s : State} (hk : Kept s₀ s) : Kept s₀ (heartbeatStatus p s) :=
  kept_ite (kept_events (pump_events _ _) (kept_events (modSend_events _ _ _) hk)) hk

theorem execHeartbeatStatus_kept (p : Fin 4) {s₀ s : State} (hk : Kept s₀ s) : Runs s₀ (execHeartbeatStatus p s) :=
  runs_next (heartbeatStatus_kept _ hk)

theorem countLoss_kept (p : Fin 4) (g : Nat) {s₀ s : State} (hk : Kept s₀ s) : Kept s₀ (countLoss p g s) := by
  unfold countLoss
  dsimp only
  split
  · exact kept_events (raise_events _ _ _ _ _) (kept_events (modPhy_events _ _ _) (kept_events
      (modPhy_events _ _ _) hk))
  · exact kept_events (modPhy_events _ _ _) hk

theorem askNarrow_kept (p : Fin 4) (m : BitVec 4) {s₀ s : State} (hk : Kept s₀ s) : Kept s₀ (askNarrow p m s) :=
  kept_events (modSend_events _ _ _) hk

theorem rxLaneLost_kept (p : Fin 4) (lane : Fin 16) {s₀ s : State} (hk : Kept s₀ s) :
    Kept s₀ (rxLaneLost p lane s) := by
  unfold rxLaneLost
  dsimp only
  split
  · exact modLane_kept _ _ _ hk
  · split
    · split
      · exact enterRecovery_kept _ (countLoss_kept _ _ (kept_events (raise_events _ _ _ _ _) (kept_events
          (modPhy_events _ _ _) (modLane_kept _ _ _ hk))))
      · exact kept_events (raise_events _ _ _ _ _) (askNarrow_kept _ _ (countLoss_kept _ _ (kept_events
          (raise_events _ _ _ _ _) (kept_events (modPhy_events _ _ _) (modLane_kept _ _ _ hk)))))
    · exact kept_ite (askNarrow_kept _ _ (kept_events (modPhy_events _ _ _) (modLane_kept _ _ _ hk))) (kept_events
        (modPhy_events _ _ _) (modLane_kept _ _ _ hk))

theorem laneLost_kept (p : Fin 4) (d : Dir) (lane : Fin 16) (cause : LossCause) {s₀ s : State} (hk : Kept s₀ s) :
    Kept s₀ (laneLost p d lane cause s) :=
  kept_ite (rxLaneLost_kept _ _ hk) hk

theorem execLaneLost_kept (p : Fin 4) (d : Dir) (lane : LostLane) {s₀ s : State} (hk : Kept s₀ s) :
    Runs s₀ (execLaneLost p d lane s) :=
  runs_next (laneLost_kept _ _ _ _ hk)

theorem receiveWidth_kept (p : Fin 4) (msg : BitVec 128) {s₀ s : State} (hk : Kept s₀ s) :
    Kept s₀ (receiveWidth p msg s) := by
  unfold receiveWidth
  dsimp only
  split
  · exact hk
  · split
    · exact kept_events (raise_events _ _ _ _ _) hk
    · split
      · exact kept_events (raise_events _ _ _ _ _) (kept_events (modLink_events _ _ _) hk)
      · exact kept_ite (enterRecovery_kept _ hk) (kept_events (raise_events _ _ _ _ _) (kept_events
          (modSend_events _ _ _) hk))

theorem execWidthChange_kept (p : Fin 4) (msg : BitVec 128) {s₀ s : State} (hk : Kept s₀ s) :
    Runs s₀ (execWidthChange p msg s) :=
  runs_next (receiveWidth_kept _ _ hk)

theorem widthRepeat_kept (p : Fin 4) {s₀ s : State} (hk : Kept s₀ s) : Kept s₀ (widthRepeat p s) := by
  unfold widthRepeat
  split
  · exact kept_ite (kept_events (modSend_events _ _ _) hk) hk
  · exact hk

theorem execWidthChangeRepeat_kept (p : Fin 4) {s₀ s : State} (hk : Kept s₀ s) : Runs s₀ (execWidthChangeRepeat p s) :=
  runs_next (widthRepeat_kept _ hk)

theorem groupRetrain_kept (p : Fin 4) (d : Dir) (g : Fin 4) (errors : List Nat) {s₀ s : State} (hk : Kept s₀ s) :
    Kept s₀ (groupRetrain p d g errors s) :=
  kept_ite (kept_events (modPhy_events _ _ _) (mapLanes_kept _ _ hk)) hk

theorem execGroupRetrain_kept (p : Fin 4) (d : Dir) (g : Fin 4) (errors : List Nat) {s₀ s : State} (hk : Kept s₀ s) :
    Runs s₀ (execGroupRetrain p d g errors s) :=
  runs_next (groupRetrain_kept _ _ _ _ hk)

theorem laneReadded_kept (p : Fin 4) (d : Dir) (g : Fin 4) {s₀ s : State} (hk : Kept s₀ s) :
    Kept s₀ (laneReadded p d g s) :=
  kept_ite (kept_events (modSend_events _ _ _) (kept_layers (passTo_layers _ _) hk)) hk

theorem widenReceive_kept (p : Fin 4) {s₀ s : State} (hk : Kept s₀ s) : Kept s₀ (widenReceive p s) := by
  unfold widenReceive
  dsimp only
  split
  · exact kept_ite (kept_events (raise_events _ _ _ _ _) (kept_foldl (fun _ _ hk => kept_events
      (raise_events _ _ _ _ _) hk) (kept_events (modPort_events _ _ _) hk))) hk
  · exact hk

theorem execLaneReadded_kept (p : Fin 4) (d : Dir) (g : Fin 4) {s₀ s : State} (hk : Kept s₀ s) :
    Runs s₀ (execLaneReadded p d g s) :=
  runs_next (laneReadded_kept _ _ _ hk)

theorem fckLost_kept (p : Fin 4) {s₀ s : State} (hk : Kept s₀ s) : Kept s₀ (fckLost p s) :=
  kept_ite (fallBack_kept _ (kept_events (modPort_events _ _ _) hk)) hk

theorem execFckLost_kept (p : Fin 4) {s₀ s : State} (hk : Kept s₀ s) : Runs s₀ (execFckLost p s) :=
  runs_next (fckLost_kept _ hk)

theorem fckRestored_kept (p : Fin 4) {s₀ s : State} (hk : Kept s₀ s) : Kept s₀ (fckRestored p s) := by
  unfold fckRestored
  dsimp only
  split
  · split
    · exact startSwitch_kept _ _ _ (kept_events (modPhy_events _ _ _) (kept_events (raise_events _ _ _ _ _) (kept_events
        (modPhy_events _ _ _) hk)))
    · exact kept_events (raise_events _ _ _ _ _) (kept_events (modPhy_events _ _ _) hk)
  · exact hk

theorem execFckRestored_kept (p : Fin 4) {s₀ s : State} (hk : Kept s₀ s) : Runs s₀ (execFckRestored p s) :=
  runs_next (fckRestored_kept _ hk)

theorem execLanesLostAll_kept (p : Fin 4) {s₀ s : State} (hk : Kept s₀ s) : Runs s₀ (execLanesLostAll p s) :=
  runs_next (kept_ite (lanesLostAll_kept _ hk) hk)

theorem recoveryTimeout_kept (p : Fin 4) {s₀ s : State} (hk : Kept s₀ s) : Kept s₀ (recoveryTimeout p s) :=
  kept_ite (lanesLostAll_kept _ (kept_layers (passTo_layers _ _) hk)) hk

theorem execRecoveryTimeout_kept (p : Fin 4) {s₀ s : State} (hk : Kept s₀ s) : Runs s₀ (execRecoveryTimeout p s) :=
  runs_next (recoveryTimeout_kept _ hk)

theorem disablePort_kept (p : Fin 4) {s₀ s : State} (hk : Kept s₀ s) : Kept s₀ (disablePort p s) := by
  unfold disablePort
  exact enterState_kept _ _ _ (kept_events (modPort_events _ _ _) (kept_events (modPort_events _ _ _)
    (portDown_kept _ _ hk)))

theorem enablePort_kept (p : Fin 4) {s₀ s : State} (hk : Kept s₀ s) : Kept s₀ (enablePort p s) :=
  toDetect_kept _ (kept_events (modPhy_events _ _ _) hk)

/-! ### The link layer's events -/

theorem receiveHeader_kept (p : Fin 4) (ack : Nat) (credit : Nat) (panic : Bool) {s₀ s : State} (hk : Kept s₀ s) :
    Kept s₀ (receiveHeader p ack credit panic s) :=
  kept_events (modLink_events _ _ _) (kept_ite (kept_layers (noteTriggers_layers _) hk) hk)

theorem linkProtocol_kept (p : Fin 4) {s₀ s : State} (hk : Kept s₀ s) : Kept s₀ (linkProtocol p s) :=
  kept_events (raise_events _ _ _ _ _) hk

theorem replayPort_kept (p : Fin 4) {s₀ s : State} (hk : Kept s₀ s) : Kept s₀ (replayPort p s) := by
  unfold replayPort
  dsimp only
  split
  · exact hk
  · exact kept_ite (enterRecovery_kept _ (kept_events (raise_events _ _ _ _ _) (kept_events (modLink_events _ _ _) hk)))
      (kept_events (modSend_events _ _ _) hk)

theorem execReplayTimer_kept (p : Fin 4) {s₀ s : State} (hk : Kept s₀ s) : Runs s₀ (execReplayTimer p s) :=
  runs_next (kept_ite (replayPort_kept _ hk) hk)

theorem receiveNak_kept (p : Fin 4) (msg : BitVec 128) {s₀ s : State} (hk : Kept s₀ s) : Kept s₀ (receiveNak p msg s) :=
  kept_ite hk (kept_ite (linkProtocol_kept _ hk) (kept_events (pump_events _ _) (replayPort_kept _ (kept_events
    (modLink_events _ _ _) hk))))

theorem execNak_kept (p : Fin 4) (msg : BitVec 128) {s₀ s : State} (hk : Kept s₀ s) : Runs s₀ (execNak p msg s) :=
  runs_next (receiveNak_kept _ _ hk)

theorem receiveStatus_kept (p : Fin 4) (msg : BitVec 128) {s₀ s : State} (hk : Kept s₀ s) :
    Kept s₀ (receiveStatus p msg s) :=
  kept_ite hk (kept_ite (linkProtocol_kept _ hk) (kept_events (pump_events _ _) (widenReceive_kept _ (kept_events
    (modLink_events _ _ _) hk))))

theorem execStatus_kept (p : Fin 4) (msg : BitVec 128) {s₀ s : State} (hk : Kept s₀ s) : Runs s₀ (execStatus p msg s) :=
  runs_next (receiveStatus_kept _ _ hk)

theorem ackDue_kept (p : Fin 4) {s₀ s : State} (hk : Kept s₀ s) : Kept s₀ (ackDue p s) :=
  kept_ite (kept_ite (kept_events (modSend_events _ _ _) (kept_events (pump_events _ _) hk)) (kept_events
    (pump_events _ _) hk)) hk

theorem execAckDue_kept (p : Fin 4) {s₀ s : State} (hk : Kept s₀ s) : Runs s₀ (execAckDue p s) :=
  runs_next (ackDue_kept _ hk)

theorem heartbeatTimeout_kept (p : Fin 4) {s₀ s : State} (hk : Kept s₀ s) : Kept s₀ (heartbeatTimeout p s) :=
  kept_ite (detachPort_kept _ _ (kept_layers (passTo_layers _ _) hk)) hk

theorem execHeartbeatTimeout_kept (p : Fin 4) {s₀ s : State} (hk : Kept s₀ s) : Runs s₀ (execHeartbeatTimeout p s) :=
  runs_next (heartbeatTimeout_kept _ hk)

/-! ### Tasks and maintenance activities -/

theorem putTask_kept (t : Task) {s₀ s : State} (hk : Kept s₀ s) : Kept s₀ (putTask t s) :=
  Kept.update hk

theorem modTask_kept (t : Task) (f : Task → Task) {s₀ s : State} (hk : Kept s₀ s) : Kept s₀ (modTask t f s) :=
  Kept.update hk

theorem endTask_kept (t : Task) (st : KStatus) (result : Word) {s₀ s : State} (hk : Kept s₀ s) :
    Kept s₀ (endTask t st result s) :=
  kept_ite (Kept.update hk) (kept_events (raise_events _ _ _ _ _) (modTask_kept _ _ hk))

theorem endTasks_kept (sel : Task → Bool) (st : KStatus) {s₀ s : State} (hk : Kept s₀ s) :
    Kept s₀ (endTasks sel st s) :=
  kept_foldl (fun _ _ hk => endTask_kept _ _ _ hk) hk

theorem leaveTest_kept (b : BlockId) {s₀ s : State} (hk : Kept s₀ s) : Kept s₀ (leaveTest b s) := by
  unfold leaveTest
  dsimp only
  split
  · exact kept_ite (exitRefresh_kept _ _ (modBlock_kept _ _ hk)) (modBlock_kept _ _ hk)
  · exact modBlock_kept _ _ hk

theorem abortTest_kept (cause : Nat) (t : Task) {s₀ s : State} (hk : Kept s₀ s) : Kept s₀ (abortTest cause t s) := by
  unfold abortTest
  dsimp only
  split
  · exact endTask_kept _ _ _ (kept_events (raiseBlock_events _ _ _ _) (leaveTest_kept _ (drawOne_kept hk)))
  · exact endTask_kept _ _ _ (leaveTest_kept _ (drawOne_kept hk))
  · exact hk

theorem raisePreempted_kept (t : Task) {s₀ s : State} (hk : Kept s₀ s) : Kept s₀ (raisePreempted t s) :=
  kept_events (raise_events _ _ _ _ _) hk

theorem preemptTests_kept (sel : BlockId → Bool) {s₀ s : State} (hk : Kept s₀ s) : Kept s₀ (preemptTests sel s) :=
  kept_foldl (fun _ _ hk => abortTest_kept _ _ (raisePreempted_kept _ hk)) hk

theorem pauseTasks_kept (sel : Task → Bool) {s₀ s : State} (hk : Kept s₀ s) : Kept s₀ (pauseTasks sel s) :=
  kept_foldl (fun _ _ hk => raisePreempted_kept _ (modTask_kept _ _ hk)) hk

theorem keepCutTable_kept (w : Work) {s₀ s : State} (hk : Kept s₀ s) : Kept s₀ (keepCutTable w s) := by
  unfold keepCutTable
  split
  · exact modTable_kept _ _ hk
  · exact hk

theorem cutTasks_kept (sel : BlockId → Bool) {s₀ s : State} (hk : Kept s₀ s) : Kept s₀ (cutTasks sel s) :=
  kept_foldl (fun _ _ hk => kept_ite (abortTest_kept _ _ hk) (endTask_kept _ _ _ (keepCutTable_kept _ hk))) hk

/-! ### Containment -/

theorem loseKennelLine_kept (k : KennelLine) {s₀ s : State} (hk : Kept s₀ s) : Kept s₀ (loseKennelLine k s) := by
  unfold loseKennelLine
  dsimp only
  refine kept_events (raise_events _ _ _ _ _) ?_
  split
  · exact kept_layers (pushWrite_layers _ _ _ _) (Kept.update (kept_lines (kennelDrop_lines _ _ _) hk))
  · exact Kept.update (kept_lines (kennelDrop_lines _ _ _) hk)

theorem loseMetaLine_kept (m : MetaLine) {s₀ s : State} (hk : Kept s₀ s) : Kept s₀ (loseMetaLine m s) :=
  kept_events (raise_events _ _ _ _ _) (kept_lines (modSeal_lines _ _ _) (Kept.update hk))

theorem loseQueue_kept (c : Fin 32) {s₀ s : State} (hk : Kept s₀ s) : Kept s₀ (loseQueue c s) := by
  unfold loseQueue
  dsimp only
  refine kept_foldl ?_ (kept_layers (modChannel_layers _ _ _) hk)
  intro _ _ hk
  refine kept_events (raise_events _ _ _ _ _) (kept_layers (modChannel_layers _ _ _) ?_)
  refine kept_layers (storeCoded_layers _ _ _) ?_
  split
  · exact kept_lines (kennelDrop_lines _ _ _) hk
  · exact hk

theorem peerReset_kept (side : Nat × Nat) (dropped : Nat) {s₀ s : State} (hk : Kept s₀ s) :
    Kept s₀ (peerReset side dropped s) :=
  kept_events (raise_events _ _ _ _ _) (modDevice_kept _ hk)

theorem peerResets_kept (sides : List (Nat × Nat)) (toward : Nat → Bool) {s₀ s : State} (hk : Kept s₀ s) :
    Kept s₀ (peerResets sides toward s) := by
  unfold peerResets
  dsimp only
  split
  · exact modDevice_kept _ hk
  · exact kept_foldl (fun _ _ hk => peerReset_kept _ _ hk) (peerReset_kept _ _ (modDevice_kept _ hk))

theorem endQueued_kept (sel : QueuedReq → Bool) (st : QStatus) (isolated : Bool) {s₀ s : State} (hk : Kept s₀ s) :
    Kept s₀ (endQueued sel st isolated s) :=
  kept_foldl (fun _ _ hk => kept_ite hk (kept_foldl (fun _ _ hk => kept_events (completeAs_events _ _ _ _ _ _ _) hk)
    (kept_layers (setRequests_layers _ _ _) hk))) hk

theorem endNeeding_kept (need : BlockId → Bool) (st : QStatus) (isolated : Bool) {s₀ s : State} (hk : Kept s₀ s) :
    Kept s₀ (endNeeding need st isolated s) :=
  endQueued_kept _ _ _ hk

theorem endWaiting_kept (c : Fin 32) (st : QStatus) (isolated : Bool) {s₀ s : State} (hk : Kept s₀ s) :
    Kept s₀ (endWaiting c st isolated s) :=
  kept_foldl (fun _ _ hk => settleLine_kept _ _ _ hk) (kept_layers (modChannel_layers _ _ _) (kept_layers
    (noteTrigger_layers _ _) hk))

theorem endChannelWork_kept (c : Fin 32) (st : QStatus) (isolated : Bool) {s₀ s : State} (hk : Kept s₀ s) :
    Kept s₀ (endChannelWork c st isolated s) :=
  endWaiting_kept _ _ _ (endNeeding_kept _ _ _ hk)

theorem closeBanks_kept (c : Fin 32) {s₀ s : State} (hk : Kept s₀ s) : Kept s₀ (closeBanks c s) :=
  kept_layers (modChannel_layers _ _ _) hk

theorem abortQueues_kept (sel : Nat → Partition → Bool) (void : Bool) {s₀ s : State} (hk : Kept s₀ s) :
    Kept s₀ (abortQueues sel void s) := by
  unfold abortQueues
  dsimp only
  refine kept_layers (watchGates_layers _) ?_
  refine kept_foldl ?_ hk
  intro _ _ hk
  split
  · exact modQueue_kept _ _ (kept_foldl (fun _ _ hk => endAdmission_kept _ _ _ _ _ hk) (kept_foldl
      (fun _ _ hk => kept_events (completeWith_events _ _ _) hk) hk))
  · exact hk

theorem loseSlice_kept (k : Fin 8) {s₀ s : State} (hk : Kept s₀ s) : Kept s₀ (loseSlice k s) :=
  kept_foldl (fun _ _ hk => loseMetaLine_kept _ hk) (kept_foldl (fun _ _ hk => loseKennelLine_kept _ hk) hk)

theorem loseContents_kept (b : BlockId) {s₀ s : State} (hk : Kept s₀ s) : Kept s₀ (loseContents b s) := by
  unfold loseContents
  split
  · exact loseQueue_kept _ hk
  · exact loseSlice_kept _ hk
  · exact hk

theorem fenceEffect_kept (b : BlockId) (sramFailed : Bool) {s₀ s : State} (hk : Kept s₀ s) :
    Kept s₀ (fenceEffect b sramFailed s) := by
  unfold fenceEffect
  dsimp only
  split
  · exact dropPort_kept _ _ hk
  · split
    · exact loseContents_kept _ (kept_layers (modChannel_layers _ _ _) (endChannelWork_kept _ _ _ hk))
    · exact kept_layers (modChannel_layers _ _ _) (endChannelWork_kept _ _ _ hk)
  · exact abortQueues_kept _ _ (endNeeding_kept _ _ _ hk)
  · exact abortQueues_kept _ _ (endNeeding_kept _ _ _ hk)
  · exact kept_ite (loseContents_kept _ (Kept.update (endNeeding_kept _ _ _ hk))) (Kept.update
      (endNeeding_kept _ _ _ hk))
  · exact endNeeding_kept _ _ _ hk

theorem fenceBlock_kept (b : BlockId) (auto : Bool) (sramFailed : Bool) {s₀ s : State} (hk : Kept s₀ s) :
    Kept s₀ (fenceBlock b auto sramFailed s) := by
  unfold fenceBlock
  dsimp only
  refine kept_ite (kept_ite (loseContents_kept _ hk) hk) ?_
  split
  · exact recomputeLedger_kept _ (kept_events (raiseBlock_events _ _ _ _) (fenceEffect_kept _ _ (modBlock_kept _ _ hk)))
  · exact kept_events (raiseBlock_events _ _ _ _) (fenceEffect_kept _ _ (modBlock_kept _ _ hk))

theorem fatalNow_kept (cause : Nat) (code : Nat) {s₀ s : State} (hk : Kept s₀ s) : Kept s₀ (fatalNow cause code s) := by
  unfold fatalNow
  dsimp only
  split
  · exact hk
  · refine kept_foldl (fun _ _ hk => closeBanks_kept _ (kept_layers (modChannel_layers _ _ _)
      (endWaiting_kept _ _ _ hk))) ?_
    refine endQueued_kept _ _ _ (kept_foldl (fun _ _ hk => dropPort_kept _ _ hk) ?_)
    split
    · exact kept_foldl (fun _ _ hk => kept_events (modSend_events _ _ _) hk) (kept_events (raise_events _ _ _ _ _)
        (modDevice_kept _ hk))
    · exact kept_events (raise_events _ _ _ _ _) (modDevice_kept _ hk)

theorem isolateBobbin_kept (q : Fin 4) {s₀ s : State} (hk : Kept s₀ s) : Kept s₀ (isolateBobbin q s) := by
  unfold isolateBobbin
  dsimp only
  refine kept_layers (watchGates_layers _) ?_
  refine kept_foldl ?_ hk
  intro _ _ hk
  split
  · exact kept_foldl (fun _ _ hk => endAdmission_kept _ _ _ _ _ hk) (modQueue_kept _ _ (kept_foldl
      (fun _ _ hk => kept_events (completeAs_events _ _ _ _ _ _ _) hk) hk))
  · exact hk

theorem stopChannel_kept (c : Fin 32) {s₀ s : State} (hk : Kept s₀ s) : Kept s₀ (stopChannel c s) :=
  kept_layers (modChannel_layers _ _ _) (payDebts_kept _ (closeRows_kept _ (kept_layers (drainAll_layers _ _) hk)))

theorem isolateChannel_kept (q : Fin 4) (c : Fin 32) {s₀ s : State} (hk : Kept s₀ s) : Kept s₀ (isolateChannel q c s) :=
  kept_ite (stopChannel_kept _ (endWaiting_kept _ _ _ hk)) (closeBanks_kept _ (kept_layers (modChannel_layers _ _ _)
    (endWaiting_kept _ _ _ hk)))

theorem quarterFlush_kept (q : Fin 4) {s₀ s : State} (hk : Kept s₀ s) : Kept s₀ (quarterFlush q s) :=
  kept_lines (sealFlush_lines _ _) (kept_lines (kennelFlush_lines _ _) hk)

theorem isolateQuarter_kept (q : Fin 4) (cause : BitVec 4) (code : BitVec 16) {s₀ s : State} (hk : Kept s₀ s) :
    Kept s₀ (isolateQuarter q cause code s) := by
  unfold isolateQuarter
  dsimp only
  split
  · exact hk
  · split
    · exact fatalNow_kept _ _ (kept_layers (modQuarter_layers _ _ _) hk)
    · exact kept_foldl (fun _ _ hk => kept_ite (isolateChannel_kept _ _ hk) hk) (endNeeding_kept _ _ _
        (isolateBobbin_kept _ (dropPort_kept _ _ (kept_layers (modQuarter_layers _ _ _) (kept_ite
        (quarterFlush_kept _ hk) hk)))))

theorem fenceTimeout_kept (b : BlockId) {s₀ s : State} (hk : Kept s₀ s) : Kept s₀ (fenceTimeout b s) := by
  unfold fenceTimeout
  split
  · exact isolateQuarter_kept _ _ _ hk
  · exact fatalNow_kept _ _ hk

theorem isolationTimeout_kept (q : Fin 4) {s₀ s : State} (hk : Kept s₀ s) : Kept s₀ (isolationTimeout q s) :=
  kept_ite (fatalNow_kept _ _ (kept_layers (passTo_layers _ _) hk)) hk

theorem execIsolationTimeout_kept (q : Fin 4) {s₀ s : State} (hk : Kept s₀ s) : Runs s₀ (execIsolationTimeout q s) :=
  runs_next (isolationTimeout_kept _ hk)

theorem bondStore_kept {s₀ s : State} (hk : Kept s₀ s) : Kept s₀ (bondStore s) :=
  Kept.update hk

theorem startQuarterReset_kept (q : Fin 4) {s₀ s : State} (hk : Kept s₀ s) : Kept s₀ (startQuarterReset q s) := by
  unfold startQuarterReset
  exact peerResets_kept _ _ (cutTasks_kept _ (kept_ite (bondStore_kept (kept_layers (modQuarter_layers _ _ _) hk))
    (kept_layers (modQuarter_layers _ _ _) hk)))

theorem nextQuarterReset_kept {s₀ s : State} (hk : Kept s₀ s) : Kept s₀ (nextQuarterReset s) := by
  unfold nextQuarterReset
  split
  · exact hk
  · split
    · exact startQuarterReset_kept _ hk
    · exact hk

theorem quarterIsolated_kept (q : Fin 4) {s₀ s : State} (hk : Kept s₀ s) : Kept s₀ (quarterIsolated q s) :=
  kept_ite hk (nextQuarterReset_kept (kept_events (raiseAs_events _ _ _ _ _ _ _) (kept_layers
    (modQuarter_layers _ _ _) hk)))

theorem execQuarterIsolated_kept (q : Fin 4) {s₀ s : State} (hk : Kept s₀ s) : Runs s₀ (execQuarterIsolated q s) :=
  runs_next (quarterIsolated_kept _ hk)

theorem voidAdmissions_kept (sel : Nat → Admission → Bool) {s₀ s : State} (hk : Kept s₀ s) :
    Kept s₀ (voidAdmissions sel s) :=
  kept_foldl (fun _ _ hk => kept_foldl (fun _ _ hk => voidPacket_kept _ _ hk) hk) hk

theorem linkWritten_kept (q : Fin 4) {s₀ s : State} (hk : Kept s₀ s) : Kept s₀ (linkWritten q s) :=
  kept_foldl (fun _ _ hk => kept_ite (modBuffer_kept _ _ (modQueue_kept _ _ hk)) hk) hk

theorem channelServes_kept (c : Fin 32) {s₀ s : State} (hk : Kept s₀ s) : Kept s₀ (channelServes c s) :=
  kept_layers (modChannel_layers _ _ _) hk

theorem channelBack_kept (c : Fin 32) {s₀ s : State} (hk : Kept s₀ s) : Kept s₀ (channelBack c s) := by
  unfold channelBack
  dsimp only
  split
  · exact kept_ite (holdTrim_kept _ (kept_layers (modChannel_layers _ _ _) (channelServes_kept _ hk)))
      (channelServes_kept _ hk)
  · exact channelServes_kept _ (kept_layers (drainAll_layers _ _) hk)

theorem resumeEffect_kept (b : BlockId) {s₀ s : State} (hk : Kept s₀ s) : Kept s₀ (resumeEffect b s) := by
  unfold resumeEffect
  split
  · exact kept_ite (toDetect_kept _ hk) hk
  · exact channelBack_kept _ hk
  · exact linkWritten_kept _ (voidAdmissions_kept _ hk)
  · exact kept_lines (sealFlush_lines _ _) (kept_lines (kennelFlush_lines _ _) hk)
  · exact hk

theorem resumeBlock_kept (b : BlockId) {s₀ s : State} (hk : Kept s₀ s) : Kept s₀ (resumeBlock b s) := by
  unfold resumeBlock
  dsimp only
  refine kept_ite hk ?_
  split
  · exact recomputeLedger_kept _ (kept_events (raiseBlock_events _ _ _ _) (resumeEffect_kept _ (modBlock_kept _ _ hk)))
  · exact kept_events (raiseBlock_events _ _ _ _) (resumeEffect_kept _ (modBlock_kept _ _ hk))

theorem startBlockReset_kept (b : BlockId) {s₀ s : State} (hk : Kept s₀ s) : Kept s₀ (startBlockReset b s) :=
  peerResets_kept _ _ (cutTasks_kept _ (modBlock_kept _ _ hk))

theorem noteTrim_kept (c : Fin 32) {s₀ s : State} (hk : Kept s₀ s) : Kept s₀ (noteTrim c s) :=
  kept_layers (modVertical_layers _ _ _) hk

theorem channelAwake_kept (begun : Nat) (c : Fin 32) {s₀ s : State} (hk : Kept s₀ s) :
    Kept s₀ (channelAwake begun c s) := by
  unfold channelAwake
  dsimp only
  refine kept_ite ?_ ?_
  · refine rewriteQueue_kept _ (exitRefreshAt_kept _ _ _ ?_)
    exact kept_ite (kept_events (raise_events _ _ _ _ _) (kept_layers (modChannel_layers _ _ _)
      (channelServes_kept _ hk))) (kept_layers (modChannel_layers _ _ _) (channelServes_kept _ hk))
  · refine kept_ite ?_ ?_
    · exact kept_events (raise_events _ _ _ _ _) (kept_layers (modChannel_layers _ _ _) (channelServes_kept _ hk))
    · exact kept_layers (modChannel_layers _ _ _) (channelServes_kept _ hk)

theorem passHeld_kept (q : Fin 4) (since : Nat) {s₀ s : State} (hk : Kept s₀ s) : Kept s₀ (passHeld q since s) :=
  kept_foldl (fun _ _ hk => kept_ite (kept_layers (modChannel_layers _ _ _) hk) hk) hk

theorem quarterChannelsBack_kept (q : Fin 4) (since : Nat) {s₀ s : State} (hk : Kept s₀ s) :
    Kept s₀ (quarterChannelsBack q since s) :=
  kept_foldl (fun _ _ hk => kept_ite (channelAwake_kept _ _ hk) hk) (passHeld_kept _ _ hk)

theorem quarterBlocksBack_kept (q : Fin 4) {s₀ s : State} (hk : Kept s₀ s) : Kept s₀ (quarterBlocksBack q s) :=
  kept_foldl (fun _ _ hk => kept_events (raiseBlock_events _ _ _ _) (modBlock_kept _ _ hk)) hk

theorem quarterPolicers_kept (q : Fin 4) (since : Nat) {s₀ s : State} (hk : Kept s₀ s) :
    Kept s₀ (quarterPolicers q since s) :=
  kept_ite (kept_foldl (fun _ _ hk => kept_ite (fillPolicers_kept _ _ hk) hk) hk) hk

theorem quarterResetDone_kept (q : Fin 4) {s₀ s : State} (hk : Kept s₀ s) : Kept s₀ (quarterResetDone q s) := by
  unfold quarterResetDone
  dsimp only
  refine kept_ite hk (nextQuarterReset_kept (recomputeLedger_kept _ ?_))
  have h : Kept s₀ (raise 0x0014 5 q [] (endTasks (fun t => decide (t.work = .quarterReset q)) .ok
      (quarterPolicers q s.quarters[q].isolatedAt (quarterFlush q (voidAdmissions (fun k _ => decide (homeSlice k = q))
        (quarterBlocksBack q (quarterChannelsBack q s.quarters[q].isolatedAt (modQuarter q (fun y =>
          { y with state := .inService, pllLocked := true, pllBand := lockBand s }) s)))))))) :=
    kept_events (raise_events _ _ _ _ _) (endTasks_kept _ _ (quarterPolicers_kept _ _ (quarterFlush_kept _
      (voidAdmissions_kept _ (quarterBlocksBack_kept _ (quarterChannelsBack_kept _ _
        (kept_layers (modQuarter_layers _ _ _) hk)))))))
  exact kept_ite (toDetect_kept _ h) h

/-! ### Commands of the channel controllers -/

theorem activate_kept (c : Fin 32) (b : Fin 16) (row : Nat) {s₀ s : State} (hk : Kept s₀ s) :
    Kept s₀ (activate c b row s) :=
  kept_ite (kept_layers (openBank_layers _ _) (kept_layers (noteTrigger_layers _ _) hk)) hk

theorem execAct_kept (c : Fin 32) (bank : Fin 16) (row : Fin 65600) {s₀ s : State} (hk : Kept s₀ s) :
    Runs s₀ (execAct c bank row s) :=
  runs_next (activate_kept _ _ _ hk)

theorem precharge_kept (c : Fin 32) (b : Fin 16) {s₀ s : State} (hk : Kept s₀ s) : Kept s₀ (precharge c b s) :=
  kept_ite (kept_layers (closeRow_layers _ _ _) hk) hk

theorem execPre_kept (c : Fin 32) (bank : Fin 16) {s₀ s : State} (hk : Kept s₀ s) : Runs s₀ (execPre c bank s) :=
  runs_next (precharge_kept _ _ hk)

theorem refreshBank_kept (c : Fin 32) (b : Fin 16) {s₀ s : State} (hk : Kept s₀ s) : Kept s₀ (refreshBank c b s) :=
  kept_ite (kept_layers (refreshNow_layers _ _ _) hk) hk

theorem execRefpb_kept (c : Fin 32) (bank : Fin 16) {s₀ s : State} (hk : Kept s₀ s) : Runs s₀ (execRefpb c bank s) :=
  runs_next (refreshBank_kept _ _ hk)

theorem refreshTimer_kept (c : Fin 32) (b : Fin 16) {s₀ s : State} (hk : Kept s₀ s) : Kept s₀ (refreshTimer c b s) := by
  unfold refreshTimer
  dsimp only
  split
  · exact hk
  · split
    · exact kept_layers (modChannel_layers _ _ _) (kept_layers (modBank_layers _ _ _ _) hk)
    · split
      · exact kept_layers (modChannel_layers _ _ _) (kept_layers (refreshNow_layers _ _ _) (kept_layers
          (modChannel_layers _ _ _) (kept_layers (modBank_layers _ _ _ _) hk)))
      · split
        · exact kept_layers (refreshNow_layers _ _ _) (kept_layers (modChannel_layers _ _ _) (kept_layers
            (modBank_layers _ _ _ _) hk))
        · exact kept_layers (modChannel_layers _ _ _) (kept_layers (modBank_layers _ _ _ _) hk)

theorem execRefreshTimer_kept (c : Fin 32) (bank : Fin 16) {s₀ s : State} (hk : Kept s₀ s) :
    Runs s₀ (execRefreshTimer c bank s) :=
  runs_next (refreshTimer_kept _ _ hk)

theorem budgetWindow_kept (c : Fin 32) {s₀ s : State} (hk : Kept s₀ s) : Kept s₀ (budgetWindow c s) :=
  kept_layers (creditWindows_layers _ _) (kept_layers (passTo_layers _ _) hk)

theorem execBudgetWindow_kept (c : Fin 32) {s₀ s : State} (hk : Kept s₀ s) : Runs s₀ (execBudgetWindow c s) :=
  runs_next (budgetWindow_kept _ hk)

theorem nopWord_kept (c : Fin 32) {s₀ s : State} (hk : Kept s₀ s) : Kept s₀ (nopWord c s) :=
  kept_ite (kept_layers (issueWord_layers _ _ _) (kept_layers (passTo_layers _ _) (kept_layers
    (wakePowerDown_layers _ _) hk))) hk

theorem observeLine_kept (path : Path) (pl : Place) {s₀ s : State} (hk : Kept s₀ s) :
    Kept s₀ (observeLine path pl s) := by
  unfold observeLine
  split
  · exact hk
  · exact kept_layers (decodeRead_layers _ _ _ _) hk

theorem markAged_kept (c : Fin 32) {s₀ s : State} (hk : Kept s₀ s) : Kept s₀ (markAged c s) :=
  kept_layers (modChannel_layers _ _ _) hk

theorem columnRead_kept (c : Fin 32) (b : Fin 16) (line : Fin 32) {s₀ s : State} (hk : Kept s₀ s) :
    Kept s₀ (columnRead c b line s) := by
  unfold columnRead
  dsimp only
  split
  · exact kept_ite (observeLine_kept _ _ (kept_layers (readBurst_layers _ _) (kept_ite (markAged_kept _ hk) hk))) hk
  · exact hk

theorem execColumnRead_kept (c : Fin 32) (bank : Fin 16) (line : Fin 32) {s₀ s : State} (hk : Kept s₀ s) :
    Runs s₀ (execColumnRead c bank line s) :=
  runs_next (columnRead_kept _ _ _ hk)

theorem columnWrite_kept (c : Fin 32) (b : Fin 16) (line : Fin 32) {s₀ s : State} (hk : Kept s₀ s) :
    Kept s₀ (columnWrite c b line s) := by
  unfold columnWrite
  split
  · split
    · exact kept_ite (kept_layers (writeEntry_layers _ _ _) hk) hk
    · exact hk
  · exact hk

theorem skeinRead_kept (c : Fin 32) (b : Fin 16) {s₀ s : State} (hk : Kept s₀ s) : Kept s₀ (skeinRead c b s) := by
  unfold skeinRead
  dsimp only
  split
  · exact kept_ite (kept_layers (modChannel_layers _ _ _) (kept_layers (rowRead_layers _ _ _ _ _) hk)) hk
  · exact hk

theorem execSkrd_kept (c : Fin 32) (bank : Fin 16) {s₀ s : State} (hk : Kept s₀ s) : Runs s₀ (execSkrd c bank s) :=
  runs_next (skeinRead_kept _ _ hk)

theorem skeinWrite_kept (c : Fin 32) (b : Fin 16) (image : List Line) {s₀ s : State} (hk : Kept s₀ s) :
    Kept s₀ (skeinWrite c b image s) := by
  unfold skeinWrite
  dsimp only
  split
  · split
    · split
      · exact kept_lines (kennelDropBlock_lines _ _ _) (kept_layers (rowWriteBoth_layers _ _ _) hk)
      · exact kept_layers (rowWriteBoth_layers _ _ _) hk
    · exact hk
  · exact hk

theorem execSkwr_kept (c : Fin 32) (bank : Fin 16) (image : List Line) {s₀ s : State} (hk : Kept s₀ s) :
    Runs s₀ (execSkwr c bank image s) :=
  runs_next (skeinWrite_kept _ _ _ hk)

theorem fallbackEntry_kept (c : Fin 32) {s₀ s : State} (hk : Kept s₀ s) : Kept s₀ (fallbackEntry c s) :=
  kept_ite (kept_layers (modChannel_layers _ _ _) (kept_ite hk (kept_layers (passTo_layers _ _) hk))) hk

theorem execFallbackEntry_kept (c : Fin 32) {s₀ s : State} (hk : Kept s₀ s) : Runs s₀ (execFallbackEntry c s) :=
  runs_next (fallbackEntry_kept _ hk)

theorem fallbackExit_kept (c : Fin 32) {s₀ s : State} (hk : Kept s₀ s) : Kept s₀ (fallbackExit c s) := by
  unfold fallbackExit
  dsimp only
  split
  · split
    · exact kept_layers (modChannel_layers _ _ _) hk
    · split
      · exact kept_layers (modChannel_layers _ _ _) (kept_layers (passTo_layers _ _) hk)
      · exact kept_layers (modChannel_layers _ _ _) (kept_layers (passTo_layers _ _) hk)
  · exact hk

theorem execFallbackExit_kept (c : Fin 32) {s₀ s : State} (hk : Kept s₀ s) : Runs s₀ (execFallbackExit c s) :=
  runs_next (fallbackExit_kept _ hk)

theorem agePromotion_kept (c : Fin 32) {s₀ s : State} (hk : Kept s₀ s) : Kept s₀ (agePromotion c s) := by
  unfold agePromotion
  dsimp only
  split
  · exact hk
  · exact kept_layers (modChannel_layers _ _ _) (kept_layers (passTo_layers _ _) hk)

theorem writeQueueEntry_kept (c : Fin 32) {s₀ s : State} (hk : Kept s₀ s) : Kept s₀ (writeQueueEntry c s) := by
  unfold writeQueueEntry
  dsimp only
  split
  · exact hk
  · refine kept_ite ?_ ?_
    · exact hk
    · split
      · rename_i s e1
        exact settleLine_kept _ _ _ ((kept_of_eq e1 (kept_lines (hostWrite_lines _ _ _ _ _) (kept_layers
          (modChannel_layers _ _ _) (kept_layers (noteTrigger_layers _ _) hk)))))
      · rename_i e s e1
        exact settleLine_kept _ _ _ ((kept_of_eq e1 (kept_lines (hostWrite_lines _ _ _ _ _) (kept_layers
          (modChannel_layers _ _ _) (kept_layers (noteTrigger_layers _ _) hk)))))

theorem unrefresh_kept (w : CmdWord) (c : Fin 32) {s₀ s : State} (hk : Kept s₀ s) : Kept s₀ (unrefresh w s c) := by
  unfold unrefresh
  split
  · exact kept_layers (modBank_layers _ _ _ _) hk
  · exact hk

theorem rerefresh_kept (w : CmdWord) (c : Fin 32) {s₀ s : State} (hk : Kept s₀ s) : Kept s₀ (rerefresh w s c) := by
  unfold rerefresh
  split
  · exact kept_layers (modChannel_layers _ _ _) (kept_layers (modBank_layers _ _ _ _) hk)
  · exact hk

theorem discardWords_kept (c : Fin 32) (ws : List CmdWord) {s₀ s : State} (hk : Kept s₀ s) :
    Kept s₀ (discardWords c ws s) :=
  kept_layers (modChannel_layers _ _ _) (kept_foldl (fun _ _ hk => unrefresh_kept _ _ hk) hk)

theorem replayBuffer_kept (c : Fin 32) {s₀ s : State} (hk : Kept s₀ s) : Kept s₀ (replayBuffer c s) := by
  unfold replayBuffer
  exact kept_layers (modChannel_layers _ _ _) (kept_foldl (fun _ _ hk => rerefresh_kept _ _ hk) (kept_layers
    (passTo_layers _ _) hk))

theorem caParity_kept (c : Fin 32) {s₀ s : State} (hk : Kept s₀ s) : Kept s₀ (caParity c s) := by
  unfold caParity
  dsimp only
  refine kept_ite hk ?_
  refine kept_ite ?_ ?_
  · exact fenceBlock_kept _ _ _ (kept_events (raise_events _ _ _ _ _) (kept_layers (modChannel_layers _ _ _)
      (discardWords_kept _ _ (kept_events (raise_events _ _ _ _ _) (kept_layers (modChannel_layers _ _ _) hk)))))
  · refine kept_ite ?_ ?_
    · exact holdTrim_kept _ (kept_layers (modChannel_layers _ _ _) (discardWords_kept _ _ (kept_events
        (raise_events _ _ _ _ _) (kept_layers (modChannel_layers _ _ _) hk))))
    · exact replayBuffer_kept _ (kept_layers (modChannel_layers _ _ _) (discardWords_kept _ _ (kept_events
        (raise_events _ _ _ _ _) (kept_layers (modChannel_layers _ _ _) hk))))

theorem readRetry_kept (c : Fin 32) (b : Fin 16) (row : Nat) (burst : BadBurst) {s₀ s : State} (hk : Kept s₀ s) :
    Kept s₀ (readRetry c b row burst s) := by
  unfold readRetry
  dsimp only
  refine kept_ite ?_ ?_
  · split
    · exact kept_layers (decodeRead_layers _ _ _ _) (kept_layers (touchBank_layers _ _) (kept_layers
        (closeRow_layers _ _ _) (kept_layers (modChannel_layers _ _ _) (kept_layers (touchBank_layers _ _) hk))))
    · exact kept_layers (decodeRead_layers _ _ _ _) (kept_layers (touchBank_layers _ _) (kept_layers
        (closeRow_layers _ _ _) (kept_layers (modChannel_layers _ _ _) (kept_layers (touchBank_layers _ _) hk))))
    · exact kept_events (raiseBank_events _ _ _ _ _) (kept_layers (modChannel_layers _ _ _) (kept_layers
        (decodeRead_layers _ _ _ _) (kept_layers (touchBank_layers _ _) (kept_layers (closeRow_layers _ _ _)
        (kept_layers (modChannel_layers _ _ _) (kept_layers (touchBank_layers _ _) hk))))))
  · exact hk

theorem execReadRetry_kept (c : Fin 32) (bank : Fin 16) (row : Fin 65600) (burst : BadBurst) {s₀ s : State}
    (hk : Kept s₀ s) : Runs s₀ (execReadRetry c bank row burst s) :=
  runs_next (readRetry_kept _ _ _ _ hk)

theorem powerDownEntry_kept (c : Fin 32) {s₀ s : State} (hk : Kept s₀ s) : Kept s₀ (powerDownEntry c s) := by
  unfold powerDownEntry
  dsimp only
  split
  · split
    · exact kept_layers (modChannel_layers _ _ _) (closeRows_kept _ (kept_layers (passTo_layers _ _) (kept_layers
        (drainTo_layers _ _ _ _) hk)))
    · exact kept_layers (drainTo_layers _ _ _ _) hk
  · exact hk

theorem execPowerDownEntry_kept (c : Fin 32) {s₀ s : State} (hk : Kept s₀ s) : Runs s₀ (execPowerDownEntry c s) :=
  runs_next (powerDownEntry_kept _ hk)

theorem selfRefreshEntry_kept (c : Fin 32) {s₀ s : State} (hk : Kept s₀ s) : Kept s₀ (selfRefreshEntry c s) :=
  kept_ite (kept_layers (modChannel_layers _ _ _) (payDebts_kept _ (kept_layers (passTo_layers _ _) hk))) hk

theorem execSelfRefreshEntry_kept (c : Fin 32) {s₀ s : State} (hk : Kept s₀ s) : Runs s₀ (execSelfRefreshEntry c s) :=
  runs_next (selfRefreshEntry_kept _ hk)

/-! ### Terrier -/

theorem noteCorrected_kept (pl : Place) {s₀ s : State} (hk : Kept s₀ s) : Kept s₀ (noteCorrected pl s) :=
  kept_events (raiseLimitedFor_events _ _ _ _ _ _) hk

theorem settleBad_kept (source : Nat) (pl : Place) {s₀ s : State} (hk : Kept s₀ s) :
    Kept s₀ (settleBad source pl s) := by
  unfold settleBad
  dsimp only
  split
  · exact noteCorrected_kept _ (kept_layers (modChannel_layers _ _ _) (kept_ite (kept_lines
      (kennelWriteBack_lines _ _) hk) (kept_lines (partitionWrite_lines _ _ _ _ _) hk)))
  · exact noteCorrected_kept _ (kept_layers (modChannel_layers _ _ _) (kept_ite (kept_lines (sealFlush_lines _ _) hk)
      (kept_layers (pushWrite_layers _ _ _ _) hk)))
  · split
    · exact hk
    · split
      · exact kept_events (raiseBank_events _ _ _ _ _) (kept_layers (pushWrite_layers _ _ _ _) hk)
      · exact kept_events (raiseBank_events _ _ _ _ _) (kept_layers (pushWrite_layers _ _ _ _) (kept_layers
          (modChannel_layers _ _ _) hk))

theorem terrierLine_kept (path : Path) (source : Nat) (pl : Place) {s₀ s : State} (hk : Kept s₀ s) :
    Kept s₀ (terrierLine path source pl s).2 := by
  unfold terrierLine
  extract_lets ch
  split
  · exact hk
  · dsimp only
    exact kept_layers (modChannel_layers _ _ _) hk
  · extract_lets u v
    have hu : Kept s₀ u := kept_layers (countWires_layers _ _ _ _) (kept_layers (modChannel_layers _ _ _) hk)
    exact noteCorrected_kept _ (kept_ite hu (kept_layers (pushWrite_layers _ _ _ _) hu))
  · dsimp only
    exact kept_layers (modChannel_layers _ _ _) hk
  · dsimp only
    exact settleBad_kept _ _ (kept_events (raiseBank_events _ _ _ _ _) (kept_layers (modChannel_layers _ _ _)
      (kept_layers (touchBank_layers _ _) hk)))

theorem terrierWake_kept (c : Fin 32) {s₀ s : State} (hk : Kept s₀ s) : Kept s₀ (terrierWake c s) :=
  kept_ite hk (leaveSelfRefresh_kept _ (kept_layers (modChannel_layers _ _ _) hk))

theorem spotCheck_kept (c : Fin 32) {s₀ s : State} (hk : Kept s₀ s) : Kept s₀ (spotCheck c s) := by
  unfold spotCheck
  dsimp only
  split
  · exact hk
  · split
    · exact kept_ite (kept_layers (modChannel_layers _ _ _) hk) (kept_layers (lineRead_layers _ _ _) (kept_layers
        (modChannel_layers _ _ _) hk))
    · split
      · exact hk
      · split
        · exact terrierWake_kept _ hk
        · split
          · exact endDrain_kept _ (kept_layers (modChannel_layers _ _ _) (terrierWake_kept _ hk))
          · exact terrierLine_kept _ _ _ (kept_layers (fetchLine_layers _ _) (endDrain_kept _ (kept_layers
              (modChannel_layers _ _ _) (terrierWake_kept _ hk))))

theorem noteRow_kept (c : Fin 32) (b : Fin 16) (row : Nat) (bad : Bool) {s₀ s : State} (hk : Kept s₀ s) :
    Kept s₀ (noteRow c b row bad s) :=
  kept_ite (kept_events (raiseBank_events _ _ _ _ _) (kept_layers (modBank_layers _ _ _ _) hk)) (kept_layers
    (modBank_layers _ _ _ _) hk)

theorem passCheck_kept {s₀ s : State} (hk : Kept s₀ s) : Kept s₀ (passCheck s) :=
  kept_ite (kept_events (raise_events _ _ _ _ _) (Kept.update hk)) hk

theorem endPass_kept (c : Fin 32) {s₀ s : State} (hk : Kept s₀ s) : Kept s₀ (endPass c s) :=
  passCheck_kept (kept_lines (modParams_lines _ _) (kept_layers (modChannel_layers _ _ _) hk))

theorem advancePatrol_kept (c : Fin 32) {s₀ s : State} (hk : Kept s₀ s) : Kept s₀ (advancePatrol c s) := by
  unfold advancePatrol
  dsimp only
  split
  · exact kept_layers (modChannel_layers _ _ _) hk
  · exact kept_ite (endPass_kept _ (kept_layers (modChannel_layers _ _ _) hk)) (kept_layers
      (modChannel_layers _ _ _) hk)

theorem patrolRead_kept (c : Fin 32) {s₀ s : State} (hk : Kept s₀ s) : Kept s₀ (patrolRead c s) := by
  unfold patrolRead
  dsimp only
  refine kept_ite hk (kept_ite (terrierWake_kept _ hk) ?_)
  refine advancePatrol_kept _ (kept_layers (modChannel_layers _ _ _) (noteRow_kept _ _ _ _ ?_))
  refine kept_foldl_snd (fun _ _ hk => ?_)
    (kept_layers (closeBank_layers _ _ _ _ _) (endDrain_kept _ (terrierWake_kept _ hk)))
  exact terrierLine_kept _ _ _ hk

theorem scrubLate_kept (c : Fin 32) {s₀ s : State} (hk : Kept s₀ s) : Kept s₀ (scrubLate c s) :=
  kept_ite hk (kept_events (raise_events _ _ _ _ _) (kept_layers (modChannel_layers _ _ _) (kept_layers
    (passTo_layers _ _) hk)))

theorem execScrubLate_kept (c : Fin 32) {s₀ s : State} (hk : Kept s₀ s) : Runs s₀ (execScrubLate c s) :=
  runs_next (scrubLate_kept _ hk)

theorem loseWay_kept (set : Nat) (way : Nat) {s₀ s : State} (hk : Kept s₀ s) : Kept s₀ (loseWay set way s) := by
  unfold loseWay
  dsimp only
  refine recomputeLedger_kept _ ?_
  split
  · exact kept_ite (loseKennelLine_kept _ hk) (Kept.update (kept_lines (kennelDrop_lines _ _ _) hk))
  · split
    · exact Kept.update (kept_ite (loseMetaLine_kept _ hk) (Kept.update hk))
    · exact Kept.update hk

theorem loseGranule_kept (g : Nat) {s₀ s : State} (hk : Kept s₀ s) : Kept s₀ (loseGranule g s) :=
  kept_ite hk (kept_ite (fatalNow_kept _ _ hk) (isolateQuarter_kept _ _ _ hk))

/-! ### Slabs -/

theorem turnTo_kept (choice : Nat) (c : Fin 32) {s₀ s : State} (hk : Kept s₀ s) : Kept s₀ (turnTo choice c s) :=
  Kept.update hk

theorem placeSlabs_kept (slabs : List (Fin 32 × Nat × Bool)) {s₀ s : State} (hk : Kept s₀ s) :
    Kept s₀ (placeSlabs slabs s).2 := by
  unfold placeSlabs
  dsimp only
  refine kept_foldl_snd ?_ hk
  intro _ _ hk
  split
  · exact turnTo_kept _ _ hk
  · exact hk

theorem logRepair_kept (r : Repair) {s₀ s : State} (hk : Kept s₀ s) : Kept s₀ (logRepair r s) :=
  Kept.update hk

theorem setReloc_kept (c : Fin 32) (sl : Nat) (tc : Nat) (ts : Nat) {s₀ s : State} (hk : Kept s₀ s) :
    Kept s₀ (setReloc c sl tc ts s) :=
  kept_layers (modChannel_layers _ _ _) (logRepair_kept _ hk)

theorem dropReloc_kept (c : Fin 32) (sl : Nat) {s₀ s : State} (hk : Kept s₀ s) : Kept s₀ (dropReloc c sl s) :=
  kept_ite (kept_layers (modChannel_layers _ _ _) (logRepair_kept _ hk)) hk

theorem zeroRow_kept (c : Fin 32) (b : Fin 16) (row : Nat) {s₀ s : State} (hk : Kept s₀ s) :
    Kept s₀ (zeroRow c b row s) :=
  Kept.dram (kept_layers (closeBank_layers _ _ _ _ _) hk) (memWf_filter _ _)

theorem slabRows_kept {f : Fin 16 → Nat → State → State} (sl : Nat) {s₀ s : State}
    (hf : ∀ x0 x1 u, Kept s₀ u → Kept s₀ (f x0 x1 u)) (hk : Kept s₀ s) : Kept s₀ (slabRows f sl s) :=
  kept_foldl (fun _ _ hk => hf _ _ _ hk) hk

theorem zeroSlab_kept (t : Nat × Nat) {s₀ s : State} (hk : Kept s₀ s) : Kept s₀ (zeroSlab s t) :=
  slabRows_kept _ (fun _ _ _ hk => zeroRow_kept _ _ _ hk) hk

theorem poisonSlab_kept (t : Nat × Nat) {s₀ s : State} (hk : Kept s₀ s) : Kept s₀ (poisonSlab t s) :=
  slabRows_kept _ (fun _ _ _ hk => kept_layers (rowWrite_layers _ _ _ _ _) hk) hk

theorem noteServed_kept (c : Fin 32) {s₀ s : State} (hk : Kept s₀ s) : Kept s₀ (noteServed c s) :=
  kept_ite (kept_events (raise_events _ _ _ _ _) hk) hk

theorem serveWaiting_kept (n : Nat) {s₀ s : State} (hk : Kept s₀ s) : Kept s₀ (serveWaiting n s) := by
  induction n generalizing s with
  | zero => exact hk
  | succ n ih =>
    unfold serveWaiting
    dsimp only
    split
    · exact ih (noteServed_kept _ (kept_layers (modChannel_layers _ _ _)
        (setReloc_kept _ _ _ _ (turnTo_kept _ _ (kept_ite (poisonSlab_kept _ hk) hk)))))
    · exact hk

theorem serveUnserved_kept {s₀ s : State} (hk : Kept s₀ s) : Kept s₀ (serveUnserved s) :=
  serveWaiting_kept _ hk

theorem finishRefills_kept (sel : Refill → Bool) {s₀ s : State} (hk : Kept s₀ s) : Kept s₀ (finishRefills sel s) :=
  serveUnserved_kept (Kept.update (kept_foldl (fun _ _ hk => zeroSlab_kept _ hk) hk))

theorem allocGranule_kept (chip : Bool) (q g : Nat) {s₀ s t : State} (hk : Kept s₀ s)
    (e : allocGranule chip q g s = some t) : Kept s₀ t := by
  unfold allocGranule at e
  dsimp only at e
  split at e
  · cases e
  · split at e
    · cases e
    · cases e
      exact kept_foldl (fun _ _ hk => setReloc_kept _ _ _ _ hk) (setGranule_kept _ _ (finishRefills_kept _
        (placeSlabs_kept _ (finishRefills_kept _ hk))))

theorem allocGranules_kept (chip : Bool) (q : Nat) (gs : List Nat) {s₀ s t : State} (hk : Kept s₀ s)
    (e : allocGranules chip q gs s = some t) : Kept s₀ t :=
  kept_foldl_bind (fun _ _ _ hk e => allocGranule_kept _ _ _ hk e) hk e

theorem releaseGranule_kept (g : Nat) {s₀ s : State} (hk : Kept s₀ s) : Kept s₀ (releaseGranule s g) :=
  setGranule_kept _ _ (Kept.update (kept_foldl (fun _ _ hk => kept_layers (modChannel_layers _ _ _)
    (dropReloc_kept _ _ hk)) hk))

theorem zeroGranule_kept (g : Nat) {s₀ s : State} (hk : Kept s₀ s) : Kept s₀ (zeroGranule g s) := by
  unfold zeroGranule
  refine kept_foldl ?_ hk
  intro _ _ hk
  split
  · exact zeroSlab_kept _ hk
  · exact kept_ite hk (zeroSlab_kept _ hk)

theorem refillNext_kept {s₀ s : State} (hk : Kept s₀ s) : Kept s₀ (refillNext s) := by
  unfold refillNext
  split
  · exact kept_ite (serveUnserved_kept (kept_foldl (fun _ _ hk => zeroSlab_kept _ hk) (Kept.update hk))) hk
  · exact hk

theorem execGranuleRefill_kept {s₀ s : State} (hk : Kept s₀ s) : Runs s₀ (execGranuleRefill s) :=
  runs_next (refillNext_kept hk)

/-! ### The internal movers -/

theorem queueStack_kept (w : Work) {s₀ s : State} (hk : Kept s₀ s) : Kept s₀ (queueStack w s) :=
  putTask_kept _ hk

theorem queueRetire_kept (c : Fin 32) {s₀ s : State} (hk : Kept s₀ s) : Kept s₀ (queueRetire c s) :=
  kept_ite (queueStack_kept _ (kept_layers (modChannel_layers _ _ _) hk)) hk

theorem clockFailure_kept (c : Fin 32) {s₀ s : State} (hk : Kept s₀ s) : Kept s₀ (clockFailure c s) := by
  unfold clockFailure
  dsimp only
  refine kept_ite hk ?_
  refine kept_ite ?_ ?_
  · exact passCheck_kept (Kept.update (kept_events (raise_events _ _ _ _ _) (recomputeLedger_kept _ (kept_layers
      (modChannel_layers _ _ _) (kept_ite (closeBanks_kept _ (endWaiting_kept _ _ _ (endNeeding_kept _ _ _ hk)))
      (logRepair_kept _ (closeBanks_kept _ (endWaiting_kept _ _ _ (endNeeding_kept _ _ _ hk)))))))))
  · exact passCheck_kept (queueStack_kept _ (Kept.update (kept_events (raise_events _ _ _ _ _) (recomputeLedger_kept _
      (kept_layers (modChannel_layers _ _ _) (kept_ite (closeBanks_kept _ (endWaiting_kept _ _ _
      (endNeeding_kept _ _ _ hk))) (logRepair_kept _ (closeBanks_kept _ (endWaiting_kept _ _ _
      (endNeeding_kept _ _ _ hk))))))))))

theorem endRetire_kept (c : Fin 32) {s₀ s : State} (hk : Kept s₀ s) : Kept s₀ (endRetire c s) := by
  unfold endRetire
  dsimp only
  refine endTasks_kept _ _ (passCheck_kept ?_)
  split
  · exact noteServed_kept _ (kept_layers (modChannel_layers _ _ _) (Kept.update hk))
  · exact kept_events (raise_events _ _ _ _ _) (kept_layers (modChannel_layers _ _ _) (Kept.update hk))

theorem startRetire_kept (t : Task) (c : Fin 32) {s₀ s : State} (hk : Kept s₀ s) : Kept s₀ (startRetire t c s) := by
  unfold startRetire
  dsimp only
  refine kept_ite (endTask_kept _ _ _ (kept_events (raise_events _ _ _ _ _) (kept_layers
    (modChannel_layers _ _ _) hk))) ?_
  refine kept_ite ?_ ?_
  · refine endRetire_kept _ (Kept.update ?_)
    exact kept_ite (kept_layers (modChannel_layers _ _ _) (kept_ite (pauseTasks_kept _ (preemptTests_kept _
      (modTask_kept _ _ (placeSlabs_kept _ hk)))) (modTask_kept _ _ (placeSlabs_kept _ hk)))) (kept_events
      (raise_events _ _ _ _ _) (recomputeLedger_kept _ (kept_layers (modChannel_layers _ _ _) (logRepair_kept _
      (leaveSelfRefresh_kept _ (kept_ite (pauseTasks_kept _ (preemptTests_kept _ (modTask_kept _ _
      (placeSlabs_kept _ hk)))) (modTask_kept _ _ (placeSlabs_kept _ hk))))))))
  · refine Kept.update ?_
    exact kept_ite (kept_layers (modChannel_layers _ _ _) (kept_ite (pauseTasks_kept _ (preemptTests_kept _
      (modTask_kept _ _ (placeSlabs_kept _ hk)))) (modTask_kept _ _ (placeSlabs_kept _ hk)))) (kept_events
      (raise_events _ _ _ _ _) (recomputeLedger_kept _ (kept_layers (modChannel_layers _ _ _) (logRepair_kept _
      (leaveSelfRefresh_kept _ (kept_ite (pauseTasks_kept _ (preemptTests_kept _ (modTask_kept _ _
      (placeSlabs_kept _ hk)))) (modTask_kept _ _ (placeSlabs_kept _ hk))))))))

theorem channelRetiring_kept (c : Fin 32) {s₀ s : State} (hk : Kept s₀ s) : Kept s₀ (channelRetiring c s) := by
  unfold channelRetiring
  dsimp only
  split
  · exact kept_ite (startRetire_kept _ _ hk) hk
  · exact hk

theorem finishResize_kept (pd : Fin 64) (final : Nat) {s₀ s : State} (hk : Kept s₀ s) :
    Kept s₀ (finishResize pd final s) :=
  endTasks_kept _ _ (kept_foldl (fun _ _ hk => releaseGranule_kept _ hk) (noteCommit_kept _ (kept_lines
    (modPartition_lines _ _ _) (Kept.update hk))))

theorem startMetaMove_kept (pd : Fin 64) (todo : List (Nat × Nat)) (final : Nat) {s₀ s : State} (hk : Kept s₀ s) :
    Kept s₀ (startMetaMove pd todo final s) :=
  kept_ite (finishResize_kept _ _ (Kept.update hk)) (Kept.update hk)

theorem startGrow_kept (t : Task) (pd : Fin 64) (final : Nat) {s₀ s : State} (hk : Kept s₀ s) :
    Kept s₀ (startGrow t pd final s) := by
  unfold startGrow
  dsimp only
  split
  · exact endTask_kept _ _ _ hk
  · rename_i s' e
    exact startMetaMove_kept _ _ _ (modTask_kept _ _ ((allocGranules_kept _ _ _ hk e)))

theorem shrinkSealed_kept (pd : Fin 64) (final : Nat) {s₀ s : State} (hk : Kept s₀ s) :
    Kept s₀ (shrinkSealed pd final s) := by
  unfold shrinkSealed
  dsimp only
  refine startMetaMove_kept _ _ _ (kept_lines (modPartition_lines _ _ _) ?_)
  refine kept_foldl ?_ (Kept.update hk)
  intro _ _ hk
  split
  · refine releaseGranule_kept _ ?_
    refine kept_foldl ?_ hk
    intro _ _ hk
    split
    · exact kept_layers (storeCoded_layers _ _ _) (kept_layers (modChannel_layers _ _ _) hk)
    · exact hk
  · refine zeroGranule_kept _ ?_
    refine kept_foldl ?_ hk
    intro _ _ hk
    split
    · exact kept_layers (storeCoded_layers _ _ _) (kept_layers (modChannel_layers _ _ _) hk)
    · exact hk

theorem copyRow_kept (src : Place) (dst : Place) {s₀ s : State} (hk : Kept s₀ s) : Kept s₀ (copyRow src dst s) := by
  unfold copyRow
  exact kept_layers (rowWrite_layers _ _ _ _ _) (kept_layers (rowRead_layers _ _ _ _ _) hk)

theorem resumeCopies_kept {s₀ s : State} (hk : Kept s₀ s) : Kept s₀ (resumeCopies s) :=
  Kept.update hk

theorem migrationCopy_kept {s₀ s : State} (hk : Kept s₀ s) : Kept s₀ (migrationCopy s) := by
  unfold migrationCopy
  dsimp only
  split
  · exact hk
  · exact endRetire_kept _ hk
  · refine kept_ite ?_ ?_
    · exact hk
    · refine kept_ite ?_ ?_
      · exact kept_ite (leaveSelfRefresh_kept _ (resumeCopies_kept hk)) (leaveSelfRefresh_kept _
          (leaveSelfRefresh_kept _ (resumeCopies_kept hk)))
      · refine Kept.update ?_
        exact kept_ite (kept_layers (rowWrite_layers _ _ _ _ _) (kept_ite (leaveSelfRefresh_kept _
          (resumeCopies_kept hk)) (leaveSelfRefresh_kept _ (leaveSelfRefresh_kept _ (resumeCopies_kept hk)))))
          (copyRow_kept _ _ (kept_ite (leaveSelfRefresh_kept _ (resumeCopies_kept hk)) (leaveSelfRefresh_kept _
          (leaveSelfRefresh_kept _ (resumeCopies_kept hk)))))
  · exact finishResize_kept _ _ hk
  · split
    · refine kept_ite ?_ ?_
      · exact hk
      · refine kept_ite ?_ ?_
        · exact leaveSelfRefresh_kept _ (leaveSelfRefresh_kept _ (resumeCopies_kept hk))
        · exact Kept.update (copyRow_kept _ _ (leaveSelfRefresh_kept _ (leaveSelfRefresh_kept _
            (resumeCopies_kept hk))))
    · exact hk

theorem slabSwitchover_kept {s₀ s : State} (hk : Kept s₀ s) : Kept s₀ (slabSwitchover s) := by
  unfold slabSwitchover
  dsimp only
  split
  · split
    · exact hk
    · split
      · refine endRetire_kept _ (Kept.update ?_)
        split
        · exact setReloc_kept _ _ _ _ hk
        · exact setReloc_kept _ _ _ _ hk
      · refine Kept.update ?_
        split
        · exact setReloc_kept _ _ _ _ hk
        · exact setReloc_kept _ _ _ _ hk
  · exact kept_ite hk (kept_ite (finishResize_kept _ _ (zeroGranule_kept _ (Kept.update hk))) (zeroGranule_kept _
      (Kept.update hk)))
  · exact hk

theorem execSlabSwitchover_kept {s₀ s : State} (hk : Kept s₀ s) : Runs s₀ (execSlabSwitchover s) :=
  runs_next (slabSwitchover_kept hk)

theorem rekeyFault_kept (pd : Fin 64) (d page n level : Nat) {s₀ s : State} (hk : Kept s₀ s) :
    Kept s₀ (rekeyFault pd d page n level s).2 := by
  induction n generalizing level s with
  | zero => exact hk
  | succ n ih =>
    unfold rekeyFault
    refine kept_ite_snd hk ?_
    extract_lets x
    have hx : Kept s₀ x.2.2 := kept_lines (pathRaw_lines _ _ _ _ _ _ _) hk
    split
    · exact hx
    · exact ih _ hx

theorem clearPath_kept (pd : Fin 64) (d : Nat) (page : Nat) (top : Nat) {s₀ s : State} (hk : Kept s₀ s) :
    Kept s₀ (clearPath pd d page top s) := by
  unfold clearPath
  exact kept_lines (modSeal_lines _ _ _) (kept_foldl (fun _ _ hk => kept_ite (kept_lines (sealStore_lines _ _) hk)
    (kept_lines (pushMeta_lines _ _ _ _ _ _) hk)) hk)

theorem finishRekey_kept (pd : Fin 64) (r : Rekey) {s₀ s : State} (hk : Kept s₀ s) : Kept s₀ (finishRekey pd r s) :=
  kept_foldl (fun _ _ hk => endTask_kept _ _ _ hk) (kept_events (raise_events _ _ _ _ _) (noteCommit_kept _ (kept_lines
    (modPartition_lines _ _ _) hk)))

theorem rekeyLine_kept (pd : Fin 64) (index : Nat) (oldKey : BitVec 512) (newKey : BitVec 512) {s₀ s : State}
    (hk : Kept s₀ s) : Kept s₀ (rekeyLine pd index oldKey newKey s) := by
  unfold rekeyLine
  split
  · rename_i l s e
    split
    · exact kept_of_eq e (kept_lines (storedRead_lines _ _ _ _) hk)
    · split
      · exact kept_layers (pushWrite_layers _ _ _ _) (kept_of_eq e (kept_lines (storedRead_lines _ _ _ _) hk))
      · exact kept_of_eq e (kept_lines (storedRead_lines _ _ _ _) hk)
  · rename_i st isolated s e
    split
    · exact kept_layers (pushWrite_layers _ _ _ _) (kept_of_eq e (kept_lines (storedRead_lines _ _ _ _) hk))
    · exact kept_of_eq e (kept_lines (storedRead_lines _ _ _ _) hk)

theorem noteQuarantinePage_kept (pd : Fin 64) (first : Nat) {s₀ s : State} (hk : Kept s₀ s) :
    Kept s₀ (noteQuarantinePage pd first s) :=
  kept_foldl (fun _ _ hk => kept_lines (noteQuarantine_lines _ _ _) hk) hk

theorem rekeyPage_kept (pd : Fin 64) (index : Nat) (oldKey : BitVec 512) (newKey : BitVec 512) {s₀ s : State}
    (hk : Kept s₀ s) : Kept s₀ (rekeyPage pd index oldKey newKey s) := by
  unfold rekeyPage
  dsimp only
  refine kept_lines (sealFlush_lines _ _) (kept_lines (putCounter_lines _ _ _ _ _) ?_)
  refine kept_lines (modSeal_lines _ _ _) ?_
  split
  · exact noteQuarantinePage_kept _ _ (clearPath_kept _ _ _ _ (rekeyFault_kept _ _ _ _ _ (kept_lines
      (sealMakeRoom_lines _ _ _ _) hk)))
  · split
    · rename_i c s e1
      split
      · exact kept_of_eq e1 (kept_lines (counterLine_lines _ _ _ _ _) (rekeyFault_kept _ _ _ _ _ (kept_lines
          (sealMakeRoom_lines _ _ _ _) hk)))
      · exact kept_lines (recryptPage_lines _ _ _ _ _ _ _ _ _ _) ((kept_of_eq e1 (kept_lines
          (counterLine_lines _ _ _ _ _) (rekeyFault_kept _ _ _ _ _ (kept_lines (sealMakeRoom_lines _ _ _ _) hk)))))
    · rename_i st isolated s e1
      exact noteQuarantinePage_kept _ _ ((kept_of_eq e1 (kept_lines (counterLine_lines _ _ _ _ _)
        (rekeyFault_kept _ _ _ _ _ (kept_lines (sealMakeRoom_lines _ _ _ _) hk)))))

theorem rekeyStep_kept (pd : Fin 64) {s₀ s : State} (hk : Kept s₀ s) : Kept s₀ (rekeyStep pd s) := by
  unfold rekeyStep
  extract_lets x u size oldKey
  split
  · exact hk
  · refine kept_ite hk ?_
    extract_lets newKey v
    have hu : Kept s₀ u := hk.update
    have hv : Kept s₀ v := kept_ite hu (kept_ite (rekeyPage_kept _ _ _ _ hu)
      (kept_lines (modSeal_lines _ _ _) (rekeyLine_kept _ _ _ _ hu)))
    split
    · exact kept_ite (finishRekey_kept _ _ hv) hv
    · exact hv

theorem keyLockoutEnd_kept {s₀ s : State} (hk : Kept s₀ s) : Kept s₀ (keyLockoutEnd s) := by
  unfold keyLockoutEnd
  split
  · exact modFuses_kept (fun _ => rfl) (kept_layers (passTo_layers _ _) hk)
  · exact hk

theorem execKeyLockoutEnd_kept {s₀ s : State} (hk : Kept s₀ s) : Runs s₀ (execKeyLockoutEnd s) :=
  runs_next (keyLockoutEnd_kept hk)

/-! ### The vertical interface -/

theorem shiftPosition_kept (c : Fin 32) (path : Path) (wire : Nat) (pos : Nat) {s₀ s : State} (hk : Kept s₀ s) :
    Kept s₀ (shiftPosition c path wire pos s) :=
  kept_events (raise_events _ _ _ _ _) (kept_layers (modVertical_layers _ _ _) (kept_layers (issueWord_layers _ _ _)
    (logRepair_kept _ hk)))

theorem eraseWire_kept (c : Fin 32) (path : Path) (wire : Nat) {s₀ s : State} (hk : Kept s₀ s) :
    Kept s₀ (eraseWire c path wire s) :=
  kept_events (raise_events _ _ _ _ _) (kept_layers (modVertical_layers _ _ _) (logRepair_kept _ hk))

theorem repairWire_kept (c : Fin 32) (path : Path) (wire : Nat) {s₀ s : State} (hk : Kept s₀ s) :
    Kept s₀ (repairWire c path wire s).2 := by
  have hu : Kept s₀ (eraseWire c path wire s) := eraseWire_kept _ _ _ hk
  unfold repairWire
  dsimp only
  generalize eraseWire c path wire s = u at hu ⊢
  split
  · dsimp only
    exact shiftPosition_kept _ _ _ _ hk
  · split
    · dsimp only
      exact queueRetire_kept _ (kept_layers (modVertical_layers _ _ _) hk)
    · split
      · exact hk
      · split
        · dsimp only
          exact queueRetire_kept _ hu
        · exact hu

theorem setTaps_kept (sweep : Bool) (c : Fin 32) (t : TrimProbe) {s₀ s : State} (hk : Kept s₀ s) :
    Kept s₀ (setTaps sweep c t s) :=
  kept_ite (kept_events (raise_events _ _ _ _ _) (kept_layers (modVertical_layers _ _ _) hk)) (kept_layers
    (modVertical_layers _ _ _) hk)

theorem refreshDown_kept (c : Fin 32) {s₀ s : State} (hk : Kept s₀ s) : Kept s₀ (refreshDown c s) :=
  kept_foldl (fun _ _ hk => kept_foldl (fun _ _ hk => kept_layers (refreshNow_layers _ _ _) hk) hk) hk

theorem leaveTrim_kept (c : Fin 32) {s₀ s : State} (hk : Kept s₀ s) : Kept s₀ (leaveTrim c s) := by
  unfold leaveTrim
  dsimp only
  refine rewriteQueue_kept _ (kept_foldl (fun _ _ hk => kept_ite (kept_layers (refreshNow_layers _ _ _) hk) hk) ?_)
  split
  · exact replayBuffer_kept _ (kept_layers (modChannel_layers _ _ _) (kept_ite (kept_layers
      (modChannel_layers _ _ _) hk) hk))
  · exact kept_ite (kept_layers (modChannel_layers _ _ _) hk) hk

theorem trimTaps_kept (c : Fin 32) (t : TrimProbe) {s₀ s : State} (hk : Kept s₀ s) : Kept s₀ (trimTaps c t s) := by
  unfold trimTaps
  dsimp only
  split
  · split
    · exact clockFailure_kept _ (kept_layers (modVertical_layers _ _ _) (kept_layers (modChannel_layers _ _ _)
        (noteTrim_kept _ (kept_layers (passTo_layers _ _) (refreshDown_kept _ hk)))))
    · exact kept_layers (modVertical_layers _ _ _) (kept_layers (modChannel_layers _ _ _) (noteTrim_kept _ (kept_layers
        (passTo_layers _ _) (refreshDown_kept _ hk))))
  · exact kept_foldl (fun _ _ hk => kept_ite (repairWire_kept _ _ _ hk) hk) (setTaps_kept _ _ _ (kept_layers
      (modVertical_layers _ _ _) (kept_layers (modChannel_layers _ _ _) (noteTrim_kept _ (kept_layers
      (passTo_layers _ _) (refreshDown_kept _ hk))))))

theorem applyTrim_kept (c : Fin 32) (t : TrimProbe) {s₀ s : State} (hk : Kept s₀ s) : Kept s₀ (applyTrim c t s) :=
  kept_ite (trimTaps_kept _ _ hk) (kept_ite (holdTrim_kept _ (trimTaps_kept _ _ hk)) (leaveTrim_kept _
    (trimTaps_kept _ _ hk)))

theorem driftTrim_kept (c : Fin 32) {s₀ s : State} (hk : Kept s₀ s) : Kept s₀ (driftTrim c s) :=
  kept_ite (holdTrim_kept _ hk) hk

theorem mergeTrims_kept (c : Fin 32) {s₀ s : State} (hk : Kept s₀ s) : Kept s₀ (mergeTrims c s) :=
  endTasks_kept _ _ hk

theorem verticalTrim_kept (c : Fin 32) (probe : TrimProbe) {s₀ s : State} (hk : Kept s₀ s) :
    Kept s₀ (verticalTrim c probe s) :=
  kept_ite (kept_ite (mergeTrims_kept _ (applyTrim_kept _ _ hk)) (applyTrim_kept _ _ hk)) hk

theorem trimRetry_kept (c : Fin 32) (probe : TrimProbe) {s₀ s : State} (hk : Kept s₀ s) :
    Kept s₀ (trimRetry c probe s) :=
  kept_ite (kept_ite (mergeTrims_kept _ (applyTrim_kept _ _ (kept_layers (passTo_layers _ _) hk))) (applyTrim_kept _ _
    (kept_layers (passTo_layers _ _) hk))) hk

theorem shiftRepair_kept (c : Fin 32) (path : Path) (wire : Nat) (probe : TrimProbe) {s₀ s : State} (hk : Kept s₀ s) :
    Kept s₀ (shiftRepair c path wire probe s) :=
  kept_ite (mergeTrims_kept _ (applyTrim_kept _ _ (repairWire_kept _ _ _ hk))) hk

theorem echoPosition_kept (c : Fin 32) (pos : Nat) {s₀ s : State} (hk : Kept s₀ s) : Kept s₀ (echoPosition c s pos) :=
  kept_ite hk (kept_ite (kept_layers (modChannel_layers _ _ _) (shiftPosition_kept _ _ _ _ hk)) (queueRetire_kept _ hk))

theorem echoTest_kept (b : BlockId) (echo : List Nat) {s₀ s : State} (hk : Kept s₀ s) :
    Kept s₀ (echoTest b echo s) := by
  unfold echoTest
  split
  · exact kept_ite (kept_foldl (fun _ _ hk => echoPosition_kept _ _ hk) (kept_layers (modChannel_layers _ _ _) hk)) hk
  · exact hk

theorem autoBlockReset_kept (b : BlockId) (echo : List Nat) {s₀ s : State} (hk : Kept s₀ s) :
    Kept s₀ (autoBlockReset b echo s) :=
  kept_ite (startBlockReset_kept _ (echoTest_kept _ _ hk)) hk

theorem execAutoBlockReset_kept (b : BlockId) (echo : List Nat) {s₀ s : State} (hk : Kept s₀ s) :
    Runs s₀ (execAutoBlockReset b echo s) :=
  runs_next (autoBlockReset_kept _ _ hk)

theorem repairRow_kept (c : Fin 32) (b : Fin 16) (row : Nat) {s₀ s : State} (hk : Kept s₀ s) :
    Kept s₀ (repairRow c b row s).2 := by
  unfold repairRow
  extract_lets k pl r u v
  have hr : Kept s₀ r.2 := kept_layers (rowRead_layers _ _ _ _ _) hk
  have hu : Kept s₀ u := logRepair_kept _ hr
  have hv : Kept s₀ v := kept_layers (modBank_layers _ _ _ _) hu
  refine kept_ite_snd (kept_ite hk (kept_events (raiseBank_events _ _ _ _ _) (kept_layers
    (modBank_layers _ _ _ _) hk))) ?_
  dsimp only
  exact kept_events (raiseBank_events _ _ _ _ _) (kept_layers (rowWrite_layers _ _ _ _ _) hv)

theorem postPackageRepair_kept (c : Fin 32) (b : Fin 16) (row : Nat) {s₀ s : State} (hk : Kept s₀ s) :
    Kept s₀ (postPackageRepair c b row s) :=
  kept_ite (repairRow_kept _ _ _ (kept_layers (passTo_layers _ _) (refreshDown_kept _ hk))) hk

theorem execPostPackageRepair_kept (c : Fin 32) (bank : Fin 16) (row : Fin 65600) {s₀ s : State} (hk : Kept s₀ s) :
    Runs s₀ (execPostPackageRepair c bank row s) :=
  runs_next (postPackageRepair_kept _ _ _ hk)

theorem keeperStop_kept (c : Fin 32) {s₀ s : State} (hk : Kept s₀ s) : Kept s₀ (keeperStop c s) :=
  kept_layers (modChannel_layers _ _ _) hk

theorem layerKeeper_kept (c : Fin 32) {s₀ s : State} (hk : Kept s₀ s) : Kept s₀ (layerKeeper c s) :=
  kept_ite hk (keeperStop_kept _ (kept_layers (passTo_layers _ _) hk))

theorem execLayerKeeper_kept (c : Fin 32) {s₀ s : State} (hk : Kept s₀ s) : Runs s₀ (execLayerKeeper c s) :=
  runs_next (layerKeeper_kept _ hk)

theorem bondEvents_kept (i : Fin 20) {s₀ s : State} (hk : Kept s₀ s) : Kept s₀ (bondEvents s i) := by
  unfold bondEvents
  dsimp only
  split
  · exact kept_events (raise_events _ _ _ _ _) (modBond_kept _ _ (kept_ite (kept_events (raise_events _ _ _ _ _)
      (modBond_kept _ _ hk)) hk))
  · exact kept_ite (kept_events (raise_events _ _ _ _ _) (modBond_kept _ _ hk)) hk

theorem bondSample_kept {s₀ s : State} (hk : Kept s₀ s) : Kept s₀ (bondSample s) :=
  kept_foldl (fun _ _ hk => bondEvents_kept _ hk) (kept_foldl (fun _ _ hk => modBond_kept _ _ hk) hk)

theorem execBondSample_kept {s₀ s : State} (hk : Kept s₀ s) : Runs s₀ (execBondSample s) :=
  runs_next (bondSample_kept hk)

theorem execBondStore_kept {s₀ s : State} (hk : Kept s₀ s) : Runs s₀ (execBondStore s) :=
  runs_next (bondStore_kept hk)

/-! ### The fuse array -/

theorem putFuseWord_kept (i : Nat) (w : FuseWord) {s₀ s : State} (hk : Kept s₀ s) : Kept s₀ (putFuseWord i w s) :=
  modFuses_wf hk (sparsePut_wf _ _ _ _)

theorem burnInto_kept (ws : List (Nat × BitVec 32)) {s₀ s : State} (hk : Kept s₀ s) : Kept s₀ (burnInto ws s) :=
  kept_foldl (fun _ _ hk => putFuseWord_kept _ _ hk) hk

theorem cureWords_kept (ws : List (Nat × BitVec 32)) {s₀ s : State} (hk : Kept s₀ s) : Kept s₀ (cureWords ws s) :=
  kept_foldl (fun _ _ hk => putFuseWord_kept _ _ hk) hk

theorem partWord_kept (n : Nat) (bits : BitVec 32) {s₀ s : State} (hk : Kept s₀ s) : Kept s₀ (partWord n bits s) :=
  putFuseWord_kept _ _ hk

theorem cutBurn_kept (mid : Bool) (t : Task) (st : KStatus) {s₀ s : State} (hk : Kept s₀ s) :
    Kept s₀ (cutBurn mid t st s) := by
  unfold cutBurn
  dsimp only
  refine endTask_kept _ _ _ (drawOne_kept ?_)
  split
  · exact partWord_kept _ _ (kept_ite (cureWords_kept _ hk) (burnInto_kept _ hk))
  · exact kept_ite (cureWords_kept _ hk) (burnInto_kept _ hk)

theorem cutBurns_kept (mid : Bool) (st : KStatus) {s₀ s : State} (hk : Kept s₀ s) : Kept s₀ (cutBurns mid st s) :=
  kept_foldl (fun _ _ hk => cutBurn_kept _ _ _ hk) hk

/-! ### Heat -/

theorem refreshValues_kept {s₀ s : State} (hk : Kept s₀ s) : Kept s₀ (refreshValues s) :=
  Kept.update hk

theorem declareSuspect_kept (k : Fin 17) {s₀ s : State} (hk : Kept s₀ s) : Kept s₀ (declareSuspect k s) := by
  unfold declareSuspect
  dsimp only
  split
  · exact hk
  · split
    · exact kept_events (raise_events _ _ _ _ _) (modThermal_kept _ (kept_events (raise_events _ _ _ _ _)
        (modSensor_kept _ _ hk)))
    · exact kept_events (raise_events _ _ _ _ _) (modSensor_kept _ _ hk)

theorem judgeReached_kept (n : Nat) (run : List (Nat × Nat)) {s₀ s : State} (hk : Kept s₀ s) :
    Kept s₀ (judgeReached n run s) := by
  induction n generalizing run s with
  | zero => exact hk
  | succ n ih =>
    unfold judgeReached
    split
    · exact hk
    · exact ih _ (declareSuspect_kept _ (kept_foldl (fun _ _ hk => modSensor_kept _ _ hk) hk))

theorem countDeviation_kept (k : Fin 17) {s₀ s : State} (hk : Kept s₀ s) : Kept s₀ (countDeviation k s) :=
  kept_ite hk (modSensor_kept _ _ hk)

theorem crossCheck_kept (k : Fin 17) {s₀ s : State} (hk : Kept s₀ s) : Kept s₀ (crossCheck k s) :=
  kept_ite hk (judgeReached_kept _ _ hk)

theorem refreshMode_kept (c : Fin 32) {s₀ s : State} (hk : Kept s₀ s) : Kept s₀ (refreshMode s c) := by
  unfold refreshMode
  dsimp only
  split
  · exact kept_events (raise_events _ _ _ _ _) (kept_layers (modChannel_layers _ _ _) hk)
  · exact kept_ite (kept_events (raise_events _ _ _ _ _) (kept_layers (modChannel_layers _ _ _) hk)) hk

theorem warnDie_kept (k : Fin 17) {s₀ s : State} (hk : Kept s₀ s) : Kept s₀ (warnDie s k) :=
  kept_ite (kept_events (raise_events _ _ _ _ _) (modSensor_kept _ _ hk)) (kept_ite (modSensor_kept _ _ hk) hk)

theorem flowCool_kept {s₀ s : State} (hk : Kept s₀ s) : Kept s₀ (flowCool s) :=
  modThermal_kept _ hk

theorem countErrors_kept (p : Fin 4) {s₀ s : State} (hk : Kept s₀ s) : Kept s₀ (countErrors p s) := by
  unfold countErrors
  dsimp only
  split
  · exact drawOne_kept (mapLanes_kept _ _ hk)
  · exact hk

theorem stopTest_kept (p : Fin 4) (st : KStatus) {s₀ s : State} (hk : Kept s₀ s) : Kept s₀ (stopTest p st s) :=
  kept_foldl (fun _ _ hk => endTask_kept _ _ _ hk) (kept_ite (kept_events (modPort_events _ _ _) (toDetect_kept _
    (countErrors_kept _ hk))) (countErrors_kept _ hk))

theorem watchEmergency_kept (before : State) {s₀ s : State} (hk : Kept s₀ s) : Kept s₀ (watchEmergency before s) := by
  unfold watchEmergency
  dsimp only
  split
  · exact kept_foldl (fun _ _ hk => kept_foldl (fun _ _ hk => stopTest_kept _ _ (raisePreempted_kept _ hk)) hk)
      (pauseTasks_kept _ (preemptTests_kept _ hk))
  · exact hk

theorem orderlyStop_kept {s₀ s : State} (hk : Kept s₀ s) : Kept s₀ (orderlyStop s) :=
  kept_foldl (fun _ _ hk => kept_ite hk (kept_ite (stopChannel_kept _ hk) (keeperStop_kept _ hk))) (kept_lines
    (sealFlush_lines _ _) (kept_lines (kennelFlush_lines _ _) hk))

theorem silencePorts_kept {s₀ s : State} (hk : Kept s₀ s) : Kept s₀ (silencePorts s) := by
  unfold silencePorts
  exact kept_foldl (fun _ _ hk => kept_ite hk (kept_events (modPort_events _ _ _) (toDetect_kept _ (kept_events
    (modPort_events _ _ _) (settlePort_kept _ hk))))) hk

theorem tripNow_kept (k : Fin 17) {s₀ s : State} (hk : Kept s₀ s) : Kept s₀ (tripNow k s) := by
  unfold tripNow
  exact modThermal_kept _ (modDevice_kept _ (Kept.update (endTasks_kept _ _ (cutBurns_kept _ _ (orderlyStop_kept
    (silencePorts_kept (kept_foldl (fun _ _ hk => kept_ite (kept_foldl (fun _ _ hk => kept_events
    (modSend_events _ _ _) hk) hk) hk) (kept_events (raise_events _ _ _ _ _) hk))))))))

theorem tripCheck_kept (k : Fin 17) {s₀ s : State} (hk : Kept s₀ s) : Kept s₀ (tripCheck k s) := by
  unfold tripCheck
  exact kept_ite (tripNow_kept _ (modSensor_kept _ _ hk)) (modSensor_kept _ _ hk)

theorem crossingOverrun_kept (n : Nat) {s₀ s : State} (hk : Kept s₀ s) : Kept s₀ (crossingOverrun n s) := by
  unfold crossingOverrun
  dsimp only
  split
  · exact kept_events (raiseBlock_events _ _ _ _) (modDevice_kept _ hk)
  · exact kept_events (raise_events _ _ _ _ _) (modDevice_kept _ hk)

theorem takePulses_kept (e : Nat × Nat) {s₀ s : State} (hk : Kept s₀ s) : Kept s₀ (takePulses s e) :=
  kept_ite hk (kept_ite (crossingOverrun_kept _ (modDevice_kept _ hk)) (modDevice_kept _ hk))

theorem samplePulses_kept (pulses : List (Nat × Nat)) {s₀ s : State} (hk : Kept s₀ s) :
    Kept s₀ (samplePulses pulses s) :=
  kept_foldl (fun _ _ hk => takePulses_kept _ hk) (modDevice_kept _ hk)

theorem watchBurn_kept {s₀ s : State} (hk : Kept s₀ s) : Kept s₀ (watchBurn s) :=
  kept_ite hk (cutBurns_kept _ _ hk)

theorem sampleChannels_kept (before : State) (k : Fin 17) {s₀ s : State} (hk : Kept s₀ s) :
    Kept s₀ (sampleChannels before k s) := by
  unfold sampleChannels
  dsimp only
  exact kept_ite hk (kept_foldl (fun _ _ hk => driftTrim_kept _ hk) (kept_ite (recomputeLedger_kept _ (kept_foldl
    (fun _ _ hk => refreshMode_kept _ hk) hk)) (kept_foldl (fun _ _ hk => refreshMode_kept _ hk) hk)))

theorem sensorSample_kept (k : Fin 17) (reading : SensorReading) {s₀ s : State} (hk : Kept s₀ s) :
    Kept s₀ (sensorSample k reading s) := by
  unfold sensorSample
  dsimp only
  refine tripCheck_kept _ (watchEmergency_kept _ ?_)
  refine flowCool_kept (watchBurn_kept ?_)
  refine sampleChannels_kept _ _ (kept_foldl (fun _ _ hk => warnDie_kept _ hk) ?_)
  refine modSensor_kept _ _ (refreshValues_kept ?_)
  refine crossCheck_kept _ ?_
  split
  · exact declareSuspect_kept _ (samplePulses_kept _ hk)
  · exact countDeviation_kept _ (modSensor_kept _ _ (samplePulses_kept _ hk))

theorem execSensorSample_kept (k : Fin 17) (reading : SensorReading) {s₀ s : State} (hk : Kept s₀ s) :
    Runs s₀ (execSensorSample k reading s) :=
  runs_next (kept_ite (sensorSample_kept _ _ (modThermal_kept _ hk)) hk)

theorem throttleEvents_kept (before : State) (i : Fin 16) {s₀ s : State} (hk : Kept s₀ s) :
    Kept s₀ (throttleEvents before s i) :=
  kept_ite (kept_events (raiseLimited_events _ _ _ _ _) hk) (kept_ite (kept_events
    (raiseLimited_events _ _ _ _ _) hk) hk)

theorem throttleRecompute_kept {s₀ s : State} (hk : Kept s₀ s) : Kept s₀ (throttleRecompute s) :=
  kept_foldl (fun _ _ hk => throttleEvents_kept _ _ hk) (recomputeLedger_kept _ (Kept.update (Kept.update hk)))

theorem execThrottleRecompute_kept {s₀ s : State} (hk : Kept s₀ s) : Runs s₀ (execThrottleRecompute s) :=
  runs_next (throttleRecompute_kept hk)

theorem governorWindow_kept (p : Nat) (fix : Nat) (quarters : List Nat) {s₀ s : State} (hk : Kept s₀ s) :
    Kept s₀ (governorWindow p fix quarters s) :=
  kept_ite (kept_events (raiseLimited_events _ _ _ _ _) (recomputeLedger_kept _ (modThermal_kept _ hk)))
    (recomputeLedger_kept _ (modThermal_kept _ hk))

theorem execGovernorWindow_kept (powerDw : Nat) (fixedDw : Nat) (quarterDw : List Nat) {s₀ s : State} (hk : Kept s₀ s) :
    Runs s₀ (execGovernorWindow powerDw fixedDw quarterDw s) :=
  runs_next (governorWindow_kept _ _ _ hk)

theorem execOclkTrim_kept {s₀ s : State} (hk : Kept s₀ s) : Runs s₀ (execOclkTrim s) :=
  runs_next (modThermal_kept _ hk)

theorem flowTest_kept {s₀ s : State} (hk : Kept s₀ s) : Kept s₀ (flowTest s) := by
  unfold flowTest
  dsimp only
  exact kept_ite (watchEmergency_kept _ (flowCool_kept (recomputeLedger_kept _ (kept_events (raise_events _ _ _ _ _)
    (modThermal_kept _ (modThermal_kept _ hk)))))) (modThermal_kept _ hk)

theorem execFlowTest_kept {s₀ s : State} (hk : Kept s₀ s) : Runs s₀ (execFlowTest s) :=
  runs_next (flowTest_kept hk)

theorem coolantOk_kept {s₀ s : State} (hk : Kept s₀ s) : Kept s₀ (coolantOk s) := by
  unfold coolantOk
  split
  · exact kept_ite (kept_events (raise_events _ _ _ _ _) (modThermal_kept _ (kept_layers (passTo_layers _ _) hk))) hk
  · exact hk

theorem execCoolantFlowOk_kept {s₀ s : State} (hk : Kept s₀ s) : Runs s₀ (execCoolantFlowOk s) :=
  runs_next (coolantOk_kept hk)

/-! ### The control page -/

theorem controlWrite_kept (o : Nat) (v : Word) {s₀ s : State} (hk : Kept s₀ s) : Kept s₀ (controlWrite o v s) :=
  modDevice_kept _ hk

theorem performStatusRead_kept (j : Job) (r : Req) {s₀ s : State} (hk : Kept s₀ s) :
    Kept s₀ (performStatusRead j r s) :=
  kept_events (complete_events _ _ _ _ _) hk

theorem execStatusRead_kept (p : Fin 4) (r : Req) {s₀ s : State} (hk : Kept s₀ s) : Runs s₀ (execStatusRead p r s) :=
  runs_next (receive_kept _ _ _ (fun _ _ _ hk => performStatusRead_kept _ _ hk) hk)

/-! ### Parameters -/

theorem paramTouch_kept (id : Nat) (inst : Nat) {s₀ s : State} (hk : Kept s₀ s) : Kept s₀ (paramTouch id inst s) :=
  kept_ite (kept_layers (modChannel_layers _ _ _) hk) (kept_ite (modSensor_kept _ _ hk) hk)

theorem setRegion_kept (pd : Fin 64) (f : Nat × Nat → Nat × Nat) {s₀ s : State} (hk : Kept s₀ s) :
    Kept s₀ (setRegion pd f s) :=
  kept_lines (modPartition_lines _ _ _) hk

theorem writePort_kept (p : Fin 4) (id : Nat) (v : Nat) {s₀ s : State} (hk : Kept s₀ s) :
    Kept s₀ (writePort p id v s) := by
  unfold writePort
  dsimp only
  split
  · exact kept_ite hk (kept_ite (enablePort_kept _ hk) (disablePort_kept _ hk))
  · exact kept_events (modPhy_events _ _ _) hk
  · exact kept_events (modPhy_events _ _ _) hk
  · exact kept_events (modPhy_events _ _ _) hk
  · exact kept_events (modPhy_events _ _ _) hk
  · exact kept_events (modPhy_events _ _ _) hk
  · exact kept_events (modPhy_events _ _ _) hk
  · exact kept_events (modPhy_events _ _ _) hk
  · exact kept_events (modPhy_events _ _ _) hk
  · exact kept_events (modPhy_events _ _ _) hk
  · exact kept_events (modPhy_events _ _ _) hk
  · exact kept_events (modLink_events _ _ _) hk
  · exact kept_events (modLink_events _ _ _) hk
  · exact kept_events (modLink_events _ _ _) hk
  · exact kept_events (modLink_events _ _ _) hk
  · exact kept_events (modLink_events _ _ _) hk
  · exact kept_events (modLink_events _ _ _) hk
  · exact kept_events (modPort_events _ _ _) hk
  · exact kept_events (modPort_events _ _ _) hk
  · exact kept_events (modPort_events _ _ _) hk
  · exact kept_events (modPort_events _ _ _) hk
  · exact hk

theorem writeChannel_kept (c : Fin 32) (id : Nat) (v : Nat) {s₀ s : State} (hk : Kept s₀ s) :
    Kept s₀ (writeChannel c id v s) :=
  kept_layers (modChannel_layers _ _ _) (kept_ite (kept_layers (noteTrigger_layers _ _) hk) hk)

theorem writeDevice_kept (id : Nat) (v : Nat) {s₀ s : State} (hk : Kept s₀ s) : Kept s₀ (writeDevice id v s) := by
  unfold writeDevice
  dsimp only
  split
  · exact modThermal_kept _ hk
  · exact kept_lines (modParams_lines _ _) hk
  · exact kept_lines (modParams_lines _ _) hk
  · exact kept_lines (modParams_lines _ _) hk
  · exact kept_lines (modParams_lines _ _) hk
  · exact kept_lines (modParams_lines _ _) hk
  · exact kept_lines (modParams_lines _ _) hk
  · exact kept_lines (modParams_lines _ _) hk
  · exact kept_lines (modParams_lines _ _) hk
  · exact kept_lines (sealFit_lines _) (kept_lines (modParams_lines _ _) hk)
  · exact kept_lines (modParams_lines _ _) hk
  · exact kept_lines (modParams_lines _ _) hk
  · exact kept_lines (modParams_lines _ _) hk
  · exact kept_lines (modParams_lines _ _) hk
  · exact kept_lines (modParams_lines _ _) hk
  · exact kept_lines (modParams_lines _ _) hk
  · exact kept_lines (modParams_lines _ _) hk
  · exact kept_lines (modParams_lines _ _) hk
  · exact serveUnserved_kept (kept_lines (modParams_lines _ _) hk)
  · exact kept_lines (modParams_lines _ _) hk
  · exact kept_lines (modParams_lines _ _) hk
  · exact kept_lines (modParams_lines _ _) hk
  · exact modThermal_kept _ hk
  · exact modThermal_kept _ hk
  · exact modThermal_kept _ hk
  · exact modThermal_kept _ hk
  · exact kept_lines (modParams_lines _ _) hk
  · exact kept_events (modLog_events _ _) hk
  · exact kept_events (modLog_events _ _) hk
  · exact kept_events (modSideband_events _ _) hk
  · exact kept_lines (modParams_lines _ _) hk
  · exact hk

theorem paramWrite_kept (e : Nat × Nat × Nat) {s₀ s : State} (hk : Kept s₀ s) : Kept s₀ (paramWrite s e) := by
  unfold paramWrite
  dsimp only
  split
  · exact writeDevice_kept _ _ hk
  · exact kept_ite (kept_layers (modQuarter_layers _ _ _) hk) (writePort_kept _ _ _ hk)
  · exact modTable_kept _ _ hk
  · exact kept_ite (modProfile_kept _ _ hk) (writeChannel_kept _ _ _ hk)
  · split
    · exact kept_ite (bufferWatch_kept _ (modBuffer_kept _ _ hk)) hk
    · exact kept_ite (kept_ite (modCounter_kept _ _ hk) hk) (kept_ite (setRegion_kept _ _ hk) (kept_ite
        (setRegion_kept _ _ hk) hk))
  · exact hk

theorem writeParams_kept (es : List (Nat × Nat × Nat)) {s₀ s : State} (hk : Kept s₀ s) :
    Kept s₀ (writeParams es s).2 := by
  unfold writeParams
  dsimp only
  refine kept_ite_snd ?_ ?_
  · dsimp only
    exact hk
  · refine kept_ite_snd ?_ ?_
    · dsimp only
      exact hk
    · refine kept_ite_snd ?_ ?_
      · dsimp only
        exact hk
      · refine kept_ite_snd ?_ ?_
        · dsimp only
          exact recomputeLedger_kept _ (kept_foldl (fun _ _ hk => paramWrite_kept _ hk) hk)
        · dsimp only
          exact kept_foldl (fun _ _ hk => paramWrite_kept _ hk) hk

/-! ### Mailboxes -/

theorem answer_kept (st : KStatus) {s₀ s : State} (hk : Kept s₀ s) : Kept s₀ (answer st s).2 :=
  hk

theorem answerData_kept (data : List Byte) {s₀ s : State} (hk : Kept s₀ s) : Kept s₀ (answerData data s).2 :=
  hk

theorem badParam_kept {s₀ s : State} (hk : Kept s₀ s) : Kept s₀ (badParam s).2 :=
  answer_kept _ hk

theorem writeResponse_kept (m : Fin 6) (opcode : BitVec 16) (seq : BitVec 16) (r : Reply) {s₀ s : State}
    (hk : Kept s₀ s) : Kept s₀ (writeResponse m opcode seq r s) :=
  modMailbox_kept _ _ hk

theorem raiseDone_kept (m : Fin 6) (opcode : BitVec 16) (st : KStatus) {s₀ s : State} (hk : Kept s₀ s) :
    Kept s₀ (raiseDone m opcode st s) :=
  kept_events (raise_events _ _ _ _ _) hk

theorem commitStore_kept (before : State) {s₀ s t : State} (hk : Kept s₀ s) (e : commitStore before s = some t) :
    Kept s₀ t := by
  unfold commitStore at e
  dsimp only at e
  split at e
  · cases e
  · split at e <;> cases e
    · exact hk
    · exact noteCommit_kept _ hk

theorem accept_kept (m : Fin 6) (opcode : BitVec 16) (w : Work) {begin : Task → State → State} {s₀ s : State}
    (hbegin : ∀ x0 u, Kept s₀ u → Kept s₀ (begin x0 u)) (hk : Kept s₀ s) : Kept s₀ (accept m opcode w begin s).2 := by
  unfold accept
  dsimp only
  split
  · exact answer_kept _ hk
  · exact hbegin _ _ (putTask_kept _ (Kept.update hk))

theorem dropChanges_kept (m : Fin 6) {s₀ s : State} (hk : Kept s₀ s) : Kept s₀ (dropChanges m s) :=
  Kept.update hk

theorem answerAllocated_kept (m : Fin 6) (opcode : BitVec 16) (pd : Fin 64) (data : List Byte) {s₀ before s : State}
    (hb : Kept s₀ before) (hk : Kept s₀ s) : Kept s₀ (answerAllocated m opcode pd data before s).2 := by
  unfold answerAllocated
  exact kept_ite_snd hk (kept_ite_snd hb (endTask_kept _ _ _ (putTask_kept _ (Kept.update hk))))

theorem acceptOrQueue_kept (m : Fin 6) (opcode : BitVec 16) (w : Work) {begin : Task → State → State} {s₀ s : State}
    (hbegin : ∀ x0 u, Kept s₀ u → Kept s₀ (begin x0 u)) (hk : Kept s₀ s) : Kept s₀
    (acceptOrQueue m opcode w begin s).2 := by
  unfold acceptOrQueue
  dsimp only
  split
  · exact answer_kept _ hk
  · split
    · exact accept_kept _ _ _ hbegin hk
    · exact putTask_kept _ (Kept.update hk)

/-! ### Commands on partitions and keys -/

theorem makePartition_kept (x : Partition) (pd : Fin 64) {s₀ s t : State} (hk : Kept s₀ s)
    (e : makePartition x pd s = some t) : Kept s₀ t := by
  obtain ⟨u, hu, rfl⟩ := Option.map_eq_some_iff.mp e
  exact kept_lines (modPartition_lines _ _ _) (allocGranules_kept _ _ _ hk hu)

theorem cmdPartitionCreate_kept (m : Fin 6) (f : Frame) {s₀ s : State} (hk : Kept s₀ s) :
    Kept s₀ (cmdPartitionCreate m f s).2 := by
  unfold cmdPartitionCreate
  extract_lets pd ptype quarter
  refine kept_ite_snd (badParam_kept hk) (kept_ite_snd (badParam_kept hk) (kept_ite_snd (answer_kept _ hk)
    (kept_ite_snd (badParam_kept hk) (kept_ite_snd (answer_kept _ hk) ?_))))
  extract_lets
  split
  · exact answer_kept _ hk
  · rename_i e
    exact answerAllocated_kept _ _ _ _ hk (makePartition_kept _ _ hk e)

theorem flushPartition_kept (pd : Fin 64) {s₀ s : State} (hk : Kept s₀ s) : Kept s₀ (flushPartition pd s) :=
  kept_lines (sealFlush_lines _ _) (kept_lines (kennelFlush_lines _ _) hk)

theorem dropLines_kept (pd : Fin 64) (from_ : Nat) {s₀ s : State} (hk : Kept s₀ s) : Kept s₀ (dropLines pd from_ s) :=
  Kept.update hk

theorem dropCaches_kept (pd : Fin 64) {s₀ s : State} (hk : Kept s₀ s) : Kept s₀ (dropCaches pd s) :=
  kept_foldl (fun _ _ hk => setFreeCache_kept _ _ _ hk) hk

theorem resizePlain_kept (pd : Fin 64) (n : Nat) {s₀ s t : State} (hk : Kept s₀ s)
    (e : resizePlain pd n s = some t) : Kept s₀ t := by
  unfold resizePlain at e
  dsimp only at e
  split at e
  · obtain ⟨u, hu, rfl⟩ := Option.map_eq_some_iff.mp e
    exact kept_lines (modPartition_lines _ _ _) (allocGranules_kept _ _ _ hk hu)
  · cases e
    refine kept_ite (dropCaches_kept _ (modBuffer_kept _ _ ?_)) ?_ <;>
      exact kept_lines (modPartition_lines _ _ _)
        (kept_foldl (fun _ _ hk => releaseGranule_kept _ hk) (dropLines_kept _ _ hk))

theorem deletePartition_kept (pd : Fin 64) {s₀ s : State} (hk : Kept s₀ s) : Kept s₀ (deletePartition pd s) :=
  dropCaches_kept _ (kept_lines (modPartition_lines _ _ _) (kept_foldl (fun _ _ hk => releaseGranule_kept _ hk)
    (dropLines_kept _ _ (Kept.update hk))))

theorem setOwner_kept (pd : Fin 64) (mask : BitVec 4) {s₀ s : State} (hk : Kept s₀ s) : Kept s₀ (setOwner pd mask s) :=
  kept_lines (modPartition_lines _ _ _) hk

theorem setQuota_kept (pd : Fin 64) (lines : Nat) {s₀ s : State} (hk : Kept s₀ s) : Kept s₀ (setQuota pd lines s) :=
  kept_lines (kennelShrink_lines _ _ _) (kept_lines (modPartition_lines _ _ _) hk)

theorem applyChange_kept (pd : Fin 64) (c : Change) {s₀ s t : State} (hk : Kept s₀ s)
    (e : applyChange pd c s = some t) : Kept s₀ t := by
  cases c with
  | owner mask =>
    cases e
    exact setOwner_kept _ _ hk
  | quota n =>
    cases e
    exact setQuota_kept _ _ hk
  | ownerQuota mask n =>
    cases e
    exact setQuota_kept _ _ (setOwner_kept _ _ hk)
  | resize n =>
    simp only [applyChange] at e
    split at e
    · cases e
      exact shrinkSealed_kept _ _ hk
    · exact resizePlain_kept _ _ hk e
  | delete =>
    cases e
    exact deletePartition_kept _ hk
  | region b n =>
    cases e
    exact modCounter_kept _ _ hk
  | rights x =>
    cases e
    exact kept_lines (modPartition_lines _ _ _) hk

theorem applyOne_kept (pd : Fin 64) (x : Change × Option (Fin 6)) {s₀ s : State} (hk : Kept s₀ s) :
    Kept s₀ (applyOne pd s x) := by
  have fail (st : KStatus) : Kept s₀ (match x.2 with
      | some m => respondTo m { status := st } (dropChanges m s)
      | none =>
        match x.1 with
        | .resize n => endTasks (fun t => decide (t.work = .resize pd n)) st s
        | _ => s) := by
    split
    · exact respondTo_kept _ _ (dropChanges_kept _ hk)
    · split
      · exact endTasks_kept _ _ hk
      · exact hk
  have applied {u : State} (e : (applyChange pd x.1 s).bind (commitStore s) = some u) : Kept s₀ u := by
    obtain ⟨t, ht, hu⟩ := Option.bind_eq_some_iff.mp e
    exact commitStore_kept _ (applyChange_kept _ _ hk ht) hu
  unfold applyOne
  refine kept_ite (fail _) (kept_ite (fail _) ?_)
  split
  · rename_i e _
    exact kept_ite (applied e) (respondTo_kept _ _ (answerAllocated_kept _ _ _ _ hk (applied e)))
  · rename_i e _
    exact applied e
  · exact fail _

theorem applyPending_kept (pd : Fin 64) {s₀ s : State} (hk : Kept s₀ s) : Kept s₀ (applyPending pd s) := by
  unfold applyPending
  split
  · exact hk
  · exact kept_foldl (fun _ _ hk => applyOne_kept _ _ hk) (flushPartition_kept _ (kept_lines
      (modPartition_lines _ _ _) hk))

theorem dropPending_kept (pd : Fin 64) {s₀ s : State} (hk : Kept s₀ s) : Kept s₀ (dropPending pd s) := by
  unfold dropPending
  dsimp only
  split
  · exact hk
  · split
    · refine respondTo_kept _ _ (dropChanges_kept _ ?_)
      split
      · exact endTasks_kept _ _ (kept_lines (modPartition_lines _ _ _) hk)
      · exact kept_lines (modPartition_lines _ _ _) hk
    · split
      · exact endTasks_kept _ _ (kept_lines (modPartition_lines _ _ _) hk)
      · exact kept_lines (modPartition_lines _ _ _) hk

theorem leaveChange_kept (m : Fin 6) (pd : Fin 64) (c : Change) {s₀ s : State} (hk : Kept s₀ s) :
    Kept s₀ (leaveChange m pd c s).2 := by
  unfold leaveChange
  dsimp only
  exact kept_lines (modPartition_lines _ _ _) hk

theorem beginResize_kept (pd : Fin 64) (n : Nat) (t : Task) {s₀ s : State} (hk : Kept s₀ s) :
    Kept s₀ (beginResize pd n t s) :=
  kept_ite (startGrow_kept _ _ _ hk) (kept_ite (modTask_kept _ _ (kept_lines (modPartition_lines _ _ _) hk))
    (endTask_kept _ _ _ hk))

theorem cmdPartitionResize_kept (m : Fin 6) (f : Frame) {s₀ s : State} (hk : Kept s₀ s) :
    Kept s₀ (cmdPartitionResize m f s).2 := by
  unfold cmdPartitionResize
  dsimp only
  refine kept_ite_snd (badParam_kept hk) ?_
  refine kept_ite_snd ?_ ?_
  · exact answer_kept _ hk
  · refine kept_ite_snd ?_ ?_
    · exact answerData_kept _ hk
    · exact kept_ite_snd (acceptOrQueue_kept _ _ _ (fun _ _ hk => beginResize_kept _ _ _ hk) hk)
        (leaveChange_kept _ _ _ hk)

theorem cmdPartitionDelete_kept (m : Fin 6) (f : Frame) {s₀ s : State} (hk : Kept s₀ s) :
    Kept s₀ (cmdPartitionDelete m f s).2 :=
  kept_ite_snd (badParam_kept hk) (kept_ite_snd (answer_kept _ hk) (leaveChange_kept _ _ _ hk))

theorem cmdPartitionModify_kept (m : Fin 6) (f : Frame) {s₀ s : State} (hk : Kept s₀ s) :
    Kept s₀ (cmdPartitionModify m f s).2 := by
  unfold cmdPartitionModify
  dsimp only
  refine kept_ite_snd (badParam_kept hk) ?_
  refine kept_ite_snd ?_ ?_
  · exact answer_kept _ hk
  · refine kept_ite_snd ?_ ?_
    · exact answer_kept _ hk
    · exact kept_ite_snd (leaveChange_kept _ _ _ hk) (kept_ite_snd (leaveChange_kept _ _ _ hk)
        (leaveChange_kept _ _ _ hk))

theorem cmdPartitionRights_kept (m : Fin 6) (f : Frame) {s₀ s : State} (hk : Kept s₀ s) :
    Kept s₀ (cmdPartitionRights m f s).2 :=
  kept_ite_snd (badParam_kept hk) (kept_ite_snd (answer_kept _ hk) (leaveChange_kept _ _ _ hk))

theorem cmdPartitionRekey_kept (m : Fin 6) (f : Frame) {s₀ s : State} (hk : Kept s₀ s) :
    Kept s₀ (cmdPartitionRekey m f s).2 := by
  unfold cmdPartitionRekey
  dsimp only
  refine kept_ite_snd (badParam_kept hk) ?_
  refine kept_ite_snd ?_ ?_
  · exact acceptOrQueue_kept _ _ _ (fun _ _ hk => hk) hk
  · dsimp only
    exact kept_lines (modSeal_lines _ _ _) (acceptOrQueue_kept _ _ _ (fun _ _ hk => hk) hk)

theorem unwrapFailed_kept (slot : Nat) {s₀ s : State} (hk : Kept s₀ s) : Kept s₀ (unwrapFailed slot s) :=
  kept_ite (kept_events (raise_events _ _ _ _ _) (modFuses_kept (fun _ => rfl) (modFuses_kept (fun _ => rfl) hk)))
    (modFuses_kept (fun _ => rfl) hk)

theorem cmdKeyLoad_kept (m : Fin 6) (f : Frame) {s₀ s : State} (hk : Kept s₀ s) : Kept s₀ (cmdKeyLoad m f s).2 := by
  unfold cmdKeyLoad
  dsimp only
  refine kept_ite_snd (badParam_kept hk) ?_
  refine kept_ite_snd ?_ ?_
  · exact answer_kept _ hk
  · split
    · exact answer_kept _ hk
    · split
      · exact answer_kept _ (unwrapFailed_kept _ hk)
      · exact kept_ite_snd (badParam_kept (modFuses_kept (fun _ => rfl) hk)) (answer_kept _ (modKey_kept _ _
          (modFuses_kept (fun _ => rfl) hk)))

theorem cmdKeyClear_kept (m : Fin 6) (f : Frame) {s₀ s : State} (hk : Kept s₀ s) : Kept s₀ (cmdKeyClear m f s).2 :=
  kept_ite_snd (badParam_kept hk) (answer_kept _ (modKey_kept _ _ hk))

/-! ### Commands on tables and queues -/

theorem cmdTableCreate_kept (m : Fin 6) (f : Frame) {s₀ s : State} (hk : Kept s₀ s) :
    Kept s₀ (cmdTableCreate m f s).2 :=
  kept_ite_snd (badParam_kept hk) (answer_kept _ (modTable_kept _ _ (kept_ite hk (drawOne_kept (drawOne_kept hk)))))

theorem cmdTableDelete_kept (m : Fin 6) (f : Frame) {s₀ s : State} (hk : Kept s₀ s) :
    Kept s₀ (cmdTableDelete m f s).2 :=
  kept_ite_snd (badParam_kept hk) (accept_kept _ _ _ (fun _ _ hk => modTable_kept _ _ hk) hk)

theorem retireTable_kept (td : Fin 16) {s₀ s : State} (hk : Kept s₀ s) : Kept s₀ (retireTable td s) :=
  kept_ite (modTable_kept _ _ hk) hk

theorem keepTable_kept (td : Fin 16) {s₀ s : State} (hk : Kept s₀ s) : Kept s₀ (keepTable td s) :=
  kept_ite (endTasks_kept _ _ (modTable_kept _ _ hk)) hk

theorem zeroBlock_kept (pd : Fin 64) (block : Nat) {s₀ s : State} (hk : Kept s₀ s) :
    Kept s₀ (zeroBlock pd block s) := by
  unfold zeroBlock
  split
  · exact kept_ite hk (kept_lines (kennelDropBlock_lines _ _ _) (zeroRow_kept _ _ _ hk))
  · exact hk

theorem emptyTable_kept (td : Fin 16) {s₀ s : State} (hk : Kept s₀ s) : Kept s₀ (emptyTable td s) :=
  modTable_kept _ _ (Kept.update (Kept.directory (kept_foldl (fun _ _ hk => zeroBlock_kept _ _ hk) hk)
    (sparseWf_filter _ _ _)))

theorem removeTable_kept (td : Fin 16) {s₀ s : State} (hk : Kept s₀ s) : Kept s₀ (removeTable td s) :=
  noteCommit_kept _ (emptyTable_kept _ hk)

theorem cmdTableSlotRelease_kept (m : Fin 6) (f : Frame) {s₀ s : State} (hk : Kept s₀ s) :
    Kept s₀ (cmdTableSlotRelease m f s).2 := by
  unfold cmdTableSlotRelease
  dsimp only
  refine kept_ite_snd (badParam_kept hk) ?_
  refine kept_ite_snd ?_ ?_
  · refine kept_ite_snd ?_ ?_
    · exact badParam_kept hk
    · exact answer_kept _ (commitCount_kept _ _ (setDirectory_kept _ _ (modTable_kept _ _ (Kept.update hk))))
  · exact kept_ite_snd (badParam_kept hk) (answer_kept _ (modTable_kept _ _ (commitRow_kept _ _ _
      (readRows_kept _ _ _ hk))))

theorem cmdQueueCreate_kept (m : Fin 6) (f : Frame) {s₀ s : State} (hk : Kept s₀ s) :
    Kept s₀ (cmdQueueCreate m f s).2 := by
  unfold cmdQueueCreate
  dsimp only
  refine kept_ite_snd (badParam_kept hk) ?_
  refine kept_ite_snd ?_ ?_
  · exact answer_kept _ hk
  · split
    · rename_i snd e1
      exact answer_kept _ hk
    · rename_i c s e1
      exact answer_kept _ (modQueue_kept _ _ (kept_of_eq e1 (takeCell_kept _ _ hk)))

theorem cmdQueueModify_kept (m : Fin 6) (f : Frame) {s₀ s : State} (hk : Kept s₀ s) :
    Kept s₀ (cmdQueueModify m f s).2 :=
  kept_ite_snd (badParam_kept hk) (answer_kept _ (modQueue_kept _ _ hk))

theorem cmdQueueDelete_kept (m : Fin 6) (f : Frame) {s₀ s : State} (hk : Kept s₀ s) :
    Kept s₀ (cmdQueueDelete m f s).2 :=
  kept_ite_snd (badParam_kept hk) (answer_kept _ (modQueue_kept _ _ (giveCell_kept _ _ _ hk)))

theorem endQueueWork_kept (q : Nat) {s₀ s : State} (hk : Kept s₀ s) : Kept s₀ (endQueueWork q s) :=
  kept_foldl (fun _ _ hk => kept_ite hk (kept_events (completeWith_events _ _ _) hk)) (kept_foldl
    (fun _ _ hk => kept_events (completeWith_events _ _ _) hk) (modQueue_kept _ _ hk))

theorem cmdQueueReset_kept (m : Fin 6) (f : Frame) {s₀ s : State} (hk : Kept s₀ s) :
    Kept s₀ (cmdQueueReset m f s).2 := by
  unfold cmdQueueReset
  dsimp only
  refine kept_ite_snd (badParam_kept hk) ?_
  split
  · rename_i snd e1
    exact answer_kept _ hk
  · rename_i c s e1
    exact answer_kept _ (modQueue_kept _ _ (modBuffer_kept _ _ (endQueueWork_kept _ (kept_of_eq e1
      (takeCell_kept _ _ hk)))))

theorem resetBuffer_kept (pd : Fin 64) {s₀ s : State} (hk : Kept s₀ s) : Kept s₀ (resetBuffer pd s) :=
  dropCaches_kept _ (modBuffer_kept _ _ (kept_foldl (fun _ _ hk => modQueue_kept _ _ hk) hk))

theorem cmdBufferReset_kept (m : Fin 6) (f : Frame) {s₀ s : State} (hk : Kept s₀ s) :
    Kept s₀ (cmdBufferReset m f s).2 :=
  kept_ite_snd (badParam_kept hk) (accept_kept _ _ _ (fun _ _ hk => bufferWatch_kept _ (resetBuffer_kept _ hk)) hk)

theorem oversubscribed_kept (largest : Nat) (quantity : Nat) {s₀ s : State} (hk : Kept s₀ s) :
    Kept s₀ (oversubscribed largest quantity s).2 :=
  hk

theorem cmdCollieSet_kept (m : Fin 6) (f : Frame) {s₀ s : State} (hk : Kept s₀ s) : Kept s₀ (cmdCollieSet m f s).2 := by
  unfold cmdCollieSet
  dsimp only
  refine kept_ite_snd (badParam_kept hk) ?_
  refine kept_ite_snd ?_ ?_
  · exact oversubscribed_kept _ _ hk
  · refine kept_ite_snd ?_ ?_
    · exact oversubscribed_kept _ _ hk
    · refine answer_kept _ ?_
      exact kept_ite (kept_foldl (fun _ _ hk => leaveRefreshAt_kept _ _ hk) (recomputeLedger_kept _ (kept_events
        (modClass_events _ _ _ _) hk))) (recomputeLedger_kept _ (kept_events (modClass_events _ _ _ _) hk))

/-! ### Commands on ports -/

theorem beginTrain_kept (p : Fin 4) (x : Task) {s₀ s : State} (hk : Kept s₀ s) : Kept s₀ (beginTrain p x s) := by
  unfold beginTrain
  dsimp only
  split
  · exact startSwitch_kept _ _ _ (kept_events (modPhy_events _ _ _) (kept_events (modSend_events _ _ _) (kept_events
      (modPhy_events _ _ _) (kept_events (modLink_events _ _ _) (mapLanes_kept _ _ hk)))))
  · split
    · exact kept_events (modPort_events _ _ _) (toDetect_kept _ (portDown_kept _ _ (kept_events (modPhy_events _ _ _)
        (kept_events (modLink_events _ _ _) (mapLanes_kept _ _ hk)))))
    · exact kept_events (modPhy_events _ _ _) (kept_events (modLink_events _ _ _) (mapLanes_kept _ _ hk))

theorem cmdPortTrain_kept (m : Fin 6) (f : Frame) {s₀ s : State} (hk : Kept s₀ s) : Kept s₀ (cmdPortTrain m f s).2 :=
  kept_ite_snd (badParam_kept hk) (acceptOrQueue_kept _ _ _ (fun _ _ hk => beginTrain_kept _ _ hk) hk)

theorem endTrain_kept (p : Fin 4) (t : Task) {s₀ s : State} (hk : Kept s₀ s) : Kept s₀ (endTrain p t s) :=
  kept_ite (endTask_kept _ _ _ hk) (endTask_kept _ _ _ hk)

theorem beginTest_kept (p : Fin 4) (test : PortTest) (t : Task) {s₀ s : State} (hk : Kept s₀ s) :
    Kept s₀ (beginTest p test t s) := by
  unfold beginTest
  dsimp only
  split
  · exact endTask_kept _ _ _ hk
  · split
    · refine enterState_kept _ _ _ ?_
      split
      · exact kept_events (modLink_events _ _ _) (portDown_kept _ _ hk)
      · exact kept_events (modPort_events _ _ _) (kept_events (modLink_events _ _ _) (portDown_kept _ _ hk))
    · exact endTask_kept _ _ _ hk

theorem cmdPortTest_kept (m : Fin 6) (f : Frame) {s₀ s : State} (hk : Kept s₀ s) : Kept s₀ (cmdPortTest m f s).2 := by
  unfold cmdPortTest
  dsimp only
  refine kept_ite_snd (badParam_kept hk) ?_
  refine kept_ite_snd ?_ ?_
  · exact kept_ite_snd (answer_kept _ (stopTest_kept _ _ hk)) (badParam_kept hk)
  · refine kept_ite_snd ?_ ?_
    · exact badParam_kept hk
    · exact kept_ite_snd (answer_kept _ hk) (acceptOrQueue_kept _ _ _ (fun _ _ hk => beginTest_kept _ _ _ hk) hk)

theorem cmdLaneGroupRestore_kept (m : Fin 6) (f : Frame) {s₀ s : State} (hk : Kept s₀ s) :
    Kept s₀ (cmdLaneGroupRestore m f s).2 :=
  kept_ite_snd (badParam_kept hk) (answer_kept _ (kept_events (modPhy_events _ _ _) hk))

theorem cmdLaneRetune_kept (m : Fin 6) (f : Frame) {s₀ s : State} (hk : Kept s₀ s) : Kept s₀ (cmdLaneRetune m f s).2 :=
  kept_ite_snd (badParam_kept hk) (acceptOrQueue_kept _ _ _ (fun _ _ hk => hk) hk)

theorem endRetune_kept (p : Fin 4) (lanes : BitVec 16) (eyes : List LaneEye) (t : Task) {s₀ s : State}
    (hk : Kept s₀ s) : Kept s₀ (endRetune p lanes eyes t s) := by
  unfold endRetune
  dsimp only
  refine endTask_kept _ _ _ ?_
  split
  · exact kept_events (pump_events _ _) (kept_events (modSend_events _ _ _) (kept_foldl (fun _ _ hk => kept_ite
      (kept_ite (kept_events (raise_events _ _ _ _ _) (modLane_kept _ _ _ hk)) (modLane_kept _ _ _ hk)) hk) hk))
  · exact kept_foldl (fun _ _ hk => kept_ite (kept_ite (kept_events (raise_events _ _ _ _ _) (modLane_kept _ _ _ hk))
      (modLane_kept _ _ _ hk)) hk) hk

/-! ### Commands on fuses -/

theorem fuseEvent_kept (field : Nat) (slot : Nat) (st : FuseState) {s₀ s : State} (hk : Kept s₀ s) :
    Kept s₀ (fuseEvent field slot st s) := by
  unfold fuseEvent
  dsimp only
  split
  · exact kept_events (raise_events _ _ _ _ _) hk
  · exact kept_events (raise_events _ _ _ _ _) hk
  · exact kept_events (raise_events _ _ _ _ _) hk
  · exact hk

theorem loadFuses_kept {s₀ s : State} (hk : Kept s₀ s) : Kept s₀ (loadFuses s) :=
  kept_foldl (fun _ _ hk => fuseEvent_kept _ _ _ hk) (kept_foldl (fun _ _ hk => fuseEvent_kept _ _ _ hk) (modFuses_kept
    (fun _ => rfl) hk))

theorem cmdFuseRead_kept (m : Fin 6) (f : Frame) {s₀ s : State} (hk : Kept s₀ s) : Kept s₀ (cmdFuseRead m f s).2 :=
  kept_ite_snd (badParam_kept hk) (answerData_kept _ (modFuses_kept (fun _ => rfl) hk))

theorem raiseOverride_kept (field : Nat) (set : Nat) {s₀ s : State} (hk : Kept s₀ s) :
    Kept s₀ (raiseOverride field set s) :=
  kept_events (raise_events _ _ _ _ _) hk

theorem cmdFuseShadowSet_kept (m : Fin 6) (f : Frame) {s₀ s : State} (hk : Kept s₀ s) :
    Kept s₀ (cmdFuseShadowSet m f s).2 := by
  unfold cmdFuseShadowSet
  dsimp only
  refine kept_ite_snd (badParam_kept hk) ?_
  refine kept_ite_snd ?_ ?_
  · exact answer_kept _ (refreshValues_kept (raiseOverride_kept _ _ (modFuses_kept (fun _ => rfl) hk)))
  · refine kept_ite_snd ?_ ?_
    · refine kept_ite_snd ?_ ?_
      · exact answer_kept _ (raiseOverride_kept _ _ (modFuses_kept (fun _ => rfl) hk))
      · exact kept_ite_snd (answer_kept _ (raiseOverride_kept _ _ (modFuses_kept (fun _ => rfl) hk))) (answer_kept _ hk)
    · exact answer_kept _ hk

theorem cmdFuseBurn_kept (m : Fin 6) (f : Frame) {s₀ s : State} (hk : Kept s₀ s) : Kept s₀ (cmdFuseBurn m f s).2 := by
  unfold cmdFuseBurn
  dsimp only
  refine kept_ite_snd (badParam_kept hk) ?_
  refine kept_ite_snd ?_ ?_
  · exact answer_kept _ hk
  · refine kept_ite_snd ?_ ?_
    · exact answer_kept _ hk
    · refine kept_ite_snd ?_ ?_
      · exact badParam_kept hk
      · split
        · exact answer_kept _ hk
        · exact accept_kept _ _ _ (fun _ _ hk => hk) hk

theorem cmdFuseLock_kept (m : Fin 6) (f : Frame) {s₀ s : State} (hk : Kept s₀ s) : Kept s₀ (cmdFuseLock m f s).2 := by
  unfold cmdFuseLock
  dsimp only
  refine kept_ite_snd (badParam_kept hk) ?_
  refine kept_ite_snd ?_ ?_
  · exact answer_kept _ hk
  · split
    · exact answer_kept _ hk
    · exact accept_kept _ _ _ (fun _ _ hk => hk) hk

theorem cmdFuseReburn_kept (m : Fin 6) (f : Frame) {s₀ s : State} (hk : Kept s₀ s) :
    Kept s₀ (cmdFuseReburn m f s).2 := by
  unfold cmdFuseReburn
  dsimp only
  refine kept_ite_snd (badParam_kept hk) ?_
  refine kept_ite_snd ?_ ?_
  · exact answer_kept _ hk
  · split
    · exact answer_kept _ hk
    · exact accept_kept _ _ _ (fun _ _ hk => hk) hk

theorem stopWord_kept (x : BurnStop) {s₀ s : State} (hk : Kept s₀ s) : Kept s₀ (stopWord x s) :=
  drawOne_kept (putFuseWord_kept _ _ hk)

theorem endBurn_kept (t : Task) (stop : Option BurnStop) {s₀ s : State} (hk : Kept s₀ s) :
    Kept s₀ (endBurn t stop s) := by
  unfold endBurn
  dsimp only
  split
  · exact cutBurn_kept _ _ _ hk
  · split
    · exact kept_ite (endTask_kept _ _ _ (kept_events (raise_events _ _ _ _ _) (stopWord_kept _ (burnInto_kept _ hk))))
        (endTask_kept _ _ _ hk)
    · refine endTask_kept _ _ _ ?_
      split
      · exact kept_events (raise_events _ _ _ _ _) (burnInto_kept _ hk)
      · exact burnInto_kept _ hk

theorem endReburn_kept (field : Nat) (slot : Nat) (t : Task) (stop : Option BurnStop) {s₀ s : State} (hk : Kept s₀ s) :
    Kept s₀ (endReburn field slot t stop s) := by
  unfold endReburn
  dsimp only
  split
  · exact cutBurn_kept _ _ _ hk
  · refine endTask_kept _ _ _ ?_
    split
    · exact stopWord_kept _ (cureWords_kept _ hk)
    · exact cureWords_kept _ hk

/-! ### Resets -/

theorem cutMailboxes_kept (keep : Option (Fin 6)) {s₀ s : State} (hk : Kept s₀ s) : Kept s₀ (cutMailboxes keep s) :=
  Kept.update (modFirmware_kept _ (kept_foldl (fun _ _ hk => kept_ite hk (respondTo_kept _ _ hk)) hk))

theorem cutDelete_kept (td : Fin 16) {s₀ s : State} (hk : Kept s₀ s) : Kept s₀ (cutDelete s td) :=
  kept_ite hk (kept_ite (keepTable_kept _ hk) (kept_ite (keepCutTable_kept _ hk) (removeTable_kept _ hk)))

theorem cutAllTasks_kept {s₀ s : State} (hk : Kept s₀ s) : Kept s₀ (cutAllTasks s) := by
  unfold cutAllTasks
  dsimp only
  refine kept_foldl (fun _ _ hk => cutDelete_kept _ hk) (endTasks_kept _ _ ?_)
  refine kept_foldl ?_ (cutBurns_kept _ _ hk)
  intro _ _ hk
  split
  · exact abortTest_kept _ _ hk
  · split
    · exact stopTest_kept _ _ hk
    · exact kept_ite hk (endTask_kept _ _ _ hk)

theorem dropPartners_kept (reason : Nat) {s₀ s : State} (hk : Kept s₀ s) : Kept s₀ (dropPartners reason s) :=
  kept_foldl (fun _ _ hk => dropPort_kept _ _ hk) hk

theorem startWarm_kept (cause : Nat) (keep : Option (Fin 6)) {s₀ s : State} (hk : Kept s₀ s) :
    Kept s₀ (startWarm cause keep s) :=
  kept_events (raise_events _ _ _ _ _) (peerResets_kept _ _ (modDevice_kept _ (modFirmware_kept _ (kept_events
    (modSideband_events _ _) (Kept.update (bondStore_kept (orderlyStop_kept (dropPartners_kept _ (cutMailboxes_kept _
    (cutAllTasks_kept hk))))))))))

theorem warmKennel_kept {s₀ s : State} (hk : Kept s₀ s) : Kept s₀ (warmKennel s) :=
  Kept.update (kept_lines (sealFlush_lines _ _) (kept_lines (kennelFlush_lines _ _) hk))

theorem warmAway_kept (q : Fin 4) (was : Quarter) {s₀ s : State} (hk : Kept s₀ s) : Kept s₀ (warmAway q was s) :=
  kept_ite (quarterPolicers_kept _ _ (voidAdmissions_kept _ (passHeld_kept _ _ hk))) hk

theorem warmReady_kept {s₀ s : State} (hk : Kept s₀ s) : Kept s₀ (warmReady s) := by
  unfold warmReady
  dsimp only
  refine kept_ite hk (kept_foldl (fun _ _ hk => respondTo_kept _ _ hk) (recomputeLedger_kept _ ?_))
  exact kept_foldl (fun _ _ hk => warmAway_kept _ _ hk) (warmKennel_kept
    (kept_foldl (fun _ _ hk => kept_ite (toDetect_kept _ hk) hk)
      (kept_foldl (fun _ _ hk => kept_ite hk (channelAwake_kept _ _ hk))
        (modDevice_kept _ (Kept.update (modFuses_kept (fun _ => rfl) hk))))))

theorem execWarmRestartReady_kept {s₀ s : State} (hk : Kept s₀ s) : Runs s₀ (execWarmRestartReady s) :=
  runs_next (warmReady_kept hk)

theorem failStart_kept (cause : Nat) (rail : Nat) {s₀ s : State} (hk : Kept s₀ s) : Kept s₀ (failStart cause rail s) :=
  kept_events (raise_events _ _ _ _ _) (modDevice_kept _ (Kept.update (kept_foldl (fun _ _ hk => kept_ite hk
    (kept_events (modPort_events _ _ _) (toDetect_kept _ hk))) hk)))

/-- A cold start keeps the memory, the granule map and the fuse words, and empties the other sparse tables. -/
theorem coldReset_kept (cause : Nat) {s₀ s : State} (hk : Kept s₀ s) : Kept s₀ (coldReset cause s) := by
  refine ⟨hk.1, fun hr => ?_⟩
  obtain ⟨hd, hg, _, _, _, hw⟩ := (canonical_iff s).mp (hk.2 hr)
  exact (canonical_iff _).mpr ⟨hd, hg, rfl, rfl, rfl, hw⟩

theorem powerOn_kept {s₀ s : State} (hk : Kept s₀ s) : Kept s₀ (powerOn s) := by
  unfold powerOn
  extract_lets cut u src
  have hc : Kept s₀ { cut with ports := State.reset.ports } := (cutBurns_kept _ _ hk).update
  have hu : Kept s₀ u := coldReset_kept _ hc
  have hv : Kept s₀ (modFuses (fun f => { f with vfuseRaised := none }) u) := modFuses_kept (fun _ => rfl) hu
  exact hv.update

theorem execPowerOnReset_kept {s₀ s : State} (hk : Kept s₀ s) : Runs s₀ (execPowerOnReset s) :=
  runs_next (powerOn_kept hk)

theorem resetPin_kept (high : Bool) (strap : BitVec 2) {s₀ s : State} (hk : Kept s₀ s) :
    Kept s₀ (resetPin high strap s) :=
  kept_ite hk (kept_ite (kept_ite (Kept.update hk) hk) (kept_ite hk (Kept.update (coldReset_kept _
    (cutBurns_kept _ _ hk)))))

theorem execRstL_kept (high : Bool) (strap : BitVec 2) {s₀ s : State} (hk : Kept s₀ s) :
    Runs s₀ (execRstL high strap s) := by
  unfold execRstL
  split
  · exact runs_fault
  · exact runs_next (resetPin_kept _ _ hk)

theorem warmPin_kept (high : Bool) {s₀ s : State} (hk : Kept s₀ s) : Kept s₀ (warmPin high s) := by
  unfold warmPin
  dsimp only
  split
  · exact kept_ite hk (kept_ite (modDevice_kept _ hk) (kept_ite (coldReset_kept _ (modDevice_kept _ hk))
      (modDevice_kept _ (modDevice_kept _ hk))))
  · exact kept_ite hk (modDevice_kept _ (kept_ite (startWarm_kept _ _ hk) hk))

theorem execWrstL_kept (high : Bool) {s₀ s : State} (hk : Kept s₀ s) : Runs s₀ (execWrstL high s) := by
  unfold execWrstL
  split
  · exact runs_fault
  · exact runs_next (warmPin_kept _ hk)

/-! ### Krejo firmware -/

theorem cmdPatchLoad_kept (m : Fin 6) (f : Frame) {s₀ s : State} (hk : Kept s₀ s) : Kept s₀ (cmdPatchLoad m f s).2 :=
  kept_ite_snd (badParam_kept hk) (kept_ite_snd (answer_kept _ hk) (answer_kept _ (modFirmware_kept _ hk)))

theorem cmdPatchActivate_kept (m : Fin 6) (f : Frame) {s₀ s : State} (hk : Kept s₀ s) :
    Kept s₀ (cmdPatchActivate m f s).2 := by
  unfold cmdPatchActivate
  dsimp only
  refine kept_ite_snd (badParam_kept hk) ?_
  split
  · exact answer_kept _ (kept_events (raise_events _ _ _ _ _) hk)
  · exact accept_kept _ _ _ (fun _ _ hk => modFirmware_kept _ hk) hk

theorem endActivate_kept (rom : Bool) (t : Task) {s₀ s : State} (hk : Kept s₀ s) : Kept s₀ (endActivate rom t s) := by
  unfold endActivate
  dsimp only
  split
  · exact endTask_kept _ _ _ (modFirmware_kept _ hk)
  · split
    · exact endTask_kept _ _ _ (modFirmware_kept _ (modFirmware_kept _ hk))
    · exact endTask_kept _ _ _ (kept_events (raise_events _ _ _ _ _) (modFirmware_kept _ (modFirmware_kept _ hk)))

theorem patchProbation_kept {s₀ s : State} (hk : Kept s₀ s) : Kept s₀ (patchProbation s) := by
  unfold patchProbation
  split
  · exact modFirmware_kept _ (kept_layers (passTo_layers _ _) hk)
  · exact hk

theorem execPatchProbation_kept {s₀ s : State} (hk : Kept s₀ s) : Runs s₀ (execPatchProbation s) :=
  runs_next (patchProbation_kept hk)

theorem countProbation_kept {s₀ s : State} (hk : Kept s₀ s) : Kept s₀ (countProbation s) := by
  unfold countProbation
  dsimp only
  split
  · exact kept_ite (modFirmware_kept _ hk) (kept_events (raise_events _ _ _ _ _) (modFirmware_kept _ hk))
  · exact hk

theorem cmdFeatureEnable_kept (m : Fin 6) (f : Frame) {s₀ s : State} (hk : Kept s₀ s) :
    Kept s₀ (cmdFeatureEnable m f s).2 :=
  badParam_kept hk

theorem cmdConfigExport_kept (m : Fin 6) (f : Frame) {s₀ s : State} (hk : Kept s₀ s) :
    Kept s₀ (cmdConfigExport m f s).2 := by
  unfold cmdConfigExport
  dsimp only
  refine kept_ite_snd (badParam_kept hk) ?_
  split
  · exact badParam_kept hk
  · split
    · refine kept_ite_snd ?_ ?_
      · exact answer_kept _ (kept_ite (modFirmware_kept _ hk) hk)
      · exact kept_ite_snd (badParam_kept (kept_ite (modFirmware_kept _ hk) hk)) (answerData_kept _ (kept_ite
          (modFirmware_kept _ hk) hk))
    · exact answer_kept _ (kept_ite (modFirmware_kept _ hk) hk)

theorem snapshotExpiry_kept {s₀ s : State} (hk : Kept s₀ s) : Kept s₀ (snapshotExpiry s) := by
  unfold snapshotExpiry
  split
  · exact modFirmware_kept _ (kept_layers (passTo_layers _ _) hk)
  · exact hk

theorem execConfigSnapshotExpiry_kept {s₀ s : State} (hk : Kept s₀ s) : Runs s₀ (execConfigSnapshotExpiry s) :=
  runs_next (snapshotExpiry_kept hk)

theorem placeGranules_kept (ps : List Partition) {s₀ s t : State} (hk : Kept s₀ s)
    (e : placeGranules ps s = some t) : Kept s₀ t := by
  refine kept_foldl_bind (fun u x v hu e => ?_) hk e
  split at e
  · exact allocGranules_kept _ _ _ hu e
  · cases e
    exact hu

theorem applyStore_kept (bs : List Byte) {s₀ s t : State} (hk : Kept s₀ s) (e : applyStore bs s = some t) :
    Kept s₀ t := by
  obtain ⟨u, hu, rfl⟩ := Option.map_eq_some_iff.mp e
  exact Kept.update (placeGranules_kept _ (kept_lines (modParams_lines _ _) (modFirmware_kept _ hk)) hu)

theorem cmdConfigImport_kept (m : Fin 6) (f : Frame) {s₀ s : State} (hk : Kept s₀ s) :
    Kept s₀ (cmdConfigImport m f s).2 := by
  unfold cmdConfigImport
  dsimp only
  refine kept_ite_snd (badParam_kept hk) ?_
  split
  · exact badParam_kept hk
  · refine kept_ite_snd ?_ ?_
    · exact answer_kept _ hk
    · refine kept_ite_snd ?_ ?_
      · exact answer_kept _ (modFirmware_kept _ hk)
      · split
        · dsimp only
          exact modFirmware_kept _ hk
        · exact accept_kept _ _ _ (fun _ _ hk => modFirmware_kept _ hk) (modFirmware_kept _ hk)

theorem endImport_kept (t : Task) {s₀ s : State} (hk : Kept s₀ s) : Kept s₀ (endImport t s) := by
  unfold endImport
  extract_lets bs u
  have hu : Kept s₀ u := modFirmware_kept _ hk
  refine kept_ite (endTask_kept _ _ _ hu) ?_
  split
  · rename_i e
    obtain ⟨v, hv, hc⟩ := Option.bind_eq_some_iff.mp e
    exact endTask_kept _ _ _ (commitStore_kept _ (applyStore_kept _ hu hv) hc)
  · exact endTask_kept _ _ _ hu

/-! ### Cold start-up -/

theorem degradedItem_kept (failure : Nat) (kind : Nat) (num : Nat) {s₀ s : State} (hk : Kept s₀ s) :
    Kept s₀ (degradedItem failure kind num s) :=
  modDevice_kept _ hk

theorem enterPhase_kept (dev : DevState) {s₀ s : State} (hk : Kept s₀ s) : Kept s₀ (enterPhase dev s) :=
  modDevice_kept _ hk

theorem senseFuses_kept {s₀ s : State} (hk : Kept s₀ s) : Kept s₀ (senseFuses s) :=
  kept_ite hk (kept_foldl (fun _ _ hk => degradedItem_kept _ _ _ hk) (loadFuses_kept (modDevice_kept _ hk)))

theorem monitorRefclk_kept (present : Bool) {s₀ s : State} (hk : Kept s₀ s) : Kept s₀ (monitorRefclk present s) := by
  unfold monitorRefclk
  dsimp only
  split
  · exact kept_ite hk (kept_events (raise_events _ _ _ _ _) (modDevice_kept _ hk))
  · exact kept_ite (kept_events (raise_events _ _ _ _ _) (modDevice_kept _ hk)) (modDevice_kept _ hk)

theorem phaseFuses_kept (r : StartReport) {s₀ s : State} (hk : Kept s₀ s) : Kept s₀ (phaseFuses r s) := by
  unfold phaseFuses
  dsimp only
  split
  · exact monitorRefclk_kept _ (senseFuses_kept hk)
  · split
    · exact failStart_kept _ _ (monitorRefclk_kept _ (senseFuses_kept hk))
    · exact kept_ite (failStart_kept _ _ (monitorRefclk_kept _ (senseFuses_kept hk))) (enterPhase_kept _
        (modDevice_kept _ (monitorRefclk_kept _ (senseFuses_kept hk))))

theorem loseWays_kept (ws : List (Fin 8 × Fin 4096 × Fin 16)) {s₀ s : State} (hk : Kept s₀ s) :
    Kept s₀ (loseWays ws s) :=
  kept_foldl (fun _ _ hk => degradedItem_kept _ _ _ hk) (Kept.update hk)

theorem phaseSram_kept (r : StartReport) {s₀ s : State} (hk : Kept s₀ s) : Kept s₀ (phaseSram r s) :=
  kept_ite (failStart_kept _ _ hk) (enterPhase_kept _ (kept_foldl (fun _ _ hk => degradedItem_kept _ _ _
    (modBlock_kept _ _ hk)) (loseWays_kept _ hk)))

theorem losePartition_kept (pd : Fin 64) {s₀ s : State} (hk : Kept s₀ s) : Kept s₀ (losePartition pd s) :=
  Kept.update (kept_foldl (fun _ _ hk => setGranule_kept _ _ hk) hk)

theorem loseRecord_kept (cr : ConfigRecord) {s₀ s : State} (hk : Kept s₀ s) : Kept s₀ (loseRecord s cr) := by
  unfold loseRecord
  dsimp only
  split
  · exact kept_events (raise_events _ _ _ _ _) (losePartition_kept _ hk)
  · exact kept_events (raise_events _ _ _ _ _) (modTable_kept _ _ hk)
  · exact kept_events (raise_events _ _ _ _ _) (kept_lines (modPartition_lines _ _ _) hk)
  · exact kept_events (raise_events _ _ _ _ _) (modFirmware_kept _ hk)
  · exact kept_events (raise_events _ _ _ _ _) (kept_foldl (fun _ _ hk => modCounter_kept _ _ hk) (kept_lines
      (modParams_lines _ _) (modFirmware_kept _ hk)))

theorem readRepairLog_kept (r : StartReport) {s₀ s : State} (hk : Kept s₀ s) : Kept s₀ (readRepairLog r s) := by
  unfold readRepairLog
  split
  · exact hk
  · exact Kept.update hk
  · exact Kept.update hk
  · exact kept_events (raise_events _ _ _ _ _) (Kept.update hk)

theorem loseLogRecords_kept (counts : List Nat) {s₀ s : State} (hk : Kept s₀ s) :
    Kept s₀ (loseLogRecords counts s) := by
  unfold loseLogRecords
  exact kept_events (modLog_events _ _) hk

theorem safeCounter_kept (c : MramCounter) {s₀ s : State} (hk : Kept s₀ s) : Kept s₀ (safeCounter s c) := by
  unfold safeCounter
  dsimp only
  refine kept_events (raise_events _ _ _ _ _) ?_
  split
  · exact Kept.update hk
  · exact modBond_kept _ _ hk
  · exact modFirmware_kept _ hk
  · exact kept_lines (modSeal_lines _ _ _) hk
  · exact modDevice_kept _ hk
  · exact modDevice_kept _ hk
  · exact modThermal_kept _ hk
  · exact modDevice_kept _ hk
  · exact modFirmware_kept _ hk
  · exact modDevice_kept _ hk
  · exact kept_events (modLog_events _ _) hk
  · exact kept_events (modLog_events _ _) hk
  · exact modFirmware_kept _ hk

theorem choosePatch_kept {s₀ s : State} (hk : Kept s₀ s) : Kept s₀ (choosePatch s) := by
  unfold choosePatch
  dsimp only
  refine kept_ite (modFirmware_kept _ hk) ?_
  refine kept_ite ?_ ?_
  · exact modFirmware_kept _ hk
  · exact kept_ite (modFirmware_kept _ (degradedItem_kept _ _ _ (kept_events (raise_events _ _ _ _ _) hk)))
      (modFirmware_kept _ (degradedItem_kept _ _ _ (kept_events (raise_events _ _ _ _ _) hk)))

theorem applyPersisted_kept {s₀ s : State} (hk : Kept s₀ s) : Kept s₀ (applyPersisted s) :=
  kept_foldl (fun _ _ hk => paramWrite_kept _ hk) hk

theorem readMram_kept (r : StartReport) {s₀ s : State} (hk : Kept s₀ s) : Kept s₀ (readMram r s) :=
  readRepairLog_kept _ (kept_foldl (fun _ _ hk => safeCounter_kept _ hk) (kept_foldl
    (fun _ _ hk => loseRecord_kept _ hk) (loseLogRecords_kept _ (modFirmware_kept _ hk))))

theorem phaseCore_kept (r : StartReport) {s₀ s : State} (hk : Kept s₀ s) : Kept s₀ (phaseCore r s) := by
  unfold phaseCore
  dsimp only
  split
  · exact failStart_kept _ _ (modFirmware_kept _ hk)
  · exact kept_ite (failStart_kept _ _ (modFirmware_kept _ hk)) (enterPhase_kept _ (applyPersisted_kept
      (choosePatch_kept (readMram_kept _ (modFirmware_kept _ hk)))))

theorem latchRow_kept (c : Fin 32) (b : Fin 16) (row : Nat) {s₀ s : State} (hk : Kept s₀ s) :
    Kept s₀ (latchRow c b row s) :=
  kept_ite (kept_layers (modBank_layers _ _ _ _) hk) hk

theorem applyEntry_kept (c : Fin 32) (e : Nat × Nat) {s₀ s : State} (hk : Kept s₀ s) : Kept s₀ (applyEntry c s e) :=
  kept_ite (kept_layers (modVertical_layers _ _ _) hk) (kept_ite (latchRow_kept _ _ _ hk) hk)

theorem replayEntry_kept (rp : Repair) {s₀ s : State} (hk : Kept s₀ s) : Kept s₀ (replayEntry s rp) := by
  unfold replayEntry
  split
  · exact kept_layers (modVertical_layers _ _ _) hk
  · exact kept_layers (modVertical_layers _ _ _) hk
  · exact hk
  · exact kept_layers (modChannel_layers _ _ _) hk
  · exact kept_layers (modChannel_layers _ _ _) hk
  · exact kept_ite hk (latchRow_kept _ _ _ hk)

theorem dropOrphanRelocs_kept {s₀ s : State} (hk : Kept s₀ s) : Kept s₀ (dropOrphanRelocs s) :=
  kept_foldl (fun _ _ hk => kept_layers (modChannel_layers _ _ _) hk) hk

theorem markRetired_kept (c : Fin 32) {s₀ s : State} (hk : Kept s₀ s) : Kept s₀ (markRetired c s) :=
  kept_layers (modChannel_layers _ _ _) hk

theorem switchSlabs_kept (c : Fin 32) {s₀ s : State} (hk : Kept s₀ s) : Kept s₀ (switchSlabs c s) := by
  unfold switchSlabs
  dsimp only
  split
  · refine kept_layers (modChannel_layers _ _ _) ?_
    refine kept_foldl ?_ (placeSlabs_kept _ hk)
    intro _ _ hk
    split
    · exact setReloc_kept _ _ _ _ hk
    · exact setReloc_kept _ _ _ _ hk
  · refine kept_events (raise_events _ _ _ _ _) (kept_layers (modChannel_layers _ _ _) ?_)
    refine kept_foldl ?_ (placeSlabs_kept _ hk)
    intro _ _ hk
    split
    · exact setReloc_kept _ _ _ _ hk
    · exact setReloc_kept _ _ _ _ hk

theorem retireCold_kept (cs : List (Fin 32)) (log : Bool) {s₀ s : State} (hk : Kept s₀ s) :
    Kept s₀ (retireCold cs log s) :=
  kept_foldl (fun _ _ hk => kept_ite (kept_events (raise_events _ _ _ _ _) (degradedItem_kept _ _ _
    (switchSlabs_kept _ hk))) (degradedItem_kept _ _ _ (switchSlabs_kept _ hk))) (kept_foldl
    (fun _ _ hk => markRetired_kept _ (kept_ite (logRepair_kept _ hk) hk)) hk)

theorem finishRetirement_kept (c : Fin 32) {s₀ s : State} (hk : Kept s₀ s) : Kept s₀ (finishRetirement s c) := by
  unfold finishRetirement
  dsimp only
  exact kept_ite (kept_events (raise_events _ _ _ _ _) (switchSlabs_kept _ (kept_ite hk (logRepair_kept _ hk))))
    (switchSlabs_kept _ (kept_ite hk (logRepair_kept _ hk)))

theorem firstTrim_kept (e : Fin 32 × TrimProbe) {s₀ s : State} (hk : Kept s₀ s) : Kept s₀ (firstTrim s e) := by
  unfold firstTrim
  dsimp only
  split
  · exact hk
  · exact kept_layers (modChannel_layers _ _ _) (kept_foldl (fun _ _ hk => kept_ite (repairWire_kept _ _ _ hk) hk)
      (setTaps_kept _ _ _ (noteTrim_kept _ hk)))

theorem holdQuarter_kept (q : Fin 4) {s₀ s : State} (hk : Kept s₀ s) : Kept s₀ (holdQuarter q s) :=
  degradedItem_kept _ _ _ (kept_events (raiseAs_events _ _ _ _ _ _ _) (kept_layers (modQuarter_layers _ _ _) hk))

theorem phaseDram_kept (r : StartReport) {s₀ s : State} (hk : Kept s₀ s) : Kept s₀ (phaseDram r s) :=
  enterPhase_kept _ (kept_foldl (fun _ _ hk => firstTrim_kept _ hk) (retireCold_kept _ _ (retireCold_kept _ _
    (kept_foldl (fun _ _ hk => finishRetirement_kept _ hk) (kept_foldl (fun _ _ hk => markRetired_kept _ hk)
    (dropOrphanRelocs_kept (kept_foldl (fun _ _ hk => replayEntry_kept _ hk) (kept_foldl (fun _ _ hk => kept_foldl
    (fun _ _ hk => applyEntry_kept _ _ hk) hk) (kept_foldl (fun _ _ hk => kept_ite (kept_layers
    (modQuarter_layers _ _ _) hk) (holdQuarter_kept _ hk)) hk)))))))))

theorem fillDram_kept {s₀ s : State} (hk : Kept s₀ s) : Kept s₀ (fillDram s) := Kept.dram hk (memWf_filter _ _)

theorem endRekeys_kept {s₀ s : State} (hk : Kept s₀ s) : Kept s₀ (endRekeys s) :=
  kept_foldl (fun _ _ hk => kept_ite (kept_events (raise_events _ _ _ _ _) (noteCommit_kept _ (kept_lines
    (modSeal_lines _ _ _) hk))) hk) hk

theorem serveFirst_kept (c : Fin 32) {s₀ s : State} (hk : Kept s₀ s) : Kept s₀ (serveFirst s c) :=
  kept_ite (holdTrim_kept _ hk) hk

theorem reachReady_kept {s₀ s : State} (hk : Kept s₀ s) : Kept s₀ (reachReady s) := by
  unfold reachReady
  refine recomputeLedger_kept _ ?_
  exact kept_foldl (fun _ _ hk => kept_ite (toDetect_kept _ hk) hk) (kept_foldl (fun _ _ hk => serveFirst_kept _ hk)
    (Kept.update (kept_ite (kept_events (raise_events _ _ _ _ _) (modDevice_kept _ hk))
      (kept_events (raise_events _ _ _ _ _) (modDevice_kept _ hk)))))

theorem phaseFill_kept (r : StartReport) {s₀ s : State} (hk : Kept s₀ s) : Kept s₀ (phaseFill r s) :=
  reachReady_kept (endRekeys_kept (fillDram_kept (Kept.update (retireCold_kept _ _ hk))))

theorem startupPhase_kept (r : StartReport) {s₀ s : State} (hk : Kept s₀ s) : Kept s₀ (startupPhase r s) := by
  unfold startupPhase
  dsimp only
  split
  · exact hk
  · split
    · exact phaseFuses_kept _ (kept_layers (passTo_layers _ _) hk)
    · split
      · exact failStart_kept _ _ (kept_layers (passTo_layers _ _) hk)
      · exact kept_ite (failStart_kept _ _ (kept_layers (passTo_layers _ _) hk)) (phaseSram_kept _ (kept_layers
          (passTo_layers _ _) hk))
    · split
      · exact failStart_kept _ _ (kept_layers (passTo_layers _ _) hk)
      · exact kept_ite (failStart_kept _ _ (kept_layers (passTo_layers _ _) hk)) (phaseCore_kept _ (kept_layers
          (passTo_layers _ _) hk))
    · split
      · exact failStart_kept _ _ (kept_layers (passTo_layers _ _) hk)
      · exact kept_ite (failStart_kept _ _ (kept_layers (passTo_layers _ _) hk)) (phaseDram_kept _ (kept_layers
          (passTo_layers _ _) hk))
    · split
      · exact failStart_kept _ _ (kept_layers (passTo_layers _ _) hk)
      · exact kept_ite (failStart_kept _ _ (kept_layers (passTo_layers _ _) hk)) (phaseFill_kept _ (kept_layers
          (passTo_layers _ _) hk))
    · exact hk

theorem execStartupPhase_kept (r : StartReport) {s₀ s : State} (hk : Kept s₀ s) : Runs s₀ (execStartupPhase r s) :=
  runs_next (startupPhase_kept _ hk)

theorem refclkTimeout_kept {s₀ s : State} (hk : Kept s₀ s) : Kept s₀ (refclkTimeout s) :=
  kept_ite hk (kept_ite (failStart_kept _ _ (kept_layers (passTo_layers _ _) hk)) (kept_ite (failStart_kept _ _
    (kept_layers (passTo_layers _ _) hk)) hk))

theorem execRefclkWaitTimeout_kept {s₀ s : State} (hk : Kept s₀ s) : Runs s₀ (execRefclkWaitTimeout s) :=
  runs_next (refclkTimeout_kept hk)

/-! ### Commands on channels, sensors and resets -/

theorem cmdVtrim_kept (m : Fin 6) (f : Frame) {s₀ s : State} (hk : Kept s₀ s) : Kept s₀ (cmdVtrim m f s).2 :=
  kept_ite_snd (badParam_kept hk) (acceptOrQueue_kept _ _ _ (fun _ _ hk => hk) hk)

theorem endVtrim_kept (c : Fin 32) (probe : TrimProbe) (t : Task) {s₀ s : State} (hk : Kept s₀ s) :
    Kept s₀ (endVtrim c probe t s) :=
  kept_ite hk (kept_ite (endTasks_kept _ _ (applyTrim_kept _ _ hk)) (endTask_kept _ _ _ hk))

theorem cmdWireRepair_kept (m : Fin 6) (f : Frame) {s₀ s : State} (hk : Kept s₀ s) : Kept s₀ (cmdWireRepair m f s).2 :=
  kept_ite_snd (badParam_kept hk) (acceptOrQueue_kept _ _ _ (fun _ _ hk => hk) hk)

theorem endWireRepair_kept (c : Fin 32) (path : Path) (wire : Nat) (probe : TrimProbe) (t : Task) {s₀ s : State}
    (hk : Kept s₀ s) : Kept s₀ (endWireRepair c path wire probe t s) :=
  kept_ite hk (kept_ite (mergeTrims_kept _ (endTask_kept _ _ _ (applyTrim_kept _ _ (repairWire_kept _ _ _ hk))))
    (endTask_kept _ _ _ hk))

theorem cmdRowRepair_kept (m : Fin 6) (f : Frame) {s₀ s : State} (hk : Kept s₀ s) : Kept s₀ (cmdRowRepair m f s).2 :=
  kept_ite_snd (badParam_kept hk) (acceptOrQueue_kept _ _ _ (fun _ _ hk => hk) hk)

theorem endRowRepair_kept (c : Fin 32) (b : Fin 16) (row : Nat) (t : Task) {s₀ s : State} (hk : Kept s₀ s) :
    Kept s₀ (endRowRepair c b row t s) :=
  kept_ite (endTask_kept _ _ _ (repairRow_kept _ _ _ (kept_layers (passTo_layers _ _) (refreshDown_kept _ hk))))
    (endTask_kept _ _ _ hk)

theorem joinRetirement_kept (m : Fin 6) (t : Task) {s₀ s : State} (hk : Kept s₀ s) :
    Kept s₀ (joinRetirement m t s).2 := by
  unfold joinRetirement
  dsimp only
  split
  · exact kept_ite (modTask_kept _ _ (Kept.update hk)) hk
  · exact kept_ite (modTask_kept _ _ (Kept.update hk)) hk

theorem cmdChannelRetire_kept (m : Fin 6) (f : Frame) {s₀ s : State} (hk : Kept s₀ s) :
    Kept s₀ (cmdChannelRetire m f s).2 := by
  unfold cmdChannelRetire
  dsimp only
  refine kept_ite_snd (badParam_kept hk) ?_
  split
  · exact joinRetirement_kept _ _ hk
  · refine kept_ite_snd ?_ ?_
    · exact answer_kept _ (kept_events (raise_events _ _ _ _ _) hk)
    · refine kept_ite ?_ ?_
      · exact kept_layers (modChannel_layers _ _ _) (acceptOrQueue_kept _ _ _
          (fun _ _ hk => startRetire_kept _ _ hk) hk)
      · exact acceptOrQueue_kept _ _ _ (fun _ _ hk => startRetire_kept _ _ hk) hk

theorem holdChannel_kept (c : Fin 32) {s₀ s : State} (hk : Kept s₀ s) : Kept s₀ (holdChannel c s) :=
  recomputeLedger_kept _ (kept_layers (modChannel_layers _ _ _) (kept_ite (stopChannel_kept _ hk) hk))

theorem releaseChannel_kept (c : Fin 32) {s₀ s : State} (hk : Kept s₀ s) : Kept s₀ (releaseChannel c s) :=
  serveUnserved_kept (recomputeLedger_kept _ (leaveSelfRefresh_kept _ (kept_layers (modChannel_layers _ _ _) hk)))

theorem cmdChannelHold_kept (m : Fin 6) (f : Frame) {s₀ s : State} (hk : Kept s₀ s) :
    Kept s₀ (cmdChannelHold m f s).2 := by
  unfold cmdChannelHold
  dsimp only
  exact kept_ite_snd (badParam_kept hk) (kept_ite_snd (answer_kept _ (kept_ite hk (holdChannel_kept _ hk)))
    (answer_kept _ (kept_ite (releaseChannel_kept _ hk) hk)))

theorem cmdSensorRestore_kept (m : Fin 6) (f : Frame) {s₀ s : State} (hk : Kept s₀ s) :
    Kept s₀ (cmdSensorRestore m f s).2 := by
  unfold cmdSensorRestore
  dsimp only
  refine kept_ite_snd (badParam_kept hk) ?_
  refine kept_ite_snd ?_ ?_
  · exact answer_kept _ hk
  · exact kept_ite_snd (answer_kept _ hk) (answer_kept _ (refreshValues_kept (modThermal_kept _
      (modSensor_kept _ _ hk))))

theorem cmdDeviceReset_kept (m : Fin 6) (f : Frame) {s₀ s : State} (hk : Kept s₀ s) :
    Kept s₀ (cmdDeviceReset m f s).2 := by
  unfold cmdDeviceReset
  refine kept_ite_snd (badParam_kept hk) ?_
  dsimp only
  exact startWarm_kept _ _ hk

theorem beginQuarterReset_kept (q : Fin 4) {s₀ s : State} (hk : Kept s₀ s) : Kept s₀ (beginQuarterReset q s) := by
  unfold beginQuarterReset
  dsimp only
  split
  · exact kept_ite hk (isolateQuarter_kept _ _ _ hk)
  · exact nextQuarterReset_kept (kept_layers (modQuarter_layers _ _ _) hk)
  · exact nextQuarterReset_kept hk
  · exact hk

theorem cmdQuarterReset_kept (m : Fin 6) (f : Frame) {s₀ s : State} (hk : Kept s₀ s) :
    Kept s₀ (cmdQuarterReset m f s).2 := by
  unfold cmdQuarterReset
  dsimp only
  exact kept_ite_snd (badParam_kept hk) (kept_ite_snd (answer_kept _ hk) (accept_kept _ _ _
    (fun _ _ hk => beginQuarterReset_kept _ hk) hk))

theorem quarterResetFails_kept (q : Fin 4) (t : Task) {s₀ s : State} (hk : Kept s₀ s) :
    Kept s₀ (quarterResetFails q t s) :=
  nextQuarterReset_kept (endTask_kept _ _ _ (kept_ite (kept_layers (modQuarter_layers _ _ _) hk) hk))

theorem cmdBlockReset_kept (m : Fin 6) (f : Frame) {s₀ s : State} (hk : Kept s₀ s) :
    Kept s₀ (cmdBlockReset m f s).2 := by
  unfold cmdBlockReset
  dsimp only
  split
  · exact badParam_kept hk
  · refine kept_ite_snd ?_ ?_
    · exact badParam_kept hk
    · refine kept_ite_snd ?_ ?_
      · exact answer_kept _ hk
      · refine kept_ite_snd ?_ ?_
        · exact answer_kept _ hk
        · exact answer_kept _ (startBlockReset_kept _ (echoTest_kept _ _ (drawOne_kept (fenceBlock_kept _ _ _ hk))))

/-! ### Maintenance and self-test -/

theorem drainBobbin_kept (q : Fin 4) {s₀ s : State} (hk : Kept s₀ s) : Kept s₀ (drainBobbin q s) :=
  kept_foldl (fun _ _ hk => kept_ite (handoverStep_kept _ (modQueue_kept _ _ (kept_foldl
    (fun _ _ hk => linkPacket_kept _ hk) hk))) hk) hk

theorem drainBlock_kept (b : BlockId) {s₀ s : State} (hk : Kept s₀ s) : Kept s₀ (drainBlock b s) := by
  unfold drainBlock
  split
  · exact kept_ite (stopChannel_kept _ hk) hk
  · exact drainBobbin_kept _ hk
  · exact kept_lines (sealFlush_lines _ _) (kept_lines (kennelFlush_lines _ _) hk)
  · exact kept_ite (dropPort_kept _ _ hk) hk
  · exact hk

theorem beginTestRun_kept (b : BlockId) {s₀ s : State} (hk : Kept s₀ s) : Kept s₀ (beginTestRun b s) := by
  unfold beginTestRun
  dsimp only
  split
  · exact recomputeLedger_kept _ (modBlock_kept _ _ (drainBlock_kept _ hk))
  · exact modBlock_kept _ _ (drainBlock_kept _ hk)

theorem cmdBistRun_kept (m : Fin 6) (f : Frame) {s₀ s : State} (hk : Kept s₀ s) : Kept s₀ (cmdBistRun m f s).2 := by
  unfold cmdBistRun
  split
  · exact kept_ite_snd (badParam_kept hk) (acceptOrQueue_kept _ _ _ (fun _ _ hk => beginTestRun_kept _ hk) hk)
  · exact badParam_kept hk

theorem cmdMbistRun_kept (m : Fin 6) (f : Frame) {s₀ s : State} (hk : Kept s₀ s) : Kept s₀ (cmdMbistRun m f s).2 := by
  unfold cmdMbistRun
  split
  · exact badParam_kept hk
  · refine kept_ite_snd ?_ ?_
    · exact badParam_kept hk
    · split
      · exact answer_kept _ hk
      · exact acceptOrQueue_kept _ _ _ (fun _ _ hk => beginTestRun_kept _ hk) hk

theorem afterTest_kept (b : BlockId) {s₀ s : State} (hk : Kept s₀ s) : Kept s₀ (afterTest b s) := by
  unfold afterTest
  dsimp only
  split
  · exact kept_ite (toDetect_kept _ (modBlock_kept _ _ hk)) (modBlock_kept _ _ hk)
  · exact endTasks_kept _ _ (kept_ite (exitRefresh_kept _ _ (modBlock_kept _ _ hk)) (modBlock_kept _ _ hk))
  · exact recomputeLedger_kept _ (modBlock_kept _ _ hk)
  · exact modBlock_kept _ _ hk

theorem failTest_kept (b : BlockId) {s₀ s : State} (hk : Kept s₀ s) : Kept s₀ (failTest b s) :=
  modBlock_kept _ _ hk

theorem endBist_kept (b : BlockId) (patterns : Nat) (m : Measure) (t : Task) {s₀ s : State} (hk : Kept s₀ s) :
    Kept s₀ (endBist b patterns m t s) := by
  unfold endBist
  dsimp only
  split
  · split
    · exact endTask_kept _ _ _ (kept_events (raiseBlock_events _ _ _ _) (afterTest_kept _ hk))
    · split
      · exact endTask_kept _ _ _ (kept_events (raiseBlock_events _ _ _ _) (failTest_kept _ hk))
      · exact endTask_kept _ _ _ (kept_events (raiseBlock_events _ _ _ _) (afterTest_kept _ hk))
  · exact endTask_kept _ _ _ (kept_events (raiseBlock_events _ _ _ _) (afterTest_kept _ hk))

theorem clearArrays_kept (b : BlockId) {s₀ s : State} (hk : Kept s₀ s) : Kept s₀ (clearArrays b s) := by
  unfold clearArrays
  split
  · exact kept_layers (modChannel_layers _ _ _) hk
  · exact Kept.update hk
  · exact hk

theorem disableWays_kept (k : Fin 8) (n : Nat) {s₀ s : State} (hk : Kept s₀ s) : Kept s₀ (disableWays k n s) :=
  drawOne_kept (Kept.update hk)

theorem endMbist_kept (b : BlockId) (failing : Nat) (repaired : Nat) (t : Task) {s₀ s : State} (hk : Kept s₀ s) :
    Kept s₀ (endMbist b failing repaired t s) := by
  unfold endMbist
  dsimp only
  split
  · exact endTask_kept _ _ _ (afterTest_kept _ (kept_ite (clearArrays_kept _ hk) (kept_events
      (raiseBlock_events _ _ _ _) (clearArrays_kept _ hk))))
  · refine endTask_kept _ _ _ ?_
    split
    · exact afterTest_kept _ (disableWays_kept _ _ (kept_events (raiseBlock_events _ _ _ _) (clearArrays_kept _ hk)))
    · exact failTest_kept _ (kept_events (raiseBlock_events _ _ _ _) (clearArrays_kept _ hk))

theorem cmdCalReport_kept (m : Fin 6) (f : Frame) {s₀ s : State} (hk : Kept s₀ s) : Kept s₀ (cmdCalReport m f s).2 :=
  kept_ite_snd (badParam_kept hk) (kept_ite_snd (answerData_kept _ hk) (answerData_kept _ hk))

theorem cmdMaintStatus_kept (m : Fin 6) (f : Frame) {s₀ s : State} (hk : Kept s₀ s) :
    Kept s₀ (cmdMaintStatus m f s).2 :=
  kept_ite_snd (badParam_kept hk) (answerData_kept _ hk)

theorem withdraw_kept (t : Task) {s₀ s : State} (hk : Kept s₀ s) : Kept s₀ (withdraw t s) := by
  unfold withdraw
  dsimp only
  refine endTask_kept _ _ _ ?_
  split
  · exact kept_lines (modSeal_lines _ _ _) hk
  · exact kept_layers (modChannel_layers _ _ _) hk
  · exact hk

theorem cmdMaintCancel_kept (m : Fin 6) (f : Frame) {s₀ s : State} (hk : Kept s₀ s) :
    Kept s₀ (cmdMaintCancel m f s).2 := by
  unfold cmdMaintCancel
  dsimp only
  split
  · exact kept_ite_snd (badParam_kept hk) (answer_kept _ (withdraw_kept _ hk))
  · exact badParam_kept hk

theorem startWork_kept (t : Task) {s₀ s : State} (hk : Kept s₀ s) : Kept s₀ (startWork t s) := by
  unfold startWork
  dsimp only
  split
  · exact beginTrain_kept _ _ (modTask_kept _ _ hk)
  · exact beginTest_kept _ _ _ (modTask_kept _ _ hk)
  · exact startRetire_kept _ _ hk
  · exact beginResize_kept _ _ _ hk
  · exact beginTestRun_kept _ (modTask_kept _ _ hk)
  · exact beginTestRun_kept _ (modTask_kept _ _ hk)
  · exact modTask_kept _ _ hk

theorem maintStart_kept {s₀ s : State} (hk : Kept s₀ s) : Kept s₀ (maintStart s) := by
  unfold maintStart
  split
  · exact hk
  · split
    · exact startWork_kept _ hk
    · exact hk

theorem execMaintStart_kept {s₀ s : State} (hk : Kept s₀ s) : Runs s₀ (execMaintStart s) :=
  runs_next (maintStart_kept hk)

theorem endWork_kept (t : Task) (m : Measure) {s₀ s : State} (hk : Kept s₀ s) : Kept s₀ (endWork t m s) := by
  unfold endWork
  cases hw : t.work with
  | portTrain p => exact endTrain_kept _ _ hk
  | portTest p _ => exact stopTest_kept _ _ hk
  | retune p lanes => exact endRetune_kept _ _ _ _ hk
  | vtrim c =>
    dsimp only
    split
    · exact endVtrim_kept _ _ _ hk
    · exact endTask_kept _ _ _ hk
  | wireRepair c path wire =>
    dsimp only
    split
    · exact endWireRepair_kept _ _ _ _ _ hk
    · exact endTask_kept _ _ _ hk
  | rowRepair c b row => exact endRowRepair_kept _ _ _ _ hk
  | tableDelete td =>
    exact kept_ite hk (kept_ite (endTask_kept _ _ _ (keepCutTable_kept _ hk)) (endTask_kept _ _ _
      (removeTable_kept _ hk)))
  | bufferReset _ => exact endTask_kept _ _ _ hk
  | quarterReset q => exact quarterResetFails_kept _ _ hk
  | bist b n => exact endBist_kept _ _ _ _ hk
  | mbist b =>
    dsimp only
    split
    · exact endMbist_kept _ _ _ _ hk
    · exact endTask_kept _ _ _ (afterTest_kept _ hk)
  | patchActivate rom => exact endActivate_kept _ _ hk
  | configImport => exact endImport_kept _ hk
  | fuseBurn _ _ _ _ => exact endBurn_kept _ _ hk
  | fuseLock _ _ _ => exact endBurn_kept _ _ hk
  | fuseReburn field slot => exact endReburn_kept _ _ _ _ hk
  | _ => exact hk

theorem commandDone_kept (ticket : BitVec 16) (m : Measure) {s₀ s : State} (hk : Kept s₀ s) :
    Kept s₀ (commandDone ticket m s) := by
  unfold commandDone
  split
  · exact hk
  · split
    · exact endWork_kept _ _ hk
    · exact hk

/-! ### Identity, log, parameter and memory commands -/

theorem cmdIdentify_kept (m : Fin 6) (f : Frame) {s₀ s : State} (hk : Kept s₀ s) : Kept s₀ (cmdIdentify m f s).2 :=
  kept_ite_snd (badParam_kept hk) (answerData_kept _ hk)

theorem cmdDeviceStatus_kept (m : Fin 6) (f : Frame) {s₀ s : State} (hk : Kept s₀ s) :
    Kept s₀ (cmdDeviceStatus m f s).2 :=
  kept_ite_snd (badParam_kept hk) (answerData_kept _ hk)

theorem cmdSensorRead_kept (m : Fin 6) (f : Frame) {s₀ s : State} (hk : Kept s₀ s) : Kept s₀ (cmdSensorRead m f s).2 :=
  kept_ite_snd (badParam_kept hk) (answerData_kept _ hk)

theorem cmdTaskStatus_kept (m : Fin 6) (f : Frame) {s₀ s : State} (hk : Kept s₀ s) : Kept s₀ (cmdTaskStatus m f s).2 :=
  kept_ite_snd (badParam_kept hk) (answerData_kept _ hk)

theorem cmdLogRead_kept (m : Fin 6) (f : Frame) {s₀ s : State} (hk : Kept s₀ s) : Kept s₀ (cmdLogRead m f s).2 :=
  kept_ite_snd (badParam_kept hk) (answerData_kept _ hk)

theorem cmdAlertAck_kept (m : Fin 6) (f : Frame) {s₀ s : State} (hk : Kept s₀ s) : Kept s₀ (cmdAlertAck m f s).2 :=
  kept_ite_snd (badParam_kept hk) (answer_kept _ (kept_events (modLog_events _ _) hk))

theorem readParams_kept (es : List (Nat × Nat)) {s₀ s : State} (hk : Kept s₀ s) : Kept s₀ (readParams es s).2 :=
  kept_foldl_snd (fun _ _ hk => paramTouch_kept _ _ hk) hk

theorem cmdParamRead_kept (m : Fin 6) (f : Frame) {s₀ s : State} (hk : Kept s₀ s) : Kept s₀ (cmdParamRead m f s).2 :=
  kept_ite_snd (badParam_kept hk) (answerData_kept _ (readParams_kept _ hk))

theorem keepParams_kept {s₀ s : State} (hk : Kept s₀ s) : Kept s₀ (keepParams s) :=
  modFirmware_kept _ hk

theorem claimRegions_kept (m : Fin 6) {s₀ s : State} (hk : Kept s₀ s) : Kept s₀ (claimRegions m s) :=
  Kept.update hk

theorem cmdParamWrite_kept (m : Fin 6) (f : Frame) {s₀ s : State} (hk : Kept s₀ s) :
    Kept s₀ (cmdParamWrite m f s).2 := by
  unfold cmdParamWrite
  dsimp only
  refine kept_ite_snd (badParam_kept hk) ?_
  refine kept_ite_snd ?_ ?_
  · exact answer_kept _ hk
  · refine kept_ite_snd ?_ ?_
    · dsimp only
      exact claimRegions_kept _ (keepParams_kept (writeParams_kept _ hk))
    · exact answer_kept _ (claimRegions_kept _ (keepParams_kept (writeParams_kept _ hk)))

theorem cmdParamPersist_kept (m : Fin 6) (f : Frame) {s₀ s : State} (hk : Kept s₀ s) :
    Kept s₀ (cmdParamPersist m f s).2 := by
  unfold cmdParamPersist
  dsimp only
  refine kept_ite_snd (badParam_kept hk) ?_
  refine kept_ite_snd ?_ ?_
  · exact answer_kept _ (modFirmware_kept _ hk)
  · exact kept_ite_snd (answer_kept _ hk) (kept_ite_snd (badParam_kept hk) (answer_kept _ (modFirmware_kept _ hk)))

theorem wakeLines_kept (pd : Fin 64) (lines : List Nat) {s₀ s : State} (hk : Kept s₀ s) :
    Kept s₀ (wakeLines pd lines s) := by
  unfold wakeLines
  refine kept_foldl ?_ hk
  intro _ _ hk
  split
  · exact kept_ite (leaveSelfRefresh_kept _ hk) hk
  · exact hk

theorem memFails_kept (st : QStatus) (line : Nat) {s₀ s : State} (hk : Kept s₀ s) : Kept s₀ (memFails st line s).2 :=
  hk

theorem memReadLine_kept (m : Fin 6) (pd : Fin 64) (i : Nat) {s₀ s : State} (hk : Kept s₀ s) :
    Kept s₀ (memReadLine m pd i s).2 := by
  unfold memReadLine
  dsimp only
  split
  · exact kept_lines (storedRead_lines _ _ _ _) hk
  · exact kept_lines (hostRead_lines _ _ _ _ _) hk

theorem memReadLines_kept (m : Fin 6) (pd : Fin 64) (is : List Nat) (d : List Byte) (bad : Option (QStatus × Nat))
    {s₀ s : State} (hk : Kept s₀ s) : Kept s₀ (memReadLines m pd is d bad s).2.2 := by
  induction is generalizing d bad s with
  | nil => exact hk
  | cons i is ih =>
    unfold memReadLines
    split <;> rename_i e <;> exact ih _ _ (kept_of_eq e (memReadLine_kept _ _ _ hk))

theorem endDrains_kept (pd : Fin 64) (lines : List Nat) {s₀ s : State} (hk : Kept s₀ s) :
    Kept s₀ (endDrains pd lines s) := by
  unfold endDrains
  refine kept_foldl ?_ hk
  intro _ _ hk
  split
  · exact endDrain_kept _ hk
  · exact hk

theorem cmdMemRead_kept (m : Fin 6) (f : Frame) {s₀ s : State} (hk : Kept s₀ s) : Kept s₀ (cmdMemRead m f s).2 := by
  unfold cmdMemRead
  dsimp only
  split
  · exact badParam_kept hk
  · refine kept_ite_snd ?_ ?_
    · exact badParam_kept hk
    · refine kept_ite_snd ?_ ?_
      · exact memFails_kept _ _ hk
      · refine kept_ite_snd ?_ ?_
        · exact answer_kept _ hk
        · split
          · exact memFails_kept _ _ hk
          · split
            · exact memFails_kept _ _ (memReadLines_kept _ _ _ _ _ (endDrains_kept _ _ (wakeLines_kept _ _ hk)))
            · exact answerData_kept _ (memReadLines_kept _ _ _ _ _ (endDrains_kept _ _ (wakeLines_kept _ _ hk)))

theorem memWriteLines_kept (m : Fin 6) (pd : Fin 64) (f : Frame) (is : List (Nat × Nat))
    (bad : Option (QStatus × Nat)) {s₀ s : State} (hk : Kept s₀ s) : Kept s₀ (memWriteLines m pd f is bad s).2 := by
  induction is generalizing bad s with
  | nil => exact hk
  | cons i is ih =>
    unfold memWriteLines
    extract_lets l
    split <;> rename_i e <;> exact ih _ (kept_of_eq e (kept_lines (hostWrite_lines _ _ _ _ _) hk))

theorem cmdMemWrite_kept (m : Fin 6) (f : Frame) {s₀ s : State} (hk : Kept s₀ s) : Kept s₀ (cmdMemWrite m f s).2 := by
  unfold cmdMemWrite
  dsimp only
  split
  · exact badParam_kept hk
  · refine kept_ite_snd ?_ ?_
    · exact badParam_kept hk
    · refine kept_ite_snd ?_ ?_
      · exact memFails_kept _ _ hk
      · refine kept_ite_snd ?_ ?_
        · exact answer_kept _ hk
        · split
          · exact memFails_kept _ _ hk
          · split
            · exact memFails_kept _ _ (memWriteLines_kept _ _ _ _ _ (wakeLines_kept _ _ hk))
            · exact answer_kept _ (memWriteLines_kept _ _ _ _ _ (wakeLines_kept _ _ hk))

theorem cmdWindowRead_kept (m : Fin 6) (f : Frame) {s₀ s : State} (hk : Kept s₀ s) : Kept s₀ (cmdWindowRead m f s).2 :=
  kept_ite_snd (badParam_kept hk) (answerData_kept _ hk)

theorem cmdWindowWrite_kept (m : Fin 6) (f : Frame) {s₀ s : State} (hk : Kept s₀ s) :
    Kept s₀ (cmdWindowWrite m f s).2 :=
  kept_ite_snd (badParam_kept hk) (answer_kept _ (controlWrite_kept _ _ hk))

/-! ### The catalogue of commands and the doorbells -/

theorem statusSpec_kept {opcode : Nat} {c : CmdSpec} (e : statusSpec opcode = some c) (m : Fin 6) (f : Frame)
    {s₀ s : State} (hk : Kept s₀ s) : Kept s₀ (c.run m f s).2 := by
  unfold statusSpec at e
  split at e <;> cases e
  · exact cmdIdentify_kept m f hk
  · exact cmdDeviceStatus_kept m f hk
  · exact cmdTaskStatus_kept m f hk
  · exact cmdLogRead_kept m f hk
  · exact cmdAlertAck_kept m f hk
  · exact cmdSensorRead_kept m f hk
  · exact cmdParamRead_kept m f hk
  · exact cmdParamWrite_kept m f hk
  · exact cmdParamPersist_kept m f hk

theorem partitionSpec_kept {opcode : Nat} {c : CmdSpec} (e : partitionSpec opcode = some c) (m : Fin 6) (f : Frame)
    {s₀ s : State} (hk : Kept s₀ s) : Kept s₀ (c.run m f s).2 := by
  unfold partitionSpec at e
  split at e <;> cases e
  · exact cmdPartitionCreate_kept m f hk
  · exact cmdPartitionResize_kept m f hk
  · exact cmdPartitionDelete_kept m f hk
  · exact cmdPartitionModify_kept m f hk
  · exact cmdPartitionRights_kept m f hk
  · exact cmdPartitionRekey_kept m f hk
  · exact cmdKeyLoad_kept m f hk
  · exact cmdKeyClear_kept m f hk

theorem engineSpec_kept {opcode : Nat} {c : CmdSpec} (e : engineSpec opcode = some c) (m : Fin 6) (f : Frame)
    {s₀ s : State} (hk : Kept s₀ s) : Kept s₀ (c.run m f s).2 := by
  unfold engineSpec at e
  split at e <;> cases e
  · exact cmdTableCreate_kept m f hk
  · exact cmdTableDelete_kept m f hk
  · exact cmdTableSlotRelease_kept m f hk
  · exact cmdQueueCreate_kept m f hk
  · exact cmdQueueModify_kept m f hk
  · exact cmdQueueDelete_kept m f hk
  · exact cmdQueueReset_kept m f hk
  · exact cmdBufferReset_kept m f hk
  · exact cmdCollieSet_kept m f hk

theorem serviceSpec_kept {opcode : Nat} {c : CmdSpec} (e : serviceSpec opcode = some c) (m : Fin 6) (f : Frame)
    {s₀ s : State} (hk : Kept s₀ s) : Kept s₀ (c.run m f s).2 := by
  unfold serviceSpec at e
  split at e <;> cases e
  · exact cmdPortTrain_kept m f hk
  · exact cmdPortTest_kept m f hk
  · exact cmdLaneGroupRestore_kept m f hk
  · exact cmdLaneRetune_kept m f hk
  · exact cmdVtrim_kept m f hk
  · exact cmdWireRepair_kept m f hk
  · exact cmdRowRepair_kept m f hk
  · exact cmdChannelRetire_kept m f hk
  · exact cmdChannelHold_kept m f hk
  · exact cmdSensorRestore_kept m f hk
  · exact cmdDeviceReset_kept m f hk
  · exact cmdQuarterReset_kept m f hk
  · exact cmdBlockReset_kept m f hk
  · exact cmdBistRun_kept m f hk
  · exact cmdMbistRun_kept m f hk
  · exact cmdCalReport_kept m f hk
  · exact cmdMaintStatus_kept m f hk
  · exact cmdMaintCancel_kept m f hk

theorem firmwareSpec_kept {opcode : Nat} {c : CmdSpec} (e : firmwareSpec opcode = some c) (m : Fin 6) (f : Frame)
    {s₀ s : State} (hk : Kept s₀ s) : Kept s₀ (c.run m f s).2 := by
  unfold firmwareSpec at e
  split at e <;> cases e
  · exact cmdPatchLoad_kept m f hk
  · exact cmdPatchActivate_kept m f hk
  · exact cmdFeatureEnable_kept m f hk
  · exact cmdConfigExport_kept m f hk
  · exact cmdConfigImport_kept m f hk
  · exact cmdFuseRead_kept m f hk
  · exact cmdFuseShadowSet_kept m f hk
  · exact cmdFuseBurn_kept m f hk
  · exact cmdFuseLock_kept m f hk
  · exact cmdFuseReburn_kept m f hk
  · exact cmdMemRead_kept m f hk
  · exact cmdMemWrite_kept m f hk
  · exact cmdWindowRead_kept m f hk
  · exact cmdWindowWrite_kept m f hk

/-- Every command of the catalogue keeps it. -/
theorem cmdSpec_kept {opcode : Nat} {c : CmdSpec} (e : cmdSpec opcode = some c) (m : Fin 6) (f : Frame)
    {s₀ s : State} (hk : Kept s₀ s) : Kept s₀ (c.run m f s).2 := by
  unfold cmdSpec at e
  split at e
  · exact statusSpec_kept e m f hk
  · split at e
    · exact partitionSpec_kept e m f hk
    · split at e
      · exact engineSpec_kept e m f hk
      · split at e
        · exact serviceSpec_kept e m f hk
        · exact firmwareSpec_kept e m f hk

/-- A command that passes the checks of R443 is one of the catalogue. -/
theorem checkCommand_ok {s : State} {m : Fin 6} {opcode : BitVec 16} {f : Frame} {c : CmdSpec}
    (e : checkCommand s m opcode f = .ok c) : cmdSpec opcode.toNat = some c := by
  unfold checkCommand at e
  split at e
  · cases e
  · split at e
    · cases e
    · rename_i d hd
      split at e
      · cases e
      · split at e
        · cases e
        · split at e
          · cases e
          · split at e
            · cases e
            · cases e
              exact hd

theorem runCommand_kept (m : Fin 6) (opcode : BitVec 16) (f : Frame) {s₀ s : State} (hk : Kept s₀ s) :
    Kept s₀ (runCommand m opcode f s) := by
  unfold runCommand
  split
  · exact respondTo_kept _ _ hk
  · rename_i c hc
    have hr : Kept s₀ (c.run m f s).2 := cmdSpec_kept (checkCommand_ok hc) m f hk
    extract_lets r
    have stored {t : State} (e : (if c.set = .change then commitStore s r.2 else some r.2) = some t) : Kept s₀ t := by
      split at e
      · exact commitStore_kept _ hr e
      · cases e
        exact hr
    split
    · rename_i e _
      exact respondTo_kept _ _ (stored e)
    · rename_i e _
      exact stored e
    · exact respondTo_kept _ _ hk

theorem beginCommand_kept (h : HeldCommand) {s₀ s : State} (hk : Kept s₀ s) : Kept s₀ (beginCommand h s) :=
  kept_ite (modFirmware_kept _ hk) (runCommand_kept _ _ _ hk)

theorem runHeld_kept {s₀ s : State} (hk : Kept s₀ s) : Kept s₀ (runHeld s) :=
  kept_foldl (fun _ _ hk => beginCommand_kept _ hk) (modFirmware_kept _ hk)

theorem doorbell_kept (m : Fin 6) (opcode : BitVec 16) (f : Frame) {s₀ s : State} (hk : Kept s₀ s) :
    Kept s₀ (doorbell m opcode f s) :=
  kept_ite hk (kept_ite (modMailbox_kept _ _ hk) (kept_ite (modMailbox_kept _ _ hk) (beginCommand_kept _
    (modMailbox_kept _ _ hk))))

theorem ringDoorbell_kept (m : Fin 6) {s₀ s : State} (hk : Kept s₀ s) : Kept s₀ (ringDoorbell m s) :=
  doorbell_kept _ _ _ hk

theorem command_kept (opcode : BitVec 16) (m : Fin 6) (f : Frame) {s₀ s : State} (hk : Kept s₀ s) :
    Kept s₀ (command opcode m f s) :=
  kept_ite (doorbell_kept _ _ _ (modMailbox_kept _ _ hk)) hk

theorem readResponse_kept (m : Fin 6) (start : Nat) (n : Nat) {s₀ s : State} (hk : Kept s₀ s) :
    Kept s₀ (readResponse m start n s).2 :=
  kept_ite (modMailbox_kept _ _ hk) hk

theorem performMailbox_kept (j : Job) (r : Req) {s₀ s : State} (hk : Kept s₀ s) : Kept s₀ (performMailbox j r s) := by
  unfold performMailbox
  dsimp only
  split
  · exact kept_events (complete_events _ _ _ _ _) (readResponse_kept _ _ _ hk)
  · exact kept_events (completeWith_events _ _ _) (kept_ite (ringDoorbell_kept _ (modMailbox_kept _ _ hk))
      (modMailbox_kept _ _ hk))

theorem execMailbox_kept (p : Fin 4) (r : Req) {s₀ s : State} (hk : Kept s₀ s) : Runs s₀ (execMailbox p r s) :=
  runs_next (receive_kept _ _ _ (fun _ _ _ hk => performMailbox_kept _ _ hk) hk)

theorem execIdentify_kept (mb : Fin 6) (f : Frame) {s₀ s : State} (hk : Kept s₀ s) : Runs s₀ (execIdentify mb f s) :=
  runs_next (command_kept _ _ _ hk)

theorem execDeviceStatus_kept (mb : Fin 6) (f : Frame) {s₀ s : State} (hk : Kept s₀ s) :
    Runs s₀ (execDeviceStatus mb f s) :=
  runs_next (command_kept _ _ _ hk)

theorem execTaskStatus_kept (mb : Fin 6) (f : Frame) {s₀ s : State} (hk : Kept s₀ s) :
    Runs s₀ (execTaskStatus mb f s) :=
  runs_next (command_kept _ _ _ hk)

theorem execLogRead_kept (mb : Fin 6) (f : Frame) {s₀ s : State} (hk : Kept s₀ s) : Runs s₀ (execLogRead mb f s) :=
  runs_next (command_kept _ _ _ hk)

theorem execAlertAck_kept (mb : Fin 6) (f : Frame) {s₀ s : State} (hk : Kept s₀ s) : Runs s₀ (execAlertAck mb f s) :=
  runs_next (command_kept _ _ _ hk)

theorem execSensorRead_kept (mb : Fin 6) (f : Frame) {s₀ s : State} (hk : Kept s₀ s) :
    Runs s₀ (execSensorRead mb f s) :=
  runs_next (command_kept _ _ _ hk)

theorem execParamRead_kept (mb : Fin 6) (f : Frame) {s₀ s : State} (hk : Kept s₀ s) : Runs s₀ (execParamRead mb f s) :=
  runs_next (command_kept _ _ _ hk)

theorem execParamWrite_kept (mb : Fin 6) (f : Frame) {s₀ s : State} (hk : Kept s₀ s) :
    Runs s₀ (execParamWrite mb f s) :=
  runs_next (command_kept _ _ _ hk)

theorem execParamPersist_kept (mb : Fin 6) (f : Frame) {s₀ s : State} (hk : Kept s₀ s) :
    Runs s₀ (execParamPersist mb f s) :=
  runs_next (command_kept _ _ _ hk)

theorem execPartitionCreate_kept (mb : Fin 6) (f : Frame) {s₀ s : State} (hk : Kept s₀ s) :
    Runs s₀ (execPartitionCreate mb f s) :=
  runs_next (command_kept _ _ _ hk)

theorem execPartitionResize_kept (mb : Fin 6) (f : Frame) {s₀ s : State} (hk : Kept s₀ s) :
    Runs s₀ (execPartitionResize mb f s) :=
  runs_next (command_kept _ _ _ hk)

theorem execPartitionDelete_kept (mb : Fin 6) (f : Frame) {s₀ s : State} (hk : Kept s₀ s) :
    Runs s₀ (execPartitionDelete mb f s) :=
  runs_next (command_kept _ _ _ hk)

theorem execPartitionModify_kept (mb : Fin 6) (f : Frame) {s₀ s : State} (hk : Kept s₀ s) :
    Runs s₀ (execPartitionModify mb f s) :=
  runs_next (command_kept _ _ _ hk)

theorem execPartitionRights_kept (mb : Fin 6) (f : Frame) {s₀ s : State} (hk : Kept s₀ s) :
    Runs s₀ (execPartitionRights mb f s) :=
  runs_next (command_kept _ _ _ hk)

theorem execPartitionRekey_kept (mb : Fin 6) (f : Frame) {s₀ s : State} (hk : Kept s₀ s) :
    Runs s₀ (execPartitionRekey mb f s) :=
  runs_next (command_kept _ _ _ hk)

theorem execKeyLoad_kept (mb : Fin 6) (f : Frame) {s₀ s : State} (hk : Kept s₀ s) : Runs s₀ (execKeyLoad mb f s) :=
  runs_next (command_kept _ _ _ hk)

theorem execKeyClear_kept (mb : Fin 6) (f : Frame) {s₀ s : State} (hk : Kept s₀ s) : Runs s₀ (execKeyClear mb f s) :=
  runs_next (command_kept _ _ _ hk)

theorem execTableCreate_kept (mb : Fin 6) (f : Frame) {s₀ s : State} (hk : Kept s₀ s) :
    Runs s₀ (execTableCreate mb f s) :=
  runs_next (command_kept _ _ _ hk)

theorem execTableDelete_kept (mb : Fin 6) (f : Frame) {s₀ s : State} (hk : Kept s₀ s) :
    Runs s₀ (execTableDelete mb f s) :=
  runs_next (command_kept _ _ _ hk)

theorem execTableSlotRelease_kept (mb : Fin 6) (f : Frame) {s₀ s : State} (hk : Kept s₀ s) :
    Runs s₀ (execTableSlotRelease mb f s) :=
  runs_next (command_kept _ _ _ hk)

theorem execQueueCreate_kept (mb : Fin 6) (f : Frame) {s₀ s : State} (hk : Kept s₀ s) :
    Runs s₀ (execQueueCreate mb f s) :=
  runs_next (command_kept _ _ _ hk)

theorem execQueueModify_kept (mb : Fin 6) (f : Frame) {s₀ s : State} (hk : Kept s₀ s) :
    Runs s₀ (execQueueModify mb f s) :=
  runs_next (command_kept _ _ _ hk)

theorem execQueueDelete_kept (mb : Fin 6) (f : Frame) {s₀ s : State} (hk : Kept s₀ s) :
    Runs s₀ (execQueueDelete mb f s) :=
  runs_next (command_kept _ _ _ hk)

theorem execQueueReset_kept (mb : Fin 6) (f : Frame) {s₀ s : State} (hk : Kept s₀ s) :
    Runs s₀ (execQueueReset mb f s) :=
  runs_next (command_kept _ _ _ hk)

theorem execBufferReset_kept (mb : Fin 6) (f : Frame) {s₀ s : State} (hk : Kept s₀ s) :
    Runs s₀ (execBufferReset mb f s) :=
  runs_next (command_kept _ _ _ hk)

theorem execCollieSet_kept (mb : Fin 6) (f : Frame) {s₀ s : State} (hk : Kept s₀ s) : Runs s₀ (execCollieSet mb f s) :=
  runs_next (command_kept _ _ _ hk)

theorem execPortTrain_kept (mb : Fin 6) (f : Frame) {s₀ s : State} (hk : Kept s₀ s) : Runs s₀ (execPortTrain mb f s) :=
  runs_next (command_kept _ _ _ hk)

theorem execPortTest_kept (mb : Fin 6) (f : Frame) {s₀ s : State} (hk : Kept s₀ s) : Runs s₀ (execPortTest mb f s) :=
  runs_next (command_kept _ _ _ hk)

theorem execLaneGroupRestore_kept (mb : Fin 6) (f : Frame) {s₀ s : State} (hk : Kept s₀ s) :
    Runs s₀ (execLaneGroupRestore mb f s) :=
  runs_next (command_kept _ _ _ hk)

theorem execLaneRetune_kept (mb : Fin 6) (f : Frame) {s₀ s : State} (hk : Kept s₀ s) :
    Runs s₀ (execLaneRetune mb f s) :=
  runs_next (command_kept _ _ _ hk)

theorem execVtrim_kept (mb : Fin 6) (f : Frame) {s₀ s : State} (hk : Kept s₀ s) : Runs s₀ (execVtrim mb f s) :=
  runs_next (command_kept _ _ _ hk)

theorem execWireRepair_kept (mb : Fin 6) (f : Frame) {s₀ s : State} (hk : Kept s₀ s) :
    Runs s₀ (execWireRepair mb f s) :=
  runs_next (command_kept _ _ _ hk)

theorem execRowRepair_kept (mb : Fin 6) (f : Frame) {s₀ s : State} (hk : Kept s₀ s) : Runs s₀ (execRowRepair mb f s) :=
  runs_next (command_kept _ _ _ hk)

theorem execChannelRetire_kept (mb : Fin 6) (f : Frame) {s₀ s : State} (hk : Kept s₀ s) :
    Runs s₀ (execChannelRetire mb f s) :=
  runs_next (command_kept _ _ _ hk)

theorem execChannelHold_kept (mb : Fin 6) (f : Frame) {s₀ s : State} (hk : Kept s₀ s) :
    Runs s₀ (execChannelHold mb f s) :=
  runs_next (command_kept _ _ _ hk)

theorem execSensorRestore_kept (mb : Fin 6) (f : Frame) {s₀ s : State} (hk : Kept s₀ s) :
    Runs s₀ (execSensorRestore mb f s) :=
  runs_next (command_kept _ _ _ hk)

theorem execDeviceReset_kept (mb : Fin 6) (f : Frame) {s₀ s : State} (hk : Kept s₀ s) :
    Runs s₀ (execDeviceReset mb f s) :=
  runs_next (command_kept _ _ _ hk)

theorem execQuarterReset_kept (mb : Fin 6) (f : Frame) {s₀ s : State} (hk : Kept s₀ s) :
    Runs s₀ (execQuarterReset mb f s) :=
  runs_next (command_kept _ _ _ hk)

theorem execBlockReset_kept (mb : Fin 6) (f : Frame) {s₀ s : State} (hk : Kept s₀ s) :
    Runs s₀ (execBlockReset mb f s) :=
  runs_next (command_kept _ _ _ hk)

theorem execBistRun_kept (mb : Fin 6) (f : Frame) {s₀ s : State} (hk : Kept s₀ s) : Runs s₀ (execBistRun mb f s) :=
  runs_next (command_kept _ _ _ hk)

theorem execMbistRun_kept (mb : Fin 6) (f : Frame) {s₀ s : State} (hk : Kept s₀ s) : Runs s₀ (execMbistRun mb f s) :=
  runs_next (command_kept _ _ _ hk)

theorem execCalReport_kept (mb : Fin 6) (f : Frame) {s₀ s : State} (hk : Kept s₀ s) : Runs s₀ (execCalReport mb f s) :=
  runs_next (command_kept _ _ _ hk)

theorem execMaintStatus_kept (mb : Fin 6) (f : Frame) {s₀ s : State} (hk : Kept s₀ s) :
    Runs s₀ (execMaintStatus mb f s) :=
  runs_next (command_kept _ _ _ hk)

theorem execMaintCancel_kept (mb : Fin 6) (f : Frame) {s₀ s : State} (hk : Kept s₀ s) :
    Runs s₀ (execMaintCancel mb f s) :=
  runs_next (command_kept _ _ _ hk)

theorem execPatchLoad_kept (mb : Fin 6) (f : Frame) {s₀ s : State} (hk : Kept s₀ s) : Runs s₀ (execPatchLoad mb f s) :=
  runs_next (command_kept _ _ _ hk)

theorem execPatchActivate_kept (mb : Fin 6) (f : Frame) {s₀ s : State} (hk : Kept s₀ s) :
    Runs s₀ (execPatchActivate mb f s) :=
  runs_next (command_kept _ _ _ hk)

theorem execFeatureEnable_kept (mb : Fin 6) (f : Frame) {s₀ s : State} (hk : Kept s₀ s) :
    Runs s₀ (execFeatureEnable mb f s) :=
  runs_next (command_kept _ _ _ hk)

theorem execConfigExport_kept (mb : Fin 6) (f : Frame) {s₀ s : State} (hk : Kept s₀ s) :
    Runs s₀ (execConfigExport mb f s) :=
  runs_next (command_kept _ _ _ hk)

theorem execConfigImport_kept (mb : Fin 6) (f : Frame) {s₀ s : State} (hk : Kept s₀ s) :
    Runs s₀ (execConfigImport mb f s) :=
  runs_next (command_kept _ _ _ hk)

theorem execFuseRead_kept (mb : Fin 6) (f : Frame) {s₀ s : State} (hk : Kept s₀ s) : Runs s₀ (execFuseRead mb f s) :=
  runs_next (command_kept _ _ _ hk)

theorem execFuseShadowSet_kept (mb : Fin 6) (f : Frame) {s₀ s : State} (hk : Kept s₀ s) :
    Runs s₀ (execFuseShadowSet mb f s) :=
  runs_next (command_kept _ _ _ hk)

theorem execFuseBurn_kept (mb : Fin 6) (f : Frame) {s₀ s : State} (hk : Kept s₀ s) : Runs s₀ (execFuseBurn mb f s) :=
  runs_next (command_kept _ _ _ hk)

theorem execFuseLock_kept (mb : Fin 6) (f : Frame) {s₀ s : State} (hk : Kept s₀ s) : Runs s₀ (execFuseLock mb f s) :=
  runs_next (command_kept _ _ _ hk)

theorem execFuseReburn_kept (mb : Fin 6) (f : Frame) {s₀ s : State} (hk : Kept s₀ s) :
    Runs s₀ (execFuseReburn mb f s) :=
  runs_next (command_kept _ _ _ hk)

theorem execMemRead_kept (mb : Fin 6) (f : Frame) {s₀ s : State} (hk : Kept s₀ s) : Runs s₀ (execMemRead mb f s) :=
  runs_next (command_kept _ _ _ hk)

theorem execMemWrite_kept (mb : Fin 6) (f : Frame) {s₀ s : State} (hk : Kept s₀ s) : Runs s₀ (execMemWrite mb f s) :=
  runs_next (command_kept _ _ _ hk)

theorem execWindowRead_kept (mb : Fin 6) (f : Frame) {s₀ s : State} (hk : Kept s₀ s) :
    Runs s₀ (execWindowRead mb f s) :=
  runs_next (command_kept _ _ _ hk)

theorem execWindowWrite_kept (mb : Fin 6) (f : Frame) {s₀ s : State} (hk : Kept s₀ s) :
    Runs s₀ (execWindowWrite mb f s) :=
  runs_next (command_kept _ _ _ hk)

/-! ### Requests that waited -/

/-- Whatever an opcode performs keeps it. -/
theorem performOf_kept (op : BitVec 6) (j : Job) (q : Req) {s₀ s : State} (hk : Kept s₀ s) :
    Kept s₀ (performOf op j q s) := by
  have pick {c : Prop} [Decidable c] {a b : Perform} (ha : Kept s₀ (a j q s)) (hb : Kept s₀ (b j q s)) :
      Kept s₀ ((if c then a else b) j q s) := by
    split
    · exact ha
    · exact hb
  unfold performOf
  refine pick (performNop_kept _ _ hk) (pick (performRead_kept _ _ hk) (pick (performWrite_kept _ _ hk)
    (pick (performWriteMask_kept _ _ hk) (pick (performAtomic_kept _ _ _ hk) (pick (performLookupExact_kept _ _ hk)
      (pick (performLookupPrefix_kept _ _ hk) (pick (performTableUpdate_kept _ _ hk) (pick
        (performCtrUpdate_kept _ _ hk)
        (pick (performPolUpdate_kept _ _ hk) (pick (performCtrRead_kept _ _ hk) ?_))))))))))
  exact pick (performEnqueue_kept _ _ hk) (pick (performDequeue_kept _ _ hk) (pick (performQueueQuery_kept _ _ hk)
    (pick (performSkeinCopy_kept _ _ hk) (pick (performRowFill_kept _ _ hk) (pick (performMailbox_kept _ _ hk)
      (pick (performStatusRead_kept _ _ hk) (performReserved_kept _ _ hk)))))))

theorem serveOne_kept (c : Fin 32) (q : QueuedReq) {s₀ s : State} (hk : Kept s₀ s) : Kept s₀ (serveOne c q s) :=
  present_kept _ (fun _ _ _ hk => performOf_kept _ _ _ hk) (kept_layers (setRequests_layers _ _ _) hk)

theorem serveRounds_kept (n : Nat) {s₀ s : State} (hk : Kept s₀ s) : Kept s₀ (serveRounds n s) := by
  induction n generalizing s with
  | zero => exact hk
  | succ n ih =>
    unfold serveRounds
    split
    · exact ih (serveOne_kept _ _ hk)
    · exact hk

theorem serveReady_kept {s₀ s : State} (hk : Kept s₀ s) : Kept s₀ (serveReady s) :=
  serveRounds_kept _ hk

theorem releaseHeld_kept (p : Fin 4) {s₀ s : State} (hk : Kept s₀ s) : Kept s₀ (releaseHeld p s) := by
  unfold releaseHeld
  split
  · exact hk
  · exact kept_layers (panicCheck_layers _ _) (kept_foldl (fun _ _ hk => evaluate_kept _ _
      (fun _ _ _ hk => performOf_kept _ _ _ hk) hk) (kept_events (modPort_events _ _ _) hk))

theorem execHeldRelease_kept (p : Fin 4) {s₀ s : State} (hk : Kept s₀ s) : Runs s₀ (execHeldRelease p s) :=
  runs_next (releaseHeld_kept _ (serveReady_kept hk))

theorem gatePromote_kept (p : Fin 4) (tag : BitVec 14) {s₀ s : State} (hk : Kept s₀ s) :
    Kept s₀ (gatePromote p tag s) := by
  unfold gatePromote
  dsimp only
  split
  · exact hk
  · exact releaseHeld_kept _ (kept_events (modPort_events _ _ _) (kept_layers (passTo_layers _ _) hk))

theorem execGatePromote_kept (p : Fin 4) (tag : BitVec 14) {s₀ s : State} (hk : Kept s₀ s) :
    Runs s₀ (execGatePromote p tag s) :=
  runs_next (gatePromote_kept _ _ hk)

theorem holdLimit_kept (p : Fin 4) (tag : BitVec 14) {s₀ s : State} (hk : Kept s₀ s) : Kept s₀ (holdLimit p tag s) := by
  unfold holdLimit
  split
  · exact hk
  · exact requestBusy_kept _ _ (releaseHeld_kept _ (serveReady_kept (kept_layers (passTo_layers _ _) hk)))

theorem execRequestBusy_kept (p : Fin 4) (tag : BitVec 14) {s₀ s : State} (hk : Kept s₀ s) :
    Runs s₀ (execRequestBusy p tag s) :=
  runs_next (holdLimit_kept _ _ hk)

theorem selfRefreshExit_kept (c : Fin 32) {s₀ s : State} (hk : Kept s₀ s) : Kept s₀ (selfRefreshExit c s) :=
  kept_ite hk (leaveSelfRefresh_kept _ hk)

theorem execSelfRefreshExit_kept (c : Fin 32) {s₀ s : State} (hk : Kept s₀ s) : Runs s₀ (execSelfRefreshExit c s) :=
  runs_next (serveReady_kept (selfRefreshExit_kept _ hk))

theorem execNopWord_kept (c : Fin 32) {s₀ s : State} (hk : Kept s₀ s) : Runs s₀ (execNopWord c s) :=
  runs_next (serveReady_kept (nopWord_kept _ hk))

theorem execColumnWrite_kept (c : Fin 32) (bank : Fin 16) (line : Fin 32) {s₀ s : State} (hk : Kept s₀ s) :
    Runs s₀ (execColumnWrite c bank line s) :=
  runs_next (serveReady_kept (columnWrite_kept _ _ _ hk))

theorem execWriteQueueEntry_kept (c : Fin 32) {s₀ s : State} (hk : Kept s₀ s) : Runs s₀ (execWriteQueueEntry c s) :=
  runs_next (serveReady_kept (writeQueueEntry_kept _ hk))

theorem execAgePromotion_kept (c : Fin 32) {s₀ s : State} (hk : Kept s₀ s) : Runs s₀ (execAgePromotion c s) :=
  runs_next (serveReady_kept (agePromotion_kept _ hk))

theorem execCaParity_kept (c : Fin 32) {s₀ s : State} (hk : Kept s₀ s) : Runs s₀ (execCaParity c s) :=
  runs_next (serveReady_kept (caParity_kept _ hk))

theorem execVerticalTrim_kept (c : Fin 32) (probe : TrimProbe) {s₀ s : State} (hk : Kept s₀ s) :
    Runs s₀ (execVerticalTrim c probe s) :=
  runs_next (serveReady_kept (verticalTrim_kept _ _ hk))

theorem execTrimRetry_kept (c : Fin 32) (probe : TrimProbe) {s₀ s : State} (hk : Kept s₀ s) :
    Runs s₀ (execTrimRetry c probe s) :=
  runs_next (serveReady_kept (trimRetry_kept _ _ hk))

theorem execShiftRepair_kept (c : Fin 32) (path : Path) (wire : Nat) (probe : TrimProbe) {s₀ s : State}
    (hk : Kept s₀ s) : Runs s₀ (execShiftRepair c path wire probe s) :=
  runs_next (serveReady_kept (shiftRepair_kept _ _ _ _ hk))

theorem execBlockFence_kept (b : BlockId) (sramFailed : Bool) {s₀ s : State} (hk : Kept s₀ s) :
    Runs s₀ (execBlockFence b sramFailed s) :=
  runs_next (serveReady_kept (fenceBlock_kept _ _ _ hk))

theorem execFenceTimeout_kept (b : BlockId) {s₀ s : State} (hk : Kept s₀ s) : Runs s₀ (execFenceTimeout b s) :=
  runs_next (serveReady_kept (fenceTimeout_kept _ hk))

theorem execBlockResume_kept (b : BlockId) {s₀ s : State} (hk : Kept s₀ s) : Runs s₀ (execBlockResume b s) :=
  runs_next (serveReady_kept (resumeBlock_kept _ hk))

theorem execQuarterIsolation_kept (q : Fin 4) (cause : BitVec 4) (code : BitVec 16) {s₀ s : State} (hk : Kept s₀ s) :
    Runs s₀ (execQuarterIsolation q cause code s) :=
  runs_next (serveReady_kept (isolateQuarter_kept _ _ _ hk))

theorem execQuarterResetDone_kept (q : Fin 4) {s₀ s : State} (hk : Kept s₀ s) : Runs s₀ (execQuarterResetDone q s) :=
  runs_next (serveReady_kept (quarterResetDone_kept _ hk))

theorem execSpotCheck_kept (c : Fin 32) {s₀ s : State} (hk : Kept s₀ s) : Runs s₀ (execSpotCheck c s) :=
  runs_next (serveReady_kept (spotCheck_kept _ (serveReady_kept hk)))

theorem execPatrolRead_kept (c : Fin 32) {s₀ s : State} (hk : Kept s₀ s) : Runs s₀ (execPatrolRead c s) :=
  runs_next (serveReady_kept (patrolRead_kept _ (serveReady_kept hk)))

theorem execChannelRetiring_kept (c : Fin 32) {s₀ s : State} (hk : Kept s₀ s) : Runs s₀ (execChannelRetiring c s) :=
  runs_next (serveReady_kept (channelRetiring_kept _ hk))

theorem execMigrationCopy_kept {s₀ s : State} (hk : Kept s₀ s) : Runs s₀ (execMigrationCopy s) :=
  runs_next (serveReady_kept (migrationCopy_kept (serveReady_kept hk)))

theorem execRekeyStep_kept (pd : Fin 64) {s₀ s : State} (hk : Kept s₀ s) : Runs s₀ (execRekeyStep pd s) :=
  runs_next (serveReady_kept (rekeyStep_kept _ (serveReady_kept hk)))

theorem quiescePoint_kept (t : QuiesceTarget) {s₀ s : State} (hk : Kept s₀ s) : Kept s₀ (quiescePoint t s) := by
  unfold quiescePoint
  split
  · exact kept_ite hk (runHeld_kept (applyPending_kept _ hk))
  · exact retireTable_kept _ hk

theorem execQuiescePoint_kept (t : QuiesceTarget) {s₀ s : State} (hk : Kept s₀ s) : Runs s₀ (execQuiescePoint t s) :=
  runs_next (quiescePoint_kept _ hk)

theorem quiesceTimeout_kept (t : QuiesceTarget) {s₀ s : State} (hk : Kept s₀ s) : Kept s₀ (quiesceTimeout t s) := by
  unfold quiesceTimeout
  split
  · exact runHeld_kept (dropPending_kept _ hk)
  · exact keepTable_kept _ hk

theorem execQuiesceTimeout_kept (t : QuiesceTarget) {s₀ s : State} (hk : Kept s₀ s) :
    Runs s₀ (execQuiesceTimeout t s) :=
  runs_next (quiesceTimeout_kept _ hk)

/-! ### Clocks, cores and rails -/

theorem refclkLost_kept {s₀ s : State} (hk : Kept s₀ s) : Kept s₀ (refclkLost s) :=
  kept_ite hk (kept_foldl (fun _ _ hk => kept_ite (enterRecovery_kept _ hk) hk) (kept_events (raise_events _ _ _ _ _)
    (modDevice_kept _ hk)))

theorem execRefclkLost_kept {s₀ s : State} (hk : Kept s₀ s) : Runs s₀ (execRefclkLost s) :=
  runs_next (refclkLost_kept hk)

theorem refclkRestored_kept {s₀ s : State} (hk : Kept s₀ s) : Kept s₀ (refclkRestored s) :=
  kept_ite (kept_events (raise_events _ _ _ _ _) (modDevice_kept _ hk)) hk

theorem execRefclkRestored_kept {s₀ s : State} (hk : Kept s₀ s) : Runs s₀ (execRefclkRestored s) :=
  runs_next (refclkRestored_kept hk)

theorem holdoverReturnLock_kept {s₀ s : State} (hk : Kept s₀ s) : Kept s₀ (holdoverReturnLock s) :=
  kept_ite (modDevice_kept _ hk) hk

theorem execHoldoverReturnLock_kept {s₀ s : State} (hk : Kept s₀ s) : Runs s₀ (execHoldoverReturnLock s) :=
  runs_next (holdoverReturnLock_kept hk)

theorem pllUnlock_kept (pll : Pll) {s₀ s : State} (hk : Kept s₀ s) : Kept s₀ (pllUnlock pll s) := by
  unfold pllUnlock
  split
  · exact hk
  · split
    · exact kept_ite (isolateQuarter_kept _ _ _ (kept_events (raise_events _ _ _ _ _) (kept_layers
        (modQuarter_layers _ _ _) hk))) hk
    · exact fatalNow_kept _ _ (kept_events (raiseAs_events _ _ _ _ _ _ _) hk)
    · exact fatalNow_kept _ _ (kept_events (raiseAs_events _ _ _ _ _ _ _) hk)

theorem execPllUnlock_kept (pll : Pll) {s₀ s : State} (hk : Kept s₀ s) : Runs s₀ (execPllUnlock pll s) :=
  runs_next (pllUnlock_kept _ hk)

theorem coreReset_kept (code : Nat) {s₀ s : State} (hk : Kept s₀ s) : Kept s₀ (coreReset code s) :=
  countProbation_kept (kept_events (raise_events _ _ _ _ _) (modFirmware_kept _ (kept_ite hk (Kept.update
    (modFirmware_kept _ hk)))))

theorem lockstepReset_kept {s₀ s : State} (hk : Kept s₀ s) : Kept s₀ (lockstepReset s) :=
  kept_ite hk (kept_ite (fatalNow_kept _ _ (coreReset_kept _ (modFirmware_kept _ hk))) (coreReset_kept _
    (modFirmware_kept _ hk)))

theorem execLockstepReset_kept {s₀ s : State} (hk : Kept s₀ s) : Runs s₀ (execLockstepReset s) :=
  runs_next (lockstepReset_kept hk)

theorem watchdogReset_kept {s₀ s : State} (hk : Kept s₀ s) : Kept s₀ (watchdogReset s) :=
  kept_ite (coreReset_kept _ hk) hk

theorem execWatchdogReset_kept {s₀ s : State} (hk : Kept s₀ s) : Runs s₀ (execWatchdogReset s) :=
  runs_next (watchdogReset_kept hk)

theorem failCut_kept (m : Fin 6) {s₀ s : State} (hk : Kept s₀ s) : Kept s₀ (failCut s m) :=
  kept_ite hk (respondTo_kept _ _ hk)

theorem coreRebootDone_kept {s₀ s : State} (hk : Kept s₀ s) : Kept s₀ (coreRebootDone s) :=
  kept_ite (runHeld_kept (kept_foldl (fun _ _ hk => failCut_kept _ hk) (modFirmware_kept _ hk))) hk

theorem execCoreRebootDone_kept {s₀ s : State} (hk : Kept s₀ s) : Runs s₀ (execCoreRebootDone s) :=
  runs_next (coreRebootDone_kept hk)

theorem loseFreeCache_kept (slice : Fin 4) (pd : Fin 64) {s₀ s : State} (hk : Kept s₀ s) :
    Kept s₀ (loseFreeCache slice pd s) :=
  kept_events (raise_events _ _ _ _ _) (bufferWatch_kept _ (setFreeCache_kept _ _ _ (modBuffer_kept _ _ hk)))

theorem loseStash_kept (td : Fin 16) (set : Nat) {s₀ s : State} (hk : Kept s₀ s) : Kept s₀ (loseStash td set s) :=
  fenceBlock_kept _ _ _ (modTable_kept _ _ hk)

theorem ownerRule_kept (o : SramOwner) {s₀ s : State} (hk : Kept s₀ s) : Kept s₀ (ownerRule o s) := by
  unfold ownerRule
  split
  · exact fenceBlock_kept _ _ _ hk
  · exact fenceBlock_kept _ _ _ hk
  · exact loseWay_kept _ _ hk
  · exact breakQueue_kept _ _ hk
  · exact Kept.update hk
  · exact kept_events (raise_events _ _ _ _ _) (kept_lines (modSeal_lines _ _ _) hk)
  · exact loseGranule_kept _ hk
  · exact watchdogReset_kept hk
  · exact loseFreeCache_kept _ _ hk
  · exact loseStash_kept _ _ hk

theorem sramWalk_kept (o : SramOwner) (f : SramFinding) {s₀ s : State} (hk : Kept s₀ s) : Kept s₀ (sramWalk o f s) := by
  unfold sramWalk
  dsimp only
  split
  · exact hk
  · exact kept_events (raiseLimitedFor_events _ _ _ _ _ _) (kept_lines (modParams_lines _ _) hk)
  · exact ownerRule_kept _ (kept_events (raise_events _ _ _ _ _) hk)

theorem execSramWalk_kept (owner : SramOwner) (finding : SramFinding) {s₀ s : State} (hk : Kept s₀ s) :
    Runs s₀ (execSramWalk owner finding s) :=
  runs_next (sramWalk_kept _ _ hk)

theorem execCommandDone_kept (ticket : BitVec 16) (m : Measure) {s₀ s : State} (hk : Kept s₀ s) :
    Runs s₀ (execCommandDone ticket m s) :=
  runs_next (runHeld_kept (serveReady_kept (commandDone_kept _ _ hk)))

theorem eventSuppressed_kept {s₀ s : State} (hk : Kept s₀ s) : Kept s₀ (eventSuppressed s) :=
  kept_ite hk (kept_events (rollSecond_events _) (kept_layers (passTo_layers _ _) hk))

theorem execEventSuppressed_kept {s₀ s : State} (hk : Kept s₀ s) : Runs s₀ (execEventSuppressed s) :=
  runs_next (eventSuppressed_kept hk)

theorem setRail_kept (r : Rail) (faulted : Bool) {s₀ s : State} (hk : Kept s₀ s) : Kept s₀ (setRail r faulted s) :=
  modDevice_kept _ hk

theorem vitalFault_kept (r : Rail) {s₀ s : State} (hk : Kept s₀ s) : Kept s₀ (vitalFault r s) :=
  kept_ite hk (kept_ite (fatalNow_kept _ _ hk) (kept_ite hk (failStart_kept _ _ hk)))

theorem losePorts_kept {s₀ s : State} (hk : Kept s₀ s) : Kept s₀ (losePorts s) :=
  kept_foldl (fun _ _ hk => kept_ite hk (kept_ite (lanesLostAll_kept _ hk) (toDetect_kept _ hk))) hk

theorem railFault_kept (x : Rail) (mv : Nat) {s₀ s : State} (hk : Kept s₀ s) : Kept s₀ (railFault x mv s) := by
  unfold railFault
  refine kept_ite hk ?_
  extract_lets u
  have hu : Kept s₀ u := kept_events (raise_events _ _ _ _ _) (setRail_kept _ _ (modDevice_kept _ hk))
  clear_value u
  cases x with
  | vddSd => exact losePorts_kept hu
  | vddSdh => exact losePorts_kept hu
  | vddIo => exact hu
  | vfuse => exact modFuses_kept (f := fun f => { f with vfuseOk := false }) (fun _ => rfl) (cutBurns_kept _ _ hu)
  | vddCore => exact vitalFault_kept _ (cutBurns_kept _ _ hu)
  | vddSram => exact vitalFault_kept _ (cutBurns_kept _ _ hu)
  | vddDram => exact vitalFault_kept _ (cutBurns_kept _ _ hu)
  | vpp => exact vitalFault_kept _ (cutBurns_kept _ _ hu)

theorem execRailFault_kept (rail : Rail) (millivolts : Nat) {s₀ s : State} (hk : Kept s₀ s) :
    Runs s₀ (execRailFault rail millivolts s) :=
  runs_next (railFault_kept _ _ hk)

theorem vfusePresent_kept (mv : Nat) {s₀ s : State} (hk : Kept s₀ s) : Kept s₀ (vfusePresent mv s) :=
  kept_ite (kept_events (raise_events _ _ _ _ _) (modFuses_kept (fun _ => rfl) hk)) hk

theorem execVfusePresent_kept (millivolts : Nat) {s₀ s : State} (hk : Kept s₀ s) :
    Runs s₀ (execVfusePresent millivolts s) :=
  runs_next (vfusePresent_kept _ hk)

theorem railReturn_kept (r : Rail) {s₀ s : State} (hk : Kept s₀ s) : Kept s₀ (railReturn r s) := by
  unfold railReturn
  dsimp only
  refine kept_ite hk ?_
  refine kept_ite ?_ ?_
  · exact kept_foldl (fun _ _ hk => kept_ite (toDetect_kept _ hk) hk) (kept_ite (modFuses_kept (fun _ => rfl)
      (setRail_kept _ _ hk)) (setRail_kept _ _ hk))
  · exact kept_ite (modFuses_kept (fun _ => rfl) (setRail_kept _ _ hk)) (setRail_kept _ _ hk)

theorem execRailReturn_kept (rail : Rail) {s₀ s : State} (hk : Kept s₀ s) : Runs s₀ (execRailReturn rail s) :=
  runs_next (railReturn_kept _ hk)

/-! ### Reception of flits -/

theorem parseRequests_kept (p : Fin 4) (n : Nat) {s₀ s : State} (hk : Kept s₀ s) : Kept s₀ (parseRequests p n s) := by
  induction n generalizing s with
  | zero => exact hk
  | succ n ih =>
    unfold parseRequests
    split
    · exact hk
    · exact ih (kept_layers (panicCheck_layers _ _) (arrivePayload_kept _ _ _ (kept_events (modLink_events _ _ _) hk)))
    · refine kept_ite hk (ih ?_)
      exact ingress_kept _ _ _ (fun _ _ _ hk => performOf_kept _ _ _ hk) (kept_events (modLink_events _ _ _) hk)

theorem receiveData_kept (p : Fin 4) (slots : List (BitVec 128)) {s₀ s : State} (hk : Kept s₀ s) :
    Kept s₀ (receiveData p slots s) :=
  kept_ite (linkProtocol_kept _ hk) (kept_ite (detachPort_kept _ _ hk) (parseRequests_kept _ _ (kept_events
    (modLink_events _ _ _) hk)))

theorem receiveMgmt_kept (p : Fin 4) (n : Nat) (ws : List (BitVec 128)) {s₀ s : State} (hk : Kept s₀ s) :
    Kept s₀ (receiveMgmt p n ws s) := by
  induction n generalizing ws s with
  | zero => exact hk
  | succ n ih =>
    cases ws with
    | nil => exact hk
    | cons w ws =>
      exact kept_ite (ih _ (receiveHello_kept _ _ hk)) (kept_ite (ih _ (receiveDetach_kept _ hk))
        (linkProtocol_kept _ hk))

theorem receiveMessage_kept (p : Fin 4) (slot : Nat) (w : BitVec 128) {s₀ s : State} (hk : Kept s₀ s) :
    Kept s₀ (receiveMessage p slot w s) :=
  kept_ite (receiveStatus_kept _ _ hk) (kept_ite (receiveNak_kept _ _ hk) (kept_ite (receiveWidth_kept _ _ hk)
    (linkProtocol_kept _ hk)))

theorem sendNak_kept (p : Fin 4) (reason : Bool) {s₀ s : State} (hk : Kept s₀ s) : Kept s₀ (sendNak p reason s) :=
  kept_ite (kept_events (modSend_events _ _ _) hk) hk

theorem executeFlit_kept (p : Fin 4) (f : Flit) {s₀ s : State} (hk : Kept s₀ s) : Kept s₀ (executeFlit p s f) :=
  kept_ite hk (kept_ite (receiveData_kept _ _ hk) (receiveMgmt_kept _ _ _ hk))

theorem groupFails_kept (p : Fin 4) (first : Nat) {s₀ s : State} (hk : Kept s₀ s) : Kept s₀ (groupFails p first s) := by
  unfold groupFails
  dsimp only
  split
  · exact kept_events (raise_events _ _ _ _ _) (detachPort_kept _ _ (kept_events (modLink_events _ _ _) (kept_events
      (modLink_events _ _ _) hk)))
  · exact sendNak_kept _ _ (kept_events (modLink_events _ _ _) hk)

theorem receiveTag_kept (p : Fin 4) (slots : List (BitVec 128)) {s₀ s : State} (hk : Kept s₀ s) :
    Kept s₀ (receiveTag p slots s) := by
  unfold receiveTag
  dsimp only
  split
  · exact linkProtocol_kept _ hk
  · exact kept_ite (kept_foldl (fun _ _ hk => executeFlit_kept _ _ hk) (kept_events (modLink_events _ _ _) hk))
      (groupFails_kept _ _ hk)

theorem acceptFlit_kept (p : Fin 4) (f : Flit) {s₀ s : State} (hk : Kept s₀ s) : Kept s₀ (acceptFlit p f s) := by
  unfold acceptFlit
  dsimp only
  split
  · split
    · exact receiveTag_kept _ _ (kept_ite (linkProtocol_kept _ (kept_events (modLink_events _ _ _) hk)) (kept_events
        (modLink_events _ _ _) hk))
    · exact kept_ite (linkProtocol_kept _ (kept_events (modLink_events _ _ _) hk)) (kept_events
        (modLink_events _ _ _) hk)
  · split
    · exact kept_events (modLink_events _ _ _) (kept_ite (linkProtocol_kept _ (kept_events (modLink_events _ _ _) hk))
        (kept_events (modLink_events _ _ _) hk))
    · exact executeFlit_kept _ _ (kept_ite (linkProtocol_kept _ (kept_events (modLink_events _ _ _) hk)) (kept_events
        (modLink_events _ _ _) hk))

theorem goodFlitIn_kept (p : Fin 4) (bs : List Byte) {s₀ s : State} (hk : Kept s₀ s) : Kept s₀ (goodFlitIn p bs s) := by
  unfold goodFlitIn
  dsimp only
  split
  · exact kept_ite (linkProtocol_kept _ (receiveHeader_kept _ _ _ _ hk)) (receiveHeader_kept _ _ _ _ hk)
  · split
    · exact kept_ite (linkProtocol_kept _ (receiveHeader_kept _ _ _ _ hk)) (kept_foldl
        (fun _ _ hk => receiveMessage_kept _ _ _ hk) (receiveHeader_kept _ _ _ _ hk))
    · split
      · exact linkProtocol_kept _ (receiveHeader_kept _ _ _ _ hk)
      · exact kept_ite (acceptFlit_kept _ _ (receiveHeader_kept _ _ _ _ hk)) (kept_ite (receiveHeader_kept _ _ _ _ hk)
          (sendNak_kept _ _ (receiveHeader_kept _ _ _ _ hk)))

theorem receiveFlit_kept (p : Fin 4) (flit : List Byte) {s₀ s : State} (hk : Kept s₀ s) :
    Kept s₀ (receiveFlit p flit s) := by
  unfold receiveFlit
  split
  · exact hk
  · split
    · exact sendNak_kept _ _ (kept_events (modLink_events _ _ _) hk)
    · split
      · exact sendNak_kept _ _ (kept_events (modLink_events _ _ _) hk)
      · exact kept_events (pump_events _ _) (goodFlitIn_kept _ _ (kept_ite (kept_events (modLink_events _ _ _) hk) hk))

theorem execNullFlit_kept (p : Fin 4) (flit : List Byte) {s₀ s : State} (hk : Kept s₀ s) :
    Runs s₀ (execNullFlit p flit s) :=
  runs_next (receiveFlit_kept _ _ hk)

theorem execDataFlit_kept (p : Fin 4) (flit : List Byte) {s₀ s : State} (hk : Kept s₀ s) :
    Runs s₀ (execDataFlit p flit s) :=
  runs_next (receiveFlit_kept _ _ hk)

theorem execTagFlit_kept (p : Fin 4) (flit : List Byte) {s₀ s : State} (hk : Kept s₀ s) :
    Runs s₀ (execTagFlit p flit s) :=
  runs_next (receiveFlit_kept _ _ hk)

/-! ### The sideband and the TAP -/

theorem pinCommand_kept {f : State → State} {s₀ s : State} (hf : ∀ u, Kept s₀ u → Kept s₀ (f u)) (hk : Kept s₀ s) :
    Runs s₀ (pinCommand f s) := by
  unfold pinCommand
  split
  · exact runs_fault
  · exact runs_next (hf _ hk)

theorem sbAnswer_kept (bs : List Byte) {s₀ s : State} (hk : Kept s₀ s) : Kept s₀ (sbAnswer bs s) :=
  kept_events (modSideband_events _ _) hk

theorem sbNack_kept {s₀ s : State} (hk : Kept s₀ s) : Kept s₀ (sbNack s) :=
  kept_events (modSideband_events _ _) hk

theorem transfer_kept (jtag : Bool) (pecOk : Bool) (code : BitVec 8) (data : RegisterData) {f : State → State}
    {s₀ s : State} (hf : ∀ u, Kept s₀ u → Kept s₀ (f u)) (hk : Kept s₀ s) : Kept s₀
    (transfer jtag pecOk code data f s) :=
  kept_ite (sbNack_kept hk) (kept_ite (sbNack_kept (kept_events (modSideband_events _ _) hk)) (hf _ hk))

theorem setPointer_kept (jtag : Bool) (v : BitVec 16) {s₀ s : State} (hk : Kept s₀ s) : Kept s₀ (setPointer jtag v s) :=
  kept_events (modSideband_events _ _) hk

theorem transferData_kept (jtag : Bool) (write : Bool) (count : Nat) (bytes : List Byte) {s₀ s : State}
    (hk : Kept s₀ s) : Kept s₀ (transferData jtag write count bytes s) := by
  unfold transferData
  dsimp only
  refine kept_events (modSideband_events _ _) (setPointer_kept _ _ ?_)
  split
  · exact kept_ite hk (modMailbox_kept _ _ hk)
  · split
    · exact readResponse_kept _ _ _ hk
    · exact hk

theorem execMbData_kept (jtag : Bool) (pecOk : Bool) (write : Bool) (count : Nat) (bytes : List Byte) {s₀ s : State}
    (hk : Kept s₀ s) : Runs s₀ (execMbData jtag pecOk write count bytes s) :=
  pinCommand_kept (fun _ hk => transfer_kept _ _ _ _ (fun _ hk => transferData_kept _ _ _ _ hk) hk) hk

theorem doorbellRegister_kept (jtag : Bool) (value : Byte) {s₀ s : State} (hk : Kept s₀ s) :
    Kept s₀ (doorbellRegister jtag value s) :=
  sbAnswer_kept _ (kept_ite (ringDoorbell_kept _ hk) hk)

theorem execMbDoorbell_kept (jtag : Bool) (pecOk : Bool) (value : Byte) {s₀ s : State} (hk : Kept s₀ s) :
    Runs s₀ (execMbDoorbell jtag pecOk value s) :=
  pinCommand_kept (fun _ hk => transfer_kept _ _ _ _ (fun _ hk => doorbellRegister_kept _ _ hk) hk) hk

theorem writeRegister_kept (jtag : Bool) (code : BitVec 8) (bytes : List Byte) {s₀ s : State} (hk : Kept s₀ s) :
    Kept s₀ (writeRegister jtag code bytes s) := by
  unfold writeRegister
  split
  · exact doorbellRegister_kept _ _ hk
  · split
    · exact kept_ite (sbNack_kept hk) (sbAnswer_kept _ (setPointer_kept _ _ hk))
    · split
      · exact transferData_kept _ _ _ _ hk
      · split
        · exact kept_ite (kept_events (modSideband_events _ _) hk) (kept_ite (sbAnswer_kept _ hk) (sbAnswer_kept _
            (kept_events (modSideband_events _ _) hk)))
        · exact sbNack_kept hk

theorem readRegister_kept (jtag : Bool) (code : BitVec 8) (count : Nat) {s₀ s : State} (hk : Kept s₀ s) :
    Kept s₀ (readRegister jtag code count s) := by
  unfold readRegister
  split
  · exact transferData_kept _ _ _ _ hk
  · split
    · exact sbAnswer_kept _ hk
    · exact kept_ite (kept_events (modSideband_events _ _) hk) (sbNack_kept hk)

theorem accessRegister_kept (jtag : Bool) (code : BitVec 8) (data : RegisterData) {s₀ s : State} (hk : Kept s₀ s) :
    Kept s₀ (accessRegister jtag code data s) := by
  unfold accessRegister
  split
  · exact writeRegister_kept _ _ _ hk
  · exact readRegister_kept _ _ _ hk

theorem execRegisterWrite_kept (jtag : Bool) (pecOk : Bool) (code : BitVec 8) (data : RegisterData) {s₀ s : State}
    (hk : Kept s₀ s) : Runs s₀ (execRegisterWrite jtag pecOk code data s) :=
  pinCommand_kept (fun _ hk => transfer_kept _ _ _ _ (fun _ hk => accessRegister_kept _ _ _ hk) hk) hk

theorem cccCommand_kept {f : State → State} {s₀ s : State} (hf : ∀ u, Kept s₀ u → Kept s₀ (f u)) (hk : Kept s₀ s) :
    Runs s₀ (cccCommand f s) :=
  pinCommand_kept (fun _ hk => kept_ite (sbNack_kept hk) (hf _ hk)) hk

theorem assignAddress_kept (v : BitVec 7) {s₀ s : State} (hk : Kept s₀ s) : Kept s₀ (assignAddress v s) :=
  sbAnswer_kept _ (kept_events (modSideband_events _ _) hk)

theorem execEntdaa_kept (address : BitVec 7) {s₀ s : State} (hk : Kept s₀ s) : Runs s₀ (execEntdaa address s) :=
  cccCommand_kept (fun _ hk => kept_ite (sbNack_kept hk) (assignAddress_kept _ hk)) hk

theorem execSetdasa_kept (static : BitVec 7) (address : BitVec 7) {s₀ s : State} (hk : Kept s₀ s) :
    Runs s₀ (execSetdasa static address s) :=
  cccCommand_kept (fun _ hk => kept_ite (sbNack_kept hk) (assignAddress_kept _ hk)) hk

theorem execSetnewda_kept (address : BitVec 7) {s₀ s : State} (hk : Kept s₀ s) : Runs s₀ (execSetnewda address s) :=
  cccCommand_kept (fun _ hk => kept_ite (sbNack_kept hk) (assignAddress_kept _ hk)) hk

theorem execRstdaa_kept {s₀ s : State} (hk : Kept s₀ s) : Runs s₀ (execRstdaa s) :=
  cccCommand_kept (fun _ hk => sbAnswer_kept _ (kept_events (modSideband_events _ _) hk)) hk

theorem inI3c_kept {f : State → State} {s₀ s : State} (hf : ∀ u, Kept s₀ u → Kept s₀ (f u)) (hk : Kept s₀ s) :
    Kept s₀ (inI3c f s) :=
  kept_ite (hf _ hk) (sbNack_kept hk)

theorem enableIbi_kept {s₀ s : State} (hk : Kept s₀ s) : Kept s₀ (enableIbi s) := by
  unfold enableIbi
  dsimp only
  split
  · exact kept_events (modSideband_events _ _) hk
  · exact kept_events (modLog_events _ _) (kept_events (modSideband_events _ _) (kept_events
      (modSideband_events _ _) hk))

theorem execEnec_kept (events : BitVec 8) {s₀ s : State} (hk : Kept s₀ s) : Runs s₀ (execEnec events s) :=
  cccCommand_kept (fun _ hk => inI3c_kept (fun _ hk => sbAnswer_kept _ (kept_ite (enableIbi_kept hk) hk)) hk) hk

theorem execDisec_kept (events : BitVec 8) {s₀ s : State} (hk : Kept s₀ s) : Runs s₀ (execDisec events s) :=
  cccCommand_kept (fun _ hk => inI3c_kept (fun _ hk => sbAnswer_kept _ (kept_ite (kept_events
    (modSideband_events _ _) hk) hk)) hk) hk

theorem execGetpid_kept {s₀ s : State} (hk : Kept s₀ s) : Runs s₀ (execGetpid s) :=
  cccCommand_kept (fun _ hk => inI3c_kept (fun _ hk => sbAnswer_kept _ hk) hk) hk

theorem execGetbcr_kept {s₀ s : State} (hk : Kept s₀ s) : Runs s₀ (execGetbcr s) :=
  cccCommand_kept (fun _ hk => inI3c_kept (fun _ hk => sbAnswer_kept _ hk) hk) hk

theorem execGetdcr_kept {s₀ s : State} (hk : Kept s₀ s) : Runs s₀ (execGetdcr s) :=
  cccCommand_kept (fun _ hk => inI3c_kept (fun _ hk => sbAnswer_kept _ hk) hk) hk

theorem execGetstatus_kept {s₀ s : State} (hk : Kept s₀ s) : Runs s₀ (execGetstatus s) :=
  cccCommand_kept (fun _ hk => inI3c_kept (fun _ hk => drawOne_kept (sbAnswer_kept _ hk)) hk) hk

theorem execGetmwl_kept {s₀ s : State} (hk : Kept s₀ s) : Runs s₀ (execGetmwl s) :=
  cccCommand_kept (fun _ hk => inI3c_kept (fun _ hk => sbAnswer_kept _ hk) hk) hk

theorem execGetmrl_kept {s₀ s : State} (hk : Kept s₀ s) : Runs s₀ (execGetmrl s) :=
  cccCommand_kept (fun _ hk => inI3c_kept (fun _ hk => sbAnswer_kept _ hk) hk) hk

theorem execSetmwl_kept (length : BitVec 16) {s₀ s : State} (hk : Kept s₀ s) : Runs s₀ (execSetmwl length s) :=
  cccCommand_kept (fun _ hk => inI3c_kept (fun _ hk => kept_ite (sbAnswer_kept _ (kept_events
    (modSideband_events _ _) hk)) (sbNack_kept hk)) hk) hk

theorem execSetmrl_kept (length : BitVec 16) {s₀ s : State} (hk : Kept s₀ s) : Runs s₀ (execSetmrl length s) :=
  cccCommand_kept (fun _ hk => inI3c_kept (fun _ hk => kept_ite (sbAnswer_kept _ (kept_events
    (modSideband_events _ _) hk)) (sbNack_kept hk)) hk) hk

theorem tapCommand_kept (code : BitVec 8) {f : State → BitVec 48 × State} {s₀ s : State}
    (hf : ∀ u, Kept s₀ u → Kept s₀ (f u).2) (hk : Kept s₀ s) : Runs s₀ (tapCommand code f s) :=
  pinCommand_kept (fun _ hk => kept_ite hk (kept_events (modSideband_events _ _) (hf _ (kept_events
    (modSideband_events _ _) hk)))) hk

theorem execBypass_kept (tdi : Bool) {s₀ s : State} (hk : Kept s₀ s) : Runs s₀ (execBypass tdi s) :=
  tapCommand_kept _ (fun _ hk => hk) hk

theorem execIdcode_kept {s₀ s : State} (hk : Kept s₀ s) : Runs s₀ (execIdcode s) :=
  tapCommand_kept _ (fun _ hk => hk) hk

theorem execSamplePreload_kept (cells : BitVec 12) {s₀ s : State} (hk : Kept s₀ s) :
    Runs s₀ (execSamplePreload cells s) :=
  tapCommand_kept _ (fun _ hk => drawOne_kept (kept_events (modSideband_events _ _) hk)) hk

theorem execExtest_kept (cells : BitVec 12) {s₀ s : State} (hk : Kept s₀ s) : Runs s₀ (execExtest cells s) := by
  unfold execExtest
  refine tapCommand_kept _ ?_ hk
  intro _ hk
  split
  · exact drawOne_kept (kept_events (modSideband_events _ _) hk)
  · exact hk

theorem execClamp_kept (tdi : Bool) {s₀ s : State} (hk : Kept s₀ s) : Runs s₀ (execClamp tdi s) :=
  tapCommand_kept _ (fun _ hk => hk) hk

theorem execHighz_kept (tdi : Bool) {s₀ s : State} (hk : Kept s₀ s) : Runs s₀ (execHighz tdi s) :=
  tapCommand_kept _ (fun _ hk => hk) hk

theorem mboxScan_kept (dr : BitVec 48) {s₀ s : State} (hk : Kept s₀ s) : Kept s₀ (mboxScan dr s).2 := by
  unfold mboxScan
  dsimp only
  split
  · exact hk
  · exact transfer_kept _ _ _ _ (fun _ hk => accessRegister_kept _ _ _ hk) hk

theorem execMbox_kept (dr : BitVec 48) {s₀ s : State} (hk : Kept s₀ s) : Runs s₀ (execMbox dr s) :=
  tapCommand_kept _ (fun _ hk => mboxScan_kept _ hk) hk

theorem execWspSelect_kept (tdi : Bool) {s₀ s : State} (hk : Kept s₀ s) : Runs s₀ (execWspSelect tdi s) := by
  unfold execWspSelect
  refine tapCommand_kept _ ?_ hk
  intro _ hk
  split
  · exact hk
  · split
    · exact drawOne_kept hk
    · exact hk

theorem execDieSelect_kept (tdi : Bool) {s₀ s : State} (hk : Kept s₀ s) : Runs s₀ (execDieSelect tdi s) := by
  unfold execDieSelect
  refine tapCommand_kept _ ?_ hk
  intro _ hk
  split
  · split
    · exact drawOne_kept hk
    · exact hk
  · exact hk

theorem execTrstL_kept (asserted : Bool) {s₀ s : State} (hk : Kept s₀ s) : Runs s₀ (execTrstL asserted s) :=
  pinCommand_kept (fun _ hk => kept_events (modSideband_events _ _) hk) hk

/-! ### What the block does while no command waits -/

theorem idle_kept {s₀ s : State} (hk : Kept s₀ s) : Kept s₀ (idle s) :=
  kept_ite hk (kept_foldl (fun _ _ hk => kept_events (pump_events _ _) hk) (Kept.update hk))

/-! ### Every command -/

theorem exec_kept (i : Instr) {s₀ s : State} (hk : Kept s₀ s) : Runs s₀ (exec i s) := by
  unfold exec
  split
  · exact execNop_kept _ _ hk
  · exact execFenceComplete_kept _ _ hk
  · exact execRead_kept _ _ hk
  · exact execWrite_kept _ _ hk
  · exact execWriteMask_kept _ _ hk
  · exact execAtomAdd_kept _ _ hk
  · exact execAtomFadd_kept _ _ hk
  · exact execAtomSwap_kept _ _ hk
  · exact execAtomCas_kept _ _ hk
  · exact execAtomPadd128_kept _ _ hk
  · exact execLookupExact_kept _ _ hk
  · exact execLookupPrefix_kept _ _ hk
  · exact execTableUpdate_kept _ _ hk
  · exact execCtrUpdate_kept _ _ hk
  · exact execPolUpdate_kept _ _ hk
  · exact execCtrRead_kept _ _ hk
  · exact execEnqueue_kept _ _ hk
  · exact execPacketLink_kept _ hk
  · exact execDequeue_kept _ _ hk
  · exact execStreamStart_kept _ hk
  · exact execDequeueHandover_kept _ hk
  · exact execQueueQuery_kept _ _ hk
  · exact execSkeinCopy_kept _ _ hk
  · exact execRowFill_kept _ _ hk
  · exact execMailbox_kept _ _ hk
  · exact execStatusRead_kept _ _ hk
  · exact execReservedOpcode_kept _ _ _ hk
  · exact execQuiescePoint_kept _ hk
  · exact execQuiesceTimeout_kept _ hk
  · exact execBlockFence_kept _ _ hk
  · exact execFenceTimeout_kept _ hk
  · exact execAutoBlockReset_kept _ _ hk
  · exact execQuarterIsolation_kept _ _ _ hk
  · exact execQuarterIsolated_kept _ hk
  · exact execIsolationTimeout_kept _ hk
  · exact execQuarterResetDone_kept _ hk
  · exact execReceiverDetect_kept _ _ hk
  · exact execAcquireTimeout_kept _ hk
  · exact execAlignTimeout_kept _ hk
  · exact execCapsTimeout_kept _ hk
  · exact execEqTimeout_kept _ hk
  · exact execCheckTimeout_kept _ hk
  · exact execSwitchTimeout_kept _ hk
  · exact execNewGaugeLock_kept _ hk
  · exact execCheckWindowEnd_kept _ _ hk
  · exact execFallbackCheckEnd_kept _ _ hk
  · exact execTs1_kept _ _ _ _ hk
  · exact execTs2_kept _ _ _ hk
  · exact execTsEq_kept _ _ _ hk
  · exact execTsCheck_kept _ _ _ hk
  · exact execGaugeSwitch_kept _ _ _ hk
  · exact execIdleEnter_kept _ _ _ hk
  · exact execIdleExit_kept _ _ _ hk
  · exact execFckDown_kept _ _ _ hk
  · exact execLoopReq_kept _ _ _ hk
  · exact execAlign_kept _ _ _ hk
  · exact execElectricalIdleEntry_kept _ hk
  · exact execHeartbeatStatus_kept _ hk
  · exact execLaneLost_kept _ _ _ hk
  · exact execWidthChange_kept _ _ hk
  · exact execWidthChangeRepeat_kept _ hk
  · exact execGroupRetrain_kept _ _ _ _ hk
  · exact execLaneReadded_kept _ _ _ hk
  · exact execFckLost_kept _ hk
  · exact execFckRestored_kept _ hk
  · exact execLanesLostAll_kept _ hk
  · exact execRecoveryTimeout_kept _ hk
  · exact execNullFlit_kept _ _ hk
  · exact execDataFlit_kept _ _ hk
  · exact execTagFlit_kept _ _ hk
  · exact execStatus_kept _ _ hk
  · exact execNak_kept _ _ hk
  · exact execAckDue_kept _ hk
  · exact execReplayTimer_kept _ hk
  · exact execHeartbeatTimeout_kept _ hk
  · exact execHello_kept _ _ hk
  · exact execHelloTimeout_kept _ hk
  · exact execBindLockoutEnd_kept _ hk
  · exact execDetach_kept _ hk
  · exact execDetachAck_kept _ hk
  · exact execEventOverflow_kept _ hk
  · exact execAct_kept _ _ _ hk
  · exact execPre_kept _ _ hk
  · exact execRefpb_kept _ _ hk
  · exact execColumnRead_kept _ _ _ hk
  · exact execColumnWrite_kept _ _ _ hk
  · exact execSkrd_kept _ _ hk
  · exact execSkwr_kept _ _ _ hk
  · exact execNopWord_kept _ hk
  · exact execRefreshTimer_kept _ _ hk
  · exact execBudgetWindow_kept _ hk
  · exact execFallbackExit_kept _ hk
  · exact execAgePromotion_kept _ hk
  · exact execWriteQueueEntry_kept _ hk
  · exact execCaParity_kept _ hk
  · exact execReadRetry_kept _ _ _ _ hk
  · exact execPowerDownEntry_kept _ hk
  · exact execSelfRefreshEntry_kept _ hk
  · exact execSelfRefreshExit_kept _ hk
  · exact execCounterFlush_kept _ _ hk
  · exact execPolicerSweep_kept _ _ hk
  · exact execHeldRelease_kept _ hk
  · exact execGatePromote_kept _ _ hk
  · exact execRequestBusy_kept _ _ hk
  · exact execPartnerPanicStuck_kept _ hk
  · exact execMissWindow_kept hk
  · exact execGuaranteeRestored_kept hk
  · exact execSpotCheck_kept _ hk
  · exact execPatrolRead_kept _ hk
  · exact execScrubLate_kept _ hk
  · exact execSramWalk_kept _ _ hk
  · exact execGranuleRefill_kept hk
  · exact execRekeyStep_kept _ hk
  · exact execKeyLockoutEnd_kept hk
  · exact execVerticalTrim_kept _ _ hk
  · exact execTrimRetry_kept _ _ hk
  · exact execShiftRepair_kept _ _ _ _ hk
  · exact execChannelRetiring_kept _ hk
  · exact execMigrationCopy_kept hk
  · exact execSlabSwitchover_kept hk
  · exact execPostPackageRepair_kept _ _ _ hk
  · exact execLayerKeeper_kept _ hk
  · exact execBondSample_kept hk
  · exact execBondStore_kept hk
  · exact execSensorSample_kept _ _ hk
  · exact execThrottleRecompute_kept hk
  · exact execGovernorWindow_kept _ _ _ hk
  · exact execFlowTest_kept hk
  · exact execCoolantFlowOk_kept hk
  · exact execOclkTrim_kept hk
  · exact execRefclkLost_kept hk
  · exact execRefclkRestored_kept hk
  · exact execPllUnlock_kept _ hk
  · exact execPowerOnReset_kept hk
  · exact execRstL_kept _ _ hk
  · exact execWrstL_kept _ hk
  · exact execStartupPhase_kept _ hk
  · exact execRefclkWaitTimeout_kept hk
  · exact execLockstepReset_kept hk
  · exact execWatchdogReset_kept hk
  · exact execCoreRebootDone_kept hk
  · exact execPatchProbation_kept hk
  · exact execEventSuppressed_kept hk
  · exact execCommandDone_kept _ _ hk
  · exact execMaintStart_kept hk
  · exact execIdentify_kept _ _ hk
  · exact execDeviceStatus_kept _ _ hk
  · exact execTaskStatus_kept _ _ hk
  · exact execLogRead_kept _ _ hk
  · exact execAlertAck_kept _ _ hk
  · exact execSensorRead_kept _ _ hk
  · exact execParamRead_kept _ _ hk
  · exact execParamWrite_kept _ _ hk
  · exact execParamPersist_kept _ _ hk
  · exact execPartitionCreate_kept _ _ hk
  · exact execPartitionResize_kept _ _ hk
  · exact execPartitionDelete_kept _ _ hk
  · exact execPartitionModify_kept _ _ hk
  · exact execPartitionRights_kept _ _ hk
  · exact execPartitionRekey_kept _ _ hk
  · exact execKeyLoad_kept _ _ hk
  · exact execKeyClear_kept _ _ hk
  · exact execTableCreate_kept _ _ hk
  · exact execTableDelete_kept _ _ hk
  · exact execTableSlotRelease_kept _ _ hk
  · exact execQueueCreate_kept _ _ hk
  · exact execQueueModify_kept _ _ hk
  · exact execQueueDelete_kept _ _ hk
  · exact execQueueReset_kept _ _ hk
  · exact execBufferReset_kept _ _ hk
  · exact execCollieSet_kept _ _ hk
  · exact execPortTrain_kept _ _ hk
  · exact execPortTest_kept _ _ hk
  · exact execLaneGroupRestore_kept _ _ hk
  · exact execLaneRetune_kept _ _ hk
  · exact execVtrim_kept _ _ hk
  · exact execWireRepair_kept _ _ hk
  · exact execRowRepair_kept _ _ hk
  · exact execChannelRetire_kept _ _ hk
  · exact execChannelHold_kept _ _ hk
  · exact execSensorRestore_kept _ _ hk
  · exact execDeviceReset_kept _ _ hk
  · exact execQuarterReset_kept _ _ hk
  · exact execBlockReset_kept _ _ hk
  · exact execBistRun_kept _ _ hk
  · exact execMbistRun_kept _ _ hk
  · exact execCalReport_kept _ _ hk
  · exact execMaintStatus_kept _ _ hk
  · exact execMaintCancel_kept _ _ hk
  · exact execPatchLoad_kept _ _ hk
  · exact execPatchActivate_kept _ _ hk
  · exact execFeatureEnable_kept _ _ hk
  · exact execConfigExport_kept _ _ hk
  · exact execConfigImport_kept _ _ hk
  · exact execFuseRead_kept _ _ hk
  · exact execFuseShadowSet_kept _ _ hk
  · exact execFuseBurn_kept _ _ hk
  · exact execFuseLock_kept _ _ hk
  · exact execFuseReburn_kept _ _ hk
  · exact execMemRead_kept _ _ hk
  · exact execMemWrite_kept _ _ hk
  · exact execWindowRead_kept _ _ hk
  · exact execWindowWrite_kept _ _ hk
  · exact execMbData_kept _ _ _ _ _ hk
  · exact execRegisterWrite_kept _ _ _ _ hk
  · exact execEntdaa_kept _ hk
  · exact execSetdasa_kept _ _ hk
  · exact execSetnewda_kept _ hk
  · exact execRstdaa_kept hk
  · exact execEnec_kept _ hk
  · exact execDisec_kept _ hk
  · exact execGetpid_kept hk
  · exact execGetbcr_kept hk
  · exact execGetdcr_kept hk
  · exact execGetstatus_kept hk
  · exact execGetmwl_kept hk
  · exact execGetmrl_kept hk
  · exact execSetmwl_kept _ hk
  · exact execSetmrl_kept _ hk
  · exact execBypass_kept _ hk
  · exact execIdcode_kept hk
  · exact execSamplePreload_kept _ hk
  · exact execExtest_kept _ hk
  · exact execClamp_kept _ hk
  · exact execHighz_kept _ hk
  · exact execMbox_kept _ hk
  · exact execWspSelect_kept _ hk
  · exact execDieSelect_kept _ hk
  · exact execRailFault_kept _ _ hk
  · exact execVfusePresent_kept _ hk
  · exact execMbDoorbell_kept _ _ _ hk
  · exact execRailReturn_kept _ hk
  · exact execWarmRestartReady_kept hk
  · exact execBlockResume_kept _ hk
  · exact execDetachCleanupDone_kept _ hk
  · exact execConfigSnapshotExpiry_kept hk
  · exact execFallbackEntry_kept _ hk
  · exact execTrstL_kept _ hk
  · exact execHoldoverReturnLock_kept hk

/-- Settles O54: what waits behind a command is what `exec_kept` says of every command. -/
theorem commandsLeaveTheQueue : Obligations.CommandsLeaveTheQueue := by
  unfold Obligations.CommandsLeaveTheQueue
  intro c s t h
  exact (exec_kept c (Kept.refl s) t h).1

/-- Settles O55: a step is a command on the state without it (`exec_kept`), or the block left alone (`idle_kept`). -/
theorem stepsKeepCanonicalForm : Obligations.StepsKeepCanonicalForm := by
  unfold Obligations.StepsKeepCanonicalForm
  intro s t hs h
  unfold step at h
  split at h
  · obtain ⟨rfl⟩ := h
    exact (idle_kept (Kept.refl s)).2 hs
  · rename_i c rest _
    exact (exec_kept c (Kept.refl { s with pending := rest }) t h).2 hs

end Sys2Proof.Frames
end

section
/-! PROOFS. The whole machine: what reset leaves, what a step runs, and when a command stops. -/

namespace Sys2Proof.WholeMachine

open Sys2Proof Sys2Proof.Machine Sys2Proof.Laws Sys2Proof.Safety

/-- Settles O56: reset lists nothing in any sparse part. -/
theorem resetIsCanonical : Obligations.ResetIsCanonical := by
  unfold Obligations.ResetIsCanonical
  rfl

/-- Settles O48: each value is read off the reset state; what it holds in every port, key slot or mailbox is one
replicated value. -/
theorem resetState : Obligations.ResetState := by
  unfold Obligations.ResetState
  refine ⟨rfl, rfl, rfl, rfl, rfl, rfl, fun _ => rfl, fun p => ?_, fun k => ?_, rfl, rfl, rfl, rfl, rfl, rfl, fun m => ?_⟩
  · fin_cases p <;> rfl
  · fin_cases k <;> exact ⟨rfl, rfl⟩
  · fin_cases m <;> exact ⟨rfl, rfl⟩

/-- Settles O52. -/
theorem stepRunsFrontCommand : Obligations.StepRunsFrontCommand := by
  unfold Obligations.StepRunsFrontCommand
  refine ⟨fun _ _ _ => rfl, fun s hs => ?_⟩
  have hidle : step s = .next (idle s) := by simp only [step, hs]
  refine ⟨fun hlow => ?_, fun hhigh => ?_⟩
  · rw [hidle, idle, if_pos hlow]
  · rw [hidle, idle, if_neg (by simp [hhigh])]

/-! ### Commands at the pins -/

theorem exec_of_faulted_pins {c : Instr} {s : State} (hc : usesPins c = true) (h : ioFaulted s = true) :
    exec c s = .fault .ioPinsUndefined := by
  cases c with
  | mbData | registerWrite | mbDoorbell => exact if_pos h
  | entdaa | setdasa | setnewda | rstdaa | enec | disec => exact if_pos h
  | getpid | getbcr | getdcr | getstatus | getmwl | getmrl | setmwl | setmrl => exact if_pos h
  | bypass | idcode | samplePreload | extest | clamp | highz | mbox | wspSelect | dieSelect | trstL => exact if_pos h
  | rstL | wrstL => exact if_pos h
  | _ => cases hc

theorem exec_completes_of_good_pins {c : Instr} {s : State} (hc : usesPins c = true) (h : ioFaulted s = false) :
    Completes (exec c s) := by
  have hgood : ¬ioFaulted s = true := by simp [h]
  cases c with
  | mbData | registerWrite | mbDoorbell => exact ⟨_, if_neg hgood⟩
  | entdaa | setdasa | setnewda | rstdaa | enec | disec => exact ⟨_, if_neg hgood⟩
  | getpid | getbcr | getdcr | getstatus | getmwl | getmrl | setmwl | setmrl => exact ⟨_, if_neg hgood⟩
  | bypass | idcode | samplePreload | extest | clamp | highz | mbox | wspSelect | dieSelect | trstL => exact ⟨_, if_neg hgood⟩
  | rstL | wrstL => exact ⟨_, if_neg hgood⟩
  | _ => cases hc

theorem exec_completes_of_not_usesPins {c : Instr} {s : State} (h : usesPins c = false) : Completes (exec c s) := by
  cases c with
  | mbData | registerWrite | mbDoorbell => cases h
  | entdaa | setdasa | setnewda | rstdaa | enec | disec => cases h
  | getpid | getbcr | getdcr | getstatus | getmwl | getmrl | setmwl | setmrl => cases h
  | bypass | idcode | samplePreload | extest | clamp | highz | mbox | wspSelect | dieSelect | trstL => cases h
  | rstL | wrstL => cases h
  | _ => exact ⟨_, rfl⟩

/-- Settles O53: the commands of the pins go through `pinCommand`, which faults on `VDD_IO` alone, and every other arm
of the dispatch is a next state. -/
theorem onlyFaultedPinsStop : Obligations.OnlyFaultedPinsStop := by
  unfold Obligations.OnlyFaultedPinsStop
  refine fun c s => ⟨exec_of_faulted_pins, fun h => ?_⟩
  cases hc : usesPins c with
  | false => exact exec_completes_of_not_usesPins hc
  | true => exact exec_completes_of_good_pins hc (h.resolve_left (by simp [hc]))

end Sys2Proof.WholeMachine
end

section
/-! PROOFS. Lines in the layers: what is stored reads back, and the line hash is one to one. -/

namespace Sys2Proof.LinePlaces

open Sys2Proof Sys2Proof.Machine Sys2Proof.Laws Sys2Proof.Safety

/-! ### Stored lines -/

theorem codedAddr_storeCoded (pl q : Place) (c : CodedLine) (s : State) :
    codedAddr (storeCoded pl c s) q = codedAddr s q := by
  unfold codedAddr layerRow storeCoded
  rfl

theorem memBytes_storeCoded_same (pl : Place) (c : CodedLine) (s : State) (h : memWf s.dram = true) :
    memBytes (storeCoded pl c s).dram (codedAddr s pl) 72 = natToBytes 72 c.toNat := by
  unfold storeCoded
  have hl := natToBytes_length 72 c.toNat
  generalize natToBytes 72 c.toNat = bs at hl ⊢
  rw [← hl]
  exact memBytes_write_same _ _ _ h

theorem memBytes_storeCoded_apart (pl : Place) (c : CodedLine) (s : State) (h : memWf s.dram = true) (b n : Nat)
    (hb : b + n ≤ codedAddr s pl ∨ codedAddr s pl + 72 ≤ b) :
    memBytes (storeCoded pl c s).dram b n = memBytes s.dram b n := by
  unfold storeCoded
  have hl := natToBytes_length 72 c.toNat
  generalize natToBytes 72 c.toNat = bs at hl ⊢
  exact memBytes_write_apart _ _ _ _ _ h (hl.symm ▸ hb)

theorem storeCoded_wf (pl : Place) (c : CodedLine) (s : State) (h : memWf s.dram = true) :
    memWf (storeCoded pl c s).dram = true := by
  unfold storeCoded
  generalize natToBytes 72 c.toNat = bs
  exact memWrite_wf _ _ _ h

theorem codedLine_of_bytes (c : CodedLine) : BitVec.ofNat 576 (bytesToNat (natToBytes 72 c.toNat)) = c := by
  have hc : c.toNat < 256 ^ 72 := by
    rw [show (256 : Nat) = 2 ^ 8 from rfl, ← pow_mul]
    exact BitVec.isLt c
  rw [bytesToNat_natToBytes, Nat.mod_eq_of_lt hc, BitVec.ofNat_toNat, BitVec.setWidth_eq]

/-- Settles O27: a line's 72 bytes are written whole, and two line addresses that differ lie 72 apart. -/
theorem storedLineReadsBack : Obligations.StoredLineReadsBack := by
  unfold Obligations.StoredLineReadsBack
  refine fun pl q c s h => ⟨?_, fun hq => ?_, storeCoded_wf pl c s h⟩
  · rw [storedLine, codedAddr_storeCoded, memBytes_storeCoded_same pl c s h, codedLine_of_bytes]
  · have hapart : codedAddr s q + 72 ≤ codedAddr s pl ∨ codedAddr s pl + 72 ≤ codedAddr s q := by
      unfold codedAddr at hq ⊢
      omega
    rw [storedLine, codedAddr_storeCoded, memBytes_storeCoded_apart pl c s h _ _ hapart, ← storedLine]

/-! ### The line hash (R156) -/

theorem bitsOf_lt (n hi lo : Nat) : bitsOf n hi lo < 2 ^ (hi + 1 - lo) := Nat.mod_lt _ (by positivity)

/-- A number below the bound of a `Fin` comes back from it. -/
theorem ofNat_inj {n x y : Nat} [NeZero n] (hx : x < n) (hy : y < n) (h : Fin.ofNat n x = Fin.ofNat n y) : x = y := by
  have := congrArg Fin.val h
  rwa [Fin.val_ofNat, Fin.val_ofNat, Nat.mod_eq_of_lt hx, Nat.mod_eq_of_lt hy] at this

/-- The bank hash: the row bits and the bank of a line's number within its channel give the number (R156). -/
theorem eq_of_row_of_bank {l l' hi : Nat} (hh : 8 ≤ hi) (hh' : hi ≤ 11) (hl : l < 2 ^ (hi + 1)) (hl' : l' < 2 ^ (hi + 1))
    (hrow : bitsOf l hi 4 = bitsOf l' hi 4)
    (hbank : Fin.ofNat 16 (bitsOf l 3 0 ^^^ bitsOf l 7 4 ^^^ bitsOf l hi 8) =
      Fin.ofNat 16 (bitsOf l' 3 0 ^^^ bitsOf l' 7 4 ^^^ bitsOf l' hi 8)) : l = l' := by
  have hdiv : l / 16 = l' / 16 := by
    have hsize : 2 ^ (hi + 1 - 4) * 16 = 2 ^ (hi + 1) := by
      rw [show (16 : Nat) = 2 ^ 4 from rfl, ← pow_add]
      congr 1
      omega
    have hsmall (k : Nat) (hk : k < 2 ^ (hi + 1)) : bitsOf k hi 4 = k / 16 := by
      rw [bitsOf, Nat.shiftRight_eq_div_pow, Nat.mod_eq_of_lt]
      exact Nat.div_lt_of_lt_mul (by omega)
    rwa [hsmall l hl, hsmall l' hl'] at hrow
  have hmid : bitsOf l 7 4 = bitsOf l' 7 4 := by
    simp only [bitsOf, Nat.shiftRight_eq_div_pow]
    rw [show (2 : Nat) ^ 4 = 16 from rfl, hdiv]
  have htop : bitsOf l hi 8 = bitsOf l' hi 8 := by
    have h8 (k : Nat) : k / 2 ^ 8 = k / 16 / 16 := by omega
    rw [bitsOf, bitsOf, Nat.shiftRight_eq_div_pow, Nat.shiftRight_eq_div_pow, h8, h8, hdiv]
  have hlow (k : Nat) : bitsOf k 3 0 < 2 ^ 4 := bitsOf_lt k 3 0
  have hm (k : Nat) : bitsOf k 7 4 < 2 ^ 4 := bitsOf_lt k 7 4
  have ht (k : Nat) : bitsOf k hi 8 < 2 ^ 4 :=
    lt_of_lt_of_le (bitsOf_lt k hi 8) (Nat.pow_le_pow_right (by norm_num) (by omega))
  have hx := ofNat_inj (Nat.xor_lt_two_pow (Nat.xor_lt_two_pow (hlow l) (hm l)) (ht l))
    (Nat.xor_lt_two_pow (Nat.xor_lt_two_pow (hlow l') (hm l')) (ht l')) hbank
  rw [hmid, htop, Nat.xor_left_inj, Nat.xor_left_inj] at hx
  simp only [bitsOf, Nat.shiftRight_eq_div_pow] at hx
  norm_num at hx
  omega

/-- The line hash's channel over the whole chip: the low five bits of a line's number (R156). -/
theorem eq_of_chip_channel {r r' x y : Nat} (hhigh : r / 32 = r' / 32) (hx : x < 32) (hy : y < 32)
    (h : Fin.ofNat 32 (bitsOf r 4 0 ^^^ bitsOf r 9 5 ^^^ bitsOf r 14 10 ^^^ x ^^^ y) =
      Fin.ofNat 32 (bitsOf r' 4 0 ^^^ bitsOf r' 9 5 ^^^ bitsOf r' 14 10 ^^^ x ^^^ y)) : r = r' := by
  have h9 : bitsOf r 9 5 = bitsOf r' 9 5 := by
    simp only [bitsOf, Nat.shiftRight_eq_div_pow]
    rw [show (2 : Nat) ^ 5 = 32 from rfl, hhigh]
  have h14 : bitsOf r 14 10 = bitsOf r' 14 10 := by
    have h10 (k : Nat) : k / 2 ^ 10 = k / 32 / 32 := by omega
    rw [bitsOf, bitsOf, Nat.shiftRight_eq_div_pow, Nat.shiftRight_eq_div_pow, h10, h10, hhigh]
  have hlt (k : Nat) : bitsOf k 4 0 ^^^ bitsOf k 9 5 ^^^ bitsOf k 14 10 ^^^ x ^^^ y < 2 ^ 5 :=
    Nat.xor_lt_two_pow (Nat.xor_lt_two_pow (Nat.xor_lt_two_pow (Nat.xor_lt_two_pow (bitsOf_lt k 4 0) (bitsOf_lt k 9 5))
      (bitsOf_lt k 14 10)) hx) hy
  have hxor := ofNat_inj (hlt r) (hlt r') h
  rw [h9, h14, Nat.xor_left_inj, Nat.xor_left_inj, Nat.xor_left_inj, Nat.xor_left_inj] at hxor
  simp only [bitsOf, Nat.shiftRight_eq_div_pow] at hxor
  norm_num at hxor
  omega

/-- The line hash's channel within a quarter: the low three bits of a line's number (R156). -/
theorem eq_of_quarter_channel {r r' q x : Nat} (hhigh : r / 8 = r' / 8) (hq : q < 4) (hx : x < 8)
    (h : Fin.ofNat 32 (8 * q + (bitsOf r 2 0 ^^^ bitsOf r 5 3 ^^^ bitsOf r 8 6 ^^^ bitsOf r 11 9 ^^^ bitsOf r 14 12 ^^^ x)) =
      Fin.ofNat 32 (8 * q + (bitsOf r' 2 0 ^^^ bitsOf r' 5 3 ^^^ bitsOf r' 8 6 ^^^ bitsOf r' 11 9 ^^^ bitsOf r' 14 12 ^^^ x))) :
    r = r' := by
  have hfield (hi lo : Nat) (hlo : 3 ≤ lo) : bitsOf r hi lo = bitsOf r' hi lo := by
    have hsplit (k : Nat) : k / 2 ^ lo = k / 8 / 2 ^ (lo - 3) := by
      rw [Nat.div_div_eq_div_mul, show (8 : Nat) = 2 ^ 3 from rfl, ← pow_add]
      congr 2
      omega
    rw [bitsOf, bitsOf, Nat.shiftRight_eq_div_pow, Nat.shiftRight_eq_div_pow, hsplit, hsplit, hhigh]
  have hlt (k : Nat) : bitsOf k 2 0 ^^^ bitsOf k 5 3 ^^^ bitsOf k 8 6 ^^^ bitsOf k 11 9 ^^^ bitsOf k 14 12 ^^^ x < 2 ^ 3 :=
    Nat.xor_lt_two_pow (Nat.xor_lt_two_pow (Nat.xor_lt_two_pow (Nat.xor_lt_two_pow (Nat.xor_lt_two_pow
      (bitsOf_lt k 2 0) (bitsOf_lt k 5 3)) (bitsOf_lt k 8 6)) (bitsOf_lt k 11 9)) (bitsOf_lt k 14 12)) hx
  have hsum (k : Nat) (hk : k < 2 ^ 3) : 8 * q + k < 32 := by omega
  have hxor := Nat.add_left_cancel (ofNat_inj (hsum _ (hlt r)) (hsum _ (hlt r')) h)
  rw [hfield 5 3 (by norm_num), hfield 8 6 (by norm_num), hfield 11 9 (by norm_num), hfield 14 12 (by norm_num),
    Nat.xor_left_inj, Nat.xor_left_inj, Nat.xor_left_inj, Nat.xor_left_inj, Nat.xor_left_inj] at hxor
  simp only [bitsOf, Nat.shiftRight_eq_div_pow] at hxor
  norm_num at hxor
  omega

/-- Settles O28: the place gives the row and with it the bank's other bits, then the channel's low bits, so the line's
number within its granule. -/
theorem lineHashIsOneToOne : Obligations.LineHashIsOneToOne := by
  unfold Obligations.LineHashIsOneToOne
  intro s a b pl hg ha hb
  have hnumber : a / 32 % 32768 = b / 32 % 32768 → a % 32 = b % 32 → a = b := by omega
  have hline (x y : Nat) (h : Fin.ofNat 32 (x % 32) = Fin.ofNat 32 (y % 32)) : x % 32 = y % 32 :=
    ofNat_inj (Nat.mod_lt _ (by norm_num)) (Nat.mod_lt _ (by norm_num)) h
  unfold hashPlace granuleLines at ha hb
  dsimp only at ha hb
  rw [← hg] at hb
  generalize a / 1048576 = g at ha hb
  generalize (granuleEntry s g).toNat = e at ha hb
  have hra : a / 32 % 32768 < 32768 := Nat.mod_lt _ (by norm_num)
  have hrb : b / 32 % 32768 < 32768 := Nat.mod_lt _ (by norm_num)
  generalize a / 32 % 32768 = r at ha hnumber hra
  generalize b / 32 % 32768 = r' at hb hnumber hrb
  cases h0 : bitAt e 0 with
  | false => simp [h0] at ha
  | true =>
    cases h1 : bitAt e 1 with
    | true =>
      simp only [h0, h1, Bool.not_true, Bool.false_eq_true, if_false, if_true, Option.some.injEq] at ha hb
      obtain ⟨hch, hbank, hrow, hln⟩ := Place.mk.inj (ha.trans hb.symm)
      have hl := eq_of_row_of_bank (by norm_num) (by norm_num) (bitsOf_lt r 14 5) (bitsOf_lt r' 14 5)
        (Nat.add_left_cancel hrow) hbank
      refine hnumber (eq_of_chip_channel ?_ (bitsOf_lt g 4 0) (bitsOf_lt g 9 5) hch) (hline a b hln)
      simp only [bitsOf, Nat.shiftRight_eq_div_pow] at hl
      omega
    | false =>
      simp only [h0, h1, Bool.not_true, Bool.false_eq_true, if_false, if_true, Option.some.injEq] at ha hb
      obtain ⟨hch, hbank, hrow, hln⟩ := Place.mk.inj (ha.trans hb.symm)
      have hl := eq_of_row_of_bank (by norm_num) (by norm_num) (bitsOf_lt r 14 3) (bitsOf_lt r' 14 3)
        (Nat.add_left_cancel hrow) hbank
      refine hnumber (eq_of_quarter_channel ?_ (bitsOf_lt e 3 2) (bitsOf_lt g 2 0) hch) (hline a b hln)
      simp only [bitsOf, Nat.shiftRight_eq_div_pow] at hl
      omega

end Sys2Proof.LinePlaces
end

section
/-! PROOFS. Responses of a mailbox, and the coefficients of a transmitter. -/

namespace Sys2Proof.ResponsesAndTaps

open Sys2Proof Sys2Proof.Machine Sys2Proof.Laws Sys2Proof.Transactions Sys2Proof.Safety

/-! ### Responses (R442) -/

/-- The number that a response's header bytes spell. -/
def responseHead (opcode seq : BitVec 16) (r : Reply) : Nat :=
  opcode.toNat + seq.toNat * 2 ^ 16 + kstatusCode r.status * 2 ^ 32 + r.data.length % 2 ^ 16 * 2 ^ 48 +
    r.ticket % 2 ^ 16 * 2 ^ 64 + r.position % 256 * 2 ^ 80

theorem kstatusCode_lt (st : KStatus) : kstatusCode st < 256 := by cases st <;> decide

theorem responseHead_fields (opcode seq : BitVec 16) (r : Reply) (hd : r.data.length ≤ 4080) (ht : r.ticket < 65536)
    (hp : r.position < 256) :
    let n := responseHead opcode seq r
    n < 256 ^ 16 ∧ bitsOf n 15 0 = opcode.toNat ∧ bitsOf n 31 16 = seq.toNat ∧ bitsOf n 39 32 = kstatusCode r.status ∧
      bitsOf n 47 40 = 0 ∧ bitsOf n 63 48 = r.data.length ∧ bitsOf n 79 64 = r.ticket ∧ bitsOf n 87 80 = r.position ∧
      bitsOf n 127 88 = 0 := by
  have ho := opcode.isLt
  have hs := seq.isLt
  have hk := kstatusCode_lt r.status
  simp only [responseHead, bitsOf, Nat.shiftRight_eq_div_pow]
  refine ⟨?_, ?_, ?_, ?_, ?_, ?_, ?_, ?_, ?_⟩ <;> omega

theorem writeResponse_response (m : Fin 6) (opcode seq : BitVec 16) (r : Reply) (s : State) :
    (writeResponse m opcode seq r s).mailboxes[m].response =
      memWrite s.mailboxes[m].response 0 (natToBytes 16 (responseHead opcode seq r) ++ r.data) := by
  simp [writeResponse, modMailbox, responseHead]

/-- Settles O39: the header and the data are written one after the other (`memBytes_write_append`), and the header's
number has the fields of `responseHead_fields`. -/
theorem responseIsWrittenWhole : Obligations.ResponseIsWrittenWhole := by
  unfold Obligations.ResponseIsWrittenWhole
  intro m opcode seq r s hwf hd ht hp x head
  obtain ⟨hlt, hop, hseq, hst, hz, hlen, htic, hpos, hz'⟩ := responseHead_fields opcode seq r hd ht hp
  have hread := memBytes_write_append s.mailboxes[m].response 0 (natToBytes 16 (responseHead opcode seq r)) r.data hwf
  rw [← writeResponse_response, natToBytes_length, Nat.zero_add] at hread
  obtain ⟨hhead, hdata⟩ := hread
  have hnum : head = responseHead opcode seq r := by
    show bytesToNat (memBytes (writeResponse m opcode seq r s).mailboxes[m].response 0 16) = _
    rw [hhead, bytesToNat_natToBytes, Nat.mod_eq_of_lt hlt]
  rw [hnum]
  refine ⟨hop, hseq, hst, hz, hlen, htic, hpos, hz', hdata, ?_, ?_, fun k hk => ?_⟩
  · simp [x, writeResponse, modMailbox]
  · simp [x, writeResponse, modMailbox]
  · simp [writeResponse, modMailbox, Vector.getElem_set, Fin.val_inj, hk.symm]

/-! ### Coefficients (R88) -/

theorem presetTaps_legal (g : Gauge) (i : Nat) (hi : i < 8) : tapsLegal g (presetTaps g i) = true := by
  interval_cases i <;> cases g <;> decide

theorem stepTap_legal {g : Gauge} {l : Lane} (req bit : Nat) (move : Int → Taps → Taps)
    (h : tapsLegal g l.taps = true) : tapsLegal g (stepTap g req bit move l).taps = true := by
  unfold stepTap
  split
  · extract_lets t
    split
    · assumption
    · exact h
  · exact h

/-- Settles O16: a preset is legal, and a step that would leave the limits is not taken. -/
theorem tapsStayLegal : Obligations.TapsStayLegal := by
  unfold Obligations.TapsStayLegal
  intro g os l h
  unfold applyRequests
  dsimp only
  split
  · exact presetTaps_legal g _ (Nat.mod_lt _ (by norm_num))
  · exact stepTap_legal _ _ _ (stepTap_legal _ _ _ (stepTap_legal _ _ _ h))

end Sys2Proof.ResponsesAndTaps
end

section
/-! PROOFS. Counters, policers and the buckets of a port-class. -/

namespace Sys2Proof.Buckets

open Sys2Proof Sys2Proof.Machine Sys2Proof.Laws Sys2Proof.Transactions Sys2Proof.Safety

/-! ### Counters (R254, R255) -/

/-- What a counter's field becomes: the sum modulo 2^64, or stopping below it. -/
theorem counterAdd_fst (saturate : Bool) (old inc : Nat) :
    (counterAdd saturate old inc).1 % 2 ^ 64 = if saturate then min (old + inc) (2 ^ 64 - 1) else (old + inc) % 2 ^ 64 := by
  cases saturate with
  | false => simp [counterAdd]
  | true => simp [counterAdd]

theorem counterChange_line (saturate : Bool) (k packets bytes : Nat) (l : Line) :
    (counterChange saturate (16 * k) packets bytes l).1 =
      putWord (putWord l (2 * k) (counterAdd saturate (word l (2 * k)) packets).1) (2 * k + 1)
        (counterAdd saturate (word l (2 * k + 1)) bytes).1 := by
  simp only [counterChange, putWord, word, show 8 * (16 * k) = 64 * (2 * k) by omega,
    show 64 * (2 * k) + 64 = 64 * (2 * k + 1) by omega]

theorem word_counterChange (saturate : Bool) (k packets bytes : Nat) (l : Line) (hk : k < 4) :
    let new := (counterChange saturate (16 * k) packets bytes l).1
    word new (2 * k) = (counterAdd saturate (word l (2 * k)) packets).1 % 2 ^ 64 ∧
      word new (2 * k + 1) = (counterAdd saturate (word l (2 * k + 1)) bytes).1 % 2 ^ 64 ∧
      ∀ i, i < 8 → i ≠ 2 * k → i ≠ 2 * k + 1 → word new i = word l i := by
  dsimp only
  rw [counterChange_line]
  refine ⟨?_, word_putWord_same _ _ _ (by omega), fun i hi h0 h1 => ?_⟩
  · rw [word_putWord_other _ _ _ _ (by omega) (by omega), word_putWord_same _ _ _ (by omega)]
  · rw [word_putWord_other _ _ _ _ hi h1, word_putWord_other _ _ _ _ hi h0]

/-! ### Policers (R261) -/

theorem policerRefill_bounds (now : Nat) (p : Policer) :
    (policerRefill now p).tc ≤ p.cbs * 65536 ∧ (policerRefill now p).tx ≤ p.xbs * 65536 :=
  ⟨Nat.min_le_left _ _, Nat.min_le_left _ _⟩

/-- The three colours: red takes nothing, yellow from the excess bucket, green from the committed one. -/
theorem policerColour_cases (len colour : Nat) (q : Policer) :
    let c := if q.aware then colour else 0
    policerColour len colour q = (2, q) ∨
      (c ≠ 2 ∧ ∃ tx ≤ q.tx, policerColour len colour q = (1, { q with tx := tx })) ∨
      (c ≠ 1 ∧ c ≠ 2 ∧ len * 65536 ≤ q.tc ∧
        ∃ tx ≤ q.tx, policerColour len colour q = (0, { q with tx := tx, tc := q.tc - len * 65536 })) := by
  intro c
  unfold policerColour
  extract_lets b
  split
  · split
    · exact .inl rfl
    · rename_i hred
      split
      · exact .inr (.inl ⟨fun h => hred (.inl h), _, Nat.sub_le _ _, rfl⟩)
      · rename_i hyellow
        exact .inr (.inr ⟨fun h => hyellow (.inl h), fun h => hred (.inl h), not_lt.mp fun h => hyellow (.inr h), _,
          Nat.sub_le _ _, rfl⟩)
  · split
    · rename_i hgreen
      obtain ⟨hc, hb⟩ := hgreen
      exact .inr (.inr ⟨by omega, by omega, hb, _, le_refl _, rfl⟩)
    · split
      · rename_i hyellow
        exact .inr (.inl ⟨hyellow.1, _, Nat.sub_le _ _, rfl⟩)
      · exact .inl rfl

/-- What a colour takes: green the committed bucket, red nothing, and none of them more than is there. -/
theorem policerColour_takes (len colour : Nat) (q : Policer) :
    let r := policerColour len colour q
    r.1 ≤ 2 ∧ r.2.tc ≤ q.tc ∧ r.2.tx ≤ q.tx ∧
      (r.1 = 0 → len * 65536 ≤ q.tc ∧ r.2.tc = q.tc - len * 65536) ∧ (r.1 = 2 → r.2 = q) ∧
      (q.aware = true → colour ≤ 2 → colour ≤ r.1) := by
  intro r
  have haware : q.aware = true → (if q.aware then colour else 0) = colour := fun h => if_pos h
  obtain h | ⟨hc, tx, htx, h⟩ | ⟨hc1, hc2, hb, tx, htx, h⟩ := policerColour_cases len colour q
  · simp [r, h]
  · simp only [r, h]
    exact ⟨by omega, le_refl _, htx, by omega, by omega, fun ha => by have := haware ha; omega⟩
  · simp only [r, h]
    exact ⟨by omega, Nat.sub_le _ _, htx, fun _ => ⟨hb, trivial⟩, by omega, fun ha => by have := haware ha; omega⟩

/-! ### The buckets of a port-class (R281) -/

theorem refillClass_bounds (now : Nat) (c : PortClass) :
    (refillClass now c).floorTokens ≤ ((c.floorBurst * 65536 : Nat) : Int) ∧
      (refillClass now c).ceilTokens ≤ ((c.ceilingBurst * 65536 : Nat) : Int) := ⟨min_le_left _ _, min_le_left _ _⟩

/-- What a passing request leaves of each bucket. -/
theorem chargeClass_takes (d e : PortClass) (charge : Nat) (gated : Bool) (h : chargeClass d charge gated = .pass e) :
    (e.floorTokens = d.floorTokens ∨
      e.floorTokens = d.floorTokens - ((charge * 65536 : Nat) : Int) ∧ 0 ≤ e.floorTokens) ∧
    (e.ceilTokens = d.ceilTokens ∨
      e.ceilTokens = d.ceilTokens - ((charge * 65536 : Nat) : Int) ∧ 0 ≤ d.ceilTokens) ∧
    (d.ceiling ≠ 0 → 0 ≤ d.ceilTokens) ∧ (gated = true → ((charge * 65536 : Nat) : Int) ≤ d.floorTokens) := by
  unfold chargeClass at h
  extract_lets u floor at h
  split at h
  · cases h
  · rename_i hceil
    split at h
    · cases h
    · rename_i hgate
      cases h
      have hopen : d.ceiling ≠ 0 → 0 ≤ d.ceilTokens := fun hne => not_lt.mp fun hlt => hceil ⟨hne, hlt⟩
      have hfloor : floor = true → u ≤ d.floorTokens := of_decide_eq_true
      refine ⟨?_, ?_, hopen, fun hg => hfloor (by simpa [hg] using hgate)⟩
      · by_cases hf : floor = true
        · exact .inr ⟨if_pos hf, by rw [if_pos hf]; exact sub_nonneg.mpr (hfloor hf)⟩
        · exact .inl (if_neg hf)
      · by_cases hc : d.ceiling ≠ 0
        · exact .inr ⟨if_pos hc, hopen hc⟩
        · exact .inl (if_neg hc)

/-- Settles O8. -/
theorem countersAndBucketsStayInBounds : Obligations.CountersAndBucketsStayInBounds := by
  unfold Obligations.CountersAndBucketsStayInBounds
  refine ⟨fun saturate k packets bytes l hk => ?_, fun now len colour p _ => ?_, fun now charge gated c => ?_⟩
  · have hw := word_counterChange saturate k packets bytes l hk
    simp only [counterAdd_fst] at hw
    exact hw
  · obtain ⟨htc, htx⟩ := policerRefill_bounds now p
    exact ⟨htc, htx, policerColour_takes len colour (policerRefill now p)⟩
  · obtain ⟨hfloor, hceil⟩ := refillClass_bounds now c
    exact ⟨hfloor, hceil, fun e h => chargeClass_takes _ e charge gated h⟩

end Sys2Proof.Buckets
end

section
/-! PROOFS. Trim windows, bond wear, the factors of the dies and the governor. -/

namespace Sys2Proof.Ranges

open Sys2Proof Sys2Proof.Machine Sys2Proof.Laws Sys2Proof.Safety

/-! ### Trim windows (R526) -/

/-- Every number of a run counted from 0 passes. -/
theorem of_lt_takeWhile_range {p : Nat → Bool} {n i : Nat} (hi : i < ((List.range n).takeWhile p).length) :
    p i = true := by
  have hmem : ((List.range n).takeWhile p)[i] ∈ (List.range n).takeWhile p := List.getElem_mem hi
  have hval : ((List.range n).takeWhile p)[i] = i := by
    rw [(List.takeWhile_prefix p).getElem hi, List.getElem_range]
  rw [hval] at hmem
  exact List.mem_takeWhile_imp hmem

theorem takeWhile_range_le (p : Nat → Bool) (n : Nat) : ((List.range n).takeWhile p).length ≤ n :=
  le_trans (List.takeWhile_prefix p).length_le (le_of_eq List.length_range)

theorem tapWindow_range (pass : BitVec 64) (start : Nat) (hs : start < 64) :
    let w := tapWindow pass start
    w.1 ≤ start ∧ start ≤ w.2 ∧ start ≤ w.1 + 24 ∧ w.2 ≤ start + 24 ∧ w.2 < 64 ∧
      ∀ i, w.1 ≤ i → i ≤ w.2 → i ≠ start → pass.getLsbD i = true := by
  intro w
  unfold w tapWindow
  extract_lets down up
  have hdown : down ≤ 24 := takeWhile_range_le _ _
  have hup : up ≤ 24 := takeWhile_range_le _ _
  have hbelow (i : Nat) (hi : i < down) : i < start ∧ pass.getLsbD (start - 1 - i) = true := by
    simpa using of_lt_takeWhile_range hi
  have habove (i : Nat) (hi : i < up) : start + 1 + i < 64 ∧ pass.getLsbD (start + 1 + i) = true := by
    simpa using of_lt_takeWhile_range hi
  have hlast : up = 0 ∨ start + up < 64 := by
    rcases Nat.eq_zero_or_pos up with h0 | hpos
    · exact .inl h0
    · have := (habove (up - 1) (by omega)).1
      exact .inr (by omega)
  refine ⟨Nat.sub_le _ _, Nat.le_add_right _ _, by omega, by omega, by omega, fun i hlo hhi hne => ?_⟩
  rcases Nat.lt_or_gt_of_ne hne with hlt | hgt
  · have := (hbelow (start - 1 - i) (by omega)).2
    rwa [show start - 1 - (start - 1 - i) = i by omega] at this
  · have := (habove (i - start - 1) (by omega)).2
    rwa [show start + 1 + (i - start - 1) = i by omega] at this

/-! ### Bond wear (R387) -/

/-- Cycles taken out of a run of turning points add wear, and no point. -/
theorem rainflow_range (n : Nat) (st : List Int) (eq : Nat) :
    (rainflow n st eq).1.length ≤ st.length ∧ eq ≤ (rainflow n st eq).2 := by
  induction n generalizing st eq with
  | zero => exact ⟨le_refl _, le_refl _⟩
  | succ n ih =>
    unfold rainflow
    split
    · rename_i a b c rest
      dsimp only
      split
      · exact ⟨le_refl _, le_refl _⟩
      · split
        · obtain ⟨hlen, heq⟩ := ih [a, b] (eq + rangeWear (b - c).natAbs / 2)
          exact ⟨le_trans hlen (by simp), le_trans (Nat.le_add_right _ _) heq⟩
        · obtain ⟨hlen, heq⟩ := ih (a :: rest) (eq + rangeWear (b - c).natAbs)
          exact ⟨le_trans hlen (by simp), le_trans (Nat.le_add_right _ _) heq⟩
    · exact ⟨le_refl _, le_refl _⟩

theorem pushTurning_range (z : Int) (x : Bond) (h : x.residual.length ≤ 64) :
    x.eq ≤ (pushTurning z x).eq ∧ (pushTurning z x).residual.length ≤ 64 := by
  unfold pushTurning
  extract_lets r st
  obtain ⟨hlen, heq⟩ : r.1.length ≤ _ ∧ x.eq ≤ r.2 := rainflow_range 64 (z :: x.residual.reverse) x.eq
  have hst : st.length ≤ 65 := by
    rw [List.length_reverse]
    simp only [List.length_cons, List.length_reverse] at hlen
    omega
  clear_value st
  match st with
  | [] => exact ⟨heq, Nat.zero_le _⟩
  | [_] => exact ⟨heq, by simp⟩
  | a :: b :: rest =>
    dsimp only
    split
    · simp only [List.length_cons] at hst ⊢
      exact ⟨le_trans heq (Nat.le_add_right _ _), by omega⟩
    · rename_i hfits
      exact ⟨heq, not_lt.mp hfits⟩

theorem sampleBond_range (z : Int) (x : Bond) (h : x.residual.length ≤ 64) :
    x.eq ≤ (sampleBond z x).eq ∧ (sampleBond z x).residual.length ≤ 64 := by
  unfold sampleBond
  split
  · exact pushTurning_range z x h
  · split
    · split
      · exact ⟨le_refl _, h⟩
      · exact ⟨le_refl _, h⟩
    · extract_lets y
      split
      · exact ⟨le_refl _, h⟩
      · split
        · exact pushTurning_range _ y h
        · exact ⟨le_refl _, h⟩

/-! ### Factors and the governor (R397, R400) -/

theorem dieFactor_range (k : Fin 17) (v w : Int) :
    40 ≤ dieFactor k v ∧ dieFactor k v ≤ 100 ∧ (v ≤ w → dieFactor k w ≤ dieFactor k v) := by
  simp only [dieFactor]
  generalize (if k.val = 0 then (800 : Int) else 680) = threshold
  refine ⟨?_, ?_, fun h => ?_⟩ <;> omega

/-- The share of `g` that the cap leaves is no more than `g`. -/
theorem governor_share_le {cap p fix : Int} {g : Nat} (hcap : cap - 5 < p) (hfix : fix < p) :
    ((g : Int) * (cap - 5 - fix) / (p - fix)).toNat ≤ g := by
  have hpos : 0 < p - fix := by omega
  have hle : (g : Int) * (cap - 5 - fix) / (p - fix) ≤ g := by
    rw [Int.ediv_le_iff_le_mul hpos]
    nlinarith
  omega

theorem governorStep_range (cap p fix : Int) (g calm : Nat) (hlo : 10 ≤ g) (hhi : g ≤ 100) :
    10 ≤ (governorStep cap p fix g calm).1 ∧ (governorStep cap p fix g calm).1 ≤ 100 ∧
      (cap < fix → (governorStep cap p fix g calm).1 = 10) ∧ (cap - 20 ≤ p → (governorStep cap p fix g calm).1 ≤ g) := by
  unfold governorStep
  split
  · omega
  · split
    · rename_i hover
      split
      · dsimp only
        omega
      · rename_i hfix
        have hshare := governor_share_le (g := g) hover (not_le.mp hfix)
        dsimp only
        omega
    · split
      · split <;> dsimp only <;> omega
      · dsimp only
        omega

/-- Settles O33. -/
theorem trimsBondsAndFactorsStayInRange : Obligations.TrimsBondsAndFactorsStayInRange := by
  unfold Obligations.TrimsBondsAndFactorsStayInRange
  exact ⟨tapWindow_range, sampleBond_range, dieFactor_range, governorStep_range⟩

end Sys2Proof.Ranges
end

section
/-! PROOFS. What requests that store nothing and the pins leave alone. -/

namespace Sys2Proof.Queries

open Sys2Proof Sys2Proof.Machine Sys2Proof.Laws Sys2Proof.Safety

/-- What a state stores: the layers, the Kennel, the descriptors, the queues, the fuses and the keys. -/
def stores (s : State) : Memory × List KennelLine × Vector Partition 64 × Vector Table 16 × Sparse Queue × FuseArray ×
    Vector KeySlot 64 :=
  (s.dram, s.kennel, s.partitions, s.tables, s.queues, s.fuses, s.keys)

/-- `t` stores what `s` stores. -/
def Leaves (s t : State) : Prop := stores t = stores s

/-- The next state of an outcome, where it has one, stores what `s` stores. -/
def LeavesNext (s : State) (o : Out) : Prop := ∀ t, o = .next t → Leaves s t

theorem Leaves.refl (s : State) : Leaves s s := rfl

/-- Everything else may differ. -/
theorem Leaves.update {r s : State} (h : Leaves r s) {drawn presented : Nat} {ports : Vector Port 4}
    {quarters : Vector Quarter 4} {channels : Vector Channel 32} {log : LogState} {sideband : Sideband} :
    Leaves r { s with
      drawn := drawn, presented := presented, ports := ports, quarters := quarters, channels := channels, log := log
      sideband := sideband } := h

theorem leaves_events {r s t : State} (he : Events s t) (h : Leaves r s) : Leaves r t := by
  obtain ⟨_, _, _, rfl⟩ := he
  exact h.update

theorem leaves_ite {r s t : State} {c : Prop} [Decidable c] (hs : Leaves r s) (ht : Leaves r t) :
    Leaves r (if c then s else t) := by
  split
  · exact hs
  · exact ht

theorem leaves_ite_snd {α : Type} {r : State} {x y : α × State} {c : Prop} [Decidable c] (hx : Leaves r x.2)
    (hy : Leaves r y.2) : Leaves r (if c then x else y).2 := by
  split
  · exact hx
  · exact hy

theorem leaves_foldl {α : Type} {f : State → α → State} {r s : State} (hf : ∀ s a, Leaves r s → Leaves r (f s a))
    {l : List α} (h : Leaves r s) : Leaves r (l.foldl f s) := by
  induction l generalizing s with
  | nil => exact h
  | cons a l ih => exact ih (hf s a h)

theorem leavesNext_next {s t : State} (h : Leaves s t) : LeavesNext s (.next t) := fun _ e => by
  cases e
  exact h

/-! ### Requests at their port -/

theorem noteTrigger_leaves (c : Fin 32) {r s : State} (h : Leaves r s) : Leaves r (noteTrigger c s) :=
  leaves_ite h.update h

theorem noteTriggers_leaves {r s : State} (h : Leaves r s) : Leaves r (noteTriggers s) :=
  leaves_foldl (fun _ c h => noteTrigger_leaves c h) h

theorem watchGates_leaves {r s : State} (h : Leaves r s) : Leaves r (watchGates s) :=
  leaves_foldl (fun _ _ h => h.update) h

theorem countPromoted_leaves (c : Fin 32) {r s : State} (h : Leaves r s) : Leaves r (countPromoted c s) := h.update

theorem setRequests_leaves (c : Fin 32) (q : List QueuedReq) {r s : State} (h : Leaves r s) :
    Leaves r (setRequests c q s) := watchGates_leaves (noteTrigger_leaves c h).update

theorem panicCheck_leaves (p : Fin 4) {r s : State} (h : Leaves r s) : Leaves r (panicCheck p s) := by
  unfold panicCheck
  exact leaves_ite (leaves_events (raiseLimited_events _ _ _ _ _) h.update)
    (leaves_ite (leaves_events (raiseLimited_events _ _ _ _ _) (noteTriggers_leaves h).update) h)

section
variable {perform : Perform} {r : State} (hperform : ∀ j q u, Leaves r u → Leaves r (perform j q u))
include hperform

theorem present_leaves (q : QueuedReq) {s : State} (h : Leaves r s) : Leaves r (present perform q s) := by
  unfold present
  split
  · exact setRequests_leaves _ _ (countPromoted_leaves _ h)
  · exact setRequests_leaves _ _ h
  · exact hperform _ _ _ (countPromoted_leaves _ h)
  · exact hperform _ _ _ h

theorem toHub_leaves (j : Job) (q : Req) {s : State} (h : Leaves r s) : Leaves r (toHub perform j q s) :=
  present_leaves hperform _ h.update

theorem evaluate_leaves (p : Fin 4) (e : Held) {s : State} (h : Leaves r s) : Leaves r (evaluate perform p e s) := by
  have hfree {u : State} (hu : Leaves r u) : Leaves r (freeSlots p (requestSlots e.opcode e.req) u) :=
    leaves_events (freeSlots_events _ _ _) hu
  unfold evaluate
  dsimp only
  split
  · exact leaves_events (holdRequest_events _ _ _) h
  · split
    · exact leaves_events (completeWith_events _ _ _) (hfree h)
    · split
      · exact hperform _ _ _ (hfree h)
      · split
        · exact toHub_leaves hperform _ _ (hfree (leaves_events (modClass_events _ _ _ _) h))
        · exact leaves_events (holdRequest_events _ _ _) h

theorem ingress_leaves (p : Fin 4) (op : BitVec 6) (q : Req) {s : State} (h : Leaves r s) :
    Leaves r (ingress perform p op q s) := by
  have hfree : Leaves r (freeSlots p (requestSlots op q) s) := leaves_events (freeSlots_events _ _ _) h
  unfold ingress
  dsimp only
  split
  · exact leaves_ite hfree (leaves_events (raise_events _ _ _ _ _) hfree)
  · split
    · exact leaves_events (handOver_events _ _ _) (leaves_events (raiseLimited_events _ _ _ _ _)
        (leaves_events (modPort_events _ _ _) hfree))
    · exact panicCheck_leaves _ (evaluate_leaves hperform _ _ (leaves_events (modPort_events _ _ _) h))

theorem receive_leaves (p : Fin 4) (op : BitVec 6) (q : Req) {s : State} (h : Leaves r s) :
    Leaves r (receive perform p op q s) :=
  leaves_ite h (ingress_leaves hperform _ _ _ (leaves_events (modLink_events _ _ _) h))

end

theorem performNop_leaves (j : Job) (q : Req) {r s : State} (h : Leaves r s) : Leaves r (performNop j q s) :=
  leaves_ite (leaves_events (modPort_events _ _ _) h) (leaves_events (completeWith_events _ _ _) h)

theorem performQueueQuery_leaves (j : Job) (q : Req) {r s : State} (h : Leaves r s) :
    Leaves r (performQueueQuery j q s) :=
  leaves_ite (leaves_events (completeAs_events _ _ _ _ _ _ _) h) (leaves_events (complete_events _ _ _ _ _) h)

theorem performStatusRead_leaves (j : Job) (q : Req) {r s : State} (h : Leaves r s) :
    Leaves r (performStatusRead j q s) := leaves_events (complete_events _ _ _ _ _) h

theorem fenceDone_leaves (p : Fin 4) (tag : BitVec 14) {r s : State} (h : Leaves r s) : Leaves r (fenceDone p tag s) := by
  unfold fenceDone
  split
  · exact leaves_events (completeWith_events _ _ _) (leaves_events (modPort_events _ _ _) h)
  · exact h

/-! ### Pins -/

theorem sbAnswer_leaves (bs : List Byte) {r s : State} (h : Leaves r s) : Leaves r (sbAnswer bs s) := h.update

theorem sbNack_leaves {r s : State} (h : Leaves r s) : Leaves r (sbNack s) := h.update

theorem modSideband_leaves (f : Sideband → Sideband) {r s : State} (h : Leaves r s) : Leaves r (modSideband f s) := h.update

theorem drawOne_leaves {r s : State} (h : Leaves r s) : Leaves r (drawOne s) := h.update

theorem assignAddress_leaves (a : BitVec 7) {r s : State} (h : Leaves r s) : Leaves r (assignAddress a s) := h.update

theorem enableIbi_leaves {r s : State} (h : Leaves r s) : Leaves r (enableIbi s) := leaves_ite h.update h.update

theorem pinCommand_leaves {f : State → State} {s : State} (h : Leaves s (f s)) : LeavesNext s (pinCommand f s) := by
  unfold pinCommand
  split
  · exact fun _ e => nomatch e
  · exact leavesNext_next h

theorem cccCommand_leaves {f : State → State} {s : State} (h : Leaves s (f s)) : LeavesNext s (cccCommand f s) :=
  pinCommand_leaves (leaves_ite (sbNack_leaves (Leaves.refl s)) h)

/-- A command code that only I3C mode knows. -/
theorem i3cCommand_leaves {f : State → State} {s : State} (h : Leaves s (f s)) :
    LeavesNext s (cccCommand (inI3c f) s) :=
  cccCommand_leaves (leaves_ite h (sbNack_leaves (Leaves.refl s)))

/-- A command code that answers bytes in I3C mode. -/
theorem i3cAnswer_leaves (bs : State → List Byte) (s : State) :
    LeavesNext s (cccCommand (inI3c fun s => sbAnswer (bs s) s) s) :=
  i3cCommand_leaves (sbAnswer_leaves _ (Leaves.refl s))

theorem tapCommand_leaves {code : BitVec 8} {f : State → BitVec 48 × State} {s : State}
    (h : ∀ u, Leaves s u → Leaves s (f u).2) : LeavesNext s (tapCommand code f s) :=
  pinCommand_leaves (leaves_ite (Leaves.refl s)
    (modSideband_leaves _ (h _ (modSideband_leaves (fun b => { b with ir := code }) (Leaves.refl s)))))

/-- A TAP instruction that only shows a value. -/
theorem tapShow_leaves (code : BitVec 8) (out : State → BitVec 48) (s : State) :
    LeavesNext s (tapCommand code (fun u => (out u, u)) s) := tapCommand_leaves fun _ h => h

theorem execEntdaa_leaves (a : BitVec 7) (s : State) : LeavesNext s (execEntdaa a s) :=
  cccCommand_leaves (leaves_ite (sbNack_leaves (Leaves.refl s)) (assignAddress_leaves a (Leaves.refl s)))

theorem execSetdasa_leaves (n a : BitVec 7) (s : State) : LeavesNext s (execSetdasa n a s) :=
  cccCommand_leaves (leaves_ite (sbNack_leaves (Leaves.refl s)) (assignAddress_leaves a (Leaves.refl s)))

theorem execSetnewda_leaves (a : BitVec 7) (s : State) : LeavesNext s (execSetnewda a s) :=
  cccCommand_leaves (leaves_ite (sbNack_leaves (Leaves.refl s)) (assignAddress_leaves a (Leaves.refl s)))

theorem execRstdaa_leaves (s : State) : LeavesNext s (execRstdaa s) :=
  cccCommand_leaves (sbAnswer_leaves _ (modSideband_leaves _ (Leaves.refl s)))

theorem execEnec_leaves (x : BitVec 8) (s : State) : LeavesNext s (execEnec x s) :=
  i3cCommand_leaves (sbAnswer_leaves _ (leaves_ite (enableIbi_leaves (Leaves.refl s)) (Leaves.refl s)))

theorem execDisec_leaves (x : BitVec 8) (s : State) : LeavesNext s (execDisec x s) :=
  i3cCommand_leaves (sbAnswer_leaves _ (leaves_ite (modSideband_leaves _ (Leaves.refl s)) (Leaves.refl s)))

theorem execGetstatus_leaves (s : State) : LeavesNext s (execGetstatus s) :=
  i3cCommand_leaves (drawOne_leaves (sbAnswer_leaves _ (Leaves.refl s)))

theorem execSetmwl_leaves (w : BitVec 16) (s : State) : LeavesNext s (execSetmwl w s) :=
  i3cCommand_leaves (leaves_ite (sbAnswer_leaves _ (modSideband_leaves _ (Leaves.refl s))) (sbNack_leaves (Leaves.refl s)))

theorem execSetmrl_leaves (w : BitVec 16) (s : State) : LeavesNext s (execSetmrl w s) :=
  i3cCommand_leaves (leaves_ite (sbAnswer_leaves _ (modSideband_leaves _ (Leaves.refl s))) (sbNack_leaves (Leaves.refl s)))

theorem execBypass_leaves (b : Bool) (s : State) : LeavesNext s (execBypass b s) :=
  tapShow_leaves 0xFF (fun _ => bypassBit b) s

theorem execIdcode_leaves (s : State) : LeavesNext s (execIdcode s) :=
  tapShow_leaves 0x01 (fun s => BitVec.ofNat 48 (idcodeWord s)) s

theorem execClamp_leaves (b : Bool) (s : State) : LeavesNext s (execClamp b s) :=
  tapShow_leaves 0x04 (fun _ => bypassBit b) s

theorem execHighz_leaves (b : Bool) (s : State) : LeavesNext s (execHighz b s) :=
  tapShow_leaves 0x05 (fun _ => bypassBit b) s

theorem execSamplePreload_leaves (cells : BitVec 12) (s : State) : LeavesNext s (execSamplePreload cells s) :=
  tapCommand_leaves fun _ h => drawOne_leaves (modSideband_leaves _ h)

theorem execExtest_leaves (cells : BitVec 12) (s : State) : LeavesNext s (execExtest cells s) :=
  tapCommand_leaves fun _ h => leaves_ite_snd (drawOne_leaves (modSideband_leaves _ h)) h

theorem execWspSelect_leaves (b : Bool) (s : State) : LeavesNext s (execWspSelect b s) := by
  refine tapCommand_leaves fun u h => ?_
  split
  · exact h
  · exact leaves_ite_snd (drawOne_leaves h) h

theorem execDieSelect_leaves (b : Bool) (s : State) : LeavesNext s (execDieSelect b s) := by
  refine tapCommand_leaves fun u h => ?_
  split
  · exact leaves_ite_snd (drawOne_leaves h) h
  · exact h

theorem execTrstL_leaves (b : Bool) (s : State) : LeavesNext s (execTrstL b s) :=
  pinCommand_leaves (modSideband_leaves _ (Leaves.refl s))

/-- The commands of the statement, each by its own row. -/
theorem exec_leaves (p : Fin 4) (r : Req) (a n : BitVec 7) (x : BitVec 8) (w : BitVec 16) (cells : BitVec 12) (b : Bool)
    (s : State) :
    ∀ c ∈ [Instr.nop p r, .queueQuery p r, .statusRead p r, .fenceComplete p r.hdr.tag, .entdaa a, .setdasa n a,
      .setnewda a, .rstdaa, .enec x, .disec x, .getpid, .getbcr, .getdcr, .getstatus, .getmwl, .getmrl, .setmwl w,
      .setmrl w, .bypass b, .idcode, .samplePreload cells, .extest cells, .clamp b, .highz b, .wspSelect b, .dieSelect b,
      .trstL b], LeavesNext s (exec c s) := by
  simp only [List.forall_mem_cons, List.not_mem_nil, false_implies, implies_true, and_true]
  exact ⟨leavesNext_next (receive_leaves (fun j q _ h => performNop_leaves j q h) _ _ _ (Leaves.refl s)),
    leavesNext_next (receive_leaves (fun j q _ h => performQueueQuery_leaves j q h) _ _ _ (Leaves.refl s)),
    leavesNext_next (receive_leaves (fun j q _ h => performStatusRead_leaves j q h) _ _ _ (Leaves.refl s)),
    leavesNext_next (fenceDone_leaves _ _ (Leaves.refl s)), execEntdaa_leaves a s, execSetdasa_leaves n a s,
    execSetnewda_leaves a s, execRstdaa_leaves s, execEnec_leaves x s, execDisec_leaves x s, i3cAnswer_leaves _ s,
    i3cAnswer_leaves _ s, i3cAnswer_leaves _ s, execGetstatus_leaves s, i3cAnswer_leaves _ s, i3cAnswer_leaves _ s,
    execSetmwl_leaves w s, execSetmrl_leaves w s, execBypass_leaves b s, execIdcode_leaves s,
    execSamplePreload_leaves cells s, execExtest_leaves cells s, execClamp_leaves b s, execHighz_leaves b s,
    execWspSelect_leaves b s, execDieSelect_leaves b s, execTrstL_leaves b s⟩

/-- Settles O57. -/
theorem queriesLeaveMemory : Obligations.QueriesLeaveMemory := by
  unfold Obligations.QueriesLeaveMemory
  intro p r a n x w cells b s t c hc e
  have h : stores t = stores s := exec_leaves p r a n x w cells b s c hc t e
  simp only [stores, Prod.mk.injEq] at h
  obtain ⟨hdram, hkennel, hpartitions, htables, hqueues, hfuses, hkeys⟩ := h
  exact ⟨fun i => by rw [hdram], hkennel, hpartitions, htables, hqueues, hfuses, hkeys⟩

end Sys2Proof.Queries
end

section
/-! PROOFS. What an event leaves of the ports: everything but the records that wait there. -/

namespace Sys2Proof.PortRecords

open Sys2Proof Sys2Proof.Machine Sys2Proof.Laws Sys2Proof.Transactions Sys2Proof.EventRecords

/-- `y` is `x` but for its records. -/
def Noted (x y : Port) : Prop := ∃ records dropped, y = { x with records := records, recordsDropped := dropped }

/-- Every port of `t` is that of `s` but for its records. -/
def PortsNoted (s t : State) : Prop := ∀ q : Fin 4, Noted s.ports[q] t.ports[q]

theorem Noted.refl (x : Port) : Noted x x := ⟨x.records, x.recordsDropped, rfl⟩

theorem Noted.trans {x y z : Port} : Noted x y → Noted y z → Noted x z := by
  rintro ⟨_, _, rfl⟩ ⟨rs, d, rfl⟩
  exact ⟨rs, d, rfl⟩

/-- What does not look at the records is the same. -/
theorem Noted.congr {α : Type} {x y : Port} (h : Noted x y) (g : Port → α)
    (hg : ∀ (z : Port) (rs : List EventRec) (d : Nat), g { z with records := rs, recordsDropped := d } = g z) :
    g y = g x := by
  obtain ⟨rs, d, rfl⟩ := h
  exact hg x rs d

theorem PortsNoted.of_ports {s t : State} (h : t.ports = s.ports) : PortsNoted s t := fun q => by
  rw [h]
  exact Noted.refl _

theorem PortsNoted.refl (s : State) : PortsNoted s s := .of_ports rfl

theorem PortsNoted.trans {s t u : State} (h : PortsNoted s t) (h' : PortsNoted t u) : PortsNoted s u :=
  fun q => (h q).trans (h' q)

theorem PortsNoted.of_eq {s t u : State} (h : PortsNoted s t) (hs : s.ports = u.ports) : PortsNoted u t :=
  (PortsNoted.of_ports hs).trans h

theorem portsNoted_foldl {α : Type} (f : State → α → State) (h : ∀ s a, PortsNoted s (f s a)) (l : List α) (s : State) :
    PortsNoted s (l.foldl f s) := by
  induction l generalizing s with
  | nil => exact .refl s
  | cons a l ih => exact (h s a).trans (ih _)

theorem queuePortRecord_noted (r : EventRec) (x : Port) : Noted x (queuePortRecord r x) := by
  unfold queuePortRecord
  extract_lets q
  split
  · split
    · exact ⟨q, x.recordsDropped, rfl⟩
    · exact ⟨q.drop 1, x.recordsDropped + 1, rfl⟩
  · exact .refl x

theorem deliverRecord_noted (r : EventRec) (s : State) : PortsNoted s (deliverRecord r s) := fun q => by
  rw [deliverRecord_port]
  exact queuePortRecord_noted r _

theorem modLog_noted (f : LogState → LogState) (s : State) : PortsNoted s (modLog f s) := .of_ports rfl

theorem rollSecond_noted (s : State) : PortsNoted s (rollSecond s) := by
  unfold rollSecond
  split
  · exact .refl s
  · exact (modLog_noted _ s).trans
      (portsNoted_foldl _ (fun s _ => portsNoted_foldl _ (fun s r => deliverRecord_noted r s) _ s) _ _)

theorem admitRecord_noted (r : EventRec) (s : State) : PortsNoted s (admitRecord r s) := by
  unfold admitRecord
  split
  · exact deliverRecord_noted r s
  · split
    · exact (modLog_noted _ s).trans (deliverRecord_noted r _)
    · exact modLog_noted _ s

theorem raiseAs_noted (code level severity kind num : Nat) (items : List (Nat × Nat)) (s : State) :
    PortsNoted s (raiseAs code level severity kind num items s) :=
  (rollSecond_noted s).trans (portsNoted_foldl _ (fun s r => admitRecord_noted r s) _ _)

theorem raise_noted (code kind num : Nat) (items : List (Nat × Nat)) (s : State) :
    PortsNoted s (raise code kind num items s) := raiseAs_noted _ _ _ _ _ _ s

theorem raiseLimitedFor_noted (key : Nat × Nat × Nat) (code kind num : Nat) (items : Nat → List (Nat × Nat))
    (s : State) : PortsNoted s (raiseLimitedFor key code kind num items s) := by
  unfold raiseLimitedFor
  dsimp only
  split
  · exact (modLog_noted _ s).trans (raise_noted _ _ _ _ _)
  · exact modLog_noted _ s

theorem raiseLimited_noted (code kind num : Nat) (items : Nat → List (Nat × Nat)) (s : State) :
    PortsNoted s (raiseLimited code kind num items s) := raiseLimitedFor_noted _ _ _ _ _ s

/-! ### What an event leaves elsewhere -/

/-- An event leaves every part of the state but the ports, the log and the sideband. -/
theorem raise_eq (code kind num : Nat) (items : List (Nat × Nat)) (s : State) :
    ∃ ports log sideband, raise code kind num items s = { s with ports := ports, log := log, sideband := sideband } :=
  raise_events code kind num items s

section
variable (code kind num : Nat) (items : List (Nat × Nat)) (s : State) (q : Fin 4)

@[simp] theorem raise_phy : (raise code kind num items s).ports[q].phy = s.ports[q].phy :=
  (raise_noted code kind num items s q).congr (·.phy) fun _ _ _ => rfl

@[simp] theorem raise_lanes : (raise code kind num items s).ports[q].lanes = s.ports[q].lanes :=
  (raise_noted code kind num items s q).congr (·.lanes) fun _ _ _ => rfl

@[simp] theorem raise_link : (raise code kind num items s).ports[q].link = s.ports[q].link :=
  (raise_noted code kind num items s q).congr (·.link) fun _ _ _ => rfl

@[simp] theorem raise_partnerState : (raise code kind num items s).ports[q].partnerState = s.ports[q].partnerState :=
  (raise_noted code kind num items s q).congr (·.partnerState) fun _ _ _ => rfl

@[simp] theorem raise_partner : (raise code kind num items s).ports[q].partner = s.ports[q].partner :=
  (raise_noted code kind num items s q).congr (·.partner) fun _ _ _ => rfl

end

section
variable (code kind num : Nat) (items : List (Nat × Nat)) (s : State)

@[simp] theorem raise_dram : (raise code kind num items s).dram = s.dram := by
  obtain ⟨_, _, _, h⟩ := raise_eq code kind num items s
  rw [h]

@[simp] theorem raise_hubTimer : (raise code kind num items s).hubTimer = s.hubTimer := by
  obtain ⟨_, _, _, h⟩ := raise_eq code kind num items s
  rw [h]

@[simp] theorem raise_channels : (raise code kind num items s).channels = s.channels := by
  obtain ⟨_, _, _, h⟩ := raise_eq code kind num items s
  rw [h]

@[simp] theorem raise_partitions : (raise code kind num items s).partitions = s.partitions := by
  obtain ⟨_, _, _, h⟩ := raise_eq code kind num items s
  rw [h]

@[simp] theorem raise_device : (raise code kind num items s).device = s.device := by
  obtain ⟨_, _, _, h⟩ := raise_eq code kind num items s
  rw [h]

end

end Sys2Proof.PortRecords
end

section
/-! PROOFS. Requests that a check refuses, and the requests on memory. -/

namespace Sys2Proof.Requests

open Sys2Proof Sys2Proof.Machine Sys2Proof.Laws Sys2Proof.Transactions Sys2Proof.PortRecords Sys2Proof.Safety

/-! ### Refused requests (R33, R43, R51) -/

theorem exec_of_fails {p : Fin 4} {op : BitVec 6} {r : Req} {st : QStatus} {s : State} {i : Instr} {perform : Perform}
    (ha : arrives p r s = true) (e : exec i s = .next (receive perform p op r s))
    (h : unquiesced p op r s = true ∧ checkRequest (entered p op r s) p op r = some st) :
    exec i s = .next (refused p op r st s) := by
  rw [e, receive_of_fails perform p op r st s ha h.1 h.2]

/-- An opcode that the table of R32 does not define has no form. -/
theorem checkRequest_of_undefined (s : State) (p : Fin 4) {op : BitVec 6} (r : Req) (h : definedOps.contains op = false) :
    checkRequest s p op r = some .unsupported := by
  have hform : checkForm s op r = false := by
    simp only [checkForm, h, Bool.false_and]
  simp [checkRequest, hform]

/-- A tag that is outstanding: the duplicate completes, counted, and nothing else of the port's tags changes. -/
theorem receive_of_duplicate_counts (perform : Perform) (p : Fin 4) (op : BitVec 6) (r : Req) (s : State)
    (h : portServes s p = true) (hd : tagOutstanding s.ports[p] r.hdr.tag = true) :
    ∃ u, receive perform p op r s = handOver p
        { opcode := op, tag := r.hdr.tag, status := .unsupported, last := true, dupTag := true, kennel := false,
          late := false, result := 0, data := [] } u ∧
      u.ports[p].outstanding = s.ports[p].outstanding ∧ u.ports[p].dupTags = s.ports[p].dupTags + 1 ∧ u.dram = s.dram := by
  simp only [receive, ingress, portLive_of_portServes p s h, portServes_modLink, h, tagOutstanding_modLink, hd,
    Bool.not_true, Bool.false_eq_true, if_false, if_true]
  refine ⟨_, rfl, ?_⟩
  set v := modPort p (fun x => { x with dupTags := x.dupTags + 1 })
    (freeSlots p (requestSlots op r) (modLink p (fun l => { l with slotsTaken := l.slotsTaken + requestSlots op r }) s))
    with hv
  have hn := raiseLimited_noted 0x103B 1 p (fun n => [itCount n]) v p
  obtain ⟨_, _, _, he⟩ := raiseLimited_events 0x103B 1 p (fun n => [itCount n]) v
  refine ⟨?_, ?_, ?_⟩
  · rw [hn.congr (·.outstanding) fun _ _ _ => rfl]
    simp only [hv, freeSlots, modLink, modPort_self]
  · rw [hn.congr (·.dupTags) fun _ _ _ => rfl]
    simp only [hv, freeSlots, modLink, modPort_self]
  · rw [he]
    rfl

/-- Settles O1. -/
theorem requestsRefusedAtTheirPort : Obligations.RequestsRefusedAtTheirPort := by
  unfold Obligations.RequestsRefusedAtTheirPort
  refine ⟨fun p r st s ha => ?_, fun p op r s ha hop hq => ?_, ?_⟩
  · exact ⟨exec_of_fails ha rfl, exec_of_fails ha rfl, exec_of_fails ha rfl, exec_of_fails ha rfl, exec_of_fails ha rfl,
      exec_of_fails ha rfl, exec_of_fails ha rfl, exec_of_fails ha rfl, exec_of_fails ha rfl, exec_of_fails ha rfl,
      exec_of_fails ha rfl, exec_of_fails ha rfl, exec_of_fails ha rfl, exec_of_fails ha rfl, exec_of_fails ha rfl,
      exec_of_fails ha rfl, exec_of_fails ha rfl, exec_of_fails ha rfl, exec_of_fails ha rfl, exec_of_fails ha rfl,
      exec_of_fails ha rfl, exec_of_fails ha rfl⟩
  · exact exec_of_fails ha rfl ⟨hq, checkRequest_of_undefined _ p r hop⟩
  · exact fun p op perform r s h hd => receive_of_duplicate_counts perform p op r s h hd

/-! ### Requests performed -/

/-- A request that passes leaves what its performance leaves on the admitted state. -/
theorem exec_of_passes {p : Fin 4} {op : BitVec 6} {r : Req} {c : PortClass} {s t : State} {i : Instr}
    {perform : Perform} (e : exec i s = .next (receive perform p op r s)) (h : passes p op r c s = true)
    (ht : perform (admittedJob p op r s) r (admitted p op r c s) = t) : exec i s = .next (panicCheck p t) := by
  rw [e, receive_of_passes perform p op r c s h, performed, ht]

/-! ### READ, WRITE and WRITE_MASK (R32, R59) -/

theorem performRead_of_ok (j : Job) (r : Req) (s : State) :
    let res := readLines (.port j.port) (some (ownerOf j)) (pdOf r.hdr) (linesTouched opRead r.hdr)
      { data := [], failed := none, kennel := true } s
    res.1.failed = none → performRead j r s = completeAs j .ok false res.1.kennel 0 res.1.data
      (if res.1.uncached then countKennelMiss res.2 (pdOf r.hdr) (some (ownerOf j)) else res.2) := by
  intro res h
  simp only [performRead, res] at h ⊢
  rw [h]

theorem performRead_of_failed (j : Job) (r : Req) (s : State) (st : QStatus) (iso : Bool) :
    let res := readLines (.port j.port) (some (ownerOf j)) (pdOf r.hdr) (linesTouched opRead r.hdr)
      { data := [], failed := none, kennel := true } s
    res.1.failed = some (st, iso) → performRead j r s = completeAs j st iso false 0 []
      (if res.1.uncached then countKennelMiss res.2 (pdOf r.hdr) (some (ownerOf j)) else res.2) := by
  intro res h
  simp only [performRead, res] at h ⊢
  rw [h]

theorem performWrite_of_written (j : Job) (r : Req) (s t : State) (n : Nat)
    (h : writeLines j (pdOf r.hdr)
      ((linesTouched opWrite r.hdr).mapIdx fun k i => (i, lineOf (bytesAt r.payload (64 * k) 64))) 0 none s = (n, none, t)) :
    performWrite j r s = if n = 0 then completeWith j .ok t else
      modPort j.port (fun x => { x with
        openWrites := x.openWrites ++ [{ job := j, remaining := n, status := .ok, isolated := false }] }) t := by
  simp only [performWrite, h, writeOutcome]
  by_cases hn : n = 0 <;> simp [hn]

theorem performWriteMask_of_merged (j : Job) (r : Req) (s t : State) (old : Line)
    (hmask : natAt r.payload 0 8 ≠ 2 ^ 64 - 1)
    (h : updateLine (.port j.port) (pdOf r.hdr) (r.hdr.address.toNat / 64)
      (halfRead (.port j.port) (pdOf r.hdr) (r.hdr.address.toNat / 64))
      (mergeMask (natAt r.payload 0 8) (lineOf (bytesAt r.payload 16 64))) s = (.data old, t)) :
    performWriteMask j r s = completeWith j .ok (match kennelHit t (pdOf r.hdr) (r.hdr.address.toNat / 64) with
      | some k => kennelUpdate k (mergeMask (natAt r.payload 0 8) (lineOf (bytesAt r.payload 16 64)) old) false t
      | none => kennelDrop (pdOf r.hdr) (r.hdr.address.toNat / 64) t) := by
  simp only [performWriteMask, if_neg hmask, h] <;> rfl

/-- Settles O3. -/
theorem readsAndWritesComplete : Obligations.ReadsAndWritesComplete := by
  unfold Obligations.ReadsAndWritesComplete
  refine fun p r c s => ⟨fun h => ⟨fun hok => ?_, fun st iso hf => ?_⟩, fun h => ?_, fun h hmask => ?_⟩
  · exact exec_of_passes rfl h (performRead_of_ok (admittedJob p opRead r s) r (admitted p opRead r c s) hok)
  · exact exec_of_passes rfl h (performRead_of_failed (admittedJob p opRead r s) r (admitted p opRead r c s) st iso hf)
  · intro j is ls n t hw
    rw [exec_of_passes rfl h (performWrite_of_written j r (admitted p opWrite r c s) t n hw)]
    split <;> rfl
  · intro j pd i merge old t hu
    exact exec_of_passes rfl h (performWriteMask_of_merged j r (admitted p opWriteMask r c s) t old hmask hu)

/-! ### Whole rows (R189, R190) -/

theorem find?_eq_none_of_any {α : Type} {f : α → Bool} {l : List α} (h : l.any f = false) : l.find? f = none := by
  rw [List.find?_eq_none]
  exact fun x hx => by simpa using List.any_eq_false.mp h x hx

theorem performSkeinCopy_of_blocks (j : Job) (r : Req) (s t : State) (bad : Option Nat)
    (hlost : ((blockList (auxF r.hdr 35 0) (auxF r.hdr 47 36 + 1) ++
      blockList r.hdr.address.toNat (auxF r.hdr 47 36 + 1)).any fun b => blockLost s (pdOf r.hdr) b) = false)
    (h : copyBlocksLoop (.port j.port) (pdOf r.hdr) ((blockList (auxF r.hdr 35 0) (auxF r.hdr 47 36 + 1)).zip
      (blockList r.hdr.address.toNat (auxF r.hdr 47 36 + 1))) none s = (bad, t)) :
    performSkeinCopy j r s = match bad with
      | some a => completeWith j .dataError (raise 0x3014 12 0 [itAddress a] t)
      | none => completeWith j .ok t := by
  simp only [performSkeinCopy, find?_eq_none_of_any hlost, h]
  cases bad <;> rfl

theorem performRowFill_of_blocks (j : Job) (r : Req) (s : State)
    (hlost : ((blockList r.hdr.address.toNat (auxF r.hdr 11 0 + 1)).any fun b => blockLost s (pdOf r.hdr) b) = false) :
    let pat := bytesAt r.payload 0 16
    performRowFill j r s = completeWith j .ok ((blockList r.hdr.address.toNat (auxF r.hdr 11 0 + 1)).foldl (fun s b =>
      countCopied (blockWrite (pdOf r.hdr) b (List.replicate 32 (some (lineOf (pat ++ pat ++ pat ++ pat)))) s)) s) := by
  simp only [performRowFill, find?_eq_none_of_any hlost]

/-- Settles O5. -/
theorem rowBlocksCopiedAndFilled : Obligations.RowBlocksCopiedAndFilled := by
  unfold Obligations.RowBlocksCopiedAndFilled
  refine fun p r c s => ⟨fun h => ?_, fun h => ?_⟩
  · intro u j n srcs dsts hlost
    exact ⟨fun t hc => exec_of_passes rfl h (performSkeinCopy_of_blocks j r u t none hlost hc),
      fun a t hc => exec_of_passes rfl h (performSkeinCopy_of_blocks j r u t (some a) hlost hc)⟩
  · intro u pat dsts hlost
    exact exec_of_passes rfl h (performRowFill_of_blocks (admittedJob p opRowFill r s) r u hlost)

/-! ### Counters (R255 to R266) -/

theorem performCtrUpdate_of_done (j : Job) (r : Req) (s t : State) (d : List Byte)
    (h : counterOp j (pdOf r.hdr) (r.hdr.address.toNat / 64) (counterChange s.partitions[pdOf r.hdr].counter.saturate
      (r.hdr.address.toNat % 64) (auxF r.hdr 47 32) (auxF r.hdr 31 0))
      (noteSlots (pdOf r.hdr) (r.hdr.address.toNat / 64) 1 s) = (.done 0 d, t)) :
    performCtrUpdate j r s =
      completeWith j .ok (modCounter (pdOf r.hdr) (fun c => { c with ctrUpdates := c.ctrUpdates + 1 }) t) := by
  simp only [performCtrUpdate, h, if_true]

theorem performPolUpdate_of_done (j : Job) (r : Req) (s t : State) (colour : Nat) (d : List Byte) (hc : colour < 3)
    (h : counterOp j (pdOf r.hdr) (r.hdr.address.toNat / 64) (policerChange (tickNow s) (r.hdr.address.toNat % 64)
      (auxF r.hdr 13 0) (auxF r.hdr 15 14)) (noteSlots (pdOf r.hdr) (r.hdr.address.toNat / 64) 2 s) =
      (.done (BitVec.ofNat 64 colour) d, t)) :
    performPolUpdate j r s = complete j .ok (BitVec.ofNat 64 colour) [] (modCounter (pdOf r.hdr) (fun c => { c with
      polUpdates := c.polUpdates + 1, polRed := if colour = 2 then c.polRed + 1 else c.polRed }) t) := by
  have hout : (BitVec.ofNat 64 colour).toNat % 4 = colour := by
    rw [BitVec.toNat_ofNat]
    omega
  have hbad : (BitVec.ofNat 64 colour).getLsbD 2 = false := by interval_cases colour <;> rfl
  simp only [performPolUpdate, h, hout, hbad, Bool.false_eq_true, if_false]

theorem performCtrRead_of_done (j : Job) (r : Req) (s t : State) (d : List Byte)
    (h : counterOp j (pdOf r.hdr) (r.hdr.address.toNat / 64) (counterRead (r.hdr.address.toNat % 64)
      (r.hdr.lengthCode.toNat + 1) (decide (auxF r.hdr 0 0 = 1))) (noteSlots (pdOf r.hdr) (r.hdr.address.toNat / 64) 1 s) =
      (.done 0 d, t)) : performCtrRead j r s = complete j .ok 0 d t := by
  simp only [performCtrRead, h, counterEnd, id]

theorem flushHeld_of_dirty (pd : Fin 64) (line : Nat) (k : KennelLine) (s : State) (hk : kennelHit s pd line = some k)
    (hd : k.dirty = true) :
    flushHeld pd line s = kennelWriteBack k (passTo (k.dirtySince + 1000 * s.params.ctrFlushUs) s) := by
  simp only [flushHeld, hk, hd, if_true]

/-- Settles O7. -/
theorem countersCompleteAndFlush : Obligations.CountersCompleteAndFlush := by
  unfold Obligations.CountersCompleteAndFlush
  refine ⟨fun p r c s => ⟨fun h => ?_, fun h => ?_, fun h => ?_⟩, fun pd line k s hk hd => ?_, fun pd s hv ht => ?_⟩
  · intro u j d t hc
    exact exec_of_passes rfl h (performCtrUpdate_of_done j r u t d hc)
  · intro u j colour d t hcol hc
    exact exec_of_passes rfl h (performPolUpdate_of_done j r u t colour d hcol hc)
  · intro u j d t hc
    exact exec_of_passes rfl h (performCtrRead_of_done j r u t d hc)
  · show Host.Outcome.next (flushHeld pd line.toNat s) = _
    rw [flushHeld_of_dirty pd line.toNat k s hk hd]
  · show Host.Outcome.next (if s.partitions[pd].valid ∧ s.partitions[pd].ptype = .counter then sweepPolicers pd s else s) = _
    rw [if_pos ⟨hv, ht⟩]
    rfl

/-! ### MAILBOX and STATUS_READ (R34, R440, R490) -/

/-- Settles O10. -/
theorem mailboxAndWindowRequests : Obligations.MailboxAndWindowRequests := by
  unfold Obligations.MailboxAndWindowRequests
  refine fun p r c s => ⟨fun h => ?_, fun h => exec_of_passes rfl h rfl⟩
  intro u j m a n
  refine ⟨fun hr ha => exec_of_passes rfl h ?_, fun hr ha => exec_of_passes rfl h ?_, fun hw hd => exec_of_passes rfl h ?_,
    fun hw hd => exec_of_passes rfl h ?_⟩
  · have hlow : ¬(a < 16 ∧ n ≠ 0) := by omega
    simp only [performMailbox, if_pos hr, readResponse]
    rw [if_neg hlow]
    rfl
  · have hlow : a < 16 ∧ n ≠ 0 := by omega
    simp only [performMailbox, if_pos hr, readResponse]
    rw [if_pos hlow]
    rfl
  · have hnr : ¬auxF r.hdr 0 0 = 1 := by omega
    have hnd : ¬auxF r.hdr 1 1 = 1 := by omega
    simp only [performMailbox, if_neg hnr, if_neg hnd]
    rfl
  · have hnr : ¬auxF r.hdr 0 0 = 1 := by omega
    simp only [performMailbox, if_neg hnr, if_pos hd]
    rfl

end Sys2Proof.Requests
end

section
/-! PROOFS. Requests and steps of the Bobbin slices. -/

namespace Sys2Proof.Queueing

open Sys2Proof Sys2Proof.Machine Sys2Proof.Laws Sys2Proof.Requests Sys2Proof.Safety

/-! ### ENQUEUE, DEQUEUE and QUEUE_QUERY (R232 to R239) -/

theorem performEnqueue_of_dropped {j : Job} {r : Req} {s : State} {f : BufferState → BufferState}
    (hi : bobbinIsolated s (queueOf r.hdr) = false) (hb : (queueAt s (queueOf r.hdr)).state ≠ .broken)
    (hf : dropRule s (queueOf r.hdr) (packetCells (auxF r.hdr 31 18)) j.arrived = some f) :
    performEnqueue j r s = completeWith j .dropped (modBuffer (pdOf r.hdr) f s) := by
  simp only [performEnqueue, hi, hb, hf, Bool.false_eq_true, if_false]

/-- An admitted packet: its cells taken, it stands at the tail and its lines are written. -/
theorem performEnqueue_of_admitted {j : Job} {r : Req} {s t : State} {cells : List Nat}
    (hi : bobbinIsolated s (queueOf r.hdr) = false) (hb : (queueAt s (queueOf r.hdr)).state ≠ .broken)
    (hf : dropRule s (queueOf r.hdr) (packetCells (auxF r.hdr 31 18)) j.arrived = none)
    (hc : takeCells (homeSlice (queueOf r.hdr)) (pdOf r.hdr) (packetCells (auxF r.hdr 31 18)) s = (cells, t))
    (hn : cells.length = packetCells (auxF r.hdr 31 18)) :
    let n := packetCells (auxF r.hdr 31 18)
    let q := queueOf r.hdr
    let spare := cells.getD (n - 1) 0
    let a : Admission := { job := j, length := auxF r.hdr 31 18, cells := (queueAt t q).tail :: cells.take (n - 1)
                           spare := spare, admitted := t.hubTimer, payload := r.payload.take (auxF r.hdr 31 18)
                           written := 0, ended := false, voided := false }
    performEnqueue j r s = writeAdmission q a (modQueue q (fun y => { y with
      tail := spare, cells := y.cells + n, admissions := y.admissions ++ [a] })
      (modQuarter (homeSlice q) (fun x => { x with enqTimes := noteTime t.hubTimer x.enqTimes }) t)) := by
  have hfull : ¬cells.length < packetCells (auxF r.hdr 31 18) := by omega
  simp only [performEnqueue, hi, hb, hf, hc, hfull, Bool.false_eq_true, if_false]

theorem performDequeue_of_open {j : Job} {r : Req} {s : State} (hi : bobbinIsolated s (queueOf r.hdr) = false)
    (hb : (queueAt s (queueOf r.hdr)).state ≠ .broken) :
    let budget := auxF r.hdr 31 18
    let packets := decide (auxF r.hdr 32 32 = 1)
    performDequeue j r s = watchGates (modQueue (queueOf r.hdr) (fun y => { y with
      streams := y.streams ++ [{ job := j, byPackets := packets, remaining := if packets then budget else 256 * budget
                                 first := true, running := false }] }) s) := by
  simp only [performDequeue, hi, hb, Bool.false_eq_true, if_false]

theorem performQueueQuery_of_in {j : Job} {r : Req} {s : State} (h : quarterOut s (homeSlice (queueOf r.hdr)) = false) :
    performQueueQuery j r s = complete j .ok 0 (queueDescriptor (queueAt s (queueOf r.hdr))) s := by
  simp only [performQueueQuery, h, Bool.false_eq_true, if_false]

/-! ### Steps of a slice (R234 to R238) -/

/-- The oldest admission whose lines are written is linked and its ENQUEUE completes. -/
theorem linkPacket_of_written {n : Nat} {s v : State} {a b : Admission} {rest bs : List Admission}
    (hs : blockStopped s (.bobbin (homeSlice n)) = false) (hq : quarterOut s (homeSlice n) = false)
    (hb : (queueAt (settleVoids n s) n).admissions = b :: bs) (hv : writeAdmission n b (settleVoids n s) = v)
    (ha : (queueAt v n).admissions = a :: rest) (hw : admissionWritten a = true) (hvoid : a.voided = false)
    (hend : a.ended = false) :
    let t := modQueue n (fun y => { y with admissions := rest, packets := y.packets + 1 }) v
    let t := modBuffer (queuePd t n) (fun b => { b with enqPackets := b.enqPackets + 1 }) t
    linkPacket n s = skim n (complete a.job .ok (BitVec.ofNat 64
      ((queueAt t n).packets + (queueAt t n).cells * 2 ^ 24 + packetCells a.length * 2 ^ 48)) [] t) := by
  simp only [linkPacket, hs, hq, hb, hv, ha, hw, hvoid, hend, Bool.or_self, Bool.not_false, Bool.and_self,
    Bool.false_eq_true, if_false, if_true]

theorem startStream_of_open {n : Nat} {s u : State} {t : Stream} {rest : List Stream}
    (hs : blockStopped s (.bobbin (homeSlice n)) = false) (hu : skim n (settleVoids n s) = u)
    (ht : (queueAt u n).streams = t :: rest) (hr : t.running = false) (hroom : runningStreams u (homeSlice n) < 512)
    (he : earlierStream u n t = false) (hi : bobbinIsolated u n = false) (hb : (queueAt u n).state ≠ .broken) :
    startStream n s = if (queueAt u n).packets = 0 then endStream n t .empty false u
      else watchGates (modQueue n (fun y => { y with streams := { t with running := true } :: rest }) u) := by
  have hwait : ¬(t.running = true ∨ 512 ≤ runningStreams u (homeSlice n) ∨ earlierStream u n t = true) := by
    rw [hr, he]
    simpa using hroom
  simp only [startStream, hs, hu, ht, hwait, hi, hb, Bool.false_eq_true, if_false]

theorem handoverStep_of_whole {n : Nat} {s u : State} {t : Stream} {rest : List Stream} {cells : List Nat}
    {next len time : Nat} {bytes : List Byte} (hs : blockStopped s (.bobbin (homeSlice n)) = false)
    (hi : bobbinIsolated s n = false) (hb : (queueAt s n).state ≠ .broken) (hp : (queueAt s n).packets ≠ 0)
    (hh : cellsReady s (queuePd s n) [(queueAt s n).head] = true) (ht : (queueAt s n).streams = t :: rest)
    (hr : t.running = true) (hread : readPacket (.port t.job.port) n s = (.whole cells next len time bytes, u))
    (hc : cellsReady s (queuePd s n) cells = true) (hcredit : packetCredit s t.job.port len = true) :
    handoverStep n s = handPacket n t cells next len time bytes u := by
  simp only [handoverStep, ht, hr, hi, hs, hb, hp, hh, hread, hc, hcredit, Bool.not_true, Bool.or_self,
    Bool.false_eq_true, if_false]

/-- Settles O9. -/
theorem queuesServeTheirRequests : Obligations.QueuesServeTheirRequests := by
  unfold Obligations.QueuesServeTheirRequests
  refine ⟨fun p r c s => ⟨fun h => ?_, fun h => ?_, fun h hq => exec_of_passes rfl h (performQueueQuery_of_in hq)⟩,
    fun q s => ⟨fun hs hq => ?_, fun hs => ?_, fun hs hi hb hp hh => ?_⟩⟩
  · intro u j n hi hb
    exact ⟨fun f hf => exec_of_passes rfl h (performEnqueue_of_dropped hi hb hf),
      fun hf cells t hc hn => exec_of_passes rfl h (performEnqueue_of_admitted hi hb hf hc hn)⟩
  · intro u budget packets hi hb
    exact exec_of_passes rfl h (performDequeue_of_open hi hb)
  · intro u b bs hbs v a rest ha hw hvoid hend
    exact congrArg Host.Outcome.next (linkPacket_of_written hs hq hbs rfl ha hw hvoid hend)
  · intro u t rest ht hr hroom he hi hb
    have hstart := startStream_of_open hs rfl ht hr hroom he hi hb
    show Host.Outcome.next (startStream q.toNat s) = _
    rw [hstart]
    split <;> rfl
  · intro t rest cells next len time bytes u ht hr hread hc hcredit
    exact congrArg Host.Outcome.next (handoverStep_of_whole hs hi hb hp hh ht hr hread hc hcredit)

end Sys2Proof.Queueing
end

section
/-! PROOFS. O21 fails where an unsealed link still has an open sealing group of 16 flits: the room kept for one flit then
takes two. -/

namespace Sys2Proof.ReplayOverrun

open Sys2Proof Sys2Proof.Machine Sys2Proof.Safety Sys2Proof.Tests

/-- A link in order with 255 flits not acknowledged and one message waiting, its sealing off and a group of 16 open. -/
def nearlyFull (l : LinkState) : LinkState :=
  { l with
    replay := (List.range 255).map fun i => { ftype := 1, seq := i, count := 1, slots := [] }
    txNext := 255, ackedNext := 0, sealOn := false
    txGroup := List.replicate 16 { ftype := 1, seq := 0, count := 1, slots := [] }
    txMgmt := [[0]] }

/-- The tests' READY stack with port 0's link nearly full. -/
def crowded : State := modLink 0 nearlyFull ready

/-- The flits not acknowledged on port 0 after a step. -/
def outstandingFlits : Out → Nat
  | .next s => s.ports[(0 : Fin 4)].link.replay.length
  | _ => 0

theorem crowded_inOrder : ∀ q : Fin 4, replayInOrder crowded.ports[q].link = true := by decide +kernel

/-- A STATUS message (R124) makes the port send its waiting message and then the tag of the open group. -/
theorem status_sends_two : outstandingFlits (exec (.status 0 1) crowded) = 257 := by decide +kernel

theorem length_of_inOrder {l : LinkState} (h : replayInOrder l = true) : l.replay.length ≤ 256 := by
  simp only [replayInOrder, Bool.and_eq_true, decide_eq_true_eq] at h
  obtain ⟨⟨-, hlen⟩, -⟩ := h
  exact hlen

/-- Refutes O21: the port packs a flit while its replay buffer has room for one, and closes the open group behind it. -/
theorem not_linkCommandsKeepReplayOrder : ¬ Obligations.LinkCommandsKeepReplayOrder := by
  intro h
  have hcount := status_sends_two
  cases hexec : exec (.status 0 1) crowded with
  | next t =>
    rw [hexec] at hcount
    have hle := length_of_inOrder (h 0 1 crowded crowded_inOrder (.status 0 1) (List.mem_cons_self ..) t hexec 0)
    exact absurd (hcount ▸ hle : 257 ≤ 256) (by decide)
  | fault r => rw [hexec] at hcount; exact absurd (show 0 = 257 from hcount) (by decide)
  | refused r => rw [hexec] at hcount; exact absurd (show 0 = 257 from hcount) (by decide)

end Sys2Proof.ReplayOverrun
end

section
/-! PROOFS. The fields of a port after the operations on its parts. -/

namespace Sys2Proof.PortFields

open Sys2Proof Sys2Proof.Machine Sys2Proof.Laws Sys2Proof.PortRecords

section
variable (p : Fin 4) (s : State)

theorem modPhy_port (f : Phy → Phy) : (modPhy p f s).ports[p] = { s.ports[p] with phy := f s.ports[p].phy } :=
  modPort_self p _ s

theorem modLink_port (f : LinkState → LinkState) :
    (modLink p f s).ports[p] = { s.ports[p] with link := f s.ports[p].link } :=
  modPort_self p _ s

theorem modLane_port (i : Fin 16) (f : Lane → Lane) :
    (modLane p i f s).ports[p] = { s.ports[p] with lanes := s.ports[p].lanes.set i (f s.ports[p].lanes[i]) } :=
  modPort_self p _ s

@[simp] theorem modPhy_phy (f : Phy → Phy) : (modPhy p f s).ports[p].phy = f s.ports[p].phy := by rw [modPhy_port]

@[simp] theorem modPhy_lanes (f : Phy → Phy) : (modPhy p f s).ports[p].lanes = s.ports[p].lanes := by rw [modPhy_port]

@[simp] theorem modPhy_link (f : Phy → Phy) : (modPhy p f s).ports[p].link = s.ports[p].link := by rw [modPhy_port]

@[simp] theorem modLink_phy (f : LinkState → LinkState) : (modLink p f s).ports[p].phy = s.ports[p].phy := by
  rw [modLink_port]

@[simp] theorem modLink_link (f : LinkState → LinkState) : (modLink p f s).ports[p].link = f s.ports[p].link := by
  rw [modLink_port]

@[simp] theorem modLane_phy (i : Fin 16) (f : Lane → Lane) : (modLane p i f s).ports[p].phy = s.ports[p].phy := by
  rw [modLane_port]

@[simp] theorem modLane_link (i : Fin 16) (f : Lane → Lane) : (modLane p i f s).ports[p].link = s.ports[p].link := by
  rw [modLane_port]

@[simp] theorem noteAck_phy (i : Fin 16) (ack : Bool) : (noteAck p i ack s).ports[p].phy = s.ports[p].phy :=
  modLane_phy p s i _

@[simp] theorem mapLanes_phy (f : Nat → Lane → Lane) : (mapLanes p f s).ports[p].phy = s.ports[p].phy := by
  unfold mapLanes
  rw [modPort_self]

/-- Two changes of a port that agree on the port as it is are the same change. -/
theorem modPort_congr {p : Fin 4} {f g : Port → Port} {s : State} (h : f s.ports[p] = g s.ports[p]) :
    modPort p f s = modPort p g s := by
  unfold modPort
  rw [h]

theorem modPhy_congr {p : Fin 4} {f g : Phy → Phy} {s : State} (h : f s.ports[p].phy = g s.ports[p].phy) :
    modPhy p f s = modPhy p g s :=
  modPort_congr (congrArg (fun y => { s.ports[p] with phy := y }) h)

end

end Sys2Proof.PortFields
end

section
/-! PROOFS. Held requests and guarantees (O11). -/

namespace Sys2Proof.HeldRequests

open Sys2Proof Sys2Proof.Machine Sys2Proof.Laws

theorem releaseHeld_eq (p : Fin 4) (s : State) : releaseHeld p s = if linkHolds s p then s
    else panicCheck p (s.ports[p].held.foldl (fun s e => evaluate (performOf e.opcode) p e s)
      (modPort p (fun x => { x with held := [] }) s)) := rfl

theorem gatePromote_of_gated {p : Fin 4} {tag : BitVec 14} {e : Held} {s : State}
    (h : s.ports[p].held.find? (fun e => e.req.hdr.tag = tag ∧ e.reason = .gate) = some e) :
    gatePromote p tag s = releaseHeld p (modPort p (fun x => { x with
      held := x.held.map fun h => if h.req.hdr.tag = tag then { h with passGate := true } else h })
      (passTo (e.job.arrived + 1000 * s.params.holdPromoteUs) s)) := by
  simp only [gatePromote, h]

theorem holdLimit_of_held {p : Fin 4} {tag : BitVec 14} {e : Held} {s : State}
    (h : s.ports[p].held.find? (fun e => e.req.hdr.tag = tag) = some e) :
    holdLimit p tag s =
      requestBusy p tag (releaseHeld p (serveReady (passTo (e.job.arrived + 1000 * s.ports[p].holdLimitUs) s))) := by
  simp only [holdLimit, h]

theorem requestBusy_of_released {p : Fin 4} {tag : BitVec 14} {s : State}
    (h : s.ports[p].held.find? (fun e => e.req.hdr.tag = tag) = none) : requestBusy p tag s = s := by
  simp only [requestBusy, h]

theorem requestBusy_of_held {p : Fin 4} {tag : BitVec 14} {e : Held} {s : State}
    (h : s.ports[p].held.find? (fun e => e.req.hdr.tag = tag) = some e) :
    requestBusy p tag s = panicCheck p (completeWith { e.job with charge := 0 } .busy
      (raiseLimited 0x6016 1 p (fun n => [itCount n]) (freeSlots p (requestSlots e.opcode e.req)
        (modPort p (fun x => { x with
          held := x.held.eraseP fun h => h.req.hdr.tag = tag, busyCount := sat32 x.busyCount })
          (passTo (e.job.arrived + 1000 * s.ports[p].holdLimitUs) s))))) := by
  simp only [requestBusy, h]

theorem panicStuck_of_panic {p : Fin 4} {s : State} (hp : s.ports[p].link.partnerPanic = true)
    (hi : s.ports[p].link.panicIgnored = false) (hm : s.ports[p].panicMax ≠ 0) :
    panicStuck p s = raise 0x6015 1 p [] (modLink p (fun l => { l with panicIgnored := true })
      (noteTriggers (passTo (s.ports[p].link.panicSince + 1000 * s.ports[p].panicMax) s))) := by
  simp only [panicStuck, hp, hi, hm, Bool.not_false, ne_eq, not_false_eq_true, and_self, if_true]

theorem restoreGuarantees_of_room {t : Nat} {s : State} (h : firstRoom s = some t) :
    restoreGuarantees s =
      noteRooms false (trimOrder.reverse.foldl restoreClass (passTo (t + s.params.restoreHoldS * secondNs) s)) := by
  simp only [restoreGuarantees, h]

theorem exec_heldRelease (p : Fin 4) (s : State) :
    exec (.heldRelease p) s = if linkHolds (serveReady s) p then .next (serveReady s)
      else .next (panicCheck p ((serveReady s).ports[p].held.foldl (fun s e => evaluate (performOf e.opcode) p e s)
        (modPort p (fun x => { x with held := [] }) (serveReady s)))) := by
  change Host.Outcome.next (releaseHeld p (serveReady s)) = _
  rw [releaseHeld_eq]
  split <;> rfl

/-- Settles O11. -/
theorem heldRequestsAndGuarantees : Obligations.HeldRequestsAndGuarantees := by
  refine ⟨fun p s => ⟨exec_heldRelease p s, fun tag e h => ?_, fun tag e h => ⟨fun hn => ?_, fun f hf => ?_⟩,
    fun hp hi hm => ?_⟩, fun t s h => ?_, fun s => rfl⟩
  · exact congrArg Host.Outcome.next (gatePromote_of_gated h)
  · exact congrArg Host.Outcome.next ((holdLimit_of_held h).trans (requestBusy_of_released hn))
  · exact congrArg Host.Outcome.next ((holdLimit_of_held h).trans (requestBusy_of_held hf))
  · exact congrArg Host.Outcome.next (panicStuck_of_panic hp hi hm)
  · exact congrArg Host.Outcome.next (restoreGuarantees_of_room h)

end Sys2Proof.HeldRequests
end

section
/-! PROOFS. Fences of blocks and isolations of quarters (O12, O13). -/

namespace Sys2Proof.Containment

open Sys2Proof Sys2Proof.Machine Sys2Proof.Laws

/-! ### Blocks -/

/-- A change of a Kennel slice makes the ledger of state s anew. -/
def slicesLedgered (b : BlockId) (s t : State) : State :=
  match b with
  | .kennel _ => recomputeLedger s t
  | _ => t

/-- A block that serves in a quarter that serves is fenced by its own event. -/
theorem fenceBlock_of_serving {b : BlockId} {sramFailed : Bool} {s : State} (hb : blockStopped s b = false)
    (hf : s.device.fatal = false) (hq : ∀ q, quarterOf b = some q → quarterOut s q = false) :
    fenceBlock b true sramFailed s =
      (let recent := (blockAt s b).fenceTimes.filter fun t => s.hubTimer < t + 24 * hourNs
       let stays := decide (2 ≤ recent.length)
       let u := fenceEffect b sramFailed (modBlock b (fun x => { x with
         fenced := true, fenceTimes := recent ++ [s.hubTimer], sramFailed := sramFailed, kept := stays }) s)
       let t := raiseBlock (fenceEvent b) b (if stays then [itOpenReason (fenceEvent b) 1] else []) u
       slicesLedgered b s t) := by
  have hout : (match quarterOf b with | some q => quarterOut s q | none => false) = false := by
    cases hk : quarterOf b with
    | none => rfl
    | some q => exact hq q hk
  have hstop : ¬(blockStopped s b || (match quarterOf b with | some q => quarterOut s q | none => false) ||
      s.device.fatal) = true := by
    rw [hout, hb, hf]
    decide
  refine (if_neg hstop).trans ?_
  simp only [if_true, Bool.true_and, List.length_append, List.length_singleton, Nat.reduceLeDiff,
    Nat.add_le_add_iff_right]
  rfl

theorem resumeBlock_of_resetting {b : BlockId} {s : State} (h : (blockAt s b).resetting = true) :
    resumeBlock b s =
      (let u := raiseBlock 0x0015 b [] (resumeEffect b (modBlock b (fun x => { x with
         fenced := false, resetting := false, kept := false, sramFailed := false }) s))
       slicesLedgered b s u) := by
  simp only [resumeBlock, h, Bool.not_true, Bool.false_eq_true, if_false]
  rfl

/-- Settles O12. -/
theorem blocksFenceAndResume : Obligations.BlocksFenceAndResume :=
  ⟨fun _ _ _ hb hf hq => congrArg (fun t => Host.Outcome.next (serveReady t)) (fenceBlock_of_serving hb hf hq),
   fun _ _ h => congrArg (fun t => Host.Outcome.next (serveReady t)) (resumeBlock_of_resetting h)⟩

/-! ### Quarters -/

theorem fenceTimeout_of_quarter {b : BlockId} {q : Fin 4} (h : quarterOf b = some q) (s : State) :
    fenceTimeout b s = isolateQuarter q 0 (BitVec.ofNat 16 (fenceEvent b)) s := by
  simp only [fenceTimeout, h]

theorem fenceTimeout_of_hub {b : BlockId} (h : quarterOf b = none) (s : State) :
    fenceTimeout b s = fatalNow 0 (fenceEvent b) s := by
  simp only [fenceTimeout, h]

theorem isolationTimeout_of_isolating {q : Fin 4} {s : State} (h : s.quarters[q].isolating = true) :
    isolationTimeout q s = fatalNow 2 s.quarters[q].trigger (passTo (s.quarters[q].isolatedAt + 100000) s) := by
  simp only [isolationTimeout, h, if_true]

/-- Another quarter's isolation counted within the last 100 µs (R17). -/
def isolatedNear (q : Fin 4) (s : State) : Bool :=
  (List.finRange 4).any fun k => decide (k ≠ q) &&
    s.quarters[k].isolations.any fun t => decide (s.hubTimer < t + 100000)

theorem isolatedNear_of_recent {q k : Fin 4} {s : State} (hk : k ≠ q)
    (h : ∃ t ∈ s.quarters[k].isolations, s.hubTimer < t + 100000) : isolatedNear q s = true := by
  obtain ⟨t, ht, hlt⟩ := h
  exact List.any_eq_true.2 ⟨k, List.mem_finRange k, by
    simp only [hk, ne_eq, not_false_eq_true, decide_true, Bool.true_and, List.any_eq_true]
    exact ⟨t, ht, decide_eq_true hlt⟩⟩

theorem not_isolatedNear_of_old {q : Fin 4} {s : State}
    (h : ∀ k : Fin 4, k ≠ q → ∀ t ∈ s.quarters[k].isolations, t + 100000 ≤ s.hubTimer) : isolatedNear q s = false := by
  refine List.any_eq_false.2 fun k _ => ?_
  by_cases hk : k = q
  · simp [hk]
  · simp only [ne_eq, hk, not_false_eq_true, decide_true, Bool.true_and, List.any_eq_true, decide_eq_true_eq, not_exists,
      not_and, Nat.not_lt]
    exact h k hk

theorem isolationCounts_of_cause {cause : BitVec 4} (h3 : cause ≠ 3) (h4 : cause ≠ 4) :
    isolationCounts cause = true := by
  simp only [isolationCounts, h3, h4, ne_eq, not_false_eq_true, decide_true, Bool.and_self]

/-- The isolations of quarter q counted in the last 24 h (R565). -/
def recentIsolations (q : Fin 4) (s : State) : List Nat :=
  s.quarters[q].isolations.filter fun t => s.hubTimer < t + 24 * hourNs

/-- The marks of a counted isolation of quarter q in state s. -/
def isolationMark (q : Fin 4) (cause : BitVec 4) (code : BitVec 16) (s : State) (y : Quarter) : Quarter :=
  { y with
    isolating := true, isolatedAt := s.hubTimer, cause := cause.toNat, trigger := code.toNat
    isolations := recentIsolations q s ++ [s.hubTimer] }

section
variable {q : Fin 4} {cause : BitVec 4} {code : BitVec 16} {s : State}

theorem isolateQuarter_of_near (hc : isolationCounts cause = true) (hi : s.quarters[q].isolating = false)
    (hs : s.quarters[q].state = .inService) (hf : s.device.fatal = false) (hn : isolatedNear q s = true) :
    isolateQuarter q cause code s = fatalNow 1 code.toNat (modQuarter q (isolationMark q cause code s) s) := by
  unfold isolatedNear at hn
  simp only [isolateQuarter, hi, hs, hf, hc, hn, reduceCtorEq, decide_false, Bool.or_self, Bool.false_eq_true,
    if_false, if_true, Bool.and_self]
  rfl

theorem isolateQuarter_of_alone (hc : isolationCounts cause = true) (hi : s.quarters[q].isolating = false)
    (hs : s.quarters[q].state = .inService) (hf : s.device.fatal = false) (hn : isolatedNear q s = false) :
    isolateQuarter q cause code s = (List.finRange 32).foldl
      (fun s (c : Fin 32) => if c.val / 8 = q.val then isolateChannel q c s else s)
      (endNeeding (fun b => decide (quarterOf b = some q)) .dataError true (isolateBobbin q (dropPort q 6
        (modQuarter q (isolationMark q cause code s) (if s.quarters[q].pllLocked then quarterFlush q s else s))))) := by
  unfold isolatedNear at hn
  simp only [isolateQuarter, hi, hs, hf, hc, hn, reduceCtorEq, decide_false, Bool.or_self, Bool.false_eq_true,
    if_false, if_true, Bool.and_false]
  rfl

end

section
variable {q : Fin 4} {s : State}

/-- The second isolation within 24 h, an isolation of cause 4 or q_auto_reset = 0 keeps a quarter isolated. -/
theorem quarterIsolated_of_isolating {stays : Bool} (h : s.quarters[q].isolating = true)
    (hs : (decide (s.quarters[q].cause ≠ 3) && (decide (s.quarters[q].cause = 4) ||
      decide (2 ≤ (recentIsolations q s).length) ||
      !s.quarters[q].autoReset)) = stays) :
    quarterIsolated q s = nextQuarterReset (raiseAs 0x001B 2 (if stays || !s.quarters[q].autoReset then 2 else 1) 5 q
      [itReason s.quarters[q].cause, itEvent s.quarters[q].trigger]
      (modQuarter q (fun y => { y with isolating := false, state := if stays then .heldIsolated else .isolated }) s)) := by
  unfold recentIsolations at hs
  simp only [quarterIsolated, h, hs, Bool.not_true, Bool.false_eq_true, if_false]

theorem quarterResetDone_of_resetting (h : s.quarters[q].state = .resetting) :
    quarterResetDone q s =
      (let u := quarterBlocksBack q (quarterChannelsBack q s.quarters[q].isolatedAt (modQuarter q (fun y => { y with
         state := .inService, pllLocked := true, pllBand := lockBand s }) s))
       let v := quarterFlush q (voidAdmissions (fun k _ => decide (homeSlice k = q)) u)
       let w := raise 0x0014 5 q [] (endTasks (fun t => decide (t.work = .quarterReset q)) .ok
         (quarterPolicers q s.quarters[q].isolatedAt v))
       let t := if w.ports[q].phy.enable then toDetect q w else w
       nextQuarterReset (recomputeLedger t t)) := by
  simp only [quarterResetDone, h, ne_eq, not_true_eq_false, if_false]

end

/-- Settles O13. -/
theorem quartersIsolateAndReset : Obligations.QuartersIsolateAndReset := by
  refine ⟨⟨fun b q s h => ?_, fun b s h => ?_, fun q s h => ?_⟩, fun q k cause code s hk h3 h4 hi hs hf hn => ?_,
    fun q cause code s h3 h4 hi hs hf hn => ?_, fun q s hi => ⟨fun hr h4 ha => ?_, fun h3 => ?_, fun hr h3 => ?_⟩,
    fun q s h => ?_⟩
  · exact congrArg (fun t => Host.Outcome.next (serveReady t)) (fenceTimeout_of_quarter h s)
  · exact congrArg (fun t => Host.Outcome.next (serveReady t)) (fenceTimeout_of_hub h s)
  · exact congrArg Host.Outcome.next (isolationTimeout_of_isolating h)
  · exact congrArg (fun t => Host.Outcome.next (serveReady t))
      (isolateQuarter_of_near (isolationCounts_of_cause h3 h4) hi hs hf (isolatedNear_of_recent hk hn))
  · exact congrArg (fun t => Host.Outcome.next (serveReady t))
      (isolateQuarter_of_alone (isolationCounts_of_cause h3 h4) hi hs hf (not_isolatedNear_of_old hn))
  · refine congrArg Host.Outcome.next ((quarterIsolated_of_isolating (stays := false) hi ?_).trans ?_)
    · simp only [h4, ha, decide_eq_false (show ¬2 ≤ (recentIsolations q s).length from Nat.not_le.2 hr), Bool.not_true, Bool.or_self, decide_false,
        Bool.and_false]
    · simp only [ha, Bool.not_true, Bool.or_self, Bool.false_eq_true, if_false]
  · refine congrArg Host.Outcome.next ((quarterIsolated_of_isolating (stays := false) hi ?_).trans ?_)
    · simp only [h3, ne_eq, not_true_eq_false, decide_false, Bool.false_and]
    · simp only [Bool.false_or, Bool.false_eq_true, if_false, h3]
      cases s.quarters[q].autoReset <;> rfl
  · refine congrArg Host.Outcome.next ((quarterIsolated_of_isolating (stays := true) hi ?_).trans ?_)
    · simp only [h3, decide_eq_true (show 2 ≤ (recentIsolations q s).length from hr), ne_eq, not_false_eq_true, decide_true, Bool.or_true,
        Bool.true_or, Bool.and_self]
    · simp only [Bool.true_or, if_true]
  · change Host.Outcome.next (serveReady (quarterResetDone q s)) = _
    rw [quarterResetDone_of_resetting h]

end Sys2Proof.Containment
end

section
/-! PROOFS. Ordered sets of the partner: those that are discarded, and what each other kind does (O14, O15). -/

namespace Sys2Proof.OrderedSets

open Sys2Proof Sys2Proof.Machine Sys2Proof.Laws Sys2Proof.Safety Sys2Proof.PortRecords Sys2Proof.PortFields

section
variable {p : Fin 4} {lane : Fin 16} {inv fck : Bool} {ask : BitVec 6} {os : BitVec 128} {s : State}

theorem receiveSet_of_bad (hl : portLive s p = true) (hc : clocked s s.ports[p].phy.gauge = true)
    (hb : osGood os = false) : receiveSet p lane inv fck ask os s =
      modLane p lane (fun l => { l with osDiscard := min 65535 (l.osDiscard + 1), sets := 0 }) s := by
  simp only [receiveSet, hl, hc, hb, Bool.not_true, Bool.or_self, Bool.false_eq_true, if_false, Bool.not_false, if_true]

/-- The state with a kept set counted on its lane. -/
def counted (p : Fin 4) (lane : Fin 16) (os : BitVec 128) (s : State) : State :=
  modLane p lane (fun l => loopBack s.ports[p].phy os (countSet os l)) s

@[simp] theorem counted_phy : (counted p lane os s).ports[p].phy = s.ports[p].phy := modLane_phy p s lane _

@[simp] theorem counted_device : (counted p lane os s).device = s.device := rfl

theorem receiveSet_of_heard (h : setHeard p os s = true) : receiveSet p lane inv fck ask os s =
    modPort p announce (actOnSet p lane inv fck ask os (counted p lane os s)) := by
  simp only [setHeard, Bool.and_eq_true, Bool.not_eq_true'] at h
  obtain ⟨⟨⟨hl, hc⟩, hg⟩, hs⟩ := h
  simp only [receiveSet, hl, hc, hg, hs, Bool.not_true, Bool.or_self, Bool.false_eq_true, if_false]
  rfl

/-! ### What a kept set of each kind does -/

theorem receiveGaugeSwitch_of_active (ha : s.ports[p].phy.state = .active)
    (hc : gaugeCommon s.ports[p].phy (gaugeOf (bitsOf os.toNat 73 72)) = true)
    (hg : gaugeOf (bitsOf os.toNat 73 72) ≠ s.ports[p].phy.gauge) (hu : s.ports[p].phy.climb = .up) :
    receiveGaugeSwitch p os s =
      startSwitch p (gaugeOf (bitsOf os.toNat 73 72))
        (if gaugeCode (gaugeOf (bitsOf os.toNat 73 72)) < gaugeCode s.ports[p].phy.gauge then .back else .up)
        (modPhy p (fun x => { x with bestGauge := x.gauge, bestMask := x.rxMask &&& x.txMask }) s) := by
  simp only [receiveGaugeSwitch, ha, hc, hg, hu, reduceCtorEq, or_true, ne_eq, not_false_eq_true, and_self, if_true,
    if_false]
  exact congrArg _ (modPhy_congr (by simp only [ha, if_true]))

theorem receiveFckDown_of_g106 (ha : s.ports[p].phy.state = .active) (hg : s.ports[p].phy.gauge = .g106)
    (hr : s.device.refclk ≠ 1) : receiveFckDown p s =
      startSwitch p (fallbackGauge { s.ports[p].phy with fckLost := true }) .fallback
        (raise 0x1016 1 p [] (modPhy p (fun x => { x with fckLost := true }) s)) := by
  simp only [receiveFckDown, fallBack, startFallback, ha, hg, hr, and_self, if_true, if_false, raise_phy, modPhy_phy]

theorem receiveLoop_of_acquire (ha : s.ports[p].phy.state = .acquire) (hk : bitsOf os.toNat 73 72 < 3) :
    receiveLoop p os s =
      modPort p announce (modPhy p (fun x => { x with loop := some (bitsOf os.toNat 73 72) }) s) := by
  simp only [receiveLoop, ha, hk, and_self, if_true]

/-- Settles O14. -/
theorem controlSetsTakeEffect : Obligations.ControlSetsTakeEffect := by
  refine ⟨fun p lane inv fck ask os s hl hc hb => ?_, fun p lane os s h => ⟨fun hk ha hc hg hu => ?_, fun hk ha => ?_,
    fun hk ha => ?_, fun hk ha hg hr => ?_, fun hk ha hb => ?_, fun hk => ?_⟩⟩
  · have hall : ∀ inv fck ask, Host.Outcome.next (receiveSet p lane inv fck ask os s) = (.next _ : Out) :=
      fun inv fck ask => congrArg Host.Outcome.next (receiveSet_of_bad hl hc hb)
    exact ⟨hall inv fck 0, hall false false 0, hall false false ask, hall false false 0, hall false false 0,
      hall false false 0, hall false false 0, hall false false 0, hall false false 0, hall false false 0⟩
  all_goals
    refine congrArg Host.Outcome.next ((receiveSet_of_heard h).trans (congrArg (modPort p announce) ?_))
    simp only [actOnSet, hk, Nat.reduceEqDiff, if_true, if_false]
  · have hx := counted_phy (p := p) (lane := lane) (os := os) (s := s)
    rw [← hx] at ha hc hg hu
    rw [receiveGaugeSwitch_of_active ha hc hg hu, hx]
    rfl
  · simp only [counted_phy, ha, if_true]
    rfl
  · simp only [counted_phy, ha, if_true]
    rfl
  · have hx := counted_phy (p := p) (lane := lane) (os := os) (s := s)
    rw [← hx] at ha hg
    rw [receiveFckDown_of_g106 ha hg hr, hx]
    rfl
  · rw [receiveLoop_of_acquire ((congrArg Phy.state counted_phy).trans ha) hb]
    rfl
  · rfl

end

end Sys2Proof.OrderedSets
end

section
/-! PROOFS. Training sets in the states that wait for them (O15). -/

namespace Sys2Proof.TrainingSets

open Sys2Proof Sys2Proof.Machine Sys2Proof.Laws Sys2Proof.Safety Sys2Proof.PortFields Sys2Proof.OrderedSets

section
variable {p : Fin 4} {lane : Fin 16} {inv fck : Bool} {ask : BitVec 6} {os : BitVec 128} {s : State}

/-- The lane that a TS1 locks, with the swaps that it shows. -/
def lockedLane (p : Fin 4) (lane : Fin 16) (inv fck : Bool) (os : BitVec 128) (s : State) : State :=
  modPhy p (fun y => { y with fckSwapped := fck }) (modLane p lane (fun l => { l with
    locked := true, swapped := inv, partnerLane := bitsOf os.toNat 11 8 }) s)

/-- ACQUIRE left for ALIGN where eight sets in a row came on each of the locked lanes. -/
def acquireEnd (p : Fin 4) (u : State) : State :=
  let x := u.ports[p]
  let locked := acquireGroups x.phy (groupsWith x (·.locked))
  if x.phy.latched.widthMin ≤ maskLanes locked ∧
    lanesAll x locked (fun l => decide (l.sets = 8) && decide (l.setKind = 0xA1)) then
    enterState p .align (fun y => { y with
      rxMask := locked
      txMask := if y.climb = .up ∧ y.gauge = .g10 then locked else y.txMask
      acquireTimeouts := 0, trainFailedRaised := false, loop := none }) u
  else u

theorem receiveTs1_of_acquire (h : s.ports[p].phy.state = .acquire) :
    receiveTs1 p lane inv fck os s = acquireEnd p (lockedLane p lane inv fck os s) := by
  unfold receiveTs1
  exact if_pos h

theorem acquireEnd_eq {x : Phy} {f : Bool} {u : State} (hx : u.ports[p].phy = { x with fckSwapped := f }) :
    acquireEnd p u =
      (let all := groupsWith u.ports[p] (·.locked)
       let locked := if x.climb = .up ∧ x.gauge = .g10 then all else all &&& x.rxMask
       if x.latched.widthMin ≤ maskLanes locked ∧
         lanesAll u.ports[p] locked (fun l => decide (l.sets = 8) && decide (l.setKind = 0xA1)) = true then
         enterState p .align (fun y => { y with
           rxMask := locked
           txMask := if y.climb = .up ∧ y.gauge = .g10 then locked else y.txMask
           acquireTimeouts := 0, trainFailedRaised := false, loop := none }) u
       else u) := by
  unfold acquireEnd acquireGroups
  simp only [hx]

theorem lockedLane_phy {x : Phy} (hx : s.ports[p].phy = x) :
    (lockedLane p lane inv fck os s).ports[p].phy = { x with fckSwapped := fck } := by
  simp only [lockedLane, modPhy_phy, modLane_phy, hx]

/-- The receive mask's lanes in the partner's order f. -/
def lanesOrdered (x : Port) (f : Nat → Nat) : Bool :=
  (List.finRange 16).all fun i => !maskHas x.phy.rxMask i || decide (x.lanes[i].partnerLane = f i.val)

theorem lanesOrdered_iff {x : Port} {m : BitVec 4} (hm : x.phy.rxMask = m) (f : Nat → Nat) :
    lanesOrdered x f = true ↔ ∀ i : Fin 16, maskHas m i = true → x.lanes[i].partnerLane = f i := by
  subst hm
  simp only [lanesOrdered, List.all_eq_true, List.mem_finRange, true_implies, Bool.or_eq_true, Bool.not_eq_true',
    decide_eq_true_eq]
  refine forall_congr' fun i => ?_
  cases maskHas x.phy.rxMask i <;> simp

theorem receiveTs1_of_align (h : s.ports[p].phy.state = .align) :
    receiveTs1 p lane inv fck os s =
      (let u := noteAck p lane (osAck os) s
       if lanesAll u.ports[p] u.ports[p].phy.rxMask (·.acked) then
         if lanesOrdered u.ports[p] id || lanesOrdered u.ports[p] (15 - ·) then
           afterAlign p (modPhy p (fun y => { y with
             reversed := lanesOrdered u.ports[p] (15 - ·) && !lanesOrdered u.ports[p] id }) u)
         else u
       else u) := by
  unfold receiveTs1
  simp only [h, reduceCtorEq, if_true, if_false]
  rfl

theorem receiveTs2_of_caps (h : s.ports[p].phy.state = .caps) :
    receiveTs2 p lane os s =
      (let n := os.toNat
       let u := modPhy p (fun x => { x with
         partnerGauges := BitVec.ofNat 4 (bitsOf n 17 14), partnerFck := bitAt n 18, partnerPrecode := bitAt n 19
         partnerReversal := bitAt n 20 }) (noteAck p lane (osAck os) s)
       if lanesAll u.ports[p] s.ports[p].phy.rxMask (·.acked) then
         enterEq p false (modPhy p (fun y => { y with highest := highestGauge u p, bestMask := 0, bestGauge := .g10 }) u)
       else u) := by
  simp only [receiveTs2, h, if_true, modPhy_phy, noteAck_phy]

theorem receiveTsEq_of_eq (h : s.ports[p].phy.state = .eq) :
    receiveTsEq p lane ask os s =
      (let x := s.ports[p].phy
       let u := modLane p lane (fun l => { takeRequest x.gauge os l with
         ask := ask, acked := osAck os && decide (bitsOf os.toNat 34 29 = 0) }) s
       if lanesAll u.ports[p] x.rxMask (fun l => l.acked && decide (l.ask = 0) && laneAck x 0xA3 l) then
         enterState p .check id u
       else u) := by
  simp only [receiveTsEq, h, if_true]

theorem receiveTsCheck_of_check (h : s.ports[p].phy.state = .check) :
    receiveTsCheck p lane os s =
      (let x := s.ports[p].phy
       let u := modLane p lane (fun l => { l with txPass := os.getLsbD 38 }) (noteAck p lane (osAck os) s)
       if x.judged && lanesAll u.ports[p] x.rxMask (·.acked) then if x.quick then quickEnd p u else stepEnd p u
       else u) := by
  simp only [receiveTsCheck, h, if_true, checkDone, modLane_phy, noteAck_phy]

/-- Settles O15. -/
theorem trainingSetsAdvanceTheirStates : Obligations.TrainingSetsAdvanceTheirStates := by
  intro p lane inv fck os s h
  have hx := counted_phy (p := p) (lane := lane) (os := os) (s := s)
  have heard : ∀ {inv fck ask t}, actOnSet p lane inv fck ask os (counted p lane os s) = t →
      Host.Outcome.next (receiveSet p lane inv fck ask os s) = (.next (modPort p announce t) : Out) :=
    fun ht => congrArg Host.Outcome.next ((receiveSet_of_heard h).trans (congrArg (modPort p announce) ht))
  refine ⟨fun hk ha => ⟨fun he => heard ?_, fun he => heard ?_⟩,
    fun hk ha => ⟨fun hn => heard ?_, fun hy ho => heard ?_, fun hy ho hno => heard ?_⟩,
    fun hk ha => ⟨fun hn => heard ?_, fun hy => heard ?_⟩,
    fun hk ha ask => ⟨fun hn => heard ?_, fun hy => heard ?_⟩,
    fun hk ha => ⟨fun hj => heard ?_, fun hj hq => heard ?_, fun hj hq => heard ?_⟩⟩
  all_goals
    simp only [actOnSet, hk, Nat.reduceEqDiff, if_true, if_false]
    rw [← hx] at ha
  · rw [receiveTs1_of_acquire ha, acquireEnd_eq (lockedLane_phy hx)]
    exact if_neg he
  · rw [receiveTs1_of_acquire ha, acquireEnd_eq (lockedLane_phy hx)]
    exact if_pos he
  · rw [receiveTs1_of_align ha]
    dsimp only
    rw [noteAck_phy, hx]
    exact if_neg (Bool.eq_false_iff.1 hn)
  · rw [receiveTs1_of_align ha]
    have hn := (noteAck_phy p (counted p lane os s) lane (osAck os)).trans hx
    have hin := (lanesOrdered_iff (congrArg Phy.rxMask hn) id).2 ho
    dsimp only
    rw [hin, hn]
    simp only [Bool.true_or, Bool.not_true, Bool.and_false, if_true]
    exact if_pos hy
  · rw [receiveTs1_of_align ha]
    have hn := (noteAck_phy p (counted p lane os s) lane (osAck os)).trans hx
    have hin := (lanesOrdered_iff (congrArg Phy.rxMask hn) (15 - ·)).2 ho
    have hout := Bool.eq_false_iff.2 (mt (lanesOrdered_iff (congrArg Phy.rxMask hn) id).1 hno)
    dsimp only
    rw [hin, hout, hn]
    simp only [Bool.false_or, Bool.not_false, Bool.and_self, if_true]
    exact if_pos hy
  · rw [receiveTs2_of_caps ha, hx]
    exact if_neg (Bool.eq_false_iff.1 hn)
  · rw [receiveTs2_of_caps ha, hx]
    exact if_pos hy
  · rw [receiveTsEq_of_eq ha, hx]
    exact if_neg (Bool.eq_false_iff.1 hn)
  · rw [receiveTsEq_of_eq ha, hx]
    exact if_pos hy
  · rw [receiveTsCheck_of_check ha, hx]
    exact if_neg (Bool.eq_false_iff.1 hj)
  · rw [receiveTsCheck_of_check ha, hx]
    exact (if_pos hj).trans (if_neg (Bool.eq_false_iff.1 hq))
  · rw [receiveTsCheck_of_check ha, hx]
    exact (if_pos hj).trans (if_pos hq)

end

end Sys2Proof.TrainingSets
end

section
/-! PROOFS. Timeouts of training and the counts of CHECK (O17). -/

namespace Sys2Proof.TrainingTimeouts

open Sys2Proof Sys2Proof.Machine Sys2Proof.Laws Sys2Proof.Safety Sys2Proof.PortFields

section
variable {p : Fin 4} {s : State}

@[simp] theorem passTo_ports (t : Nat) (s : State) : (passTo t s).ports = s.ports := rfl

theorem receiverDetect_of_quiet (hl : portLive s p = true) (hd : s.ports[p].phy.state = .detect) :
    receiverDetect p 0 s = modPhy p (fun y => { y with
      since := (passTo (s.ports[p].phy.since + 1000000) s).hubTimer, acquireTimeouts := 0, trainFailedRaised := false })
      (passTo (s.ports[p].phy.since + 1000000) s) := by
  simp only [receiverDetect, hl, hd, and_self, if_true]

theorem receiverDetect_of_activity {activity : BitVec 16} (hl : portLive s p = true)
    (hd : s.ports[p].phy.state = .detect) (ha : activity ≠ 0) :
    receiverDetect p activity s = enterAcquire p (fun y =>
      latchTraining (passTo (s.ports[p].phy.since + 1000000) s) { y with gauge := .g10, climb := .up, stepId := 0 })
      (passTo (s.ports[p].phy.since + 1000000) s) := by
  simp only [receiverDetect, hl, hd, ha, and_self, if_true, if_false]

/-- The training failed at an ACQUIRE timeout, one more counted. -/
def acquireFailed (p : Fin 4) (s : State) : State :=
  failTraining p (modPhy p (fun y => { y with acquireTimeouts := s.ports[p].phy.acquireTimeouts + 1 })
    (passTo (s.ports[p].phy.since + 12000000) s))

theorem acquireTimeout_of_acquire (hl : portLive s p = true) (ha : s.ports[p].phy.state = .acquire)
    (hc : s.ports[p].phy.climb ≠ .recover) :
    acquireTimeout p s = if 2 ≤ s.ports[p].phy.acquireTimeouts ∧ s.ports[p].phy.trainFailedRaised = false then
      raise 0x1010 1 p [] (modPhy p (fun y => { y with trainFailedRaised := true }) (acquireFailed p s))
      else acquireFailed p s := by
  simp only [acquireTimeout, hl, ha, hc, and_self, if_true, if_false, Nat.reduceLeDiff, Nat.add_le_add_iff_right,
    Bool.not_eq_true', acquireFailed]

theorem stateTimeout_of_state {st : PortState} {t : Nat} {act : State → State} (hl : portLive s p = true)
    (h : s.ports[p].phy.state = st) : stateTimeout p st t act s = act (passTo (s.ports[p].phy.since + t) s) := by
  simp only [stateTimeout, hl, h, and_self, if_true]

theorem switchFails_of_leaving (hr : s.ports[p].phy.returning = false) :
    switchFails p s = if s.ports[p].phy.climb = .up then
      startSwitch p s.ports[p].phy.previous .back (modPhy p (fun y => { y with returning := true })
        (modPhy p (fun y => { y with rxMask := y.bestMask, txMask := y.bestMask }) s))
      else startSwitch p s.ports[p].phy.previous s.ports[p].phy.climb
        (modPhy p (fun y => { y with returning := true }) s) := by
  simp only [switchFails, hr, Bool.false_eq_true, if_false]
  cases s.ports[p].phy.climb <;> rfl

theorem newGaugeLock_of_clocked (hl : portLive s p = true) (hs : s.ports[p].phy.state = .switch)
    (hc : clocked s s.ports[p].phy.target = true) : newGaugeLock p s =
      enterAcquire p (fun y => { y with gauge := y.target, stepId := y.stepId + 1, returning := false }) s := by
  simp only [newGaugeLock, hl, hs, hc, and_self, if_true]

/-! ### The counts of CHECK -/

theorem announce_lane (x : Port) (i : Fin 16) :
    (announce x).lanes[i] = { x.lanes[i] with tx := laneTx x.phy i x.lanes[i] } := by
  simp only [announce, Fin.getElem_fin, Vector.getElem_mapFinIdx]

variable {threshold : Nat} {errors : List Nat}

theorem judgeLanes_phy : (judgeLanes p threshold errors s).ports[p].phy = { s.ports[p].phy with judged := true } := by
  unfold judgeLanes
  dsimp only
  rw [modPort_self]
  exact (modPhy_phy p _ _).trans (by rw [mapLanes_phy])

/-- What the count leaves of a lane. -/
theorem judgeLanes_lane (i : Fin 16) : ∃ tx, (judgeLanes p threshold errors s).ports[p].lanes[i] = { s.ports[p].lanes[i] with
    errCount := min (errors.getD i 0) 65535
    rxPass := !maskHas s.ports[p].phy.rxMask i || decide (errors.getD i 0 ≤ threshold)
    txPass := s.ports[p].lanes[i].txPass || !maskHas s.ports[p].phy.txMask i
    tx := tx } := by
  unfold judgeLanes mapLanes
  dsimp only
  rw [modPort_self, announce_lane, modPhy_port, modPort_self]
  simp only [Fin.getElem_fin, Vector.getElem_mapFinIdx]
  exact ⟨_, rfl⟩

theorem lanesAll_iff (x : Port) (m : BitVec 4) (f : Lane → Bool) :
    lanesAll x m f = true ↔ ∀ i : Fin 16, maskHas m i = true → f x.lanes[i] = true := by
  simp only [lanesAll, List.all_eq_true, List.mem_finRange, true_implies, Bool.or_eq_true, Bool.not_eq_true']
  refine forall_congr' fun i => ?_
  cases maskHas m i <;> simp

theorem lanesAll_congr {x y : Port} {f : Lane → Bool} (m : BitVec 4) (h : ∀ i : Fin 16, f x.lanes[i] = f y.lanes[i]) :
    lanesAll x m f = lanesAll y m f := by
  simp only [lanesAll, h]

/-- The count's verdicts stand, and it raised no acknowledgement. -/
theorem judgeLanes_acked (m : BitVec 4) :
    lanesAll (judgeLanes p threshold errors s).ports[p] m (·.acked) = lanesAll s.ports[p] m (·.acked) :=
  lanesAll_congr m fun i => by
    obtain ⟨tx, hl⟩ := judgeLanes_lane (p := p) (s := s) (threshold := threshold) (errors := errors) i
    rw [hl]

theorem judgeLanes_judges (i : Fin 16) :
    (judgeLanes p threshold errors s).ports[p].lanes[i].errCount = min (errors.getD i 0) 65535 ∧
      (maskHas s.ports[p].phy.rxMask i = true →
        (judgeLanes p threshold errors s).ports[p].lanes[i].rxPass = decide (errors.getD i 0 ≤ threshold)) := by
  obtain ⟨tx, hl⟩ := judgeLanes_lane (p := p) (s := s) (threshold := threshold) (errors := errors) i
  rw [hl]
  exact ⟨rfl, fun hm => by rw [hm]; rfl⟩

theorem checkDone_judged {acked : Bool} (h : lanesAll s.ports[p] s.ports[p].phy.rxMask (·.acked) = acked) :
    checkDone p (judgeLanes p threshold errors s) =
      if acked then if s.ports[p].phy.quick then quickEnd p (judgeLanes p threshold errors s)
        else stepEnd p (judgeLanes p threshold errors s)
      else judgeLanes p threshold errors s := by
  simp only [checkDone, judgeLanes_phy, judgeLanes_acked, h, Bool.true_and]

/-- A fallback CHECK in which every lane of the masks passes on both sides ends in ACTIVE. -/
theorem quickEnd_judged (hc : s.ports[p].phy.climb = .fallback)
    (hrx : ∀ i : Fin 16, maskHas s.ports[p].phy.rxMask i = true →
      errors.getD i 0 ≤ threshold ∧ s.ports[p].lanes[i].locked = true)
    (htx : ∀ i : Fin 16, maskHas s.ports[p].phy.txMask i = true → s.ports[p].lanes[i].txPass = true) :
    quickEnd p (judgeLanes p threshold errors s) = enterActive p (judgeLanes p threshold errors s) := by
  have hr : lanesAll (judgeLanes p threshold errors s).ports[p] s.ports[p].phy.rxMask
      (fun l => l.locked && l.rxPass) = true := by
    refine (lanesAll_iff _ _ _).2 fun i hm => ?_
    obtain ⟨tx, hl⟩ := judgeLanes_lane (p := p) (s := s) (threshold := threshold) (errors := errors) i
    obtain ⟨he, hk⟩ := hrx i hm
    rw [hl]
    simp only [hk, decide_eq_true he, Bool.or_true, Bool.and_self]
  have ht : lanesAll (judgeLanes p threshold errors s).ports[p] s.ports[p].phy.txMask (·.txPass) = true := by
    refine (lanesAll_iff _ _ _).2 fun i hm => ?_
    obtain ⟨tx, hl⟩ := judgeLanes_lane (p := p) (s := s) (threshold := threshold) (errors := errors) i
    rw [hl]
    simp only [htx i hm, Bool.true_or]
  simp only [quickEnd, judgeLanes_phy, hr, ht, hc, Bool.and_self, Bool.not_true, Bool.false_eq_true, if_false,
    reduceCtorEq]

theorem checkWindowEnd_of_check (hl : portLive s p = true) (hs : s.ports[p].phy.state = .check)
    (hc : clocked s s.ports[p].phy.gauge = true) (hq : s.ports[p].phy.quick = false) :
    checkWindowEnd p errors s = checkDone p (judgeLanes p (gaugeThreshold s.ports[p].phy.gauge) errors
      (passTo (s.ports[p].phy.since + 5000000) s)) := by
  simp only [checkWindowEnd, hl, hs, hc, hq, Bool.not_false, and_self, if_true]

theorem fallbackCheckEnd_of_check (hl : portLive s p = true) (hs : s.ports[p].phy.state = .check)
    (hc : clocked s s.ports[p].phy.gauge = true) (hq : s.ports[p].phy.quick = true) :
    fallbackCheckEnd p errors s = checkDone p (judgeLanes p (gaugeThreshold s.ports[p].phy.gauge / 5) errors
      (passTo (s.ports[p].phy.since + 1000000) s)) := by
  simp only [fallbackCheckEnd, quickThreshold, hl, hs, hc, hq, and_self, if_true]

end

/-- Settles O17. -/
theorem trainingTimeoutsAndChecks : Obligations.TrainingTimeoutsAndChecks := by
  refine ⟨fun p s hl => ⟨fun hd activity => ⟨fun ha => ?_, fun ha => ?_⟩, fun ha hc => ⟨fun hn hr => ?_, fun hn => ?_⟩,
    fun h => ?_, fun h => ?_, fun h => ⟨fun hr => ?_, fun hr hm hw => ?_, fun hr hm => ?_⟩,
    fun h => ⟨fun hq => ?_, fun hq => ?_⟩, fun h hr => ⟨fun hc => ?_, fun hc => ?_⟩, fun h hc => ?_⟩,
    fun p errors s hl hs hc =>
      ⟨fun hq => ⟨judgeLanes p (gaugeThreshold s.ports[p].phy.gauge) errors (passTo (s.ports[p].phy.since + 5000000) s),
        rfl, ⟨judgeLanes_phy, judgeLanes_judges⟩, fun ha => ?_, fun ha => ?_⟩,
       fun hq => ⟨judgeLanes p (gaugeThreshold s.ports[p].phy.gauge / 5) errors
        (passTo (s.ports[p].phy.since + 1000000) s),
        rfl, ⟨judgeLanes_phy, judgeLanes_judges⟩, fun ha => ?_, fun ha hf hrx htx => ?_⟩⟩⟩
  all_goals apply congrArg Host.Outcome.next
  · rw [ha]
    exact receiverDetect_of_quiet hl hd
  · exact receiverDetect_of_activity hl hd ha
  · exact (acquireTimeout_of_acquire hl ha hc).trans (if_pos ⟨hn, hr⟩)
  · refine (acquireTimeout_of_acquire hl ha hc).trans (if_neg fun hb => ?_)
    obtain ⟨hb, hf⟩ := hb
    rcases hn with hn | hn
    · omega
    · exact absurd (hf.symm.trans hn) (by decide)
  · exact stateTimeout_of_state hl h
  · exact stateTimeout_of_state hl h
  · refine (stateTimeout_of_state hl h).trans ?_
    simp only [eqFails, passTo_ports, hr, if_true]
  · refine (stateTimeout_of_state hl h).trans ?_
    simp only [eqFails, passTo_ports, hr, hm, Nat.not_lt.2 hw, or_self, Bool.false_eq_true, if_false]
  · refine (stateTimeout_of_state hl h).trans ?_
    simp only [eqFails, passTo_ports, hr, hm, Bool.false_eq_true, if_true, if_false]
  · refine (stateTimeout_of_state hl h).trans ?_
    simp only [checkFails, passTo_ports, hq, if_true]
  · refine (stateTimeout_of_state hl h).trans ?_
    simp only [checkFails, passTo_ports, hq, Bool.false_eq_true, if_false]
  · refine (stateTimeout_of_state hl h).trans ((switchFails_of_leaving (s := passTo _ s) hr).trans ?_)
    exact if_pos hc
  · refine (stateTimeout_of_state hl h).trans ((switchFails_of_leaving (s := passTo _ s) hr).trans ?_)
    exact if_neg hc
  · exact newGaugeLock_of_clocked hl h hc
  · rw [checkWindowEnd_of_check hl hs hc hq, checkDone_judged (s := passTo _ s) ha]
    rfl
  · rw [checkWindowEnd_of_check hl hs hc hq, checkDone_judged (s := passTo _ s) ha]
    simp only [passTo_ports, hq, Bool.false_eq_true, if_true, if_false]
  · rw [fallbackCheckEnd_of_check hl hs hc hq, checkDone_judged (s := passTo _ s) ha]
    rfl
  · rw [fallbackCheckEnd_of_check hl hs hc hq, checkDone_judged (s := passTo _ s) ha]
    simp only [passTo_ports, hq, if_true]
    exact quickEnd_judged (s := passTo _ s) hf hrx htx

end Sys2Proof.TrainingTimeouts
end

section
/-! PROOFS. Widths, electrical idle, the forwarded clock and lost lanes (O18). -/

namespace Sys2Proof.WidthsAndLoss

open Sys2Proof Sys2Proof.Machine Sys2Proof.Laws Sys2Proof.Safety Sys2Proof.PortRecords Sys2Proof.PortFields

section
variable {p : Fin 4} {s : State}

/-! ### Width -/

theorem laneLost_of_active {lane : Fin 16} {cause : LossCause} (hl : portLive s p = true)
    (ha : s.ports[p].phy.state = .active) (hc : causeLoses cause = true)
    (hm : s.ports[p].phy.rxMask.getLsbD (lane.val / 4) = true) :
    laneLost p .rx lane cause s =
      (let x := s.ports[p].phy
       let m := x.rxMask &&& ~~~(1#4 <<< (lane.val / 4))
       let u := countLoss p (lane.val / 4) (raise 0x1012 2 (16 * p.val + lane.val) []
         (modPhy p (restartStable s.hubTimer) (modLane p lane (fun l => { l with locked := false }) s)))
       if m = 0 ∨ maskLanes m < x.latched.widthMin then enterRecovery p u
       else raise 0x1013 1 p [] (askNarrow p m u)) := by
  simp only [laneLost, rxLaneLost, hl, ha, hc, hm, modLane_phy, ne_eq, not_true_eq_false, and_self, if_true, if_false]
  rfl

/-- A WIDTH_CHANGE message whose bits from 12 on are clear narrows. -/
theorem narrowing_bits {n : Nat} (h : bitsOf n 127 12 = 0) :
    bitAt n 12 = false ∧ bitsOf n 127 21 = 0 ∧ bitsOf n 20 13 = 0 := by
  simp only [bitsOf, bitAt, Nat.testBit, Nat.shiftRight_eq_div_pow, Nat.reducePow, Nat.reduceAdd, Nat.reduceSub,
    Nat.one_and_eq_mod_two, bne_eq_false_iff_eq] at h ⊢
  omega

theorem receiveWidth_of_narrow {msg : BitVec 128} (hl : portLive s p = true) (ha : s.ports[p].phy.state = .active)
    (hk : bitsOf msg.toNat 7 0 = 3) (hz : bitsOf msg.toNat 127 12 = 0) (hm : bitsOf msg.toNat 11 8 ≠ 0) :
    receiveWidth p msg s =
      (let m := BitVec.ofNat 4 (bitsOf msg.toNat 11 8)
       if maskLanes m < s.ports[p].phy.latched.widthMin then enterRecovery p s
       else raise 0x1013 1 p [] (modSend p (fun y =>
         let z := fillGroup y
         replayAll (leaveIdle (announce { z with
           phy := { z.phy with txMask := m }
           link := { z.link with widenAt := none } }))) s)) := by
  obtain ⟨hw, hh, hf⟩ := narrowing_bits hz
  have hm0 : BitVec.ofNat 4 (bitsOf msg.toNat 11 8) ≠ 0 := fun h => hm (by
    have h := congrArg BitVec.toNat h
    have hlt : bitsOf msg.toNat 11 8 < 16 := Nat.mod_lt _ (by decide)
    simp only [BitVec.toNat_ofNat, BitVec.ofNat_eq_ofNat, Nat.reducePow, Nat.zero_mod] at h
    omega)
  simp only [receiveWidth, hl, ha, hk, hw, hh, hf, hm0, Bool.not_true, Bool.not_false, Bool.false_eq_true, ne_eq,
    not_true_eq_false, or_self, and_false, if_false]

theorem widthRepeat_of_asked {m : BitVec 4} (hl : portLive s p = true) (ha : s.ports[p].phy.state = .active)
    (hw : s.ports[p].link.widthAsked = some (m, false)) :
    widthRepeat p s = modSend p (fun y => putLink [widthMessage m false 0] (leaveIdle y)) s := by
  simp only [widthRepeat, hw, hl, ha, and_self, if_true]

theorem groupRetrain_of_passed {g : Fin 4} {errors : List Nat} (hl : portLive s p = true)
    (ha : s.ports[p].phy.state = .active) (hm : s.ports[p].phy.rxMask.getLsbD g = false)
    (hr : s.ports[p].phy.retired.getLsbD g = false)
    (he : ∀ i < 4, errors.getD i 0 ≤ gaugeThreshold s.ports[p].phy.gauge) :
    groupRetrain p .rx g errors s = modPhy p (fun y => { y with
        stable := y.stable ||| (1#4 <<< g.val)
        stableSince := if y.stable.getLsbD g then y.stableSince else y.stableSince.set g s.hubTimer })
      (mapLanes p (fun i l => if i / 4 = g.val then { l with locked := true } else l) s) := by
  have hpass : ((List.range 4).all fun i => decide (errors.getD i 0 ≤ gaugeThreshold s.ports[p].phy.gauge)) = true :=
    List.all_eq_true.2 fun i hi => decide_eq_true (he i (List.mem_range.1 hi))
  simp only [groupRetrain, hl, ha, hm, hr, hpass, Bool.not_false, and_self, if_true, Bool.true_and]
  refine modPhy_congr ?_
  cases ((mapLanes p _ s).ports[p].phy.stable.getLsbD g) <;> rfl

theorem laneReadded_of_stable {g : Fin 4} (hl : portLive s p = true) (ha : s.ports[p].phy.state = .active)
    (hs : s.ports[p].phy.stable.getLsbD g = true) (hm : s.ports[p].phy.rxMask.getLsbD g = false)
    (hp : readdPending s.ports[p].link = false) :
    laneReadded p .rx g s =
      (let m := s.ports[p].phy.rxMask ||| (1#4 <<< g.val)
       modSend p (fun y => putLink [widthMessage m true (y.link.partnerFrame + 4)] (leaveIdle { y with
         link := { y.link with widthAsked := some (m, true), switchFrame := y.link.partnerFrame + 4 } }))
         (passTo (s.ports[p].phy.stableSince.getD g 0 + 1000000 * s.ports[p].phy.readdStableMs) s)) := by
  rcases hw : s.ports[p].link.widthAsked with _ | ⟨m, _ | _⟩
  case some.true => simp only [readdPending, hw, Bool.true_eq_false] at hp
  all_goals simp only [laneReadded, hl, ha, hs, hm, hw, Bool.not_false, and_self, if_true]

/-! ### Electrical idle and the forwarded clock -/

theorem idleEntry_of_quiet (hl : portLive s p = true) (ha : s.ports[p].phy.state = .active)
    (hi : s.ports[p].phy.txIdle = false) (hn : s.ports[p].phy.idleEntryNs ≠ 0) (hq : txQuiet s.ports[p] = true) :
    idleEntry p s = modPort p (fun x =>
      announce { squelch (sendSet 0xA6 0 1 x) with phy := { (squelch (sendSet 0xA6 0 1 x)).phy with txIdle := true } })
      s := by
  simp only [idleEntry, hl, ha, hi, hn, hq, Bool.not_false, ne_eq, not_false_eq_true, and_self, if_true]

theorem heartbeatStatus_of_active (hl : portLive s p = true) (ha : s.ports[p].phy.state = .active) :
    heartbeatStatus p s = pump p (modSend p leaveIdle s) := by
  simp only [heartbeatStatus, hl, ha, and_self, if_true]

theorem fckLost_of_g106 (hl : portLive s p = true) (ha : s.ports[p].phy.state = .active)
    (hg : s.ports[p].phy.gauge = .g106) (hr : s.device.refclk ≠ 1) :
    fckLost p s = startFallback p (modPort p (fun y => sendSet 0xA8 0 8 (leaveIdle y)) s) := by
  have hr' : (modPort p (fun y => sendSet 0xA8 0 8 (leaveIdle y)) s).device.refclk ≠ 1 := hr
  simp only [fckLost, fallBack, hl, ha, hg, hr', and_self, if_true, if_false]

theorem fckRestored_of_lost (hl : portLive s p = true) (hf : s.ports[p].phy.fckLost = true) :
    fckRestored p s =
      (let x := s.ports[p].phy
       let u := raise 0x1017 1 p [] (modPhy p (fun y => { y with fckLost := false }) s)
       if x.autoFckRestore ∧ x.state = .active ∧ x.gauge ≠ .g106 ∧ gaugeCommon x .g106 then
         startSwitch p .g106 .up (modPhy p (fun y => { y with
           bestGauge := y.gauge, bestMask := y.rxMask &&& y.txMask, retried := false }) u)
       else u) := by
  simp only [fckRestored, hl, hf, and_self, if_true]

/-! ### Lost lanes -/

theorem recoveryTimeout_of_recovery (hl : portLive s p = true) (hc : s.ports[p].phy.climb = .recover)
    (ha : s.ports[p].phy.state ≠ .active) : recoveryTimeout p s =
      lanesLostAll p (passTo (s.ports[p].phy.recoverSince + 1000000 * s.ports[p].phy.recoveryTimeoutMs) s) := by
  simp only [recoveryTimeout, hl, hc, ha, ne_eq, not_false_eq_true, and_self, if_true]

end

/-- Settles O18. -/
theorem widthIdleAndLaneLoss : Obligations.WidthIdleAndLaneLoss := by
  refine ⟨fun p s hl ha => ⟨fun lane cause hc hm => ⟨fun hw => ?_, fun h0 hw => ?_⟩,
    fun msg hk hz hm => ⟨fun hw => ?_, fun hw => ?_⟩, fun m hw => ?_, fun g errors hm hr he => ?_, fun g hs hm hp => ?_⟩,
    fun p s hl => ⟨fun ha hi hn hq => ?_, fun ha => ?_, fun ha hg hr => ?_,
      fun hf => ⟨fun hr => ?_, fun hr ha hg hc => ?_⟩, fun hs hi => ?_, fun hc ha => ?_⟩⟩
  case refine_8 =>
    refine ⟨_, congrArg Host.Outcome.next (idleEntry_of_quiet hl ha hi hn hq), ?_⟩
    rw [modPort_self]
    exact ⟨rfl, List.append_assoc _ _ _⟩
  all_goals apply congrArg Host.Outcome.next
  · exact (laneLost_of_active hl ha hc hm).trans (if_pos hw)
  · exact (laneLost_of_active hl ha hc hm).trans (if_neg (not_or.2 ⟨h0, Nat.not_lt.2 hw⟩))
  · exact (receiveWidth_of_narrow hl ha hk hz hm).trans (if_pos hw)
  · exact (receiveWidth_of_narrow hl ha hk hz hm).trans (if_neg (Nat.not_lt.2 hw))
  · exact widthRepeat_of_asked hl ha hw
  · exact groupRetrain_of_passed hl ha hm hr he
  · exact laneReadded_of_stable hl ha hs hm hp
  · exact heartbeatStatus_of_active hl ha
  · exact fckLost_of_g106 hl ha hg hr
  · exact (fckRestored_of_lost hl hf).trans (if_neg (by simp only [hr, Bool.false_eq_true, false_and, not_false_eq_true]))
  · exact (fckRestored_of_lost hl hf).trans (if_pos ⟨hr, ha, hg, hc⟩)
  · exact if_pos ⟨hl, hs, by rw [hi]; rfl⟩
  · exact recoveryTimeout_of_recovery hl hc ha

end Sys2Proof.WidthsAndLoss
end

section
/-! PROOFS. Flits as they are received (O19), and the link's own messages and timers (O20). -/

namespace Sys2Proof.LinkTraffic

open Sys2Proof Sys2Proof.Machine Sys2Proof.Laws Sys2Proof.Safety Sys2Proof.PortRecords Sys2Proof.PortFields

theorem foldl_ports {α : Type} (f : State → α → State) (h : ∀ s a, (f s a).ports = s.ports) (l : List α) (s : State) :
    (l.foldl f s).ports = s.ports := by
  induction l generalizing s with
  | nil => rfl
  | cons a l ih => exact (ih _).trans (h s a)

theorem noteTrigger_ports (c : Fin 32) (s : State) : (noteTrigger c s).ports = s.ports := by
  unfold noteTrigger
  split <;> rfl

theorem noteTriggers_ports (s : State) : (noteTriggers s).ports = s.ports :=
  foldl_ports _ (fun s c => noteTrigger_ports c s) _ s

section
variable {p : Fin 4} {s : State}

/-! ### Headers of flits -/

/-- What a good flit's header leaves of a link: its receive sequence and its sealing. -/
def SameReceive (l l' : LinkState) : Prop :=
  l'.rxNext = l.rxNext ∧ l'.sealOn = l.sealOn ∧ l'.partnerSealOn = l.partnerSealOn

theorem ackReplay_receive (ack : Nat) (l : LinkState) : SameReceive l (ackReplay ack l) := by
  unfold ackReplay
  split <;> exact ⟨rfl, rfl, rfl⟩

theorem receiveHeader_receive (ack credit : Nat) (panic : Bool) (s : State) :
    SameReceive s.ports[p].link (receiveHeader p ack credit panic s).ports[p].link := by
  have hports : (if s.ports[p].link.partnerPanic ∧ !panic then noteTriggers s else s).ports = s.ports := by
    split
    · exact noteTriggers_ports s
    · rfl
  have hack := ackReplay_receive ack (goodFlit s.hubTimer s.ports[p].link)
  unfold receiveHeader
  rw [modLink_link, hports]
  generalize ackReplay ack (goodFlit s.hubTimer s.ports[p].link) = l at hack
  exact hack

theorem corrected_receive (fixed : Bool) : SameReceive s.ports[p].link
    (if fixed then modLink p (fun l => { l with fecCorrected := sat32 l.fecCorrected }) s else s).ports[p].link := by
  cases fixed
  · exact ⟨rfl, rfl, rfl⟩
  · rw [if_pos rfl, modLink_link]
    exact ⟨rfl, rfl, rfl⟩

/-! ### A flit that its code corrects and whose CRC holds -/

/-- The state with a flit's header received. -/
def headed (p : Fin 4) (bs : List Byte) (fixed : Bool) (s : State) : State :=
  let h := natAt bs 0 4
  receiveHeader p (bitsOf h 25 17) (bitsOf h 31 26) (bitAt h 3)
    (if fixed then modLink p (fun l => { l with fecCorrected := sat32 l.fecCorrected }) s else s)

theorem headed_receive (bs : List Byte) (fixed : Bool) : SameReceive s.ports[p].link (headed p bs fixed s).ports[p].link := by
  obtain ⟨hn, hs, hp⟩ := corrected_receive (p := p) (s := s) fixed
  obtain ⟨hn', hs', hp'⟩ := receiveHeader_receive (p := p) (bitsOf (natAt bs 0 4) 25 17) (bitsOf (natAt bs 0 4) 31 26)
    (bitAt (natAt bs 0 4) 3)
    (if fixed then modLink p (fun l => { l with fecCorrected := sat32 l.fecCorrected }) s else s)
  exact ⟨hn'.trans hn, hs'.trans hs, hp'.trans hp⟩

/-- The slots of a flit. -/
def flitSlots (bs : List Byte) : List (BitVec 128) :=
  (List.range 15).map fun i => BitVec.ofNat 128 (natAt bs (4 + 16 * i) 16)

section
variable {flit bs : List Byte} {fixed : Bool} (hl : linkUp s p = true) (hr : retuneHolds s p = false)
  (hf : fecFlit flit = some (bs, fixed)) (hc : crc32c (bs.take 244) = natAt bs 244 4)
include hl hr hf hc

theorem receiveFlit_of_null (ht : bitsOf (natAt bs 0 4) 2 0 = 0) (hn : bitsOf (natAt bs 0 4) 7 4 = 0)
    (hs : bitsOf (natAt bs 0 4) 16 8 = 0) : receiveFlit p flit s = pump p (headed p bs fixed s) := by
  simp only [receiveFlit, goodFlitIn, hl, hr, hf, hc, ht, hn, hs, Bool.not_true, Bool.or_self, Bool.false_eq_true, ne_eq,
    not_true_eq_false, or_self, if_true, if_false]
  rfl

/-- A sequenced flit goes by its distance from the next sequence number. -/
theorem receiveFlit_of_sequenced {k : Nat} (ht : bitsOf (natAt bs 0 4) 2 0 = k) (hk : k = 1 ∨ k = 2 ∨ k = 3) :
    receiveFlit p flit s = pump p
      (let u := headed p bs fixed s
       let next := s.ports[p].link.rxNext
       let d := (bitsOf (natAt bs 0 4) 16 8 + 512 - next % 512) % 512
       if d = 0 then
         acceptFlit p { ftype := k, seq := next, count := bitsOf (natAt bs 0 4) 7 4, slots := flitSlots bs } u
       else if 256 ≤ d then u else sendNak p false u) := by
  have h0 : ¬k = 0 := by omega
  have h4 : ¬k = 4 := by omega
  have h5 : ¬4 < k := by omega
  obtain ⟨hnext, -, -⟩ := headed_receive (p := p) (s := s) bs fixed
  unfold headed at hnext
  dsimp only at hnext
  simp only [receiveFlit, goodFlitIn, hl, hr, hf, hc, ht, h0, h4, h5, hnext, Bool.not_true, Bool.or_self,
    Bool.false_eq_true, ne_eq, not_true_eq_false, if_false]
  rfl

end

/-- The state with the next sequenced flit taken. -/
def sequenced (p : Fin 4) (u : State) : State :=
  modLink p (fun l => { l with rxNext := l.rxNext + 1, nakAt := none, ackOwed := true }) u

/-- The link is sealed on both sides. -/
def linkSealed (p : Fin 4) (u : State) : Bool := u.ports[p].link.sealOn && u.ports[p].link.partnerSealOn

theorem acceptFlit_of_open {f : Flit} (hs : linkSealed p s = false) (ht : f.ftype ≠ 3) (hn : f.count ≠ 0) :
    acceptFlit p f s = executeFlit p (sequenced p s) f := by
  unfold linkSealed at hs
  simp only [acceptFlit, hs, ht, hn, Bool.false_eq_true, and_false, false_and, or_self, if_false]
  rfl

theorem acceptFlit_of_sealed {f : Flit} (hs : linkSealed p s = true) (ht : f.ftype ≠ 3) (hn : f.count ≠ 0) :
    acceptFlit p f s = modLink p (fun l => { l with rxGroup := l.rxGroup ++ [f] }) (sequenced p s) := by
  unfold linkSealed at hs
  simp only [acceptFlit, hs, ht, hn, and_false, false_and, or_self, if_true, if_false]
  rfl

theorem acceptFlit_of_tag {f : Flit} (hs : linkSealed p s = true) (ht : f.ftype = 3) (hn : f.count = 2) :
    acceptFlit p f s = receiveTag p f.slots (sequenced p s) := by
  unfold linkSealed at hs
  simp only [acceptFlit, hs, ht, hn, ne_eq, not_true_eq_false, Bool.not_true, Bool.false_eq_true, false_and, and_false,
    or_self, decide_true, Bool.and_self, if_true, if_false]
  rfl

end

theorem sequence_distance_of_next {n m : Nat} (h : n = m % 512) : (n + 512 - m % 512) % 512 = 0 := by omega

/-- Settles O19. -/
theorem flitsAreReceived : Obligations.FlitsAreReceived := by
  intro p flit bs fixed s hl hr hf hc
  obtain ⟨-, hown, hpartner⟩ := headed_receive (p := p) (s := s) bs fixed
  have hsealed : linkSealed p (headed p bs fixed s) = linkSealed p s := by
    unfold linkSealed
    rw [hown, hpartner]
  have hdata : ∀ {k : Nat}, k = 1 ∨ k = 2 → k = 1 ∨ k = 2 ∨ k = 3 := fun h => by omega
  have hkind : ∀ {k : Nat}, k = 1 ∨ k = 2 → k ≠ 3 := fun h => by omega
  refine ⟨fun ht hn hs => ?_, fun ht hs hn hq => ?_, fun ht hs hn hq => ?_, fun ht hd => ?_, fun ht h0 hd => ?_,
    fun ht hs hn hq => ?_⟩
  all_goals apply congrArg Host.Outcome.next
  · exact receiveFlit_of_null hl hr hf hc ht hn hs
  · refine (receiveFlit_of_sequenced hl hr hf hc rfl (hdata ht)).trans (congrArg (pump p) ?_)
    exact (if_pos (sequence_distance_of_next hq)).trans (acceptFlit_of_open (hsealed.trans hs) (hkind ht) hn)
  · refine (receiveFlit_of_sequenced hl hr hf hc rfl (hdata ht)).trans (congrArg (pump p) ?_)
    exact (if_pos (sequence_distance_of_next hq)).trans (acceptFlit_of_sealed (hsealed.trans hs) (hkind ht) hn)
  · refine (receiveFlit_of_sequenced hl hr hf hc rfl (hdata ht)).trans (congrArg (pump p) ?_)
    exact (if_neg (by omega)).trans (if_pos hd)
  · refine (receiveFlit_of_sequenced hl hr hf hc rfl (hdata ht)).trans (congrArg (pump p) ?_)
    exact (if_neg (by omega)).trans (if_neg (by omega))
  · refine (receiveFlit_of_sequenced hl hr hf hc ht (by decide)).trans (congrArg (pump p) ?_)
    exact (if_pos (sequence_distance_of_next hq)).trans (acceptFlit_of_tag (hsealed.trans hs) rfl hn)

/-! ### Messages and timers -/

section
variable {p : Fin 4} {s : State}

/-- What a STATUS message says, taken into the link (R124). -/
def statusTaken (now n : Nat) (l : LinkState) : LinkState :=
  { goodFlit now l with
    partnerFrame := BitVec.ofNat 8 (bitsOf n 15 8)
    partnerUnits := if l.partnerUnits % 65536 = bitsOf n 31 16 then l.partnerUnits
      else l.partnerUnits - l.partnerUnits % 65536 + bitsOf n 31 16
    lastCredit := BitVec.ofNat 6 (bitsOf n 31 16)
    partnerSealOn := bitAt n 41
    rxSalt := BitVec.ofNat 32 (bitsOf n 95 64) }

theorem receiveStatus_of_status {msg : BitVec 128} (hl : linkUp s p = true) (hk : bitsOf msg.toNat 7 0 = 1)
    (hm : bitsOf msg.toNat 63 47 = 0) (hz : bitsOf msg.toNat 127 96 = 0) :
    receiveStatus p msg s = pump p (widenReceive p (modLink p (statusTaken s.hubTimer msg.toNat) s)) := by
  simp only [receiveStatus, hl, hk, hm, hz, Bool.not_true, Bool.false_eq_true, ne_eq, not_true_eq_false, or_self,
    if_false]
  rfl

/-- The credit total of a STATUS message is the partner's total modulo 2^16 (R126). -/
theorem statusTaken_units (now n : Nat) (l : LinkState) : (statusTaken now n l).partnerUnits % 65536 = bitsOf n 31 16 := by
  have hlt : bitsOf n 31 16 < 65536 := Nat.mod_lt _ (by decide)
  unfold statusTaken
  dsimp only
  split <;> omega

theorem receiveNak_of_nak {msg : BitVec 128} (hl : linkUp s p = true) (hk : bitsOf msg.toNat 7 0 = 2)
    (hz : bitsOf msg.toNat 127 18 = 0) : receiveNak p msg s =
      pump p (replayPort p (modLink p (fun l => ackReplay (bitsOf msg.toNat 16 8) (goodFlit s.hubTimer l)) s)) := by
  simp only [receiveNak, hl, hk, hz, Bool.not_true, Bool.false_eq_true, ne_eq, not_true_eq_false, or_self, if_false]

theorem replayPort_of_open (hr : s.ports[p].link.replay ≠ []) : replayPort p s =
    if 4 ≤ s.ports[p].link.replays then
      enterRecovery p (raise 0x1036 1 p [] (modLink p (fun l => { l with replays := 0 }) s))
    else modSend p (fun x => replayAll (leaveIdle { x with link := { x.link with
      replays := x.link.replays + 1, replayCount := sat32 x.link.replayCount } })) s :=
  if_neg (by rw [List.isEmpty_iff]; exact hr)

theorem ackDue_of_owed (hl : linkUp s p = true) (ho : s.ports[p].link.ackOwed = true)
    (hp : (pump p s).ports[p].link.ackOwed = true) :
    ackDue p s = modSend p (fun x => putNull (leaveIdle x)) (pump p s) := by
  simp only [ackDue, hl, ho, hp, and_self, if_true]

theorem portLive_of_linkUp (hl : linkUp s p = true) : portLive s p = true := (Bool.and_eq_true _ _ ▸ hl).1

theorem heartbeatTimeout_of_attached (hl : portLive s p = true) (ha : s.ports[p].partnerState = .attached)
    (hh : heartbeatRuns s.ports[p].phy = true) :
    heartbeatTimeout p s = detachPort p 0 (passTo (s.ports[p].link.lastGood + 1000000) s) := by
  simp only [heartbeatTimeout, hl, ha, hh, and_self, if_true]

end

/-- Settles O20. -/
theorem linkMessagesTakeEffect : Obligations.LinkMessagesTakeEffect := by
  intro p msg s hl
  refine ⟨fun hk hm hz => ⟨_, congrArg Host.Outcome.next (receiveStatus_of_status hl hk hm hz), modLink_phy _ _ _, ?_⟩,
    fun hk hz => congrArg Host.Outcome.next (receiveNak_of_nak hl hk hz), fun hr hn => ?_, fun hr hn => ?_,
    fun ho hp => congrArg Host.Outcome.next (ackDue_of_owed hl ho hp),
    fun ha hh => congrArg Host.Outcome.next (heartbeatTimeout_of_attached (portLive_of_linkUp hl) ha hh)⟩
  · rw [modLink_link]
    exact ⟨rfl, statusTaken_units _ _ _, rfl, rfl⟩
  · exact congrArg Host.Outcome.next ((if_pos hl).trans ((replayPort_of_open hr).trans (if_neg (by omega))))
  · exact congrArg Host.Outcome.next ((if_pos hl).trans ((replayPort_of_open hr).trans (if_pos hn)))

end Sys2Proof.LinkTraffic
end

section
/-! PROOFS. Partners attach and detach (O23). -/

namespace Sys2Proof.Partners

open Sys2Proof Sys2Proof.Machine Sys2Proof.Laws Sys2Proof.Safety

section
variable {p : Fin 4} {msg : BitVec 512} {s : State}

/-- The acknowledgement of a HELLO queued (R134). -/
def ackHello (p : Fin 4) (msg : BitVec 512) (res rebound : Nat) (u : State) : State :=
  modLink p (fun l => { l with txMgmt := l.txMgmt ++
    [helloAck u res (bitsOf msg.toNat 23 16) rebound (BitVec.ofNat 64 (bitsOf msg.toNat 127 64))] }) u

theorem receiveHello_of_linked (hl : portLive s p = true) (hk : bitsOf msg.toNat 7 0 = 0x10)
    (ha : s.ports[p].link.authFailed = false) (hs : s.ports[p].partnerState = .linked) :
    receiveHello p msg s = answerHello p msg s := by
  simp only [receiveHello, hl, hk, ha, hs, Bool.not_true, Bool.false_eq_true, ne_eq, not_true_eq_false, if_false]

theorem receiveHello_of_attached (hl : portLive s p = true) (hk : bitsOf msg.toNat 7 0 = 0x10)
    (ha : s.ports[p].link.authFailed = false) (hs : s.ports[p].partnerState = .attached) :
    receiveHello p msg s = modPort p (fun x => { x with waitingHello := some msg }) (detachPort p 7 s) := by
  simp only [receiveHello, hl, hk, ha, hs, Bool.not_true, Bool.false_eq_true, ne_eq, not_true_eq_false, if_false]

/-! ### The answer to a HELLO by its result -/

theorem answerHello_of_ok (h : helloResult s p msg = 0) : answerHello p msg s =
    raise 0x1030 1 p [] (pump p (ackHello p msg 0 (attachPartner p msg s).1 (attachPartner p msg s).2)) := by
  simp only [answerHello, h, if_true]
  rfl

theorem answerHello_of_refused (h : helloResult s p msg ∈ [1, 3, 4]) : answerHello p msg s =
    pump p (ackHello p msg (helloResult s p msg) 0 s) := by
  have hr : helloResult s p msg = 1 ∨ helloResult s p msg = 3 ∨ helloResult s p msg = 4 := by simpa using h
  have h0 : ¬helloResult s p msg = 0 := by omega
  have h2 : ¬helloResult s p msg = 2 := by omega
  have h5 : ¬helloResult s p msg = 5 := by omega
  simp only [answerHello, h0, h2, h5, if_false]
  rfl

theorem answerHello_of_mismatch (h : helloResult s p msg = 2) : answerHello p msg s =
    pump p (ackHello p msg 2 0 (countMismatch p s)) := by
  simp only [answerHello, h, Nat.reduceEqDiff, if_true, if_false]
  rfl

theorem answerHello_of_unsealed (h : helloResult s p msg = 5) : answerHello p msg s =
    pump p (ackHello p msg 5 0 (raise 0x1038 1 p [] s)) := by
  simp only [answerHello, h, Nat.reduceEqDiff, if_true, if_false]
  rfl

/-! ### Timers and the end of an attachment -/

theorem helloTimeout_of_linked (hs : s.ports[p].partnerState = .linked) : helloTimeout p s =
    raise 0x1032 1 p [] (passTo (s.ports[p].linkedAt + 1000000 * s.ports[p].link.helloTimeoutMs) s) := by
  simp only [helloTimeout, hs, if_true]

theorem lockoutEnd_of_locked {t : Nat} (h : s.ports[p].lockedUntil = some t) :
    lockoutEnd p s = modPort p (fun x => { x with lockedUntil := none }) (passTo t s) := by
  simp only [lockoutEnd, h]

theorem receiveDetach_of_attached (hs : s.ports[p].partnerState = .attached) :
    receiveDetach p s = modPort p (fun x => { x with draining := true }) s := if_pos hs

theorem detachAck_of_drained (hs : s.ports[p].partnerState = .attached) (hd : s.ports[p].draining = true)
    (he : drained s.ports[p] = true) : detachAck p s =
      detachPort p 2 (pump p (modLink p (fun l => { l with txMgmt := l.txMgmt ++ [[0x13]] }) s)) := by
  simp only [detachAck, hs, hd, he, and_self, if_true]

/-- The port freed at the end of a cleanup. -/
def cleaned (p : Fin 4) (s : State) : State :=
  modPort p (fun x => { x with
    partnerState := if s.ports[p].link.session then .linked else .down, linkedAt := s.hubTimer, waitingHello := none }) s

theorem cleanupDone_of_none (hs : s.ports[p].partnerState = .detaching) (hw : s.ports[p].waitingHello = none) :
    cleanupDone p s = cleaned p s := by
  simp only [cleanupDone, hs, hw, ne_eq, not_true_eq_false, if_false]
  rfl

theorem cleanupDone_of_waiting {m : BitVec 512} (hs : s.ports[p].partnerState = .detaching)
    (hw : s.ports[p].waitingHello = some m) (hu : s.ports[p].link.session = true) :
    cleanupDone p s = receiveHello p m (cleaned p s) := by
  simp only [cleanupDone, cleaned, hs, hw, hu, ne_eq, not_true_eq_false, if_true, if_false]

theorem eventOverflow_of_room (hd : s.ports[p].recordsDropped ≠ 0) (hr : s.ports[p].records.length < 64) :
    eventOverflow p s = pump p (raise 0x1039 1 p [itCount s.ports[p].recordsDropped]
      (modPort p (fun x => { x with recordsDropped := 0 }) s)) := by
  simp only [eventOverflow, hd, hr, ne_eq, not_false_eq_true, and_self, if_true]

end

/-- Settles O23. -/
theorem partnersAttachAndDetach : Obligations.PartnersAttachAndDetach := by
  refine ⟨fun p msg s => ⟨fun hl hk ha => ⟨fun hs hr => ?_, fun hs hr => ?_, fun hs hr => ?_, fun hs hr => ?_, fun hs => ?_⟩,
    fun hs => ?_, fun t h => ?_⟩,
    fun p s => ⟨fun hs => ?_, fun hs hd he => ?_, fun hs => ⟨fun hw => ?_, fun m hw hu => ?_⟩, fun hd hr => ?_⟩⟩
  all_goals apply congrArg Host.Outcome.next
  · exact (receiveHello_of_linked hl hk ha hs).trans (answerHello_of_ok hr)
  · exact (receiveHello_of_linked hl hk ha hs).trans (answerHello_of_refused hr)
  · exact (receiveHello_of_linked hl hk ha hs).trans (answerHello_of_mismatch hr)
  · exact (receiveHello_of_linked hl hk ha hs).trans (answerHello_of_unsealed hr)
  · exact receiveHello_of_attached hl hk ha hs
  · exact helloTimeout_of_linked hs
  · exact lockoutEnd_of_locked h
  · exact receiveDetach_of_attached hs
  · exact detachAck_of_drained hs hd he
  · exact cleanupDone_of_none hs hw
  · exact cleanupDone_of_waiting hs hw hu
  · exact eventOverflow_of_room hd hr

end Sys2Proof.Partners
end

section
/-! PROOFS. Sensors, throttling, the governor and the flow test (O35). -/

namespace Sys2Proof.ThermalLoops

open Sys2Proof Sys2Proof.Machine Sys2Proof.Laws Sys2Proof.Safety Sys2Proof.PortRecords

/-! ### Pulses leave the fuses -/

@[simp] theorem raise_fuses (code kind num : Nat) (items : List (Nat × Nat)) (s : State) :
    (raise code kind num items s).fuses = s.fuses := by
  obtain ⟨_, _, _, h⟩ := raise_eq code kind num items s
  rw [h]

theorem crossingOverrun_fuses (n : Nat) (s : State) : (crossingOverrun n s).fuses = s.fuses := by
  unfold crossingOverrun
  dsimp only
  split
  · exact raise_fuses ..
  · exact raise_fuses ..

theorem takePulses_fuses (s : State) (e : Nat × Nat) : (takePulses s e).fuses = s.fuses := by
  unfold takePulses
  split
  · rfl
  · dsimp only
    rw [apply_ite State.fuses, crossingOverrun_fuses, ite_self]
    rfl

theorem samplePulses_fuses (pulses : List (Nat × Nat)) (s : State) : (samplePulses pulses s).fuses = s.fuses := by
  have hfold (l : List (Nat × Nat)) (u : State) : (l.foldl takePulses u).fuses = u.fuses := by
    induction l generalizing u with
    | nil => rfl
    | cons e l ih => exact (ih _).trans (takePulses_fuses u e)
  exact hfold _ _

theorem sensorOffset_congr {s t : State} (h : t.fuses = s.fuses) (k : Fin 17) : sensorOffset t k = sensorOffset s k := by
  unfold sensorOffset
  rw [h]

/-! ### The governor and the coolant -/

section
variable {s : State}

theorem governorWindow_eq (p fix : Nat) (quarters : List Nat) (s : State) :
    governorWindow p fix quarters s =
      (let r := governorStep (capDw s) p fix s.thermal.governorPct s.thermal.calmWindows
       let t := recomputeLedger s (modThermal (fun t => { t with
         powerEstDw := min p 65535, quarterDw := quarters, governorPct := r.1, calmWindows := r.2 }) s)
       if capDw s < (fix : Int) then raiseLimited 0x8028 0 0 (fun _ => []) t else t) := rfl

/-- The mean temperature of the dies but TS0. -/
def meanTemperature (s : State) : Int :=
  ((List.finRange 17).filter fun k => k.val ≠ 0).foldl (fun t k => t + s.sensors[k].value) 0

/-- The temperature rose since the oldest entry of the history where the power does not explain it. -/
def FlowRose (s : State) : Prop :=
  ∃ m q, s.thermal.history[1999]? = some (m, q) ∧
    ((256 * s.thermal.flowLossRate : Nat) : Int) < 10 * (meanTemperature s - m) ∧ s.thermal.powerEstDw ≤ q + 50

/-- The flow test's own judgement. -/
def flowRises (s : State) : Bool :=
  match s.thermal.history[1999]? with
  | some (m, q) => decide (((256 * s.thermal.flowLossRate : Nat) : Int) < 10 * (meanTemperature s - m)) &&
      !decide (q + 50 < s.thermal.powerEstDw)
  | none => false

theorem flowRises_iff : flowRises s = true ↔ FlowRose s := by
  unfold flowRises FlowRose
  rcases s.thermal.history[1999]? with _ | ⟨m, q⟩
  · simp
  · simp only [Option.some.injEq, Prod.mk.injEq, exists_and_left, ↓existsAndEq, true_and, Bool.and_eq_true,
      Bool.not_eq_true', decide_eq_true_eq, decide_eq_false_iff_not, Nat.not_lt]

theorem flowTest_eq (s : State) : flowTest s =
    (let t := modThermal (fun t => { t with
       history := ((meanTemperature s, s.thermal.powerEstDw) :: t.history).take 2000 }) s
     if flowRises s && !s.thermal.flowLow then watchEmergency s (flowCool (recomputeLedger s (raise 0x8026 0 0 []
       (modThermal (fun t => { t with flowLow := true, flowCoolSince := none }) t)))) else t) := rfl

theorem coolantOk_of_cool {t : Nat} (h : s.thermal.flowCoolSince = some t) (hl : s.thermal.flowLow = true) :
    coolantOk s = raise 0x8027 0 0 [] (modThermal (fun t => { t with flowLow := false, flowCoolSince := none })
      (passTo (t + 60 * secondNs) s)) := by
  simp only [coolantOk, h, hl, if_true]

theorem coolantOk_of_not_cool (h : s.thermal.flowCoolSince = none ∨ s.thermal.flowLow = false) : coolantOk s = s := by
  unfold coolantOk
  rcases h with h | h
  · rw [h]
  · rw [h]
    split <;> rfl

end

/-- Settles O35. -/
theorem thermalLoopsRun : Obligations.ThermalLoopsRun := by
  intro s
  refine ⟨fun k reading hk => ⟨fun r hr => ?_, fun hr => ?_⟩, fun k reading hk => ?_, rfl,
    fun p fix quarters => ⟨fun hc => ?_, fun hc => ?_⟩, rfl, ⟨fun hn => ?_, fun hr hl => ?_⟩, fun t ht hl => ?_, fun h => ?_⟩
  all_goals apply congrArg Host.Outcome.next
  · rw [if_pos hk]
    unfold sensorSample
    simp only [hr, sensorOffset_congr (samplePulses_fuses reading.pulses _) k]
    rfl
  · rw [if_pos hk]
    unfold sensorSample
    simp only [hr]
  · exact if_neg hk
  · exact if_neg (not_lt.2 hc)
  · exact if_pos hc
  · refine (flowTest_eq s).trans (if_neg ?_)
    rw [Bool.and_eq_true, flowRises_iff, Bool.not_eq_true']
    rintro ⟨hr, hl⟩
    rcases hn with hn | hn
    · exact hn hr
    · exact absurd (hl.symm.trans hn) (by decide)
  · refine (flowTest_eq s).trans (if_pos ?_)
    rw [Bool.and_eq_true, flowRises_iff, Bool.not_eq_true']
    exact ⟨hr, hl⟩
  · exact coolantOk_of_cool ht hl
  · exact coolantOk_of_not_cool h

end Sys2Proof.ThermalLoops
end

section
/-! PROOFS. Reference clock, PLLs and rails (O36). -/

namespace Sys2Proof.ClocksAndRails

open Sys2Proof Sys2Proof.Machine Sys2Proof.Laws Sys2Proof.Safety

/-! ### Clocks -/

section
variable {s : State}

theorem pllUnlock_of_quarter {q : Fin 4} (hd : devReady s = true) (hl : s.quarters[q].pllLocked = true) :
    pllUnlock (.quarter q) s =
      isolateQuarter q 2 0x001A (raise 0x001A 5 q [] (modQuarter q (fun x => { x with pllLocked := false }) s)) := by
  simp only [pllUnlock, hd, hl, Bool.not_true, Bool.false_eq_true, if_true, if_false]

theorem pllUnlock_of_hub (hd : devReady s = true) :
    pllUnlock .hub s = fatalNow 4 0x001A (raiseAs 0x001A 3 3 0 0 [] s) := by
  simp only [pllUnlock, hd, Bool.not_true, Bool.false_eq_true, if_false]
  rfl

theorem pllUnlock_of_management (hd : devReady s = true) :
    pllUnlock .management s = fatalNow 4 0x001A (raiseAs 0x001A 3 3 0 0 [] s) := by
  simp only [pllUnlock, hd, Bool.not_true, Bool.false_eq_true, if_false]
  rfl

/-! ### Rails -/

/-- A rail's fault counted, marked and reported. -/
def railMarked (r : Rail) (mv : Nat) (s : State) : State :=
  raise 0x0030 0 0 [itReason (railCode r), itCount mv]
    (setRail r true (modDevice (fun d => { d with railFaults := sat32 d.railFaults }) s))

/-- What a marked fault does by its rail. -/
def railEffect (r : Rail) (u : State) : State :=
  match r with
  | .vddSd => losePorts u
  | .vddSdh => losePorts u
  | .vddIo => u
  | .vfuse => modFuses (fun f => { f with vfuseOk := false }) (cutBurns false .failed u)
  | .vddCore => vitalFault .vddCore (cutBurns false .failed u)
  | .vddSram => vitalFault .vddSram (cutBurns false .failed u)
  | .vddDram => vitalFault .vddDram (cutBurns false .failed u)
  | .vpp => vitalFault .vpp (cutBurns false .failed u)

theorem railFault_of_good {r : Rail} {mv : Nat} (h : railFaulted s r = false) :
    railFault r mv s = railEffect r (railMarked r mv s) := by
  unfold railFault
  rw [if_neg (Bool.eq_false_iff.1 h)]
  cases r <;> rfl

/-- A rail unmarked leaves the other rails' bits and clears its own. -/
theorem setRail_bit {r : Rail} {i : Nat} (hi : i < 8) :
    (setRail r false s).device.railState.getLsbD i = (s.device.railState.getLsbD i && decide (i ≠ railCode r)) := by
  simp only [setRail, modDevice, Bool.false_eq_true, if_false, BitVec.getLsbD_and, BitVec.getLsbD_not,
    BitVec.getLsbD_shiftLeft, BitVec.getLsbD_one, hi, decide_true, Bool.true_and]
  by_cases h : i = railCode r
  · subst h
    simp
  · by_cases hlt : i < railCode r
    · simp [h, hlt]
    · simp [h, hlt, show i - railCode r ≠ 0 by omega]

/-- A rail that feeds no SerDes. -/
def feedsNoSerdes (r : Rail) : Bool := decide (railCode r ≠ 2) && decide (railCode r ≠ 3)

theorem serdesUp_congr {t u : State} (h : u.device = t.device) : serdesUp u = serdesUp t := by
  unfold serdesUp
  rw [h]

theorem serdesUp_of_other {r : Rail} (h : feedsNoSerdes r = true) : serdesUp (setRail r false s) = serdesUp s := by
  simp only [feedsNoSerdes, Bool.and_eq_true, decide_eq_true_eq] at h
  obtain ⟨h2, h3⟩ := h
  simp only [serdesUp, setRail_bit, Nat.reduceLT, ne_eq, h2.symm, h3.symm, not_false_eq_true, decide_true,
    Bool.and_true]

/-- The return of a rail that feeds no SerDes starts no port. -/
theorem railReturn_of_other {r : Rail} (hn : feedsNoSerdes r = true) (h : railFaulted s r = true) :
    railReturn r s = if r = .vfuse then modFuses (fun f => { f with vfuseOk := true }) (setRail r false s)
      else setRail r false s := by
  have hup : serdesUp (if r = .vfuse then modFuses (fun f => { f with vfuseOk := true }) (setRail r false s)
      else setRail r false s) = serdesUp s :=
    (serdesUp_congr (by split <;> rfl)).trans (serdesUp_of_other hn)
  simp only [railReturn, h, hup, Bool.not_true, Bool.not_and_self, Bool.false_eq_true, if_false]

theorem serdesDown_of_faulted {r : Rail} (hr : r ∈ [Rail.vddSd, .vddSdh]) (h : railFaulted s r = true) :
    serdesUp s = false := by
  unfold railFaulted at h
  unfold serdesUp
  simp only [List.mem_cons, List.not_mem_nil, or_false] at hr
  rcases hr with rfl | rfl
  · rw [show s.device.railState.getLsbD 2 = true from h]
    rfl
  · rw [show s.device.railState.getLsbD 3 = true from h, Bool.not_true, Bool.and_false]

theorem railReturn_of_serdes {r : Rail} (hr : r ∈ [Rail.vddSd, .vddSdh]) (h : railFaulted s r = true) :
    railReturn r s = if serdesUp (setRail r false s) = true then (List.finRange 4).foldl (fun s (p : Fin 4) =>
      if portLive s p = true then toDetect p s else s) (setRail r false s) else setRail r false s := by
  have hv : ¬r = .vfuse := by
    rintro rfl
    exact absurd hr (by decide)
  simp only [railReturn, h, hv, serdesDown_of_faulted hr h, Bool.not_true, Bool.not_false, Bool.true_and,
    Bool.false_eq_true, if_false]

theorem vfusePresent_of_due {t mv : Nat} (ht : s.fuses.vfuseRaised = some t) (hd : t + hourNs ≤ s.hubTimer)
    (hv : 300 < mv) (hr : fuseRuns s = false) :
    vfusePresent mv s = raise 0x0031 0 0 [itReason 7, itCount mv]
      (modFuses (fun f => { f with vfuseRaised := some s.hubTimer }) s) := by
  simp only [vfusePresent, ht, hd, hv, hr, decide_true, Bool.not_false, Bool.and_self, if_true]
  rfl

end

/-- Settles O36. -/
theorem clocksAndRailsFailAndReturn : Obligations.ClocksAndRailsFailAndReturn := by
  refine ⟨fun s => ⟨fun h => ?_, fun h => ?_, fun h => ?_, fun hd => ⟨fun q hl => ?_, ?_, ?_⟩⟩,
    fun mv s => ⟨fun h => ?_, fun r hr h => ?_, fun r hr h => ?_, fun h => ?_, fun r hr h => ?_, fun h => ?_,
      fun r hr h => ⟨fun hu => ?_, fun hu => ?_⟩, fun t ht hd hv hr => ?_⟩⟩
  all_goals apply congrArg Host.Outcome.next
  · exact if_neg h
  · exact if_pos h
  · exact if_pos h
  · exact pllUnlock_of_quarter hd hl
  · exact pllUnlock_of_hub hd
  · exact pllUnlock_of_management hd
  · exact railFault_of_good h
  · refine (railFault_of_good h).trans ?_
    simp only [List.mem_cons, List.not_mem_nil, or_false] at hr
    rcases hr with rfl | rfl <;> rfl
  · refine (railFault_of_good h).trans ?_
    simp only [List.mem_cons, List.not_mem_nil, or_false] at hr
    rcases hr with rfl | rfl | rfl | rfl <;> rfl
  · exact railFault_of_good h
  · simp only [List.mem_cons, List.not_mem_nil, or_false] at hr
    rcases hr with rfl | rfl | rfl | rfl | rfl <;> exact railReturn_of_other rfl h
  · exact railReturn_of_other rfl h
  · exact (railReturn_of_serdes hr h).trans (if_neg (Bool.eq_false_iff.1 hu))
  · exact (railReturn_of_serdes hr h).trans (if_pos hu)
  · exact vfusePresent_of_due ht hd hv hr

end Sys2Proof.ClocksAndRails
end

section
/-! PROOFS. Resets of the cores, the end of tasks and of a second's suppression (O37). -/

namespace Sys2Proof.CoresAndTasks

open Sys2Proof Sys2Proof.Machine Sys2Proof.Laws Sys2Proof.Safety

section
variable {s : State}

theorem lockstepReset_of_first (hc : coresRun s = true)
    (hf : ∀ t, s.firmware.lockstepAt = some t → t + secondNs < s.hubTimer) : lockstepReset s =
      coreReset 0x9011 (modFirmware (fun x => { x with lockstepAt := some s.hubTimer }) s) := by
  simp only [lockstepReset, hc, Bool.not_true, Bool.false_eq_true, if_false]
  cases ht : s.firmware.lockstepAt with
  | none => rfl
  | some t => exact if_neg (by simpa using hf t ht)

theorem lockstepReset_of_second {t : Nat} (hc : coresRun s = true) (ht : s.firmware.lockstepAt = some t)
    (hs : s.hubTimer ≤ t + secondNs) : lockstepReset s =
      fatalNow 3 0x9011 (coreReset 0x9011 (modFirmware (fun x => { x with lockstepAt := some s.hubTimer }) s)) := by
  simp only [lockstepReset, hc, ht, hs, Bool.not_true, Bool.false_eq_true, decide_true, if_true, if_false]

theorem coreRebootDone_of_good (hr : s.firmware.rebooting = true) (hg : s.firmware.romGood = true) : coreRebootDone s =
    runHeld ((List.finRange 6).foldl failCut (modFirmware (fun x => { x with rebooting := false }) s)) := by
  simp only [coreRebootDone, hr, hg, Bool.and_self, if_true]

theorem coreRebootDone_of_bad (hg : s.firmware.romGood = false) : coreRebootDone s = s := by
  simp only [coreRebootDone, hg, Bool.and_false, Bool.false_eq_true, if_false]

/-- A task with this ticket runs. -/
def runsTicket (ticket : BitVec 16) (t : Task) : Bool :=
  decide (t.ticket = ticket.toNat) && decide (t.ticket ≠ 0) && decide (t.state = .running)

theorem commandDone_of_running {ticket : BitVec 16} {t : Task} (m : Measure) (hr : s.firmware.rebooting = false)
    (hw : s.device.warm = false) (ht : s.tasks.find? (runsTicket ticket) = some t) :
    commandDone ticket m s = endWork t m s := by
  unfold runsTicket at ht
  simp only [commandDone, hr, hw, ht, Bool.or_self, Bool.false_eq_true, if_false]

theorem commandDone_of_no_task {ticket : BitVec 16} (m : Measure) (hr : s.firmware.rebooting = false)
    (hw : s.device.warm = false) (ht : s.tasks.find? (runsTicket ticket) = none) : commandDone ticket m s = s := by
  unfold runsTicket at ht
  simp only [commandDone, hr, hw, ht, Bool.or_self, Bool.false_eq_true, if_false]

/-! ### The end of a second -/

theorem rollSecond_of_next {n : Nat} (h : s.hubTimer / secondNs ≠ s.log.second) (hn : s.hubTimer / secondNs = n) :
    rollSecond s = closeSecond n s := by
  subst hn
  exact if_neg h.symm

theorem eventSuppressed_of_held (hs : s.log.suppressed ≠ []) (hn : s.log.second = s.hubTimer / secondNs) :
    eventSuppressed s = closeSecond (s.log.second + 1) (passTo ((s.log.second + 1) * secondNs) s) := by
  have hnow : (passTo ((s.log.second + 1) * secondNs) s).hubTimer / secondNs = s.log.second + 1 := by
    simp only [passTo, secondNs] at *
    omega
  refine (if_neg (by rw [List.isEmpty_iff]; exact hs)).trans (rollSecond_of_next ?_ hnow)
  rw [hnow]
  exact Nat.succ_ne_self _

theorem eventSuppressed_of_none (hs : s.log.suppressed = []) : eventSuppressed s = s := if_pos (by rw [hs]; rfl)

end

/-- Settles O37. -/
theorem coresRebootAndTasksEnd : Obligations.CoresRebootAndTasksEnd := by
  intro s
  refine ⟨⟨fun hc hf => ?_, fun hc t ht hs => ?_, fun hc => ?_⟩, fun hr hg => ?_, fun _ hg => ?_,
    fun ticket m hr hw => ⟨fun t ht => ?_, fun ht => ?_⟩, fun hs hn => ?_, fun hs => ?_⟩
  all_goals apply congrArg Host.Outcome.next
  · exact lockstepReset_of_first hc hf
  · exact lockstepReset_of_second hc ht hs
  · exact if_pos hc
  · exact coreRebootDone_of_good hr hg
  · exact coreRebootDone_of_bad hg
  · exact congrArg (fun u => runHeld (serveReady u)) (commandDone_of_running m hr hw ht)
  · exact congrArg (fun u => runHeld (serveReady u)) (commandDone_of_no_task m hr hw ht)
  · exact eventSuppressed_of_held hs hn
  · exact eventSuppressed_of_none hs

end Sys2Proof.CoresAndTasks
end

section
/-! PROOFS. Commands that a mailbox takes (R443): the checks, the run of an accepted command, and its answer (O38). -/

namespace Sys2Proof.Commands

open Sys2Proof Sys2Proof.Machine Sys2Proof.Laws Sys2Proof.Safety

section
variable {opcode : BitVec 16} {m : Fin 6} {f : Frame} {s : State}

/-! ### The doorbell -/

/-- The state with a frame in the request buffer. -/
def framed (opcode : BitVec 16) (m : Fin 6) (f : Frame) (s : State) : State :=
  modMailbox m (fun x => { x with request := memWrite x.request 0 (frameBytes opcode f) }) s

theorem framed_busy : (framed opcode m f s).mailboxes[m].busy = s.mailboxes[m].busy := by
  unfold framed
  rw [modMailbox_self]

theorem framed_lastSeq : (framed opcode m f s).mailboxes[m].lastSeq = s.mailboxes[m].lastSeq := by
  unfold framed
  rw [modMailbox_self]

theorem framed_serves : mailboxServes (framed opcode m f s) m = mailboxServes s m := rfl

theorem command_of_serving (h : mailboxServes s m = true) :
    command opcode m f s = doorbell m opcode f (framed opcode m f s) := if_pos h

theorem command_of_busy (h : mailboxServes s m = true) (hb : s.mailboxes[m].busy.isSome = true) :
    command opcode m f s = modMailbox m (fun x => { x with ignored := sat32 x.ignored }) (framed opcode m f s) := by
  rw [command_of_serving h]
  simp only [doorbell, framed_serves, framed_busy, h, hb, Bool.not_true, Bool.false_eq_true, if_true, if_false]

theorem command_of_repeat (h : mailboxServes s m = true) (hb : s.mailboxes[m].busy = none)
    (hs : s.mailboxes[m].lastSeq = some f.seq) :
    command opcode m f s = modMailbox m (fun x => { x with respReady := true }) (framed opcode m f s) := by
  rw [command_of_serving h]
  simp only [doorbell, framed_serves, framed_busy, framed_lastSeq, h, hb, hs, Bool.not_true, Option.isSome_none,
    Bool.false_eq_true, if_true, if_false]

theorem begun_framed : modMailbox m (fun x => { x with
    lastSeq := some f.seq, busy := some (f.seq, opcode), notify := f.notify, commands := sat32 x.commands })
    (framed opcode m f s) = begun opcode m f s := by
  simp only [framed, begun, modMailbox, Vector.set_set, Vector.getElem_set_self, Fin.getElem_fin]

/-- A command taken runs in the execution context of its mailbox. -/
theorem command_of_taken (h : taken opcode m f s = true) :
    command opcode m f s = runCommand m opcode f (begun opcode m f s) := by
  simp only [taken, Bool.and_eq_true, Option.isNone_iff_eq_none, decide_eq_true_eq, Bool.not_eq_true'] at h
  obtain ⟨⟨⟨hm, hb⟩, hs⟩, hh⟩ := h
  have hhold : mustHold (begun opcode m f s) opcode.toNat = false := hh
  rw [command_of_serving hm]
  simp only [doorbell, framed_serves, framed_busy, framed_lastSeq, hm, hb, hs, begun_framed, beginCommand, hhold,
    Bool.not_true, Option.isSome_none, Bool.false_eq_true, if_false]

/-! ### Checks and answers -/

theorem checkCommand_begun : checkCommand (begun opcode m f s) m opcode f = checkCommand s m opcode f := rfl

theorem command_of_error {st : KStatus} (h : taken opcode m f s = true) (hc : checkCommand s m opcode f = .error st) :
    command opcode m f s = respondTo m { status := st } (begun opcode m f s) := by
  simp only [command_of_taken h, runCommand, checkCommand_begun, hc]

/-- What a command that stands in the table leaves once it has run, from state u. -/
def concluded (m : Fin 6) (c : CmdSpec) (u : State) (r : Option Reply × State) : State :=
  match (if c.set = .change then commitStore u r.2 else some r.2), r.1 with
  | some t, some reply => respondTo m reply t
  | some t, none => t
  | none, _ => respondTo m { status := .failed } u

theorem command_of_ok {c : CmdSpec} (h : taken opcode m f s = true) (hc : checkCommand s m opcode f = .ok c) :
    command opcode m f s = concluded m c (begun opcode m f s) (c.run m f (begun opcode m f s)) := by
  simp only [command_of_taken h, runCommand, checkCommand_begun, hc]
  rfl

theorem concluded_of_stuck {c : CmdSpec} {u : State} {r : Option Reply × State} (hs : c.set = .change)
    (hc : commitStore u r.2 = none) : concluded m c u r = respondTo m { status := .failed } u := by
  simp only [concluded, hs, hc, if_true]

/-- A command that changes nothing in the configuration store answers from where it ran. -/
theorem concluded_of_query {c : CmdSpec} {u t : State} {reply : Reply} (hs : c.set ≠ .change) :
    concluded m c u (some reply, t) = respondTo m reply t := by
  simp only [concluded, hs, if_false]

/-- A change answers from the store that took it. -/
theorem concluded_of_stored {c : CmdSpec} {u t v : State} {reply : Reply} (hs : c.set = .change) (hv : stored u t v) :
    concluded m c u (some reply, t) = respondTo m reply v := by
  unfold stored at hv
  simp only [concluded, hs, hv, if_true]

/-- A change that answers later leaves the store that took it. -/
theorem concluded_of_waiting {c : CmdSpec} {u t v : State} (hs : c.set = .change) (hv : stored u t v) :
    concluded m c u (none, t) = v := by
  unfold stored at hv
  simp only [concluded, hs, hv, if_true]

end

/-- Settles O38. -/
theorem doorbellsCheckTheirCommands : Obligations.DoorbellsCheckTheirCommands := fun _ _ _ _ =>
  ⟨fun _ h hc => command_of_error h hc,
   fun _ h hc hs hk => (command_of_ok h hc).trans (concluded_of_stuck hs hk),
   fun h hb => command_of_busy h hb, fun h hb hs => command_of_repeat h hb hs⟩

/-! ### Accepted commands -/

section
variable {opcode : BitVec 16} {m : Fin 6} {f : Frame} {s : State} {c : CmdSpec}

/-- An accepted command is the one that the table gives. -/
theorem checkCommand_of_accepted (h : accepted opcode m f s = true) (hc : cmdSpec opcode.toNat = some c) :
    taken opcode m f s = true ∧ checkCommand s m opcode f = .ok c := by
  simp only [accepted, Bool.and_eq_true] at h
  obtain ⟨ht, hk⟩ := h
  refine ⟨ht, ?_⟩
  unfold checkCommand at hk ⊢
  simp only [hc] at hk ⊢
  split_ifs at hk ⊢
  rfl

theorem command_of_accepted (h : accepted opcode m f s = true) (hc : cmdSpec opcode.toNat = some c) :
    command opcode m f s = concluded m c (begun opcode m f s) (c.run m f (begun opcode m f s)) := by
  obtain ⟨ht, hk⟩ := checkCommand_of_accepted h hc
  exact command_of_ok ht hk

end

end Sys2Proof.Commands
end

section
/-! PROOFS. The commands that report (O40). -/

namespace Sys2Proof.Reports

open Sys2Proof Sys2Proof.Machine Sys2Proof.Laws Sys2Proof.Safety Sys2Proof.Commands

section
variable {opcode : BitVec 16} {m : Fin 6} {f : Frame} {s : State} {c : CmdSpec}

/-- An accepted command's frame has its length and clear reserved bits. -/
theorem frame_of_accepted (h : accepted opcode m f s = true) (hc : cmdSpec opcode.toNat = some c) :
    c.length f = some f.argLength.toNat ∧ f.reserved = 0 := by
  obtain ⟨-, hk⟩ := checkCommand_of_accepted h hc
  unfold checkCommand at hk
  simp only [hc] at hk
  split_ifs at hk with _ hl _ _ hr
  exact ⟨not_not.1 hl, not_not.1 hr⟩

/-- Arguments of which every byte is a field's are clear outside the fields. -/
theorem argsClear_of_covered {n : Nat} {fields : List (Nat × Nat)} (hl : f.argLength.toNat = n) (hr : f.reserved = 0)
    (hcov : ∀ i < n, (fields.any fun e => decide (e.1 ≤ i) && decide (i < e.1 + e.2)) = true) :
    argsClear f fields = true := by
  simp only [argsClear, hr, decide_true, Bool.true_and, List.all_eq_true, hl, List.mem_range, Bool.or_eq_true]
  exact fun i hi => Or.inl (hcov i hi)

theorem argsClear_of_accepted {n : Nat} {fields : List (Nat × Nat)} (h : accepted opcode m f s = true)
    (hc : cmdSpec opcode.toNat = some c) (hn : c.length f = some n)
    (hcov : ∀ i < n, (fields.any fun e => decide (e.1 ≤ i) && decide (i < e.1 + e.2)) = true) :
    argsClear f fields = true := by
  obtain ⟨hl, hr⟩ := frame_of_accepted h hc
  exact argsClear_of_covered (Option.some.inj (hl.symm.trans hn)) hr hcov

/-- A layout whose count adds no bytes has one length. -/
theorem length_of_uncounted {start size lo hi base n : Nat} (h : countedLength start size lo hi base 0 f = some n) :
    n = base := by
  unfold countedLength at h
  split_ifs at h
  simpa using h.symm

/-- A command that changes no configuration answers with its data. -/
theorem answered_of_query {data : List Byte} {t : State} (h : accepted opcode m f s = true)
    (hc : cmdSpec opcode.toNat = some c) (hs : c.set ≠ .change)
    (hr : c.run m f (begun opcode m f s) = answerData data t) :
    Host.Outcome.next (command opcode m f s) = answered m data t :=
  congrArg Host.Outcome.next ((command_of_accepted h hc).trans (by rw [hr]; exact concluded_of_query hs))

end

section
variable {m : Fin 6} {f : Frame} {s : State}

theorem cmdIdentify_of_clear (h : argsClear f [] = true) : cmdIdentify m f s = answerData (identityData s) s := by
  simp only [cmdIdentify, h, Bool.not_true, Bool.false_eq_true, if_false]

theorem cmdDeviceStatus_of_clear (h : argsClear f [] = true) :
    cmdDeviceStatus m f s = answerData (windowBytes s 0 4) s := by
  simp only [cmdDeviceStatus, h, Bool.not_true, Bool.false_eq_true, if_false]

theorem cmdTaskStatus_of_clear (h : argsClear f [(0, 2)] = true) :
    cmdTaskStatus m f s = answerData (taskData s (arg f 0 2)) s := by
  simp only [cmdTaskStatus, h, Bool.not_true, Bool.false_eq_true, if_false]

theorem cmdLogRead_of_clear (h : argsClear f [(0, 10)] = true) :
    cmdLogRead m f s = answerData (logData s (arg f 0 8) (arg f 8 2)) s := by
  simp only [cmdLogRead, h, Bool.not_true, Bool.false_eq_true, if_false]

theorem cmdSensorRead_of_clear (h : argsClear f [] = true) :
    cmdSensorRead m f s = answerData (windowBytes s 0x100 2) s := by
  simp only [cmdSensorRead, h, Bool.not_true, Bool.false_eq_true, if_false]

theorem cmdParamRead_of_clear (h : argsClear f [(0, 2), (4, 4 * (readEntries f).length)] = true)
    (he : ((readEntries f).all fun e => paramExists e.1 e.2) = true) :
    cmdParamRead m f s = answerData (readParams (readEntries f) s).1 (readParams (readEntries f) s).2 := by
  simp only [cmdParamRead, h, he, Bool.not_true, Bool.or_self, Bool.false_eq_true, if_false]

/-- The report of a channel's vertical trims (R486). -/
def trimReport (v : Vertical) : List Byte :=
  natToBytes 8 v.vtrimCount ++ natToBytes 8 v.vtrimLast ++ natToBytes 4 (v.vtrimEye % 65536) ++
    natToBytes 3 (v.cclkTap % 256 + v.skclkTap % 256 * 2 ^ 8 + v.rxTap % 256 * 2 ^ 16) ++ natToBytes 9 0

theorem cmdCalReport_of_channel (h : argsClear f [(0, 1), (2, 2)] = true) (ht : arg f 0 1 = 0) (hn : arg f 2 2 < 32) :
    cmdCalReport m f s =
      answerData (trimReport s.channels[(Fin.ofNat 32 (arg f 2 2) : Fin 32)].vertical) s := by
  have hw : within 0 31 (arg f 2 2) = true := decide_eq_true (Nat.le_of_lt_succ hn)
  simp only [cmdCalReport, h, ht, hw, Bool.not_true, if_true, show within 0 1 0 = true from rfl, Bool.or_self,
    Bool.false_eq_true, if_false]
  rfl

theorem cmdMaintStatus_of_clear (h : argsClear f [] = true) :
    cmdMaintStatus m f s =
      (let ts := (s.tasks.filter fun t => decide (t.state ≠ .done) && (workClass s t.work).isSome).take 32
       answerData (natToBytes 8 ts.length ++ ts.flatMap (maintEntry s)) s) := by
  simp only [cmdMaintStatus, h, Bool.not_true, Bool.false_eq_true, if_false]

theorem cmdConfigExport_of_first {key : List Nat} (h : argsClear f [(0, 1), (4, 4)] = true) (h0 : arg f 4 4 = 0)
    (hk : gcmSlot s (arg f 0 1) = some key) (hb : exportRecord key s ≠ []) :
    cmdConfigExport m f s = answerData (natToBytes 4 (exportRecord key s).length ++ natToBytes 4 0 ++
        natToBytes 2 ((exportRecord key s).take 4064).length ++ natToBytes 6 0 ++ (exportRecord key s).take 4064)
      (modFirmware (fun x => { x with snapshot := some (exportRecord key s, s.hubTimer) }) s) := by
  have hlen : ¬(exportRecord key s).length ≤ 0 := fun hl => hb (List.length_eq_zero_iff.1 (Nat.le_zero.1 hl))
  have hage : ¬s.hubTimer + 60 * secondNs < s.hubTimer := by omega
  simp only [cmdConfigExport, modFirmware, h, h0, hk, hlen, hage, Bool.not_true, Bool.false_eq_true, if_true, if_false,
    List.drop_zero]

theorem cmdFuseRead_of_slot (h : argsClear f [(0, 2)] = true) (ha : fuseArgs f = true) :
    ∃ flags, cmdFuseRead m f s = answerData (natToBytes 16 flags ++ fuseCopyBytes s (arg f 0 1) (arg f 1 1) 0 ++
        fuseCopyBytes s (arg f 0 1) (arg f 1 1) 1)
      (modFuses (fun x => { x with weakBits := x.weakBits.set (arg f 0 1) (fuseWeakCount s (arg f 0 1)) }) s) := by
  simp only [cmdFuseRead, h, ha, Bool.not_true, Bool.or_self, Bool.false_eq_true, if_false]
  exact ⟨_, rfl⟩

theorem cmdMemRead_of_read {pd : Fin 64} {lines : List Nat} {d : List Byte} {t : State}
    (h : argsClear f [(0, 2), (4, 8)] = true) (he : memExtent s f false = some (pd, lines))
    (ho : partitionOrphaned s pd = false) (hr : memRight s m pd 0 = true) (hh : lines.find? (memHeld s pd) = none)
    (hd : memReadLines m pd lines [] none (endDrains pd lines (wakeLines pd lines s)) = (d, none, t)) :
    cmdMemRead m f s = answerData d t := by
  simp only [cmdMemRead, h, he, ho, hr, hh, hd, Bool.not_true, Bool.false_eq_true, if_false]

theorem cmdWindowRead_of_inside (h : argsClear f [(0, 4)] = true) (ho : arg f 0 2 % 64 = 0) (hn : arg f 2 2 % 64 = 0)
    (h0 : arg f 2 2 ≠ 0) (hmax : arg f 2 2 ≤ 4032) (hend : arg f 0 2 + arg f 2 2 ≤ 65536) :
    cmdWindowRead m f s = answerData (windowBytes s (arg f 0 2) (arg f 2 2 / 64)) s := by
  have hw : within 64 4032 (arg f 2 2) = true := by
    simp only [within, Bool.and_eq_true, decide_eq_true_eq]
    omega
  simp only [cmdWindowRead, h, ho, hn, hw, Nat.not_lt.2 hend, ne_eq, not_true_eq_false, decide_false, Bool.not_true,
    Bool.or_self, Bool.false_eq_true, if_false]

end

/-- The first bytes of a list are those put there. -/
theorem bytesAt_prefix (xs ys : List Byte) : bytesAt (xs ++ ys) 0 xs.length = xs := by
  refine List.ext_getElem (by simp [bytesAt]) fun i _ hi => ?_
  simp [bytesAt, List.getElem?_append_left hi, hi]

theorem natAt_prefix (n v : Nat) (ys : List Byte) : natAt (natToBytes n v ++ ys) 0 n = v % 256 ^ n := by
  have h := bytesAt_prefix (natToBytes n v) ys
  rw [natToBytes_length] at h
  rw [natAt, h, bytesToNat_natToBytes]

theorem trimReport_length (v : Vertical) : (trimReport v).length = 32 := by
  simp only [trimReport, List.length_append, natToBytes_length]

theorem trimReport_count (v : Vertical) : natAt (trimReport v) 0 8 = v.vtrimCount % 2 ^ 64 := by
  unfold trimReport
  rw [List.append_assoc, List.append_assoc, List.append_assoc, natAt_prefix]
  rfl

/-- Settles O40. -/
theorem reportingCommandsAnswer : Obligations.ReportingCommandsAnswer := by
  intro m f s
  refine ⟨fun h => ?_, fun h => ?_, fun h => ?_, fun h => ?_, fun h => ?_, fun h ha he => ?_, fun h ha ht hn => ?_,
    fun h => ?_, fun h ha h0 key hk hb => ?_, fun h hf => ?_, fun h ha pd lines d t he ho hr hh hd => ?_,
    fun h ho hn h0 hmax hend => ?_⟩
  · exact answered_of_query h rfl (by decide)
      (cmdIdentify_of_clear (m := m) (argsClear_of_accepted h rfl rfl (n := 0) (by decide)))
  · exact answered_of_query h rfl (by decide)
      (cmdDeviceStatus_of_clear (m := m) (argsClear_of_accepted h rfl rfl (n := 0) (by decide)))
  · exact answered_of_query h rfl (by decide)
      (cmdTaskStatus_of_clear (m := m) (argsClear_of_accepted h rfl rfl (n := 2) (by decide)))
  · obtain ⟨hl, hr⟩ := frame_of_accepted h rfl
    exact answered_of_query h rfl (by decide)
      (cmdLogRead_of_clear (m := m) (argsClear_of_covered (length_of_uncounted hl) hr (by decide)))
  · exact answered_of_query h rfl (by decide)
      (cmdSensorRead_of_clear (m := m) (argsClear_of_accepted h rfl rfl (n := 0) (by decide)))
  · exact answered_of_query h rfl (by decide) (cmdParamRead_of_clear (m := m) ha he)
  · exact ⟨_, trimReport_length _, trimReport_count _,
      answered_of_query h rfl (by decide) (cmdCalReport_of_channel (m := m) ha ht hn)⟩
  · exact answered_of_query h rfl (by decide)
      (cmdMaintStatus_of_clear (m := m) (argsClear_of_accepted h rfl rfl (n := 0) (by decide)))
  · exact answered_of_query h rfl (by decide) (cmdConfigExport_of_first (m := m) ha h0 hk hb)
  · obtain ⟨flags, hr⟩ := cmdFuseRead_of_slot (s := begun 0x0A00 m f s) (m := m)
      (argsClear_of_accepted h rfl rfl (n := 2) (by decide)) hf
    exact ⟨flags, answered_of_query h rfl (by decide) hr⟩
  · exact answered_of_query h rfl (by decide) (cmdMemRead_of_read ha he ho hr hh hd)
  · exact answered_of_query h rfl (by decide) (cmdWindowRead_of_inside (m := m)
      (argsClear_of_accepted h rfl rfl (n := 4) (by decide)) ho hn h0 hmax hend)

end Sys2Proof.Reports
end

section
/-! PROOFS. The commands that set something (O41). -/

namespace Sys2Proof.Settings

open Sys2Proof Sys2Proof.Machine Sys2Proof.Laws Sys2Proof.Safety Sys2Proof.Commands Sys2Proof.Reports
  Sys2Proof.PortRecords

/-! ### The configuration store -/

/-- Nothing that the configuration store keeps differs. -/
def SameRecords (u t : State) : Prop := ∀ r, recordChanged u t r = false

theorem stored_of_same {u t : State} (h : SameRecords u t) : stored u t t := by
  have hnil : storeRecords.filter (recordChanged u t) = [] := List.filter_eq_nil_iff.2 fun r _ => by
    rw [h r]
    decide
  unfold stored commitStore
  rw [hnil]
  rfl

theorem sameRecords_of_eq {u t : State} (hp : t.partitions = u.partitions) (ht : t.tables = u.tables)
    (hf : t.firmware.features = u.firmware.features) (hk : t.firmware.persisted = u.firmware.persisted)
    (ha : t.params = u.params) : SameRecords u t := by
  rintro (pd | td | pd | _ | _) <;> simp [recordChanged, hp, ht, hf, hk, ha]

theorem patched_sameRecords (u : State) {g : Firmware → Firmware}
    (hg : ∀ x, (g x).features = x.features ∧ (g x).persisted = x.persisted) : SameRecords u (modFirmware g u) :=
  sameRecords_of_eq rfl rfl (hg u.firmware).1 (hg u.firmware).2 rfl

/-- An override of the fuses, with the values in use that follow, is no record of the store. -/
theorem overridden_sameRecords (field set : Nat) (g : FuseArray → FuseArray) {u : State} :
    SameRecords u (refreshValues (raiseOverride field set (modFuses g u))) := by
  unfold raiseOverride
  obtain ⟨_, _, _, h⟩ := raise_eq 0xA015 14 0 [itReason field, itLine 0, itCount set] (modFuses g u)
  rw [h]
  exact sameRecords_of_eq rfl rfl rfl rfl rfl

section
variable {opcode : BitVec 16} {m : Fin 6} {f : Frame} {s : State} {c : CmdSpec}

/-- An accepted command whose layout counts has its count within the limits. -/
theorem within_of_accepted {start size lo hi base each : Nat} (h : accepted opcode m f s = true)
    (hc : cmdSpec opcode.toNat = some c) (hl : c.length = countedLength start size lo hi base each) :
    within lo hi (arg f start size) = true := by
  obtain ⟨hn, -⟩ := frame_of_accepted h hc
  rw [hl] at hn
  unfold countedLength at hn
  split_ifs at hn with hw
  exact hw

/-- A change that the store takes answers with its data. -/
theorem answered_of_stored {data : List Byte} {t v : State} (h : accepted opcode m f s = true)
    (hc : cmdSpec opcode.toNat = some c) (hs : c.set = .change)
    (hr : c.run m f (begun opcode m f s) = answerData data t) (hv : stored (begun opcode m f s) t v) :
    Host.Outcome.next (command opcode m f s) = answered m data v :=
  congrArg Host.Outcome.next ((command_of_accepted h hc).trans (by rw [hr]; exact concluded_of_stored hs hv))

/-- A change that the store takes answers with another status. -/
theorem responded_of_stored {reply : Reply} {t v : State} (h : accepted opcode m f s = true)
    (hc : cmdSpec opcode.toNat = some c) (hs : c.set = .change)
    (hr : c.run m f (begun opcode m f s) = (some reply, t)) (hv : stored (begun opcode m f s) t v) :
    Host.Outcome.next (command opcode m f s) = (.next (respondTo m reply v) : Out) :=
  congrArg Host.Outcome.next ((command_of_accepted h hc).trans (by rw [hr]; exact concluded_of_stored hs hv))

/-- A change that waits leaves what the store took. -/
theorem waiting_of_stored {t v : State} (h : accepted opcode m f s = true)
    (hc : cmdSpec opcode.toNat = some c) (hs : c.set = .change)
    (hr : c.run m f (begun opcode m f s) = (none, t)) (hv : stored (begun opcode m f s) t v) :
    Host.Outcome.next (command opcode m f s) = (.next v : Out) :=
  congrArg Host.Outcome.next ((command_of_accepted h hc).trans (by rw [hr]; exact concluded_of_waiting hs hv))

end

theorem within_of_le {lo hi n : Nat} (hl : lo ≤ n) (hh : n ≤ hi) : within lo hi n = true := by
  simp only [within, hl, hh, decide_true, Bool.and_self]

/-! ### Each command -/

section
variable {m : Fin 6} {f : Frame} {s : State}

theorem cmdAlertAck_of_clear (h : argsClear f [(0, 8)] = true) :
    cmdAlertAck m f s = answer .ok (modLog (fun l => { l with ackIndex := max l.ackIndex (min (arg f 0 8) l.count) }) s) := by
  simp only [cmdAlertAck, h, Bool.not_true, Bool.false_eq_true, if_false]

theorem cmdParamWrite_of_ok (h : argsClear f [(0, 2), (4, 12 * (writeEntries f).length)] = true)
    (hk : (writeParams (writeEntries f) s).1 = .ok) :
    cmdParamWrite m f s =
      (let t := claimRegions m (keepParams (writeParams (writeEntries f) s).2)
       if changeWaits m t then (none, t) else answer .ok t) := by
  simp only [cmdParamWrite, h, hk, Bool.not_true, Bool.false_eq_true, ne_eq, not_true_eq_false, if_false]

theorem cmdParamPersist_of_drop (h : argsClear f [(0, 5)] = true) (he : paramExists (arg f 0 2) (arg f 2 2) = true)
    (hw : paramWritable (arg f 0 2) = true) (h1 : arg f 4 1 = 1) :
    cmdParamPersist m f s = answer .ok (modFirmware (fun x => { x with
      persisted := x.persisted.filter fun e => !(decide (e.1 = arg f 0 2) && decide (e.2.1 = arg f 2 2)) }) s) := by
  simp only [cmdParamPersist, h, he, hw, h1, show within 0 1 1 = true from rfl, Bool.not_true, Bool.or_self,
    Bool.false_eq_true, if_true, if_false]

theorem cmdLaneGroupRestore_of_port (h : argsClear f [(0, 2)] = true) (hp : arg f 0 1 < 4) (hm : arg f 1 1 < 16) :
    cmdLaneGroupRestore m f s = answer .ok (modPhy (Fin.ofNat 4 (arg f 0 1)) (fun x => { x with
      retired := x.retired &&& ~~~(BitVec.ofNat 4 (arg f 1 1))
      losses := x.losses.filter fun e => !(BitVec.ofNat 4 (arg f 1 1)).getLsbD e.1 }) s) := by
  simp only [cmdLaneGroupRestore, h, within_of_le (Nat.zero_le _) (Nat.le_of_lt_succ hp),
    within_of_le (Nat.zero_le _) (Nat.le_of_lt_succ hm), Bool.not_true, Bool.or_self, Bool.false_eq_true, if_false]
  rfl

theorem cmdChannelHold_of_unmapped (h : argsClear f [(0, 2)] = true) (hc : arg f 0 1 < 32) (h1 : arg f 1 1 = 1)
    (hm : channelMapped s (Fin.ofNat 32 (arg f 0 1)) = false)
    (hh : s.channels[(Fin.ofNat 32 (arg f 0 1) : Fin 32)].heldByCommand = false) :
    cmdChannelHold m f s = answer .ok (holdChannel (Fin.ofNat 32 (arg f 0 1)) s) := by
  simp only [cmdChannelHold, chanArg, h, within_of_le (Nat.zero_le _) (Nat.le_of_lt_succ hc), h1, hm, hh,
    show within 0 1 1 = true from rfl, decide_true, Bool.true_and, Bool.not_true, Bool.or_self, Bool.false_eq_true,
    if_true, if_false]

/-- A sensor no longer suspect, and the values in use that follow. -/
def sensorRestored (k : Fin 17) (s : State) : State :=
  let t := modSensor k (fun x => { x with suspect := false, deviating := 0, agreeing := 0 }) s
  refreshValues (modThermal (fun x => { x with blind := x.blind && decide (5 ≤ suspectCount t) }) t)

theorem cmdSensorRestore_of_agreeing (h : argsClear f [(0, 1)] = true) (hk : arg f 0 1 < 17)
    (hs : s.sensors[(Fin.ofNat 17 (arg f 0 1) : Fin 17)].suspect = true)
    (ha : 4000 ≤ s.sensors[(Fin.ofNat 17 (arg f 0 1) : Fin 17)].agreeing) :
    cmdSensorRestore m f s = answer .ok (sensorRestored (Fin.ofNat 17 (arg f 0 1)) s) := by
  simp only [cmdSensorRestore, h, within_of_le (Nat.zero_le _) (Nat.le_of_lt_succ hk), hs,
    show samplesPerSecond = 4000 from rfl, Nat.not_lt.2 ha, Bool.not_true, Bool.or_self, Bool.false_eq_true, if_false]
  rfl

theorem sensorRestored_suspect (k : Fin 17) (s : State) : (sensorRestored k s).sensors[k].suspect = false := by
  unfold sensorRestored refreshValues modThermal modSensor
  simp

theorem cmdPatchLoad_of_fit (h : argsClear f [(0, 6), (8, arg f 4 2)] = true) (hn : within 1 4072 (arg f 4 2) = true)
    (he : arg f 0 4 + arg f 4 2 ≤ 1048576) :
    cmdPatchLoad m f s = if s.firmware.activating then answer .failed s else answer .ok (modFirmware (fun x =>
      if s.firmware.activeBank = 1 then
        { x with bankB := memWrite x.bankB (arg f 0 4) (bytesAt f.args 8 (arg f 4 2))
                 bankBadB := x.bankBadB && decide (arg f 0 4 ≠ 0) }
      else
        { x with bankA := memWrite x.bankA (arg f 0 4) (bytesAt f.args 8 (arg f 4 2))
                 bankBadA := x.bankBadA && decide (arg f 0 4 ≠ 0) }) s) := by
  simp only [cmdPatchLoad, idleBank, h, hn, Nat.not_lt.2 he, decide_false, Bool.not_true, Bool.or_self, Bool.false_eq_true,
    if_false]
  by_cases hb : s.firmware.activeBank = 1 <;> simp only [hb, if_true, if_false, Nat.reduceEqDiff]

theorem cmdFuseShadowSet_of_trim (h : argsClear f [(0, 3), (8, 512)] = true) (h1 : arg f 0 1 = 1) (hs : arg f 1 1 = 0)
    (hc : arg f 2 1 = 0) (hi : imageClear 1 (fuseImage f) = true) :
    cmdFuseShadowSet m f s = answer .ok (refreshValues (raiseOverride 1 1 (modFuses (fun x => { x with
      trim := BitVec.ofNat 4096 (fuseImage f), trimOverride := true }) s))) := by
  have hf : fuseArgs f = true := by
    unfold fuseArgs
    rw [h1, hs]
    rfl
  simp only [cmdFuseShadowSet, h1, show fuseBytes 1 = 512 from rfl, h, hf, hc, hi, show within 0 1 0 = true from rfl,
    Nat.reduceEqDiff, decide_false, Bool.false_and, Bool.not_true, Bool.not_false, Bool.or_self, Bool.false_eq_true,
    if_true, if_false]
  rfl

theorem cmdMemWrite_of_written {pd : Fin 64} {lines : List Nat} {t : State} (he : memExtent s f true = some (pd, lines))
    (h : argsClear f [(0, 2), (4, 8 + 64 * lines.length)] = true) (ho : partitionOrphaned s pd = false)
    (hr : memRight s m pd 1 = true) (hb : debugBlind s m pd = false) (hh : lines.find? (memHeld s pd) = none)
    (hw : memWriteLines m pd f (lines.mapIdx fun k i => (k, i)) none (wakeLines pd lines s) = (none, t)) :
    cmdMemWrite m f s = answer .ok t := by
  simp only [cmdMemWrite, he, h, ho, hr, hb, hh, hw, Bool.not_true, Bool.or_self, Bool.false_eq_true, if_false]

theorem cmdWindowWrite_of_control (h : argsClear f [(0, 2), (4, 8)] = true)
    (ho : arg f 0 2 = 0xFC00 ∨ arg f 0 2 = 0xFC08) :
    cmdWindowWrite m f s = answer .ok (controlWrite (arg f 0 2) (BitVec.ofNat 64 (arg f 4 8)) s) := by
  have ho' : (decide (arg f 0 2 = 0xFC00) || decide (arg f 0 2 = 0xFC08)) = true := by simpa using ho
  simp only [cmdWindowWrite, h, ho', Bool.not_true, Bool.or_self, Bool.false_eq_true, if_false]

end

/-- Settles O41. -/
theorem settingCommandsTakeEffect : Obligations.SettingCommandsTakeEffect := by
  intro m f s
  refine ⟨fun h => ?_, fun h ha hk v hv => ?_, fun h he hw h1 v hv => ?_, fun h hp hm => ?_,
    fun h hc h1 hm hh v hv => ?_, fun h hk hs ha => ?_, fun h => ?_, fun h ha he hb => ?_, fun h ha he hb => ?_,
    fun h ha h1 h0 hc hi => ?_, fun h pd lines t he ha ho hr hb hh hw v hv => ?_, fun h ha ho => ?_⟩
  · exact answered_of_stored h rfl rfl
      (cmdAlertAck_of_clear (m := m) (argsClear_of_accepted h rfl rfl (n := 8) (by decide)))
      (stored_of_same (sameRecords_of_eq rfl rfl rfl rfl rfl))
  · have hr := cmdParamWrite_of_ok (m := m) ha hk
    dsimp only at hr
    by_cases hw : changeWaits m (claimRegions m (keepParams (writeParams (writeEntries f) (begun 0x11 m f s)).2)) = true
    · rw [if_pos hw] at hr ⊢
      exact waiting_of_stored h rfl rfl hr hv
    · rw [if_neg hw] at hr ⊢
      exact answered_of_stored h rfl rfl hr hv
  · exact answered_of_stored h rfl rfl (cmdParamPersist_of_drop (m := m)
      (argsClear_of_accepted h rfl rfl (n := 5) (by decide)) he hw h1) hv
  · exact answered_of_stored h rfl rfl (cmdLaneGroupRestore_of_port (m := m)
      (argsClear_of_accepted h rfl rfl (n := 2) (by decide)) hp hm)
      (stored_of_same (sameRecords_of_eq rfl rfl rfl rfl rfl))
  · exact answered_of_stored h rfl rfl (cmdChannelHold_of_unmapped (m := m)
      (argsClear_of_accepted h rfl rfl (n := 2) (by decide)) hc h1 hm hh) hv
  · exact ⟨_, answered_of_stored h rfl rfl (cmdSensorRestore_of_agreeing (m := m)
      (argsClear_of_accepted h rfl rfl (n := 1) (by decide)) hk hs ha)
      (stored_of_same (sameRecords_of_eq rfl rfl rfl rfl rfl)), sensorRestored_suspect _ _⟩
  · exact responded_of_stored (t := begun 0x902 m f s) h rfl rfl rfl
      (stored_of_same (sameRecords_of_eq rfl rfl rfl rfl rfl))
  · have hn : (begun 0x900 m f s).firmware.activating = false := hb
    have hr := cmdPatchLoad_of_fit (m := m) (s := begun 0x900 m f s) ha (within_of_accepted h rfl rfl) he
    rw [hn] at hr
    exact answered_of_stored h rfl rfl hr (stored_of_same (patched_sameRecords _ fun x => by split <;> exact ⟨rfl, rfl⟩))
  · have hn : (begun 0x900 m f s).firmware.activating = true := hb
    have hr := cmdPatchLoad_of_fit (m := m) (s := begun 0x900 m f s) ha (within_of_accepted h rfl rfl) he
    rw [hn] at hr
    exact responded_of_stored h rfl rfl hr (stored_of_same (sameRecords_of_eq rfl rfl rfl rfl rfl))
  · exact answered_of_stored h rfl rfl (cmdFuseShadowSet_of_trim (m := m) ha h1 h0 hc hi)
      (stored_of_same (overridden_sameRecords _ _ _))
  · exact answered_of_stored h rfl rfl (cmdMemWrite_of_written (m := m) he ha ho hr hb hh hw) hv
  · exact answered_of_stored h rfl rfl (cmdWindowWrite_of_control (m := m) ha ho)
      (stored_of_same (sameRecords_of_eq rfl rfl rfl rfl rfl))

end Sys2Proof.Settings
end

section
/-! PROOFS. The commands on partitions, and their quiesce points (O42). -/

namespace Sys2Proof.PartitionChanges

open Sys2Proof Sys2Proof.Machine Sys2Proof.Laws Sys2Proof.Safety Sys2Proof.Commands Sys2Proof.Reports
  Sys2Proof.Settings

/-! ### A change that waits -/

/-- What waits at a partition is no record of the configuration store (R437). -/
theorem pended_sameRecords (pd : Fin 64) (es : List (Change × Option (Fin 6))) (u : State) :
    SameRecords u (modPartition pd (fun x => { x with pendingChanges := x.pendingChanges ++ es }) u) := by
  have hx : ∀ k : Fin 64, ∃ l, (modPartition pd (fun x => { x with pendingChanges := x.pendingChanges ++ es })
      u).partitions[k] = { u.partitions[k] with pendingChanges := l } := fun k => by
    by_cases h : k = pd
    · subst h
      exact ⟨_, modPartition_self _ _ u⟩
    · exact ⟨_, modPartition_other _ _ _ h u⟩
  rintro (k | k | k | _ | _)
  case partition =>
    obtain ⟨l, h⟩ := hx k
    simp only [recordChanged, h, partitionWord, ne_eq, not_true_eq_false, decide_false]
  case binding =>
    obtain ⟨l, h⟩ := hx k
    simp only [recordChanged, h, ne_eq, not_true_eq_false, decide_false]
  all_goals simp [recordChanged, modPartition]

section
variable {m : Fin 6} {f : Frame} {s : State}

theorem next_of_leaveChange {opcode : BitVec 16} {c : CmdSpec} {pd : Fin 64} {ch : Change}
    (h : accepted opcode m f s = true) (hc : cmdSpec opcode.toNat = some c) (hs : c.set = .change)
    (hr : c.run m f (begun opcode m f s) = leaveChange m pd ch (begun opcode m f s)) :
    Host.Outcome.next (command opcode m f s) = waits m pd ch (begun opcode m f s) :=
  waiting_of_stored h hc hs hr (stored_of_same (pended_sameRecords pd _ _))

/-! ### Each command -/

/-- An extent that is free ends within the granules there are. -/
theorem last_le_of_rangeFree {skip : Fin 64} {first last : Nat} (h : rangeFree s skip first last = true) :
    last ≤ 1024 := by
  simp only [rangeFree, Bool.and_eq_true, decide_eq_true_eq] at h
  exact h.1

/-- The partition that PARTITION_CREATE makes of a plain, raw layout. -/
def plainPartition (f : Frame) : Partition :=
  { valid := true, quarter := Fin.ofNat 4 (arg f 4 1), owner := BitVec.ofNat 4 (arg f 5 1)
    keySlot := arg f 6 1, base := arg f 8 2, granules := arg f 10 2, quota := arg f 12 4
    rights := rightsAtCreation (BitVec.ofNat 4 (arg f 5 1)) }

theorem cmdPartitionCreate_of_mapped (ha : argsClear f [(0, 7), (8, 8)] = true) (h0 : arg f 0 1 < 64)
    (h1 : arg f 1 1 = 0) (h2 : arg f 2 1 = 0) (h3 : arg f 3 1 = 0) (h4 : arg f 4 1 < 4) (h5 : arg f 5 1 < 16)
    (h6 : arg f 6 1 < 64) (hn : 1 ≤ arg f 10 2) (hv : s.partitions[(Fin.ofNat 64 (arg f 0 1) : Fin 64)].valid = false)
    (hf : rangeFree s (Fin.ofNat 64 (arg f 0 1)) (arg f 8 2) (arg f 8 2 + arg f 10 2) = true)
    (hq : arg f 12 4 ≤ collieShare s (Fin.ofNat 64 (arg f 0 1))) {t : State}
    (ht : makePartition (plainPartition f) (Fin.ofNat 64 (arg f 0 1)) s = some t)
    (hr : s.refills.length ≤ t.refills.length) :
    cmdPartitionCreate m f s = answerData (metaReply (arg f 0 1) 0) t := by
  have hl := last_le_of_rangeFree hf
  have w10 : within 1 1024 (arg f 10 2) = true := within_of_le hn (by omega)
  have w8 : within 0 1023 (arg f 8 2) = true := within_of_le (Nat.zero_le _) (by omega)
  unfold plainPartition at ht
  simp only [cmdPartitionCreate, ha, h1, h2, h3, hv, hf, w10, w8,
    within_of_le (Nat.zero_le _) (Nat.le_of_lt_succ h0), within_of_le (Nat.zero_le _) (Nat.le_of_lt_succ h4),
    within_of_le (Nat.zero_le _) (Nat.le_of_lt_succ h5), within_of_le (Nat.zero_le _) (Nat.le_of_lt_succ h6),
    show within 0 3 0 = true from rfl, show within 0 2 0 = true from rfl, show within 0 1 0 = true from rfl,
    show ptypeOf 0 = .raw from rfl, show modeOf 0 = .plain from rfl, show modeAllowed .raw .plain = true from rfl,
    Nat.not_lt.2 hq, Nat.reduceEqDiff, zero_ne_one, if_false, Nat.add_zero, Bool.not_true, Bool.or_self,
    Bool.false_eq_true, decide_false, Bool.false_and, ne_eq, not_true_eq_false, false_and, ht, answerAllocated, hr,
    if_true]
  rfl

theorem cmdPartitionResize_of_plain (ha : argsClear f [(0, 1), (2, 2)] = true) (h0 : arg f 0 1 < 64)
    (hn : 1 ≤ arg f 2 2) (hn' : arg f 2 2 ≤ 1024)
    (hv : s.partitions[(Fin.ofNat 64 (arg f 0 1) : Fin 64)].valid = true)
    (hk : rekeying s (Fin.ofNat 64 (arg f 0 1)) = false)
    (hm : s.partitions[(Fin.ofNat 64 (arg f 0 1) : Fin 64)].mode = .plain)
    (ht : s.partitions[(Fin.ofNat 64 (arg f 0 1) : Fin 64)].ptype = .raw)
    (hi : regionsInside s (Fin.ofNat 64 (arg f 0 1)) (arg f 2 2) = true)
    (hf : rangeFree s (Fin.ofNat 64 (arg f 0 1)) s.partitions[(Fin.ofNat 64 (arg f 0 1) : Fin 64)].base
      (s.partitions[(Fin.ofNat 64 (arg f 0 1) : Fin 64)].base + arg f 2 2) = true)
    (hq : resizeAhead s (Fin.ofNat 64 (arg f 0 1)) = none)
    (hg : arg f 2 2 ≠ s.partitions[(Fin.ofNat 64 (arg f 0 1) : Fin 64)].granules) :
    cmdPartitionResize m f s =
      leaveChange m (Fin.ofNat 64 (arg f 0 1)) (.resize (arg f 2 2)) s := by
  simp only [cmdPartitionResize, ha, within_of_le (Nat.zero_le _) (Nat.le_of_lt_succ h0), within_of_le hn hn', hv, hk,
    hm, ht, hi, extentOfSize, hf, hq, hg, reduceCtorEq, if_false, Option.isSome_none, decide_false, Bool.false_and,
    Bool.not_true, Bool.or_self, Bool.false_eq_true]

theorem cmdPartitionDelete_of_free (ha : argsClear f [(0, 1)] = true) (h0 : arg f 0 1 < 64)
    (hv : s.partitions[(Fin.ofNat 64 (arg f 0 1) : Fin 64)].valid = true)
    (hk : rekeying s (Fin.ofNat 64 (arg f 0 1)) = false)
    (ht : (s.tables.any fun t => (t.valid || t.quiescing) && decide (t.partition = Fin.ofNat 64 (arg f 0 1))) = false)
    (hf : queuesFree s (Fin.ofNat 64 (arg f 0 1)) = true) (hq : resizeAhead s (Fin.ofNat 64 (arg f 0 1)) = none) :
    cmdPartitionDelete m f s = leaveChange m (Fin.ofNat 64 (arg f 0 1)) .delete s := by
  simp only [cmdPartitionDelete, ha, within_of_le (Nat.zero_le _) (Nat.le_of_lt_succ h0), hv, hk, ht, hf, hq,
    Option.isSome_none, Bool.not_true, Bool.or_self, Bool.false_eq_true, if_false]

theorem cmdPartitionModify_of_quota (ha : argsClear f [(0, 3), (4, 4)] = true) (h0 : arg f 0 1 < 64)
    (h1 : arg f 1 1 = 2) (h2 : arg f 2 1 < 16) (hv : s.partitions[(Fin.ofNat 64 (arg f 0 1) : Fin 64)].valid = true)
    (hq : arg f 4 4 ≤ collieShare s (Fin.ofNat 64 (arg f 0 1)))
    (hs : sharesNaming s (Fin.ofNat 64 (arg f 0 1)) ≤ arg f 4 4) :
    cmdPartitionModify m f s = leaveChange m (Fin.ofNat 64 (arg f 0 1)) (.quota (arg f 4 4)) s := by
  simp only [cmdPartitionModify, ha, h1, within_of_le (Nat.zero_le _) (Nat.le_of_lt_succ h0),
    within_of_le (Nat.zero_le _) (Nat.le_of_lt_succ h2), hv, Nat.not_lt.2 hq, Nat.not_lt.2 hs,
    show within 0 3 2 = true from rfl, show bitAt 2 0 = false from rfl, Bool.false_and, decide_false, Bool.and_false,
    Nat.reduceEqDiff, OfNat.ofNat_ne_zero, OfNat.ofNat_ne_one, Bool.not_true, Bool.or_self, Bool.false_eq_true, if_true,
    if_false]

theorem cmdPartitionRights_of_owner (ha : argsClear f [(0, 1), (4, 4)] = true) (h0 : arg f 0 1 < 64)
    (hv : s.partitions[(Fin.ofNat 64 (arg f 0 1) : Fin 64)].valid = true) (hn : arg f 4 4 < 2 ^ 19)
    (ho : s.partitions[(Fin.ofNat 64 (arg f 0 1) : Fin 64)].mode = .plain ∨
      ∃ p : Fin 4, m.val = p.val ∧ s.partitions[(Fin.ofNat 64 (arg f 0 1) : Fin 64)].owner.getLsbD p = true) :
    cmdPartitionRights m f s =
      leaveChange m (Fin.ofNat 64 (arg f 0 1)) (.rights (BitVec.ofNat 32 (arg f 4 4))) s := by
  have hd : ¬ (s.partitions[(Fin.ofNat 64 (arg f 0 1) : Fin 64)].mode ≠ .plain ∧
      (!(decide (m.val < 4) && s.partitions[(Fin.ofNat 64 (arg f 0 1) : Fin 64)].owner.getLsbD m)) = true) := by
    rintro ⟨hm, hb⟩
    obtain he | ⟨p, hp, hl⟩ := ho
    · exact hm he
    · rw [show m.val = p.val from hp, hl, decide_eq_true p.isLt] at hb
      exact absurd hb (by decide)
  simp only [cmdPartitionRights, ha, within_of_le (Nat.zero_le _) (Nat.le_of_lt_succ h0), hv, Nat.not_le.2 hn, hd,
    decide_false, Bool.not_true, Bool.or_self, Bool.false_eq_true, if_false]

end

/-! ### Quiesce points -/

section
variable {pd : Fin 64} {c : Change} {m : Fin 6} {rest : List (Change × Option (Fin 6))} {s : State}

theorem quiescePoint_of_idle (hp : s.partitions[pd].pendingChanges = (c, some m) :: rest)
    (hb : partitionBusy s pd = false) : quiescePoint (.partition pd) s = runHeld (((c, some m) :: rest).foldl
      (applyOne pd) (flushPartition pd (modPartition pd (fun x => { x with pendingChanges := [] }) s))) := by
  simp only [quiescePoint, hb, applyPending, hp, Bool.false_eq_true, if_false]

/-- A change that the store takes applies, and its command answers once nothing that it waits for is left. -/
theorem applyOne_of_stored {t v : State} (hv : s.partitions[pd].valid = true) (hc : changeRefused s pd c = false)
    (ha : applyChange pd c s = some t) (hs : stored s t v) (hr : s.refills.length ≤ v.refills.length) :
    applyOne pd s (c, some m) =
      if changeWaits m v then v else respondTo m { status := .ok, data := changeReply v pd c } v := by
  unfold stored at hs
  simp only [applyOne, hv, hc, ha, hs, Option.bind_some, answerAllocated, hr, Bool.not_true, Bool.false_eq_true, if_true,
    if_false]

/-- A change past its time is dropped with whatever else its command waits for; no task waits for one that is no
resize. -/
theorem quiesceTimeout_of_pending (hp : s.partitions[pd].pendingChanges = (c, some m) :: rest)
    (hc : ∀ n, c ≠ .resize n) : quiesceTimeout (.partition pd) s = runHeld (respondTo m { status := .failed }
      (dropChanges m (modPartition pd (fun x => { x with pendingChanges := rest }) s))) := by
  simp only [quiesceTimeout, dropPending, hp]

end

section
variable {td : Fin 16} {s : State}

theorem retireTable_of_idle (hv : s.tables[td].valid = true) (hq : s.tables[td].quiescing = true)
    (hb : tableBusy s td = false) : retireTable td s = modTable td (fun t => { t with valid := false }) s :=
  if_pos ⟨hv, hq, by rw [hb]; rfl⟩

theorem keepTable_of_quiescing (hv : s.tables[td].valid = true) (hq : s.tables[td].quiescing = true) :
    keepTable td s = endTasks (fun x => decide (x.work = .tableDelete td)) .failed
      (modTable td (fun t => { t with quiescing := false }) s) := if_pos ⟨hv, hq⟩

end

/-- Settles O42. -/
theorem partitionCommandsAndQuiescePoints : Obligations.PartitionCommandsAndQuiescePoints := by
  refine ⟨fun m f s => ⟨fun h ha h0 h1 h2 h3 h4 h5 h6 hn hv hf hq t v ht hr hs => ?_,
      fun h h0 hn hn' ha hv hk hm ht hi hf hq hg => ?_, fun h h0 hv hk ht hf hq => ?_,
      fun h ha h0 h1 h2 hv hq hs => ?_, fun h ha h0 hv hn ho => ?_⟩,
    fun pd c m rest s hp => ⟨fun hb => ?_, fun hv hc t v ha hs hr => applyOne_of_stored hv hc ha hs hr, fun hc => ?_⟩,
    fun td s hv hq => ⟨fun hb => ?_, ?_⟩⟩
  · exact answered_of_stored h rfl rfl (cmdPartitionCreate_of_mapped (m := m) (s := begun 0x100 m f s)
      ha h0 h1 h2 h3 h4 h5 h6 hn hv hf hq ht hr) hs
  · exact next_of_leaveChange h rfl rfl (cmdPartitionResize_of_plain (m := m) (s := begun 0x101 m f s)
      ha h0 hn hn' hv hk hm ht hi hf hq hg)
  · exact next_of_leaveChange h rfl rfl (cmdPartitionDelete_of_free (m := m) (s := begun 0x102 m f s)
      (argsClear_of_accepted h rfl rfl (n := 1) (by decide)) h0 hv hk ht hf hq)
  · exact next_of_leaveChange h rfl rfl (cmdPartitionModify_of_quota (m := m) (s := begun 0x103 m f s)
      ha h0 h1 h2 hv hq hs)
  · exact next_of_leaveChange h rfl rfl (cmdPartitionRights_of_owner (m := m) (s := begun 0x104 m f s)
      ha h0 hv hn ho)
  · exact congrArg Host.Outcome.next (quiescePoint_of_idle hp hb)
  · exact congrArg Host.Outcome.next (quiesceTimeout_of_pending hp hc)
  · exact congrArg Host.Outcome.next (retireTable_of_idle hv hq hb)
  · exact congrArg Host.Outcome.next (keepTable_of_quiescing hv hq)

end Sys2Proof.PartitionChanges
end

section
/-! PROOFS. The commands on keys, tables, queues and Collie (O43). -/

namespace Sys2Proof.EngineCommands

open Sys2Proof Sys2Proof.Machine Sys2Proof.Laws Sys2Proof.Safety Sys2Proof.Commands Sys2Proof.Reports
  Sys2Proof.Settings

/-! ### The configuration store -/

theorem SameRecords.trans {s t u : State} (h : SameRecords s t) (h' : SameRecords t u) : SameRecords s u := by
  intro r
  have hr := h r
  have hr' := h' r
  cases r <;> simp only [recordChanged, Bool.or_eq_false_iff, decide_eq_false_iff_not, ne_eq, not_not] at hr hr' ⊢ <;>
    simp only [hr, hr', and_self]

/-- A change of a table changes no other record of the store than the table's. -/
theorem recordChanged_modTable {td : Fin 16} {g : Table → Table} {u : State} {r : ConfigRecord} (h : r ≠ .table td) :
    recordChanged u (modTable td g u) r = false := by
  cases r with
  | table k =>
    have hk : k ≠ td := fun e => h (e ▸ rfl)
    simp [recordChanged, modTable_other _ _ _ hk]
  | _ => simp [recordChanged, modTable]

/-- What a table counts and lists beside its layout and its seeds is no record of the store (R437). -/
theorem counted_sameRecords {td : Fin 16} {g : Table → Table} {u : State}
    (hg : ∀ x, tableWord (g x) = tableWord x ∧ (g x).seed1 = x.seed1 ∧ (g x).seed2 = x.seed2) :
    SameRecords u (modTable td g u) := by
  intro r
  by_cases h : r = .table td
  · subst h
    obtain ⟨hw, h1, h2⟩ := hg u.tables[td]
    simp only [recordChanged, modTable_self, hw, h1, h2, ne_eq, not_true_eq_false, decide_false, Bool.or_self]
  · exact recordChanged_modTable h

/-- The store takes a change that no stuck record shows; only the firmware's copies change with it. -/
theorem stored_of_unstuck {before after : State}
    (h : ∀ r ∈ storeRecords, recordChanged before after r = true → before.firmware.stuck.contains r = false) :
    ∃ v, stored before after v ∧ v.tables = after.tables ∧ v.dram = after.dram := by
  have hs : (storeRecords.filter (recordChanged before after)).any before.firmware.stuck.contains = false := by
    rw [List.any_eq_false]
    intro r hr
    obtain ⟨hm, hc⟩ := List.mem_filter.1 hr
    rw [h r hm hc]
    decide
  unfold stored commitStore
  simp only [hs, Bool.false_eq_true, if_false]
  split
  · exact ⟨after, rfl, rfl, rfl⟩
  · exact ⟨_, rfl, rfl, rfl⟩

section
variable {m : Fin 6} {f : Frame} {s : State}

/-! ### Keys -/

theorem cmdKeyLoad_of_unwrapped (ha : argsClear f [(0, 2), (4, 40)] = true) (h0 : arg f 0 1 < 64) (h1 : arg f 1 1 = 3)
    (hk : s.keys[(Fin.ofNat 64 (arg f 0 1) : Fin 64)].kind = .empty) (hl : loadFits s (arg f 0 1) 3 = true)
    (ht : secretsTested s = false) {secret : BitVec 256} {key : List Nat} (hs : s.fuses.keywrap = some secret)
    (hu : keyUnwrap (keyWrapKey s secret) ((bytesAt f.args 4 40).map BitVec.toNat) = some key) :
    cmdKeyLoad m f s = answer .ok (modKey (Fin.ofNat 64 (arg f 0 1))
      (fun _ => { kind := .gcm, key := BitVec.ofNat 512 (listNum key) })
      (modFuses (fun f => { f with unwrapRun := 0 }) s)) := by
  simp only [cmdKeyLoad, h1, if_true, ha, within_of_le (Nat.zero_le _) (Nat.le_of_lt_succ h0),
    show within 1 3 3 = true from rfl, hk, hl, ht, hs, hu, Bool.not_true, Bool.or_self, Bool.false_eq_true, if_false,
    ne_eq, not_true_eq_false, decide_false, Nat.reduceEqDiff, OfNat.ofNat_ne_one, false_and]

theorem cmdKeyClear_of_unused (ha : argsClear f [(0, 1)] = true) (h0 : arg f 0 1 < 64)
    (hu : slotUser s (arg f 0 1) = none) :
    cmdKeyClear m f s = answer .ok (modKey (Fin.ofNat 64 (arg f 0 1)) (fun _ => {}) s) := by
  simp only [cmdKeyClear, ha, within_of_le (Nat.zero_le _) (Nat.le_of_lt_succ h0), hu, Option.isSome_none, Bool.not_true,
    Bool.or_self, Bool.false_eq_true, if_false]

/-! ### Tables -/

/-- The exact table that TABLE_CREATE makes, its seeds the next two that are drawn. -/
def exactTable (f : Frame) (n : Nat) (t : Table) : Table :=
  { t with
    valid := true, prefixKind := false, partition := Fin.ofNat 64 (arg f 2 1), keyLen := arg f 3 1
    bucketLog2 := arg f 4 1, home := Fin.ofNat 4 (arg f 5 1), baseBlock := arg f 8 4, regionBlocks := arg f 12 4
    dirBase := 0, dirBits := arg f 6 1, entryCount := 0, stashCount := 0, commitSeq := 0, stash := []
    stashHigh := false, quiescing := false, ring := [], reported := []
    seed1 := Config.freeSeed n, seed2 := Config.freeSeed (n + 1) }

/-- The state with the exact table of the frame made. -/
def tableMade (f : Frame) (s : State) : State :=
  modTable (Fin.ofNat 16 (arg f 0 1)) (exactTable f s.drawn) (drawOne (drawOne s))

theorem tableMade_stored {u : State} (h : u.firmware.stuck.contains (.table (Fin.ofNat 16 (arg f 0 1))) = false) :
    ∃ v, stored u (tableMade f u) v ∧ v.tables = (tableMade f u).tables ∧ v.dram = u.dram := by
  refine stored_of_unstuck fun r _ hr => ?_
  by_cases he : r = .table (Fin.ofNat 16 (arg f 0 1))
  · rw [he]
    exact h
  · have hd : recordChanged u (tableMade f u) r = recordChanged (drawOne (drawOne u)) (tableMade f u) r := by
      cases r <;> rfl
    rw [hd, tableMade, recordChanged_modTable he] at hr
    exact absurd hr (by decide)

theorem cmdTableCreate_of_exact (ha : argsClear f [(0, 7), (8, 12)] = true) (h0 : arg f 0 1 < 16) (h1 : arg f 1 1 = 0)
    (h2 : arg f 2 1 < 64) (h5 : arg f 5 1 < 4) (h16 : arg f 16 4 = 0)
    (ht : tableTaken s.tables[(Fin.ofNat 16 (arg f 0 1) : Fin 16)] = false)
    (hv : s.partitions[(Fin.ofNat 64 (arg f 2 1) : Fin 64)].valid = true)
    (hp : s.partitions[(Fin.ofNat 64 (arg f 2 1) : Fin 64)].ptype = .table)
    (hf : tableFieldsFit false (arg f 3 1) (arg f 4 1) (arg f 6 1) 0 (arg f 12 4) = true)
    (hn : arg f 8 4 + arg f 12 4 ≤ s.partitions[(Fin.ofNat 64 (arg f 2 1) : Fin 64)].granules * granuleBlocks)
    (hr : regionClear s (Fin.ofNat 64 (arg f 2 1)) (arg f 8 4) (arg f 12 4) = true)
    (hc : s.partitions[(Fin.ofNat 64 (arg f 2 1) : Fin 64)].chip = true ∨
      arg f 5 1 = s.partitions[(Fin.ofNat 64 (arg f 2 1) : Fin 64)].quarter.val) :
    cmdTableCreate m f s = answer .ok (tableMade f s) := by
  have hq : (!s.partitions[(Fin.ofNat 64 (arg f 2 1) : Fin 64)].chip &&
      decide (arg f 5 1 ≠ s.partitions[(Fin.ofNat 64 (arg f 2 1) : Fin 64)].quarter.val)) = false := by
    obtain h | h := hc <;>
      simp only [h, Bool.not_true, Bool.false_and, ne_eq, not_true_eq_false, decide_false, Bool.and_false]
  simp only [cmdTableCreate, ha, h1, h16, within_of_le (Nat.zero_le _) (Nat.le_of_lt_succ h0),
    within_of_le (Nat.zero_le _) (Nat.le_of_lt_succ h2), within_of_le (Nat.zero_le _) (Nat.le_of_lt_succ h5),
    show within 0 1 0 = true from rfl, ht, hv, hp, zero_ne_one, decide_false, hf, Nat.not_lt.2 hn, hr, hq,
    Bool.not_true, Bool.false_and, Bool.or_self, Bool.false_eq_true, if_false, ne_eq, not_true_eq_false]
  rfl

theorem cmdTableSlotRelease_of_directory (ha : argsClear f [(0, 3), (4, 4)] = true) (h0 : arg f 0 1 < 16)
    (h1 : arg f 1 1 = 2) (h2 : arg f 2 1 < 32) (hv : s.tables[(Fin.ofNat 16 (arg f 0 1) : Fin 16)].valid = true)
    (hq : s.tables[(Fin.ofNat 16 (arg f 0 1) : Fin 16)].quiescing = false)
    (hp : s.tables[(Fin.ofNat 16 (arg f 0 1) : Fin 16)].prefixKind = true)
    (hi : arg f 4 4 < 2 ^ s.tables[(Fin.ofNat 16 (arg f 0 1) : Fin 16)].dirBits)
    (hb : s.directoryBad.contains (s.tables[(Fin.ofNat 16 (arg f 0 1) : Fin 16)].dirBase + arg f 4 4) = true) :
    cmdTableSlotRelease m f s =
      (let td : Fin 16 := Fin.ofNat 16 (arg f 0 1)
       let i := s.tables[td].dirBase + arg f 4 4
       answer .ok (commitCount td (.directory i) (setDirectory i 0
        (modTable td (fun t => { t with reported := t.reported.filter (· ≠ (i, 32)) })
          { s with directoryBad := s.directoryBad.filter (· ≠ i) })))) := by
  simp only [cmdTableSlotRelease, ha, h1, within_of_le (Nat.zero_le _) (Nat.le_of_lt_succ h0),
    within_of_le (Nat.zero_le _) (Nat.le_of_lt_succ h2), show within 0 2 2 = true from rfl, hv, hq, hp, hb,
    Nat.not_le.2 hi, ne_eq, OfNat.ofNat_ne_zero, not_false_eq_true, decide_true, bne_self_eq_false, Bool.not_true,
    Bool.or_self, Bool.false_eq_true, if_true, if_false, or_self]
  rfl

/-- A slot of the directory released is no record of the store. -/
theorem listed_sameRecords (i : Nat) (u : State) : SameRecords u
    (let td : Fin 16 := Fin.ofNat 16 (arg f 0 1)
     commitCount td (.directory i) (setDirectory i 0
      (modTable td (fun t => { t with reported := t.reported.filter (· ≠ (i, 32)) })
        { u with directoryBad := u.directoryBad.filter (· ≠ i) }))) := by
  refine SameRecords.trans (t := modTable (Fin.ofNat 16 (arg f 0 1)) (fun t => { t with
    reported := t.reported.filter (· ≠ (i, 32)) }) u) (counted_sameRecords fun _ => ⟨rfl, rfl, rfl⟩) ?_
  have h := counted_sameRecords (td := Fin.ofNat 16 (arg f 0 1)) (g := fun t => { t with
    commitSeq := t.commitSeq + 1, ring := (Target.directory i :: t.ring).take 16 }) (u := modTable
      (Fin.ofNat 16 (arg f 0 1)) (fun t => { t with reported := t.reported.filter (· ≠ (i, 32)) }) u)
    fun _ => ⟨rfl, rfl, rfl⟩
  intro r
  rw [← h r]
  cases r <;> rfl

/-! ### Queues -/

theorem cmdQueueCreate_of_spare (ha : argsClear f [(0, 8)] = true) (h0 : arg f 0 4 < 262144) (h4 : arg f 4 1 < 64)
    (h5 : arg f 5 1 < 32) (h6 : arg f 6 1 < 16) (h7 : arg f 7 1 = 1 ∨ arg f 7 1 = 2)
    (hv : s.partitions[(Fin.ofNat 64 (arg f 4 1) : Fin 64)].valid = true)
    (hp : s.partitions[(Fin.ofNat 64 (arg f 4 1) : Fin 64)].ptype = .buffer) (hq : (queueAt s (arg f 0 4)).state = .free)
    (hc : s.partitions[(Fin.ofNat 64 (arg f 4 1) : Fin 64)].chip = true ∨
      homeSlice (arg f 0 4) = s.partitions[(Fin.ofNat 64 (arg f 4 1) : Fin 64)].quarter)
    (ho : ownerSubset s (Fin.ofNat 64 (arg f 4 1)) (BitVec.ofNat 4 (arg f 6 1)) = true)
    (hf : freeCells s (Fin.ofNat 64 (arg f 4 1)) ≠ 0) {c : Nat} {t : State}
    (ht : takeCell (homeSlice (arg f 0 4)) (Fin.ofNat 64 (arg f 4 1)) s = (some c, t)) :
    cmdQueueCreate m f s = answer .ok (modQueue (arg f 0 4) (fun _ => {
      head := c, tail := c, profile := arg f 5 1, state := if arg f 7 1 = 1 then .active else .stopped
      partition := (Fin.ofNat 64 (arg f 4 1) : Fin 64).val, owner := BitVec.ofNat 4 (arg f 6 1) }) t) := by
  have w7 : within 1 2 (arg f 7 1) = true := within_of_le (by omega) (by omega)
  obtain h | h := hc.imp id Eq.symm <;> simp only [cmdQueueCreate, queueArg, ha, within_of_le (Nat.zero_le _) (Nat.le_of_lt_succ h0),
    within_of_le (Nat.zero_le _) (Nat.le_of_lt_succ h4), within_of_le (Nat.zero_le _) (Nat.le_of_lt_succ h5),
    within_of_le (Nat.zero_le _) (Nat.le_of_lt_succ h6), w7, hv, hp, hq, h, ho, hf, ht, ne_eq, not_true_eq_false,
    decide_false, Bool.false_and, Bool.and_false, Bool.not_true, Bool.or_self, Bool.false_eq_true, if_false]

theorem cmdQueueModify_of_profile (ha : argsClear f [(0, 8)] = true) (h0 : arg f 0 4 < 262144) (h4 : arg f 4 1 = 1)
    (h5 : arg f 5 1 < 32) (h6 : arg f 6 1 < 16) (hq : (queueAt s (arg f 0 4)).state ≠ .free) :
    cmdQueueModify m f s =
      answer .ok (modQueue (arg f 0 4) (fun y => { y with profile := arg f 5 1 }) s) := by
  simp only [cmdQueueModify, queueArg, ha, h4, within_of_le (Nat.zero_le _) (Nat.le_of_lt_succ h0),
    within_of_le (Nat.zero_le _) (Nat.le_of_lt_succ h5), within_of_le (Nat.zero_le _) (Nat.le_of_lt_succ h6),
    show within 0 7 1 = true from rfl, show bitAt 1 0 = true from rfl, show bitAt 1 1 = false from rfl,
    show bitAt 1 2 = false from rfl, hq, decide_false, Bool.false_and, Bool.not_true, Bool.or_self, Bool.false_eq_true,
    if_true, if_false]

theorem cmdQueueDelete_of_empty (ha : argsClear f [(0, 4)] = true) (h0 : arg f 0 4 < 262144)
    (hq : (queueAt s (arg f 0 4)).state ≠ .free) (hc : (queueAt s (arg f 0 4)).cells = 0)
    (hs : (queueAt s (arg f 0 4)).streams = []) :
    cmdQueueDelete m f s = answer .ok (modQueue (arg f 0 4) (fun _ => {})
      (giveCell (homeSlice (arg f 0 4)) (queuePd s (arg f 0 4)) s (queueAt s (arg f 0 4)).tail)) := by
  simp only [cmdQueueDelete, queueArg, ha, within_of_le (Nat.zero_le _) (Nat.le_of_lt_succ h0), hq, hc, hs, ne_eq,
    not_true_eq_false, List.isEmpty_nil, decide_false, Bool.not_true, Bool.or_self, Bool.false_eq_true, if_false]

theorem cmdQueueReset_of_spare (ha : argsClear f [(0, 4)] = true) (h0 : arg f 0 4 < 262144)
    (hq : (queueAt s (arg f 0 4)).state = .broken ∨ (queueAt s (arg f 0 4)).state = .active) {c : Nat} {t : State}
    (ht : takeCell (homeSlice (arg f 0 4)) (queuePd s (arg f 0 4)) s = (some c, t)) :
    cmdQueueReset m f s = answer .ok (modQueue (arg f 0 4) (fun y => { y with
      head := c, tail := c, cells := 0, packets := 0, state := .active })
      (modBuffer (queuePd s (arg f 0 4)) (fun b => { b with leaked := b.leaked + (queueAt s (arg f 0 4)).cells + 1 })
        (endQueueWork (arg f 0 4) t))) := by
  have hn : ¬((queueAt s (arg f 0 4)).state ≠ .broken ∧ (queueAt s (arg f 0 4)).state ≠ .active) := fun h =>
    hq.elim h.1 h.2
  simp only [cmdQueueReset, queueArg, ha, within_of_le (Nat.zero_le _) (Nat.le_of_lt_succ h0), hn, ht, decide_false,
    Bool.not_true, Bool.or_self, Bool.false_eq_true, if_false]

/-! ### Collie -/

/-- A port-class with a floor from the frame, no ceiling, no target and no Kennel share. -/
def floorClass (f : Frame) (old : PortClass) : PortClass :=
  { old with
    floor := arg f 4 4, floorBurst := arg f 8 4, ceiling := 0, ceilingBurst := arg f 16 4, target := 0
    scope := arg f 2 1, kennelPd := arg f 3 1, kennelLines := 0, floorAdmitted := arg f 4 4, targetAdmitted := 0
    kennelAdmitted := 0
    floorTokens := if old.floor = 0 ∧ arg f 4 4 ≠ 0 then (arg f 8 4 * 65536 : Nat)
      else min old.floorTokens (arg f 8 4 * 65536 : Nat)
    ceilTokens := min old.ceilTokens (arg f 16 4 * 65536 : Nat) }

/-- The state with the setting of the frame's port-class taken. -/
def floorTaken (f : Frame) (s : State) : State :=
  let p : Fin 4 := Fin.ofNat 4 (arg f 0 1)
  let k : Fin 8 := Fin.ofNat 8 (arg f 1 1)
  modClass p k (fun _ => floorClass f (refillClass s.hubTimer s.ports[p].classes[k])) s

theorem cmdCollieSet_of_floor (ha : argsClear f [(0, 28)] = true) (h0 : arg f 0 1 < 4) (h1 : arg f 1 1 < 8)
    (h2 : arg f 2 1 ≤ 4) (h4 : arg f 4 4 ≤ 400000) (h4' : arg f 4 4 % 100 = 0) (h8 : 64 ≤ arg f 8 4)
    (h8' : arg f 8 4 ≤ 1048576) (h12 : arg f 12 4 = 0) (h16 : 64 ≤ arg f 16 4) (h16' : arg f 16 4 ≤ 1048576)
    (h20 : arg f 20 4 = 0) (h24 : arg f 24 4 = 0) (hl : ledgerFits (floorTaken f s) = true) :
    cmdCollieSet m f s = answer .ok (recomputeLedger s (floorTaken f s)) := by
  unfold floorTaken floorClass at hl ⊢
  dsimp only at hl ⊢
  simp only [cmdCollieSet, ha, h12, h20, h24, h4', within_of_le (Nat.zero_le _) (Nat.le_of_lt_succ h0),
    within_of_le (Nat.zero_le _) (Nat.le_of_lt_succ h1), within_of_le (Nat.zero_le _) h2,
    within_of_le (Nat.zero_le _) h4, within_of_le h8 h8', within_of_le h16 h16',
    show within 0 400000 0 = true from rfl, show within 0 524288 0 = true from rfl, hl, Nat.zero_mod, ne_eq,
    not_true_eq_false, decide_true, decide_false, Bool.true_or, Bool.false_and, Bool.not_true, Bool.or_self,
    Bool.false_eq_true, and_false, false_and, if_false]

end

/-- Settles O43. -/
theorem keyTableQueueCommands : Obligations.KeyTableQueueCommands := by
  intro m f s
  refine ⟨fun h h0 h1 ha hk hl ht secret key hs hu => ?_, fun h h0 hu => ?_,
    fun h ha h0 h1 h2 h5 h16 ht hv hp hf hn hr hc hst => ?_, fun h ha h0 h1 h2 hv hq hp hi hb => ?_,
    fun h h0 h4 h5 h6 h7 hv hp hq hc ho hf c t v ht hs => ?_, fun h h0 h4 h5 h6 hq => ?_,
    fun h h0 hq hc hst v hs => ?_, fun h h0 hq c t v ht hs => ?_,
    fun h ha h0 h1 h2 h4 h4' h8 h8' h12 h16 h16' h20 h24 hl v hs => ?_⟩
  · exact answered_of_stored h rfl rfl (cmdKeyLoad_of_unwrapped (m := m) (s := begun 0x110 m f s)
      ha h0 h1 hk hl ht hs hu) (stored_of_same (sameRecords_of_eq rfl rfl rfl rfl rfl))
  · exact answered_of_stored h rfl rfl (cmdKeyClear_of_unused (m := m) (s := begun 0x111 m f s)
      (argsClear_of_accepted h rfl rfl (n := 1) (by decide)) h0 hu)
      (stored_of_same (sameRecords_of_eq rfl rfl rfl rfl rfl))
  · obtain ⟨v, hs, hvt, hvd⟩ := tableMade_stored (u := begun 0x200 m f s) hst
    refine ⟨_, answered_of_stored h rfl rfl (cmdTableCreate_of_exact (m := m) (s := begun 0x200 m f s)
      ha h0 h1 h2 h5 h16 ht hv hp hf hn hr hc) hs, ?_, hvd, fun k hk => ?_⟩
    · simp only [hvt, tableMade, modTable_self]
      exact ⟨rfl, rfl, rfl, rfl, rfl, Nat.mod_eq_of_lt h5, rfl, rfl, rfl, rfl⟩
    · simp only [hvt, tableMade, modTable_other _ _ _ hk]
      rfl
  · exact answered_of_stored h rfl rfl (cmdTableSlotRelease_of_directory (m := m) (s := begun 0x202 m f s)
      ha h0 h1 h2 hv hq hp hi hb) (stored_of_same
      (listed_sameRecords _ _))
  · exact answered_of_stored h rfl rfl (cmdQueueCreate_of_spare (m := m) (s := begun 0x300 m f s)
      (argsClear_of_accepted h rfl rfl (n := 8) (by decide)) h0 h4 h5 h6 h7 hv hp hq hc ho hf ht) hs
  · exact answered_of_stored h rfl rfl (cmdQueueModify_of_profile (m := m) (s := begun 0x301 m f s)
      (argsClear_of_accepted h rfl rfl (n := 8) (by decide)) h0 h4 h5 h6 hq)
      (stored_of_same (sameRecords_of_eq rfl rfl rfl rfl rfl))
  · exact answered_of_stored h rfl rfl (cmdQueueDelete_of_empty (m := m) (s := begun 0x302 m f s)
      (argsClear_of_accepted h rfl rfl (n := 4) (by decide)) h0 hq hc hst) hs
  · exact answered_of_stored h rfl rfl (cmdQueueReset_of_spare (m := m) (s := begun 0x303 m f s)
      (argsClear_of_accepted h rfl rfl (n := 4) (by decide)) h0 hq ht) hs
  · exact answered_of_stored h rfl rfl (cmdCollieSet_of_floor (m := m) (s := begun 0x400 m f s)
      ha h0 h1 h2 h4 h4' h8 h8' h12 h16 h16' h20 h24 hl) hs

end Sys2Proof.EngineCommands
end

section
/-! PROOFS. The commands that start a long operation (O44). -/

namespace Sys2Proof.LongCommands

open Sys2Proof Sys2Proof.Machine Sys2Proof.Laws Sys2Proof.Safety Sys2Proof.Commands Sys2Proof.Reports
  Sys2Proof.Settings Sys2Proof.EngineCommands

/-! ### Tasks begun -/

section
variable {m : Fin 6} {opcode : BitVec 16} {w : Work} {b : Task → State → State} {f : Frame} {s : State} {c : CmdSpec}

/-- The answer ACCEPTED with the next ticket. -/
def acceptedReply (s : State) : Reply := { status := .accepted, ticket := s.nextTicket }

theorem accept_of_room (h : roomForTask s = true) :
    accept m opcode w b s = (some (acceptedReply s), taskBegun m opcode w b s) := by
  have hn : ¬32 ≤ outstandingTasks s := by
    simp only [roomForTask, decide_eq_true_eq] at h
    omega
  exact if_neg hn

theorem acceptOrQueue_of_open (h : activityOpen m opcode w s = true) :
    acceptOrQueue m opcode w b s = (some (acceptedReply s), taskBegun m opcode w b s) := by
  simp only [activityOpen, Bool.and_eq_true] at h
  obtain ⟨hr, hm⟩ := h
  have hn : ¬32 ≤ outstandingTasks s := by
    simp only [roomForTask, decide_eq_true_eq] at hr
    omega
  simp only [acceptOrQueue, hn, hm, if_true, if_false, accept_of_room hr]

/-- A task in the list is no record of the configuration store. -/
theorem listed_sameRecords (u : State) :
    SameRecords u (putTask (newTask u m opcode .running w) { u with nextTicket := ticketAfter u.nextTicket }) :=
  sameRecords_of_eq rfl rfl rfl rfl rfl

/-- A command whose operation begins answers ACCEPTED. -/
theorem started_of_stored (h : accepted opcode m f s = true) (hc : cmdSpec opcode.toNat = some c)
    (hs : c.set = .change)
    (hr : c.run m f (begun opcode m f s) =
      (some (acceptedReply (begun opcode m f s)), taskBegun m opcode w b (begun opcode m f s))) {v : State}
    (hv : stored (begun opcode m f s) (taskBegun m opcode w b (begun opcode m f s)) v) :
    Host.Outcome.next (command opcode m f s) =
      (.next (respondTo m { status := .accepted, ticket := s.nextTicket } v) : Out) :=
  responded_of_stored h hc hs hr hv

/-- A command whose operation changes no record of the store starts its task. -/
theorem startsTask_of_same (h : accepted opcode m f s = true) (hc : cmdSpec opcode.toNat = some c)
    (hs : c.set = .change)
    (hr : c.run m f (begun opcode m f s) =
      (some (acceptedReply (begun opcode m f s)), taskBegun m opcode w b (begun opcode m f s)))
    (hb : ∀ t x, SameRecords x (b t x)) :
    Host.Outcome.next (command opcode m f s) = startsTask m opcode w b (begun opcode m f s) :=
  started_of_stored h hc hs hr (stored_of_same (SameRecords.trans (listed_sameRecords _) (hb _ _)))

end

theorem SameRecords.refl (s : State) : SameRecords s s := sameRecords_of_eq rfl rfl rfl rfl rfl

/-! ### Each command -/

section
variable {m : Fin 6} {f : Frame} {s : State}

theorem cmdTableDelete_of_valid (ha : argsClear f [(0, 1)] = true) (h0 : arg f 0 1 < 16)
    (hv : s.tables[(Fin.ofNat 16 (arg f 0 1) : Fin 16)].valid = true)
    (hq : s.tables[(Fin.ofNat 16 (arg f 0 1) : Fin 16)].quiescing = false) :
    cmdTableDelete m f s = accept m 0x0201 (.tableDelete (Fin.ofNat 16 (arg f 0 1)))
      (fun _ s => modTable (Fin.ofNat 16 (arg f 0 1)) (fun t => { t with quiescing := true }) s) s := by
  simp only [cmdTableDelete, ha, within_of_le (Nat.zero_le _) (Nat.le_of_lt_succ h0), hv, hq, Bool.not_true,
    Bool.or_self, Bool.false_eq_true, if_false]

theorem cmdBufferReset_of_empty (ha : argsClear f [(0, 1)] = true) (h0 : arg f 0 1 < 64)
    (hv : s.partitions[(Fin.ofNat 64 (arg f 0 1) : Fin 64)].valid = true)
    (ht : s.partitions[(Fin.ofNat 64 (arg f 0 1) : Fin 64)].ptype = .buffer)
    (hq : ((queuesOf s (Fin.ofNat 64 (arg f 0 1))).any fun q =>
      decide ((queueAt s q).cells ≠ 0) || !(queueAt s q).streams.isEmpty) = false) :
    cmdBufferReset m f s = accept m 0x0304 (.bufferReset (Fin.ofNat 64 (arg f 0 1)))
      (fun _ s => bufferWatch (Fin.ofNat 64 (arg f 0 1)) (resetBuffer (Fin.ofNat 64 (arg f 0 1)) s)) s := by
  simp only [cmdBufferReset, ha, within_of_le (Nat.zero_le _) (Nat.le_of_lt_succ h0), hv, ht, hq, ne_eq,
    not_true_eq_false, decide_false, Bool.not_true, Bool.or_self, Bool.false_eq_true, if_false]

theorem cmdPartitionRekey_of_fit {pd : Fin 64} (ha : argsClear f [(0, 2)] = true) (h0 : arg f 0 1 = pd.val)
    (h1 : arg f 1 1 < 64) (hv : s.partitions[pd].valid = true) (hm : s.partitions[pd].mode ≠ .plain)
    (hk : rekeying s pd = false) (hr : resizeAhead s pd = none)
    (hf : slotFits s s.partitions[pd].mode (arg f 1 1) = true) (ho : activityOpen m 0x105 (.rekey pd) s = true) :
    cmdPartitionRekey m f s = (some (acceptedReply s), modSeal pd (fun y => { y with
      rekey := some { slot := arg f 1 1, pointer := 0, quarantined := 0 } })
      (taskBegun m 0x105 (.rekey pd) (fun _ s => s) s)) := by
  have hp : (Fin.ofNat 64 pd.val : Fin 64) = pd := Fin.ofNat_val_eq_self pd
  simp only [cmdPartitionRekey, ha, h0, hp, within_of_le (Nat.zero_le _) (Nat.le_of_lt_succ pd.isLt),
    within_of_le (Nat.zero_le _) (Nat.le_of_lt_succ h1), hv, hm, hk, hr, hf, acceptOrQueue_of_open ho,
    Option.isSome_none, Option.map_some, acceptedReply, decide_false, Bool.not_true, Bool.or_self, Bool.false_eq_true,
    if_false, Option.some.injEq, reduceCtorEq]

theorem cmdPortTrain_of_enabled (ha : argsClear f [(0, 1)] = true) (h0 : arg f 0 1 < 4)
    (he : s.ports[(Fin.ofNat 4 (arg f 0 1) : Fin 4)].phy.enable = true) :
    cmdPortTrain m f s = acceptOrQueue m 0x0500 (.portTrain (Fin.ofNat 4 (arg f 0 1)))
      (beginTrain (Fin.ofNat 4 (arg f 0 1))) s := by
  simp only [cmdPortTrain, portArg, ha, within_of_le (Nat.zero_le _) (Nat.le_of_lt_succ h0), he, Bool.not_true,
    Bool.or_self, Bool.false_eq_true, if_false]

theorem cmdPortTest_of_forced (ha : argsClear f [(0, 7), (8, 4)] = true) (h0 : arg f 0 1 < 4) (h1 : arg f 1 1 = 0)
    (h2 : arg f 2 1 < 4) (h3 : arg f 3 1 < 8) (h3' : bitsOf (arg f 3 1) 1 0 ≠ 3) (h6 : arg f 6 1 = 1)
    (he : s.ports[(Fin.ofNat 4 (arg f 0 1) : Fin 4)].phy.enable = true) :
    cmdPortTest m f s = acceptOrQueue m 0x0501 (.portTest (Fin.ofNat 4 (arg f 0 1)) (testArg f))
      (beginTest (Fin.ofNat 4 (arg f 0 1)) (testArg f)) s := by
  simp only [cmdPortTest, portArg, ha, h1, h6, h3', within_of_le (Nat.zero_le _) (Nat.le_of_lt_succ h0),
    within_of_le (Nat.zero_le _) (Nat.le_of_lt_succ h2), within_of_le (Nat.zero_le _) (Nat.le_of_lt_succ h3),
    show within 0 1 0 = true from rfl, show within 0 1 1 = true from rfl, he, zero_ne_one, one_ne_zero, and_false,
    decide_false, Bool.not_true, Bool.or_self, Bool.false_eq_true, if_false]

theorem cmdLaneRetune_of_up (ha : argsClear f [(0, 1), (2, 2)] = true) (h0 : arg f 0 1 < 4)
    (hl : linkUp s (Fin.ofNat 4 (arg f 0 1)) = true) :
    cmdLaneRetune m f s = acceptOrQueue m 0x0503 (.retune (Fin.ofNat 4 (arg f 0 1)) (BitVec.ofNat 16 (arg f 2 2)))
      (fun _ s => s) s := by
  simp only [cmdLaneRetune, portArg, ha, within_of_le (Nat.zero_le _) (Nat.le_of_lt_succ h0), hl, Bool.not_true,
    Bool.or_self, Bool.false_eq_true, if_false]

theorem cmdVtrim_of_present (ha : argsClear f [(0, 1)] = true) (h0 : arg f 0 1 < 32)
    (hc : chanRetired s (Fin.ofNat 32 (arg f 0 1)) = false) :
    cmdVtrim m f s = acceptOrQueue m 0x0600 (.vtrim (Fin.ofNat 32 (arg f 0 1))) (fun _ s => s) s := by
  simp only [cmdVtrim, chanArg, ha, within_of_le (Nat.zero_le _) (Nat.le_of_lt_succ h0), hc, Bool.not_true,
    Bool.or_self, Bool.false_eq_true, if_false]

theorem cmdWireRepair_of_present (ha : argsClear f [(0, 4)] = true) (h0 : arg f 0 1 < 32) (h1 : arg f 1 1 < 3)
    (h2 : arg f 2 2 < pathWires (pathOf (arg f 1 1))) (hc : chanRetired s (Fin.ofNat 32 (arg f 0 1)) = false) :
    cmdWireRepair m f s = acceptOrQueue m 0x0601
      (.wireRepair (Fin.ofNat 32 (arg f 0 1)) (pathOf (arg f 1 1)) (arg f 2 2)) (fun _ s => s) s := by
  simp only [cmdWireRepair, chanArg, ha, within_of_le (Nat.zero_le _) (Nat.le_of_lt_succ h0),
    within_of_le (Nat.zero_le _) (Nat.le_of_lt_succ h1), Nat.not_le.2 h2, hc, decide_false, Bool.not_true, Bool.or_self,
    Bool.false_eq_true, if_false]

theorem cmdRowRepair_of_present (ha : argsClear f [(0, 2), (4, 4)] = true) (h0 : arg f 0 1 < 32) (h1 : arg f 1 1 < 16)
    (h4 : arg f 4 4 < 65600) (hc : chanRetired s (Fin.ofNat 32 (arg f 0 1)) = false)
    (hr : s.channels[(Fin.ofNat 32 (arg f 0 1) : Fin 32)].retire ≠ .migrating) :
    cmdRowRepair m f s = acceptOrQueue m 0x0602
      (.rowRepair (Fin.ofNat 32 (arg f 0 1)) (Fin.ofNat 16 (arg f 1 1)) (arg f 4 4)) (fun _ s => s) s := by
  simp only [cmdRowRepair, chanArg, ha, within_of_le (Nat.zero_le _) (Nat.le_of_lt_succ h0),
    within_of_le (Nat.zero_le _) (Nat.le_of_lt_succ h1), within_of_le (Nat.zero_le _) (Nat.le_of_lt_succ h4), hc, hr,
    decide_false, Bool.not_true, Bool.or_self, Bool.false_eq_true, if_false]

theorem cmdQuarterReset_of_alive (ha : argsClear f [(0, 1)] = true) (h0 : arg f 0 1 < 4)
    (hf : s.device.fatal = false) :
    cmdQuarterReset m f s = accept m 0x0701 (.quarterReset (Fin.ofNat 4 (arg f 0 1)))
      (fun _ s => beginQuarterReset (Fin.ofNat 4 (arg f 0 1)) s) s := by
  simp only [cmdQuarterReset, ha, within_of_le (Nat.zero_le _) (Nat.le_of_lt_succ h0), hf, Bool.not_true, Bool.or_self,
    Bool.false_eq_true, if_false]

theorem cmdBistRun_of_allowed {b : BlockId} {n : Nat} (ha : argsClear f [(0, 1), (2, 6)] = true)
    (hb : blockArg f = some b) (hn : bistPatterns s (arg f 4 4) = some n) (h : bistAllowed s b = true) :
    cmdBistRun m f s = acceptOrQueue m 0x0800 (.bist b n) (fun _ s => beginTestRun b s) s := by
  simp only [cmdBistRun, hb, hn, ha, h, Bool.not_true, Bool.or_self, Bool.false_eq_true, if_false]

theorem cmdMbistRun_of_allowed {b : BlockId} (ha : argsClear f [(0, 1), (2, 2)] = true) (hb : blockArg f = some b)
    (h : mbistAllowed s b = none) :
    cmdMbistRun m f s = acceptOrQueue m 0x0801 (.mbist b) (fun _ s => beginTestRun b s) s := by
  simp only [cmdMbistRun, hb, ha, h, Bool.not_true, Bool.false_eq_true, if_false]

theorem cmdPatchActivate_of_rom (ha : argsClear f [(0, 1)] = true) (h0 : arg f 0 1 = 0) :
    cmdPatchActivate m f s = accept m 0x0901 (.patchActivate true)
      (fun _ s => modFirmware (fun x => { x with activating := true }) s) s := by
  simp only [cmdPatchActivate, ha, h0, show within 0 1 0 = true from rfl, decide_true, if_true, Bool.not_true,
    Bool.or_self, Bool.false_eq_true, if_false]

theorem cmdConfigImport_of_first (ha : argsClear f [(0, 8), (8, arg f 2 2)] = true) (h1 : arg f 1 1 = 0)
    (hn : within 1 4068 (arg f 2 2) = true) (h4 : arg f 4 4 = 0) (hp : (s.partitions.any (·.valid)) = false)
    (hg : (gcmSlot s (arg f 0 1)).isSome = true) :
    cmdConfigImport m f s = answer .ok (modFirmware (fun x => { x with
      importNext := arg f 2 2, importBuffer := memWrite [] 0 (bytesAt f.args 8 (arg f 2 2)) }) s) := by
  obtain ⟨key, hk⟩ := Option.isSome_iff_exists.1 hg
  simp only [cmdConfigImport, ha, h1, hn, h4, hp, hk, show within 0 1 0 = true from rfl, zero_ne_one, decide_false,
    Nat.zero_add, ne_eq, not_true_eq_false, Bool.not_true, Bool.not_false, Bool.or_self, Bool.false_eq_true, if_true,
    if_false]

/-! ### Fuses -/

/-- A slot that a burn may take next is not locked. -/
theorem fuseLocked_of_next {copy i : Nat} (h : nextUser s copy = some i) : fuseLocked s 5 i copy = false := by
  have hp := List.find?_some h
  simp only [Bool.and_eq_true, Bool.not_eq_true'] at hp
  exact hp.1.2

theorem cmdFuseBurn_of_blank (h0 : arg f 0 1 = 5) (h1 : arg f 1 1 < 4) (h2 : arg f 2 1 < 2)
    (ha : argsClear f [(0, 3), (8, 64)] = true) (hd : fuseDead s 5 (arg f 1 1) = false)
    (hb : fuseBlockState s 5 (arg f 2 1) (arg f 1 1) = .blank) (hn : nextUser s (arg f 2 1) = some (arg f 1 1))
    (hi : imageFits s 5 (arg f 1 1) (arg f 2 1) (fuseImage f) = true) (hr : fuseRefusal s = none) :
    cmdFuseBurn m f s = accept m 0x0A02 (.fuseBurn 5 (arg f 1 1) (arg f 2 1) (natToBytes 64 (fuseImage f)))
      (fun _ s => s) s := by
  have hf : fuseArgs f = true := by
    simp only [fuseArgs, h0, if_true, within_of_le (Nat.zero_le _) (Nat.le_of_lt_succ h1)]
    rfl
  simp only [cmdFuseBurn, h0, show fuseBytes 5 = 64 from rfl, ha, hf, within_of_le (Nat.zero_le _) (Nat.le_of_lt_succ h2),
    show imageClear 5 (fuseImage f) = true from rfl, hd, hb, hn, hi, hr, fuseLocked_of_next hn, Option.isNone_some,
    ne_eq, not_true_eq_false, decide_true, decide_false, Bool.true_and, Bool.and_false, Bool.not_true, Bool.or_self,
    Bool.false_eq_true, if_false]

theorem cmdFuseLock_of_whole (ha : argsClear f [(0, 3)] = true) (hf : fuseArgs f = true) (h2 : arg f 2 1 < 2)
    (hd : fuseDead s (arg f 0 1) (arg f 1 1) = false) (hl : lockFits s (arg f 0 1) (arg f 1 1) = true)
    (hr : fuseRefusal s = none) :
    cmdFuseLock m f s = accept m 0x0A03 (.fuseLock (arg f 0 1) (arg f 1 1) (arg f 2 1)) (fun _ s => s) s := by
  simp only [cmdFuseLock, ha, hf, within_of_le (Nat.zero_le _) (Nat.le_of_lt_succ h2), hd, hl, hr, Bool.not_true,
    Bool.or_self, Bool.false_eq_true, if_false]

theorem cmdFuseReburn_of_broken (ha : argsClear f [(0, 2)] = true) (hf : fuseArgs f = true)
    (hd : fuseDead s (arg f 0 1) (arg f 1 1) = false) (hl : reburnable s (arg f 0 1) (arg f 1 1) = true)
    (hr : fuseRefusal s = none) :
    cmdFuseReburn m f s = accept m 0x0A04 (.fuseReburn (arg f 0 1) (arg f 1 1)) (fun _ s => s) s := by
  simp only [cmdFuseReburn, ha, hf, hd, hl, hr, Bool.not_true, Bool.or_self, Bool.false_eq_true, if_false]

/-! ### A rekey that is taken -/

/-- The pointer of a rekey is no record of the store. -/
theorem rekeyed_sameRecords (pd : Fin 64) (r : Rekey) (u : State) :
    SameRecords u (modSeal pd (fun y => { y with rekey := some r }) u) := by
  have hx : ∀ k : Fin 64, ∃ l, (modSeal pd (fun y => { y with rekey := some r }) u).partitions[k] =
      { u.partitions[k] with sealing := l } := fun k => by
    by_cases h : k = pd
    · subst h
      exact ⟨_, modPartition_self _ _ u⟩
    · exact ⟨_, modPartition_other _ _ _ h u⟩
  rintro (k | k | k | _ | _)
  case partition =>
    obtain ⟨l, h⟩ := hx k
    simp only [recordChanged, h, partitionWord, ne_eq, not_true_eq_false, decide_false]
  case binding =>
    obtain ⟨l, h⟩ := hx k
    simp only [recordChanged, h, ne_eq, not_true_eq_false, decide_false]
  all_goals simp [recordChanged, modSeal, modPartition]

theorem respondTo_lists (m : Fin 6) (r : Reply) (s : State) :
    (respondTo m r s).partitions = s.partitions ∧ (respondTo m r s).tasks = s.tasks := by
  obtain ⟨_, ⟨_, _, _, h⟩, -⟩ := respondTo_events m r s
  rw [h]
  exact ⟨rfl, rfl⟩

/-- A task put in the list stands there. -/
theorem mem_putTask (t : Task) (s : State) : t ∈ (putTask t s).tasks := by
  unfold putTask
  dsimp only
  split_ifs <;> simp

end

/-! ### The retirement of a channel leaves the mailboxes -/

/-- The mailboxes of `s` are those of `r`. -/
def Boxed (r s : State) : Prop := s.mailboxes = r.mailboxes

section
variable {r s : State}

theorem boxed_events {t : State} (he : Events s t) (h : Boxed r s) : Boxed r t := by
  obtain ⟨_, _, _, rfl⟩ := he
  exact h

theorem boxed_layers {t : State} (hl : Layers s t) (h : Boxed r s) : Boxed r t := by
  obtain ⟨_, _, _, _, _, _, _, rfl, -⟩ := hl
  exact h

theorem boxed_ite {t : State} {c : Prop} [Decidable c] (hs : Boxed r s) (ht : Boxed r t) :
    Boxed r (if c then s else t) := by
  split
  · exact hs
  · exact ht

theorem boxed_foldl {α : Type} {f : State → α → State} (hf : ∀ s a, Boxed r s → Boxed r (f s a)) {l : List α}
    (h : Boxed r s) : Boxed r (l.foldl f s) := by
  induction l generalizing s with
  | nil => exact h
  | cons a l ih => exact ih (hf s a h)

theorem channels_boxed (cs : Vector Channel 32) (h : Boxed r s) : Boxed r { s with channels := cs } := h

theorem modChannel_boxed (c : Fin 32) (f : Channel → Channel) (h : Boxed r s) : Boxed r (modChannel c f s) :=
  boxed_layers (modChannel_layers _ _ _) h

theorem raise_boxed (code kind num : Nat) (items : List (Nat × Nat)) (h : Boxed r s) :
    Boxed r (raise code kind num items s) := boxed_events (raise_events _ _ _ _ _) h

theorem holdTrim_boxed (c : Fin 32) (h : Boxed r s) : Boxed r (holdTrim c s) :=
  modChannel_boxed _ _ (boxed_layers (wakePowerDown_layers _ _) h)

theorem exitRefreshAt_boxed (begun : Nat) (due : Bool) (c : Fin 32) (h : Boxed r s) :
    Boxed r (exitRefreshAt begun due c s) :=
  boxed_ite (holdTrim_boxed _ (modChannel_boxed _ _ (boxed_layers (passTo_layers _ _) h)))
    (modChannel_boxed _ _ (boxed_layers (passTo_layers _ _) h))

theorem rewriteQueue_boxed (c : Fin 32) (h : Boxed r s) : Boxed r (rewriteQueue c s) :=
  boxed_ite (modChannel_boxed _ _ (boxed_layers (drainAll_layers _ _) h)) h

theorem leaveSelfRefresh_boxed (c : Fin 32) (h : Boxed r s) : Boxed r (leaveSelfRefresh c s) := by
  unfold leaveSelfRefresh leaveRefreshAt
  dsimp only
  refine boxed_ite (rewriteQueue_boxed _ (exitRefreshAt_boxed _ _ _ ?_)) h
  exact boxed_ite (raise_boxed _ _ _ _ (modChannel_boxed _ _ h)) (modChannel_boxed _ _ h)

theorem trimEvent_boxed (pk : Fin 4 × Fin 8) (kind admitted remaining : Nat) (f : PortClass → PortClass)
    (h : Boxed r s) : Boxed r (trimEvent pk kind admitted remaining f s) :=
  raise_boxed _ _ _ _ (boxed_events (modClass_events _ _ _ _) h)

theorem trimClass_boxed (pk : Fin 4 × Fin 8) (h : Boxed r s) : Boxed r (trimClass s pk) := by
  unfold trimClass
  dsimp only
  have ht : Boxed r (if (classAt s pk).target ≠ 0 ∧ classCharge (classAt s pk) ≠ 0 ∧
      (!scopeFits s (classAt s pk).scope) = true then
        trimEvent pk 1 (classAt s pk).targetAdmitted 0 (fun c => { c with target := 0 }) s else s) :=
    boxed_ite (trimEvent_boxed _ _ _ _ _ h) h
  exact boxed_ite (boxed_ite (trimEvent_boxed _ _ _ _ _ ht) ht) ht

theorem trimShare_boxed (pk : Fin 4 × Fin 8) (h : Boxed r s) : Boxed r (trimShare s pk) :=
  boxed_ite h (trimEvent_boxed _ _ _ _ _ h)

theorem noteClass_boxed (dropped : Bool) (pk : Fin 4 × Fin 8) (h : Boxed r s) : Boxed r (noteClass dropped s pk) := by
  unfold noteClass
  exact boxed_events (modClass_events _ _ _ _) h

theorem noteRooms_boxed (dropped : Bool) (h : Boxed r s) : Boxed r (noteRooms dropped s) :=
  boxed_foldl (fun _ _ h => noteClass_boxed _ _ h) h

theorem recomputeLedger_boxed (before : State) (h : Boxed r s) : Boxed r (recomputeLedger before s) := by
  unfold recomputeLedger
  dsimp only
  have ht : Boxed r (if ledgerFits s then s else trimOrder.foldl trimClass s) :=
    boxed_ite h (boxed_foldl (fun _ _ h => trimClass_boxed _ h) h)
  refine noteRooms_boxed _ (channels_boxed _ ?_)
  exact boxed_ite ht (boxed_foldl (fun _ _ h => trimShare_boxed _ h) ht)

theorem endTask_boxed (t : Task) (st : KStatus) (result : Word) (h : Boxed r s) : Boxed r (endTask t st result s) :=
  boxed_ite h (raise_boxed _ _ _ _ h)

theorem passCheck_boxed (h : Boxed r s) : Boxed r (passCheck s) := boxed_ite (raise_boxed _ _ _ _ h) h

theorem endRetire_boxed (c : Fin 32) (h : Boxed r s) : Boxed r (endRetire c s) := by
  unfold endRetire
  dsimp only
  have hm : Boxed r (modChannel c (fun x => { x with state := .retired, retire := .retired, writeQueue := [] })
      { s with mover := none }) := modChannel_boxed _ _ h
  refine boxed_foldl (fun _ _ h => endTask_boxed _ _ _ h) (passCheck_boxed ?_)
  exact boxed_ite (boxed_ite (raise_boxed _ _ _ _ hm) hm) (raise_boxed _ _ _ _ hm)

/-- A step of the placing: the slab's target taken, and the turn moved on behind it. -/
def placeStep (acc : List (Fin 32 × Nat × Nat × Nat) × State) (t : Fin 32 × Nat × Bool) :
    List (Fin 32 × Nat × Nat × Nat) × State :=
  let taken := reserveTaken acc.2 ++ acc.1.map fun x => x.2.2
  match targetFor acc.2 taken t.2.2 t.1 with
  | some (k, tc, ts) => (acc.1 ++ [(t.1, t.2.1, tc.val, ts)], turnTo k tc acc.2)
  | none => acc

theorem placeSlabs_eq (slabs : List (Fin 32 × Nat × Bool)) (s : State) :
    placeSlabs slabs s = slabs.foldl placeStep ([], s) := rfl

theorem placeStep_boxed {acc : List (Fin 32 × Nat × Nat × Nat) × State} (t : Fin 32 × Nat × Bool)
    (h : Boxed r acc.2) : Boxed r (placeStep acc t).2 := by
  unfold placeStep
  dsimp only
  split <;> exact h

theorem placeSlabs_boxed (slabs : List (Fin 32 × Nat × Bool)) (h : Boxed r s) : Boxed r (placeSlabs slabs s).2 := by
  rw [placeSlabs_eq]
  have hf : ∀ acc : List (Fin 32 × Nat × Nat × Nat) × State, Boxed r acc.2 → Boxed r (slabs.foldl placeStep acc).2 := by
    induction slabs with
    | nil => exact fun _ h => h
    | cons t l ih => exact fun _ h => ih _ (placeStep_boxed t h)
  exact hf _ h

/-- A host's retirement of a channel starts with its mailbox as it is. -/
theorem startRetire_boxed (t : Task) (c : Fin 32) (ht : t.byStack = false) (h : Boxed r s) :
    Boxed r (startRetire t c s) := by
  unfold startRetire
  simp only [ht, Bool.false_eq_true, if_false]
  have hp (l : List (Fin 32 × Nat × Bool)) (g : Task → Task) : Boxed r (modTask t g (placeSlabs l s).2) :=
    placeSlabs_boxed l h
  have hm (q : State) (n : Nat) (hq : Boxed r q) : Boxed r (raise 0x8012 3 c [itCount n] (recomputeLedger q
      (modChannel c (fun x => { x with retire := .migrating }) (logRepair (.retired c) (leaveSelfRefresh c q))))) :=
    raise_boxed _ _ _ _ (recomputeLedger_boxed _ (modChannel_boxed _ _ (leaveSelfRefresh_boxed c hq)))
  refine boxed_ite (endTask_boxed _ _ _ (raise_boxed _ _ _ _ (modChannel_boxed _ _ h))) ?_
  refine boxed_ite (endRetire_boxed _ ?_) ?_
  · exact boxed_ite (modChannel_boxed _ _ (hp _ _)) (hm _ _ (hp _ _))
  · exact boxed_ite (modChannel_boxed _ _ (hp _ _)) (hm _ _ (hp _ _))

end

section
variable {m : Fin 6} {f : Frame} {s : State}

/-- A retirement that starts answers ACCEPTED, its mailbox as it was. -/
theorem cmdChannelRetire_of_reserve (ha : argsClear f [(0, 1)] = true) (h0 : arg f 0 1 < 32)
    (hc : chanRetired s (Fin.ofNat 32 (arg f 0 1)) = false) (hr : retirement s (Fin.ofNat 32 (arg f 0 1)) = none)
    (ht : reserveTakes s (Fin.ofNat 32 (arg f 0 1)) = true)
    (ho : activityOpen m 0x603 (.retire (Fin.ofNat 32 (arg f 0 1))) s = true) :
    ∃ t, cmdChannelRetire m f s = (some (acceptedReply s), t) ∧ Boxed s t := by
  simp only [cmdChannelRetire, chanArg, ha, within_of_le (Nat.zero_le _) (Nat.le_of_lt_succ h0), hc, hr, ht,
    acceptOrQueue_of_open ho, Bool.not_true, Bool.and_false, Bool.or_self, Bool.false_eq_true, if_false]
  refine ⟨_, rfl, ?_⟩
  have hb : Boxed s (taskBegun m 0x603 (.retire (Fin.ofNat 32 (arg f 0 1)))
      (fun t s => startRetire t (Fin.ofNat 32 (arg f 0 1)) s) s) := startRetire_boxed _ _ rfl rfl
  exact boxed_ite (modChannel_boxed _ _ hb) hb

/-- Where no record is stuck the store takes every change, and leaves the mailboxes. -/
theorem stored_of_none_stuck {u t : State} (h : u.firmware.stuck = []) : ∃ v, stored u t v ∧ Boxed t v := by
  have hs : (storeRecords.filter (recordChanged u t)).any u.firmware.stuck.contains = false := by
    rw [List.any_eq_false]
    intro r _
    simp [h]
  unfold stored commitStore
  simp only [hs, Bool.false_eq_true, if_false]
  split
  · exact ⟨t, rfl, rfl⟩
  · exact ⟨_, rfl, rfl⟩

/-- A response to a busy mailbox gives its status and frees it. -/
theorem respondTo_status (m : Fin 6) (r : Reply) {s : State} (h : s.mailboxes[m].busy.isSome = true) :
    (respondTo m r s).mailboxes[m].lastStatus = kstatusCode r.status ∧ (respondTo m r s).mailboxes[m].busy = none := by
  obtain ⟨⟨seq, opcode⟩, hb⟩ := Option.isSome_iff_exists.1 h
  have hw : (writeResponse m opcode seq r s).mailboxes[m].lastStatus = kstatusCode r.status ∧
      (writeResponse m opcode seq r s).mailboxes[m].busy = none := by
    unfold writeResponse
    dsimp only
    rw [modMailbox_self]
    exact ⟨rfl, rfl⟩
  have he : Boxed (writeResponse m opcode seq r s) (respondTo m r s) := by
    simp only [respondTo, hb]
    exact boxed_ite (boxed_events (raise_events _ _ _ _ _) rfl) rfl
  rw [he]
  exact hw

end

/-- The places of slabs do not depend on the mailboxes. -/
theorem placeStep_mailboxes (l : List (Fin 32 × Nat × Bool)) (acc : List (Fin 32 × Nat × Nat × Nat) × State)
    (b : Vector Mailbox 6) : l.foldl placeStep (acc.1, { acc.2 with mailboxes := b }) =
      ((l.foldl placeStep acc).1, { (l.foldl placeStep acc).2 with mailboxes := b }) := by
  induction l generalizing acc with
  | nil => rfl
  | cons t l ih =>
    have hs : placeStep (acc.1, { acc.2 with mailboxes := b }) t =
        ((placeStep acc t).1, { (placeStep acc t).2 with mailboxes := b }) := by
      have ht : targetFor { acc.2 with mailboxes := b }
          (reserveTaken { acc.2 with mailboxes := b } ++ acc.1.map fun x => x.2.2) t.2.2 t.1 =
          targetFor acc.2 (reserveTaken acc.2 ++ acc.1.map fun x => x.2.2) t.2.2 t.1 := rfl
      unfold placeStep
      dsimp only
      rw [ht]
      split <;> rfl
    rw [List.foldl_cons, List.foldl_cons, hs, ih]

theorem placeSlabs_mailboxes (l : List (Fin 32 × Nat × Bool)) (s : State) (b : Vector Mailbox 6) :
    (placeSlabs l { s with mailboxes := b }).1 = (placeSlabs l s).1 := by
  rw [placeSlabs_eq, placeSlabs_eq, show (([], { s with mailboxes := b }) : List (Fin 32 × Nat × Nat × Nat) × State) =
    (([], s).1, { ([], s).2 with mailboxes := b }) from rfl, placeStep_mailboxes]

theorem reserveTakes_mailboxes (s : State) (b : Vector Mailbox 6) (c : Fin 32) :
    reserveTakes { s with mailboxes := b } c = reserveTakes s c := by
  have hm : mappedSlabs { s with mailboxes := b } c = mappedSlabs s c := rfl
  have hc : slabChip { s with mailboxes := b } c = slabChip s c := rfl
  unfold reserveTakes
  dsimp only
  rw [hm, hc, placeSlabs_mailboxes]

/-- Settles O44. -/
theorem longCommandsAreAccepted : Obligations.LongCommandsAreAccepted := by
  intro m f s
  refine ⟨fun h hr h0 hv hq => ?_, fun h hr h0 hv ht hq v hs => ?_, fun pd h h0 h1 hv hm hk hr hf => ?_,
    fun h h0 he v hs => ?_, fun h ha h0 h1 h2 h3 h3' h6 he v hs => ?_, fun h ha h0 hl => ?_, fun h h0 hc => ?_,
    fun h h0 h1 h2 hc => ?_, fun h ha h0 h1 h4 hc hr => ?_, fun h h0 hc hr ht hst => ?_, fun h hr h0 hf v hs => ?_,
    fun b n h ha hb hn hal v hs => ?_, fun b h ha hb hal v hs => ?_, fun h hr h0 => ?_, fun h h1 ha h4 hp hg => ?_,
    fun h hr h0 h1 h2 ha hd hb hn hi hf => ?_, fun h hr ha h2 hd hl hf => ?_, fun h hr ha hd hl hf => ?_⟩
  · exact startsTask_of_same h rfl rfl ((cmdTableDelete_of_valid (m := m) (s := begun 0x201 m f s)
      (argsClear_of_accepted h rfl rfl (n := 1) (by decide)) h0 hv hq).trans (accept_of_room hr))
      fun _ _ => counted_sameRecords fun _ => ⟨rfl, rfl, rfl⟩
  · exact started_of_stored h rfl rfl ((cmdBufferReset_of_empty (m := m) (s := begun 0x304 m f s)
      (argsClear_of_accepted h rfl rfl (n := 1) (by decide)) h0 hv ht hq).trans (accept_of_room hr)) hs
  · obtain ⟨h, ho⟩ := Bool.and_eq_true_iff.1 h
    have hc := responded_of_stored h rfl rfl (cmdPartitionRekey_of_fit (m := m) (s := begun 0x105 m f s)
      (argsClear_of_accepted h rfl rfl (n := 2) (by decide)) h0 h1 hv hm hk hr hf ho)
      (stored_of_same (SameRecords.trans (listed_sameRecords _) (rekeyed_sameRecords _ _ _)))
    refine ⟨_, hc, ?_, ?_⟩
    · rw [(respondTo_lists _ _ _).1, modSeal, modPartition_self]
    · rw [(respondTo_lists _ _ _).2]
      exact mem_putTask _ _
  · obtain ⟨h, ho⟩ := Bool.and_eq_true_iff.1 h
    exact started_of_stored h rfl rfl ((cmdPortTrain_of_enabled (m := m) (s := begun 0x500 m f s)
      (argsClear_of_accepted h rfl rfl (n := 1) (by decide)) h0 he).trans (acceptOrQueue_of_open ho)) hs
  · obtain ⟨h, ho⟩ := Bool.and_eq_true_iff.1 h
    exact started_of_stored h rfl rfl ((cmdPortTest_of_forced (m := m) (s := begun 0x501 m f s)
      ha h0 h1 h2 h3 h3' h6 he).trans (acceptOrQueue_of_open ho)) hs
  · obtain ⟨h, ho⟩ := Bool.and_eq_true_iff.1 h
    exact startsTask_of_same h rfl rfl ((cmdLaneRetune_of_up (m := m) (s := begun 0x503 m f s) ha h0 hl).trans
      (acceptOrQueue_of_open ho)) fun _ _ => SameRecords.refl _
  · obtain ⟨h, ho⟩ := Bool.and_eq_true_iff.1 h
    exact startsTask_of_same h rfl rfl ((cmdVtrim_of_present (m := m) (s := begun 0x600 m f s)
      (argsClear_of_accepted h rfl rfl (n := 1) (by decide)) h0 hc).trans (acceptOrQueue_of_open ho))
      fun _ _ => SameRecords.refl _
  · obtain ⟨h, ho⟩ := Bool.and_eq_true_iff.1 h
    exact startsTask_of_same h rfl rfl ((cmdWireRepair_of_present (m := m) (s := begun 0x601 m f s)
      (argsClear_of_accepted h rfl rfl (n := 4) (by decide)) h0 h1 h2 hc).trans (acceptOrQueue_of_open ho))
      fun _ _ => SameRecords.refl _
  · obtain ⟨h, ho⟩ := Bool.and_eq_true_iff.1 h
    exact startsTask_of_same h rfl rfl ((cmdRowRepair_of_present (m := m) (s := begun 0x602 m f s)
      ha h0 h1 h4 hc hr).trans (acceptOrQueue_of_open ho)) fun _ _ => SameRecords.refl _
  · obtain ⟨h, ho⟩ := Bool.and_eq_true_iff.1 h
    obtain ⟨t, ht, hb⟩ := cmdChannelRetire_of_reserve (m := m) (s := begun 0x603 m f s)
      (argsClear_of_accepted h rfl rfl (n := 1) (by decide)) h0 hc hr
      ((reserveTakes_mailboxes _ _ _).trans ht) ho
    obtain ⟨v, hs, hb'⟩ := stored_of_none_stuck (u := begun 0x603 m f s) (t := t) hst
    have hv : v.mailboxes[m].busy.isSome = true := by
      rw [hb'.trans hb, begun, modMailbox_self]
      rfl
    exact ⟨_, responded_of_stored h rfl rfl ht hs, respondTo_status m _ hv⟩
  · exact started_of_stored h rfl rfl ((cmdQuarterReset_of_alive (m := m) (s := begun 0x701 m f s)
      (argsClear_of_accepted h rfl rfl (n := 1) (by decide)) h0 hf).trans (accept_of_room hr)) hs
  · obtain ⟨h, ho⟩ := Bool.and_eq_true_iff.1 h
    exact started_of_stored h rfl rfl ((cmdBistRun_of_allowed (m := m) (s := begun 0x800 m f s) ha hb hn hal).trans
      (acceptOrQueue_of_open ho)) hs
  · obtain ⟨h, ho⟩ := Bool.and_eq_true_iff.1 h
    exact started_of_stored h rfl rfl ((cmdMbistRun_of_allowed (m := m) (s := begun 0x801 m f s) ha hb hal).trans
      (acceptOrQueue_of_open ho)) hs
  · exact startsTask_of_same h rfl rfl ((cmdPatchActivate_of_rom (m := m) (s := begun 0x901 m f s)
      (argsClear_of_accepted h rfl rfl (n := 1) (by decide)) h0).trans (accept_of_room hr))
      fun _ _ => sameRecords_of_eq rfl rfl rfl rfl rfl
  · exact answered_of_stored h rfl rfl (cmdConfigImport_of_first (m := m) (s := begun 0x904 m f s)
      ha h1 (within_of_accepted h rfl rfl) h4 hp hg) (stored_of_same (sameRecords_of_eq rfl rfl rfl rfl rfl))
  · exact startsTask_of_same h rfl rfl ((cmdFuseBurn_of_blank (m := m) (s := begun 0xA02 m f s)
      h0 h1 h2 ha hd hb hn hi hf).trans (accept_of_room hr)) fun _ _ => SameRecords.refl _
  · exact startsTask_of_same h rfl rfl ((cmdFuseLock_of_whole (m := m) (s := begun 0xA03 m f s)
      (argsClear_of_accepted h rfl rfl (n := 3) (by decide)) ha h2 hd hl hf).trans (accept_of_room hr))
      fun _ _ => SameRecords.refl _
  · exact startsTask_of_same h rfl rfl ((cmdFuseReburn_of_broken (m := m) (s := begun 0xA04 m f s)
      (argsClear_of_accepted h rfl rfl (n := 2) (by decide)) ha hd hl hf).trans (accept_of_room hr))
      fun _ _ => SameRecords.refl _

end Sys2Proof.LongCommands
end

section
/-! PROOFS. The commands on resets and maintenance, and the arbiter's work (O45). -/

namespace Sys2Proof.Maintenance

open Sys2Proof Sys2Proof.Machine Sys2Proof.Laws Sys2Proof.Safety Sys2Proof.Commands Sys2Proof.Reports
  Sys2Proof.Settings

section
variable {m : Fin 6} {f : Frame} {s : State}

/-- One argument byte that no field takes is clear when it is 0. -/
theorem argsClear_of_zero (hl : f.argLength.toNat = 1) (hr : f.reserved = 0) (h0 : f.args.getD 0 0 = 0) :
    argsClear f [] = true := by
  simp only [argsClear, hr, hl, decide_true, Bool.true_and, List.all_eq_true, List.mem_range, List.any_nil,
    Bool.false_or, decide_eq_true_eq]
  intro i hi
  rwa [Nat.lt_one_iff.1 hi]

theorem cmdDeviceReset_of_clear (ha : argsClear f [] = true) : cmdDeviceReset m f s = (none, startWarm 3 (some m) s) := by
  simp only [cmdDeviceReset, ha, Bool.not_true, Bool.false_eq_true, if_false]

/-- The points of a block's echo test that fail, which nothing in the stack decides. -/
def echoesBad (s : State) : List Nat := (List.range 34).filter fun p => (Config.freeAt s.drawn p).getLsbD 0

theorem cmdBlockReset_of_serving {b : BlockId} (ha : argsClear f [(0, 1), (2, 2)] = true) (hb : blockArg f = some b)
    (hf : s.device.fatal = false) (hq : ∀ q, quarterOf b = some q → quarterOut s q = false)
    (hr : (blockAt s b).resetting = false) :
    cmdBlockReset m f s = answer .ok (startBlockReset b (echoTest b (echoesBad s) (drawOne (fenceBlock b false false s)))) := by
  cases hk : quarterOf b with
  | none => simp only [cmdBlockReset, hb, ha, hf, hk, hr, Bool.not_true, Bool.or_self, Bool.false_eq_true, if_false,
      echoesBad]
  | some q => simp only [cmdBlockReset, hb, ha, hf, hk, hq q hk, hr, Bool.not_true, Bool.or_self, Bool.false_eq_true,
      if_false, echoesBad]

theorem cmdMaintCancel_of_queued {t : Task} (ha : argsClear f [(0, 2)] = true) (ht : s.tasks.find? (fun t =>
    decide (t.ticket = arg f 0 2) && decide (arg f 0 2 ≠ 0) && decide (t.state = .queued)) = some t) :
    cmdMaintCancel m f s = answer .ok (withdraw t s) := by
  simp only [cmdMaintCancel, ht, ha, Bool.not_true, Bool.false_eq_true, if_false]

theorem maintStart_of_next {t : Task} (hr : s.firmware.rebooting = false) (hw : s.device.warm = false)
    (hf : s.device.fatal = false) (hd : devReady s = true) (ht : nextWork s = some t) :
    maintStart s = startWork t s := by
  simp only [maintStart, hr, hw, hf, hd, ht, Bool.not_true, Bool.or_self, Bool.false_eq_true, if_false]

theorem patchProbation_of_some {since n : Nat} (h : s.firmware.probation = some (since, n)) :
    patchProbation s = modFirmware (fun x => { x with
      probation := none, minPatchVersion := max x.minPatchVersion x.patchVersion })
      (passTo (since + 600 * secondNs) s) := by
  simp only [patchProbation, h]

theorem snapshotExpiry_of_some {bs : List Byte} {since : Nat} (h : s.firmware.snapshot = some (bs, since)) :
    snapshotExpiry s = modFirmware (fun x => { x with snapshot := none }) (passTo (since + 60 * secondNs) s) := by
  simp only [snapshotExpiry, h]

end

/-- Settles O45. -/
theorem resetAndMaintenanceCommands : Obligations.ResetAndMaintenanceCommands := by
  intro m f s
  refine ⟨fun h h0 v hs => ?_, fun b h ha hb hf hq hr => ?_, fun t h _ ht v hs => ?_, fun t hr hw hf hd ht => ?_,
    fun since n h => ?_, fun bs since h => ?_⟩
  · obtain ⟨hl, hr⟩ := frame_of_accepted h rfl
    exact waiting_of_stored h rfl rfl (cmdDeviceReset_of_clear (m := m) (s := begun 0x700 m f s)
      (argsClear_of_zero (Option.some.inj hl.symm) hr h0)) hs
  · exact ⟨_, fun v hs => answered_of_stored h rfl rfl (cmdBlockReset_of_serving (m := m) (s := begun 0x702 m f s)
      ha hb hf hq hr) hs⟩
  · exact answered_of_stored h rfl rfl (cmdMaintCancel_of_queued (m := m) (s := begun 0x804 m f s)
      (argsClear_of_accepted h rfl rfl (n := 2) (by decide)) ht) hs
  · exact congrArg Host.Outcome.next (maintStart_of_next hr hw hf hd ht)
  · exact congrArg Host.Outcome.next (patchProbation_of_some h)
  · exact congrArg Host.Outcome.next (snapshotExpiry_of_some h)

end Sys2Proof.Maintenance
end

section
/-! PROOFS. What the resets keep (O46). -/

namespace Sys2Proof.ColdStarts

open Sys2Proof Sys2Proof.Machine Sys2Proof.Laws Sys2Proof.Safety

/-! ### Burns cut short -/

/-- `t` is `s` but for its draws, fuses, tasks, ports, log and sideband. -/
def Burned (s t : State) : Prop :=
  ∃ drawn fuses tasks ports log sideband, t = { s with
    drawn := drawn, fuses := fuses, tasks := tasks, ports := ports, log := log, sideband := sideband }

section
variable {r s : State}

theorem Burned.refl (s : State) : Burned s s := ⟨_, _, _, _, _, _, rfl⟩

theorem Burned.trans {t u : State} : Burned s t → Burned t u → Burned s u := by
  rintro ⟨_, _, _, _, _, _, rfl⟩ ⟨_, _, _, _, _, _, rfl⟩
  exact ⟨_, _, _, _, _, _, rfl⟩

theorem burned_foldl {α : Type} {f : State → α → State} (hf : ∀ s a, Burned r s → Burned r (f s a)) {l : List α}
    (h : Burned r s) : Burned r (l.foldl f s) := by
  induction l generalizing s with
  | nil => exact h
  | cons a l ih => exact ih (hf s a h)

theorem putFuseWord_burned (a : Nat) (w : FuseWord) (h : Burned r s) : Burned r (putFuseWord a w s) :=
  h.trans ⟨_, _, _, _, _, _, rfl⟩

theorem burnInto_burned (ws : List (Nat × BitVec 32)) (h : Burned r s) : Burned r (burnInto ws s) :=
  burned_foldl (fun _ _ h => putFuseWord_burned _ _ h) h

theorem cureWords_burned (ws : List (Nat × BitVec 32)) (h : Burned r s) : Burned r (cureWords ws s) :=
  burned_foldl (fun _ _ h => putFuseWord_burned _ _ h) h

theorem partWord_burned (a : Nat) (bits : BitVec 32) (h : Burned r s) : Burned r (partWord a bits s) :=
  putFuseWord_burned _ _ h

theorem endTask_burned (t : Task) (st : KStatus) (result : Word) (h : Burned r s) : Burned r (endTask t st result s) := by
  refine h.trans ?_
  unfold endTask
  split
  · exact ⟨_, _, _, _, _, _, rfl⟩
  · obtain ⟨_, _, _, he⟩ := raise_events 0x9010 20 t.mb
      [itTicket t.ticket, itTicket t.opcode.toNat, itStatus (kstatusCode st)]
      (modTask t (fun x => { x with state := .done, paused := false, status := st, progress := 100, result := result }) s)
    rw [he]
    exact ⟨_, _, _, _, _, _, rfl⟩

theorem drawOne_burned (h : Burned r s) : Burned r (drawOne s) := h.trans ⟨_, _, _, _, _, _, rfl⟩

theorem cutBurn_burned (mid : Bool) (t : Task) (st : KStatus) (h : Burned r s) : Burned r (cutBurn mid t st s) := by
  unfold cutBurn
  dsimp only
  have hw : ∀ (b : Bool) (ws : List (Nat × BitVec 32)), Burned r (if b = true then cureWords ws s else burnInto ws s) := by
    rintro (_ | _) ws
    · exact burnInto_burned ws h
    · exact cureWords_burned ws h
  refine endTask_burned _ _ _ (drawOne_burned ?_)
  split
  · exact partWord_burned _ _ (hw _ _)
  · exact hw _ _

theorem cutBurns_burned (mid : Bool) (st : KStatus) (s : State) : Burned s (cutBurns mid st s) :=
  burned_foldl (fun _ _ h => cutBurn_burned _ _ _ h) (.refl s)

end

/-! ### A cold start -/

/-- What a cold start leaves of `s` and what it makes anew, in state `t`. -/
def ColdFrom (s t : State) : Prop :=
  t.device.dev = .fuseLoad ∧ t.hubTimer = 0 ∧ t.dram = s.dram ∧ t.granuleMap = s.granuleMap ∧
    t.repairLog = s.repairLog ∧ t.repairLogB = s.repairLogB ∧ t.salts = s.salts ∧
    t.firmware.persisted = s.firmware.persisted ∧ t.kennel = [] ∧
    t.queues = [] ∧ t.tasks = [] ∧ t.keys = State.reset.keys ∧ t.ports = State.reset.ports ∧
    t.channels = State.reset.channels ∧ t.device.fatal = false ∧ t.sensors = State.reset.sensors ∧
    ∀ pd : Fin 64, t.partitions[pd].valid = s.partitions[pd].valid ∧
      (s.partitions[pd].valid = true → t.partitions[pd].base = s.partitions[pd].base ∧
        t.partitions[pd].rights = s.partitions[pd].rights ∧ t.partitions[pd].binding = s.partitions[pd].binding)

theorem coldPartition_keeps (x : Partition) : (coldPartition x).valid = x.valid ∧
    (x.valid = true → (coldPartition x).base = x.base ∧ (coldPartition x).rights = x.rights ∧
      (coldPartition x).binding = x.binding) := by
  cases h : x.valid with
  | false =>
    have he : coldPartition x = {} := if_pos (by rw [h]; rfl)
    exact ⟨by rw [he], fun h => absurd h (by decide)⟩
  | true =>
    unfold coldPartition
    simp only [h, Bool.not_true, Bool.false_eq_true, if_false, and_self, implies_true]

theorem coldReset_coldFrom (cause : Nat) (s : State) : ColdFrom s (coldReset cause s) := by
  unfold ColdFrom coldReset
  refine ⟨rfl, rfl, rfl, rfl, rfl, rfl, rfl, rfl, rfl, rfl, rfl, rfl, rfl, rfl, rfl, rfl, fun pd => ?_⟩
  have h : (s.partitions.map coldPartition)[pd] = coldPartition s.partitions[pd] := by simp
  have hk := coldPartition_keeps s.partitions[pd]
  rw [← h] at hk
  exact hk

/-- Burns cut short before it, or other ports, make no difference to what a cold start keeps. -/
theorem ColdFrom.of_burned {s t u : State} (hb : Burned s t) (h : ColdFrom t u) : ColdFrom s u := by
  obtain ⟨_, _, _, _, _, _, rfl⟩ := hb
  exact h

/-- The pins, the fuses and the pin of the reset are no part of it. -/
theorem ColdFrom.update {s t : State} (h : ColdFrom s t) (sideband : Sideband) (fuses : FuseArray) (low : Bool) :
    ColdFrom s { t with sideband := sideband, fuses := fuses, device := { t.device with rstLow := low } } := h

theorem powerOn_coldFrom (s : State) : ColdFrom s (powerOn s) := by
  have hb : Burned s { cutBurns true .aborted s with ports := State.reset.ports } :=
    (cutBurns_burned true .aborted s).trans ⟨_, _, _, _, _, _, rfl⟩
  have hc := ColdFrom.of_burned hb (coldReset_coldFrom 0 _)
  unfold powerOn
  generalize coldReset 0 { cutBurns true .aborted s with ports := State.reset.ports } = t at hc ⊢
  exact hc.update _ _ t.device.rstLow

theorem coldReset_cause (cause : Nat) (s : State) : (coldReset cause s).device.lastCause = cause := by
  unfold coldReset
  rfl

theorem coldReset_tripped (cause : Nat) (s : State) : (coldReset cause s).thermal.tripped = false := by
  unfold coldReset
  rfl

theorem powerOn_cause (s : State) : (powerOn s).device.lastCause = 0 := by
  have hc := coldReset_cause 0 { cutBurns true .aborted s with ports := State.reset.ports }
  unfold powerOn
  generalize coldReset 0 { cutBurns true .aborted s with ports := State.reset.ports } = t at hc ⊢
  exact hc

theorem powerOn_tripped (s : State) : (powerOn s).thermal.tripped = false := by
  have hc := coldReset_tripped 0 { cutBurns true .aborted s with ports := State.reset.ports }
  unfold powerOn
  generalize coldReset 0 { cutBurns true .aborted s with ports := State.reset.ports } = t at hc ⊢
  exact hc

theorem resetLow_device (s : State) :
    let t := modDevice (fun d => { d with rstLow := true }) (coldReset 1 (cutBurns false .aborted s))
    t.device.rstLow = true ∧ t.device.lastCause = 1 := by
  have hc := coldReset_cause 1 (cutBurns false .aborted s)
  generalize coldReset 1 (cutBurns false .aborted s) = t at hc ⊢
  exact ⟨rfl, hc⟩

theorem resetLow_coldFrom (s : State) :
    ColdFrom s (modDevice (fun d => { d with rstLow := true }) (coldReset 1 (cutBurns false .aborted s))) := by
  have hc := ColdFrom.of_burned (cutBurns_burned false .aborted s) (coldReset_coldFrom 1 _)
  generalize coldReset 1 (cutBurns false .aborted s) = t at hc ⊢
  exact hc.update t.sideband t.fuses true

section
variable {strap : BitVec 2} {s : State}

theorem resetPin_low (ht : s.thermal.tripped = false) (hr : s.device.rstLow = false) :
    resetPin false strap s = modDevice (fun d => { d with rstLow := true }) (coldReset 1 (cutBurns false .aborted s)) := by
  simp only [resetPin, ht, hr, Bool.false_eq_true, if_false]
  rfl

theorem resetPin_high (ht : s.thermal.tripped = false) (hr : s.device.rstLow = true) :
    resetPin true strap s = { s with
      hubTimer := 0, device := { s.device with rstLow := false }, sideband := { s.sideband with strap := strap } } := by
  simp only [resetPin, ht, hr, Bool.false_eq_true, if_true, if_false]

theorem warmPin_low_allowed (h : warmAllowed s = true) :
    warmPin false s = modDevice (fun d => { d with wrstLow := true }) (startWarm 2 none s) := by
  have hi : warmIgnored s = false := by
    simp only [warmAllowed, Bool.and_eq_true, Bool.not_eq_true'] at h
    obtain ⟨⟨⟨hd, hr⟩, -⟩, ht⟩ := h
    simp only [warmIgnored, hd, hr, ht, Bool.true_or, Bool.not_true, Bool.or_self]
  simp only [warmPin, h, hi, Bool.false_eq_true, if_true, if_false]

theorem warmPin_low_ignored (h : warmIgnored s = true) : warmPin false s = s := by
  simp only [warmPin, h, Bool.false_eq_true, if_true, if_false]

/-- Where the pin is not low, its release changes nothing that is not so already. -/
theorem warmPin_high_ignored (h : warmIgnored s = true) :
    warmPin true s = modDevice (fun d => { d with wrstLow := false }) s := by
  cases hw : s.device.wrstLow with
  | true => simp only [warmPin, h, hw, Bool.not_true, Bool.false_eq_true, if_true, if_false]
  | false =>
    have hs : modDevice (fun d => { d with wrstLow := false }) s = s := by
      unfold modDevice
      rw [← hw]
    simp only [warmPin, hw, Bool.not_false, if_true, hs]

theorem warmPin_high_restarting (hw : s.device.wrstLow = true) (h : warmIgnored s = false)
    (hd : s.device.dev ≠ .startFailed) :
    warmPin true s = modDevice (fun d => { d with wrstLow := false, startedAt := s.hubTimer }) s := by
  simp only [warmPin, h, hw, hd, Bool.not_true, Bool.false_eq_true, if_true, if_false]
  rfl

theorem warmPin_high_failed (hw : s.device.wrstLow = true) (h : warmIgnored s = false)
    (hd : s.device.dev = .startFailed) :
    warmPin true s = coldReset 4 (modDevice (fun d => { d with wrstLow := false }) s) := by
  simp only [warmPin, h, hw, hd, Bool.not_true, Bool.false_eq_true, if_true, if_false]

theorem exec_rstL (high : Bool) (h : ioFaulted s = false) : exec (.rstL high strap) s = .next (resetPin high strap s) :=
  if_neg (by rw [h]; decide)

theorem exec_wrstL (high : Bool) (h : ioFaulted s = false) : exec (.wrstL high) s = .next (warmPin high s) :=
  if_neg (by rw [h]; decide)

end

/-- Settles O46. -/
theorem resetsKeepWhatTheyKeep : Obligations.ResetsKeepWhatTheyKeep := by
  intro strap s
  refine ⟨⟨_, rfl, powerOn_coldFrom s, powerOn_tripped s, powerOn_cause s⟩, fun hi ht hr => ?_, fun hi ht hr => ?_,
    fun hi h => ?_, fun hi h => ⟨?_, ?_⟩, fun hi hw h hd => ?_, fun hi hw h hd => ?_⟩
  · exact ⟨_, (exec_rstL false hi).trans (congrArg Host.Outcome.next (resetPin_low ht hr)), resetLow_coldFrom s,
      resetLow_device s⟩
  · rw [exec_rstL true hi, resetPin_high ht hr]
  · rw [exec_wrstL false hi, warmPin_low_allowed h]
  · rw [exec_wrstL false hi, warmPin_low_ignored h]
  · rw [exec_wrstL true hi, warmPin_high_ignored h]
  · rw [exec_wrstL true hi, warmPin_high_restarting hw h hd]
  · rw [exec_wrstL true hi, warmPin_high_failed hw h hd]

end Sys2Proof.ColdStarts
end

section
/-! PROOFS. The phases of start-up and the warm restart (O47). -/

namespace Sys2Proof.Startup

open Sys2Proof Sys2Proof.Machine Sys2Proof.Laws Sys2Proof.Safety Sys2Proof.PortRecords

/-! ### The epoch -/

/-- The fuses sensed, and the epoch, as told. -/
def Sensed (b : Bool) (e : Nat) (s : State) : Prop := s.device.fusesSensed = b ∧ s.device.epoch = e

section
variable {b : Bool} {e : Nat} {s : State}

theorem sensed_device {t : State} (h : t.device = s.device) (hs : Sensed b e s) : Sensed b e t := by
  unfold Sensed
  rw [h]
  exact hs

theorem sensed_foldl {α : Type} {f : State → α → State} (hf : ∀ s a, Sensed b e s → Sensed b e (f s a)) {l : List α}
    (h : Sensed b e s) : Sensed b e (l.foldl f s) := by
  induction l generalizing s with
  | nil => exact h
  | cons a l ih => exact ih (hf s a h)

theorem raise_sensed (code kind num : Nat) (items : List (Nat × Nat)) (h : Sensed b e s) :
    Sensed b e (raise code kind num items s) := sensed_device (raise_device _ _ _ _ _) h

/-- A port taken to DETECT with its lanes quiet, where it is enabled. -/
def quietPort (s : State) (p : Fin 4) : State :=
  if s.ports[p].phy.state = .disabled then s else modPort p squelch (toDetect p s)

theorem quietPort_sensed (p : Fin 4) (h : Sensed b e s) : Sensed b e (quietPort s p) := by
  unfold quietPort
  split
  · exact h
  · exact sensed_device rfl h

/-- A start that fails is a change of the device alone, once its ports are quiet and its channels asleep. -/
theorem failStart_eq (cause rail : Nat) (s : State) : ∃ channels, failStart cause rail s =
    raise 0x0012 0 0 [itReason (devStateCode s.device.dev), itReason cause, itCount rail]
      (modDevice (fun d => { d with dev := .startFailed, warm := false, alertForced := true })
        { (List.finRange 4).foldl quietPort s with channels := channels }) := ⟨_, rfl⟩

theorem failStart_sensed (cause rail : Nat) (h : Sensed b e s) : Sensed b e (failStart cause rail s) := by
  obtain ⟨_, hf⟩ := failStart_eq cause rail s
  rw [hf]
  have hq : Sensed b e ((List.finRange 4).foldl quietPort s) := sensed_foldl (fun _ _ h => quietPort_sensed _ h) h
  generalize (List.finRange 4).foldl quietPort s = t at hq
  exact raise_sensed _ _ _ _ hq

theorem fuseEvent_sensed (field slot : Nat) (st : FuseState) (h : Sensed b e s) : Sensed b e (fuseEvent field slot st s) := by
  unfold fuseEvent
  dsimp only
  split
  · exact raise_sensed _ _ _ _ h
  · exact raise_sensed _ _ _ _ h
  · exact raise_sensed _ _ _ _ h
  · exact h

theorem modFuses_sensed (g : FuseArray → FuseArray) (h : Sensed b e s) : Sensed b e (modFuses g s) := h

theorem loadFuses_sensed (h : Sensed b e s) : Sensed b e (loadFuses s) := by
  unfold loadFuses
  extract_lets
  exact sensed_foldl (fun _ _ h => fuseEvent_sensed _ _ _ h) (sensed_foldl (fun _ _ h => fuseEvent_sensed _ _ _ h)
    (modFuses_sensed _ h))

theorem monitorRefclk_sensed (present : Bool) (h : Sensed b e s) : Sensed b e (monitorRefclk present s) := by
  unfold monitorRefclk
  dsimp only
  split_ifs
  · exact h
  · exact raise_sensed _ _ _ _ h
  · exact raise_sensed _ _ _ _ h
  · exact h

end

/-- The fuses are sensed once and the epoch counts with them. -/
theorem senseFuses_sensed (s : State) : Sensed true
    (if s.device.fusesSensed then s.device.epoch else (s.device.epoch + 1) % 2 ^ 32) (senseFuses s) := by
  unfold senseFuses
  cases h : s.device.fusesSensed with
  | true => exact ⟨h, rfl⟩
  | false =>
    simp only [Bool.false_eq_true, if_false]
    refine sensed_foldl (f := fun s i => degradedItem 5 0 i s) (fun _ _ h => h) (loadFuses_sensed ?_)
    exact ⟨rfl, rfl⟩

theorem phaseFuses_sensed (r : StartReport) (s : State) : Sensed true
    (if s.device.fusesSensed then s.device.epoch else (s.device.epoch + 1) % 2 ^ 32) (phaseFuses r s) := by
  have h := monitorRefclk_sensed r.refclk (senseFuses_sensed s)
  generalize (if s.device.fusesSensed then s.device.epoch else (s.device.epoch + 1) % 2 ^ 32) = e at h ⊢
  unfold phaseFuses
  dsimp only
  split_ifs
  · exact h
  · exact failStart_sensed _ _ h
  · exact failStart_sensed _ _ h
  · exact h

/-! ### The phases -/

section
variable {r : StartReport} {s : State}

theorem failStart_device (cause rail : Nat) (s : State) :
    (failStart cause rail s).device.dev = .startFailed ∧ (failStart cause rail s).device.alertForced = true := by
  unfold failStart
  rw [raise_device]
  exact ⟨rfl, rfl⟩

/-- Where nothing holds the stack in reset, the phase that the state names runs. -/
theorem startupPhase_of_running (hr : s.device.rstLow = false) (ht : s.thermal.tripped = false) :
    (s.device.dev = .fuseLoad → startupPhase r s = phaseFuses r (passTo (s.hubTimer + r.elapsedNs) s)) ∧
    (s.device.dev ∈ [DevState.sram, .core, .dramInit, .fill] → r.hubPll = false →
      startupPhase r s = failStart 4 0 (passTo (s.hubTimer + r.elapsedNs) s)) ∧
    (r.hubPll = true → r.managementPll = true →
      (s.device.dev = .sram → startupPhase r s = phaseSram r (passTo (s.hubTimer + r.elapsedNs) s)) ∧
      (s.device.dev = .core → startupPhase r s = phaseCore r (passTo (s.hubTimer + r.elapsedNs) s)) ∧
      (s.device.dev = .dramInit → startupPhase r s = phaseDram r (passTo (s.hubTimer + r.elapsedNs) s)) ∧
      (s.device.dev = .fill → startupPhase r s = phaseFill r (passTo (s.hubTimer + r.elapsedNs) s))) := by
  refine ⟨fun hd => ?_, fun hd hp => ?_, fun hp hm => ⟨fun hd => ?_, fun hd => ?_, fun hd => ?_, fun hd => ?_⟩⟩
  · simp only [startupPhase, hr, ht, hd, Bool.or_self, Bool.false_eq_true, if_false]
  · simp only [List.mem_cons, List.not_mem_nil, or_false] at hd
    obtain hd | hd | hd | hd := hd <;>
      simp only [startupPhase, hr, ht, hd, hp, Bool.not_false, Bool.or_self, Bool.false_eq_true, if_true, if_false]
  all_goals simp only [startupPhase, hr, ht, hd, hp, hm, Bool.not_true, Bool.or_self, Bool.false_eq_true, if_false]

theorem phaseFuses_good (h1 : r.hubPll = true) (h2 : r.managementPll = true) (hr : r.refclk = true) :
    (phaseFuses r s).device.dev = .sram := by
  simp only [phaseFuses, h1, h2, hr, Bool.not_true, Bool.false_eq_true, if_false]
  rfl

theorem phaseFuses_hubUnlocked (h1 : r.hubPll = false) (hr : r.refclk = true) :
    phaseFuses r s = failStart 4 0 (monitorRefclk true (senseFuses s)) := by
  simp only [phaseFuses, h1, hr, Bool.not_true, Bool.not_false, Bool.false_eq_true, if_true, if_false]

theorem phaseSram_good (h : r.hubSramBad = false) : (phaseSram r s).device.dev = .core := by
  simp only [phaseSram, h, Bool.false_eq_true, if_false]
  rfl

theorem phaseCore_good (h1 : r.romOk = true) (h2 : r.lockstepOk = true) : (phaseCore r s).device.dev = .dramInit := by
  simp only [phaseCore, h1, h2, Bool.not_true, Bool.false_eq_true, if_false]
  rfl

theorem phaseDram_dev : (phaseDram r s).device.dev = .fill := by
  unfold phaseDram
  rfl

theorem phaseFill_good (h : r.channelsBad = []) :
    phaseFill r s = reachReady (endRekeys (fillDram { s with refills := [] })) := by
  simp only [phaseFill, h, List.filter_nil]
  rfl

theorem refclkTimeout_of_fuseLoad (h : s.device.refclk = 1) (hr : s.device.rstLow = false)
    (ht : s.thermal.tripped = false) (hd : s.device.dev = .fuseLoad) :
    refclkTimeout s = failStart 0 0 (passTo (s.device.startedAt + secondNs) s) := by
  simp only [refclkTimeout, h, hr, ht, hd, ne_eq, not_true_eq_false, Bool.false_eq_true, or_self, if_true, if_false]

end

/-- Settles O47. -/
theorem startupPhasesAndRestart : Obligations.StartupPhasesAndRestart := by
  refine ⟨fun r s hr ht => ?_, fun s h hr ht hd => ?_, fun s hw hl hr hc ht => ?_⟩
  · obtain ⟨hfuses, hfail, hrun⟩ := startupPhase_of_running (r := r) hr ht
    refine ⟨fun hg hd hc => ?_, fun hd => ?_, fun hg hd hb => ?_, fun hg hd h1 h2 => ?_, fun hg hd => ?_,
      fun hg hd hb => ?_, fun hd hc hp => ?_⟩
    · exact ⟨_, congrArg Host.Outcome.next (hfuses hd), phaseFuses_good hg.1 hg.2 hc⟩
    · exact ⟨_, congrArg Host.Outcome.next (hfuses hd), phaseFuses_sensed r _⟩
    · exact ⟨_, congrArg Host.Outcome.next ((hrun hg.1 hg.2).1 hd), phaseSram_good hb⟩
    · exact ⟨_, congrArg Host.Outcome.next ((hrun hg.1 hg.2).2.1 hd), phaseCore_good h1 h2⟩
    · exact ⟨_, congrArg Host.Outcome.next ((hrun hg.1 hg.2).2.2.1 hd), phaseDram_dev⟩
    · exact congrArg Host.Outcome.next (((hrun hg.1 hg.2).2.2.2 hd).trans (phaseFill_good hb))
    · by_cases hf : s.device.dev = .fuseLoad
      · exact ⟨_, congrArg Host.Outcome.next ((hfuses hf).trans (phaseFuses_hubUnlocked hp (hc hf))),
          failStart_device _ _ _⟩
      · exact ⟨_, congrArg Host.Outcome.next (hfail ((List.mem_cons.1 hd).resolve_left hf) hp), failStart_device _ _ _⟩
  · exact ⟨_, congrArg Host.Outcome.next (refclkTimeout_of_fuseLoad h hr ht hd), (failStart_device _ _ _).1⟩
  · apply congrArg Host.Outcome.next
    simp only [warmReady, hw, hl, hr, hc, ht, Bool.not_true, decide_false, Bool.or_self, Bool.false_eq_true, if_false]
    rfl

end Sys2Proof.Startup
end

section
/-! PROOFS. The registers of MB4 and MB5 (O49). -/

namespace Sys2Proof.Registers

open Sys2Proof Sys2Proof.Machine Sys2Proof.Laws Sys2Proof.Safety

section
variable {jtag pecOk : Bool} {s : State}

/-! ### Transfers -/

theorem pinCommand_of_good {f : State → State} (h : ioFaulted s = false) : pinCommand f s = .next (f s) :=
  if_neg (by rw [h]; decide)

/-- A transfer to registers that answer, its PEC good where one is sent, is carried out. -/
theorem transfer_of_answering {code : BitVec 8} {data : RegisterData} {f : State → State}
    (hp : jtag = true ∨ s.sideband.i3c = true ∨ pecOk = true)
    (h : registersAnswer jtag s = true ∨ answersAlways code data = true ∧ s.device.rstLow = false) :
    transfer jtag pecOk code data f s = f s := by
  have hn : (!registersAnswer jtag s && !(answersAlways code data && !s.device.rstLow)) = false := by
    obtain h | ⟨h, hr⟩ := h
    · rw [h]
      rfl
    · rw [h, hr]
      simp
  have hb : (!jtag && !s.sideband.i3c && !pecOk) = false := by
    obtain h | h | h := hp <;> rw [h] <;> simp
  simp only [transfer, hn, hb, Bool.false_eq_true, if_false]

/-- A register that gives its bytes answers what the transfer asks of them. -/
theorem readRegister_of_bytes {code : BitVec 8} {bs : List Byte} (count : Nat) (hc : code ≠ 0x03)
    (h : registerBytes jtag code s = some bs) :
    readRegister jtag code count s = sbAnswer (bs.take (min count (transferLimit s jtag false))) s := by
  simp only [readRegister, hc, h, if_false]

/-! ### The data register -/

/-- The bytes that a transfer of the data register moves: those asked for, to the end of the buffer. -/
def moved (jtag write : Bool) (count : Nat) (s : State) : Nat :=
  min (min count (transferLimit s jtag write)) (4096 - (pointerOf s jtag).toNat % 8192)

/-- The request buffer with the bytes moved to its pointer. -/
def fillRequest (jtag : Bool) (count : Nat) (bytes : List Byte) (s : State) (x : Mailbox) : Mailbox :=
  { x with request := memWrite x.request ((pointerOf s jtag).toNat % 8192) (bytesAt bytes 0 (moved jtag true count s)) }

theorem pointerOf_setPointer (v : BitVec 16) (g : Sideband → Sideband)
    (hg : ∀ b, (g b).pointer4 = b.pointer4 ∧ (g b).pointer5 = b.pointer5) :
    pointerOf (modSideband g (setPointer jtag v s)) jtag = v := by
  cases jtag
  · exact (hg _).1
  · exact (hg _).2

/-- A write in the request buffer moves its bytes and the pointer behind them. -/
theorem transferData_write {count : Nat} {bytes : List Byte} (h : (pointerOf s jtag).getLsbD 15 = false) :
    transferData jtag true count bytes s =
      (let start := (pointerOf s jtag).toNat % 8192
       let asked := min count (transferLimit s jtag true)
       let n := moved jtag true count s
       modSideband (fun b => { b with answer := [], nacked := decide (n < asked) && !b.i3c && !jtag })
        (setPointer jtag (BitVec.ofNat 16 (start + n)) (modMailbox (registerMailbox jtag)
          (fillRequest jtag count bytes s) s))) := by
  simp only [transferData, moved, h, boolNat, Bool.false_eq_true, if_true, if_false, Nat.zero_mul, Nat.add_zero]
  rfl

/-- A read of the response buffer moves its bytes and the pointer behind them. -/
theorem transferData_read {count : Nat} {bytes : List Byte} (h : (pointerOf s jtag).getLsbD 15 = true) :
    transferData jtag false count bytes s =
      (let start := (pointerOf s jtag).toNat % 8192
       let asked := min count (transferLimit s jtag false)
       let n := moved jtag false count s
       let r := readResponse (registerMailbox jtag) start n s
       modSideband (fun b => { b with answer := r.1, nacked := decide (n < asked) && !b.i3c && !jtag })
        (setPointer jtag (BitVec.ofNat 16 (start + n + 2 ^ 15)) r.2)) := by
  simp only [transferData, moved, h, boolNat, Bool.false_eq_true, if_true, if_false, Nat.one_mul]
  rfl

/-- A read of the response leaves what the buffers hold. -/
theorem readResponse_buffers (m : Fin 6) (start n : Nat) (s : State) :
    (readResponse m start n s).2.mailboxes[m].response = s.mailboxes[m].response ∧
      (readResponse m start n s).2.mailboxes[m].request = s.mailboxes[m].request := by
  unfold readResponse
  dsimp only
  split
  · rw [modMailbox_self]
    exact ⟨rfl, rfl⟩
  · exact ⟨rfl, rfl⟩

/-! ### Writes -/

theorem natAt_two (lo hi : Byte) : natAt [lo, hi] 0 2 = lo.toNat + 256 * hi.toNat := by
  simp [natAt, bytesAt, bytesToNat, List.range_succ]

theorem writeRegister_pointer (lo hi : Byte) : writeRegister jtag 0x02 [lo, hi] s =
    sbAnswer [] (setPointer jtag (BitVec.ofNat 16 (lo.toNat + 256 * hi.toNat) &&& 0x8FFF) s) := by
  simp only [writeRegister, natAt_two, List.length_cons, List.length_nil, show ¬((2 : BitVec 8) = 0) by decide,
    Nat.reduceAdd, Nat.lt_irrefl, if_true, if_false]

theorem writeRegister_wspTarget (bs : List Byte) (hd : debugOpen s = true) : writeRegister true 0x20 bs s =
    sbAnswer [] (modSideband (fun b => { b with wspTarget := BitVec.ofNat 32 (natAt bs 0 3) }) s) := by
  simp only [writeRegister, hd, show ¬((0x20 : BitVec 8) = 0) by decide, show ¬((0x20 : BitVec 8) = 2) by decide,
    show ¬((0x20 : BitVec 8) = 3) by decide, true_or, Bool.not_true, Bool.false_eq_true, if_true, if_false]

end

/-- Settles O49. -/
theorem registersMoveMailboxData : Obligations.RegistersMoveMailboxData := by
  intro jtag pecOk s hio hp
  have hread : ∀ {code : BitVec 8} {bs : List Byte}, code ≠ 0x03 → registerBytes jtag code s = some bs →
      (registersAnswer jtag s = true ∨ (∀ n, answersAlways code (.read n) = true) ∧ s.device.rstLow = false) →
      ∀ count, exec (.registerWrite jtag pecOk code (.read count)) s =
        .next (sbAnswer (bs.take (min count (transferLimit s jtag false))) s) := fun hc hb h count =>
    (pinCommand_of_good hio).trans (congrArg Host.Outcome.next
      ((transfer_of_answering hp (h.imp_right fun h => ⟨h.1 count, h.2⟩)).trans (readRegister_of_bytes count hc hb)))
  refine ⟨fun hr => hread (by decide) rfl (.inr ⟨fun _ => rfl, hr⟩), fun ha =>
    ⟨hread (by decide) rfl (.inl ha), hread (by decide) rfl (.inl ha), hread (by decide) rfl (.inl ha),
      fun count bytes h => ?_, fun count bytes h => ?_, fun lo hi => ?_, fun bs hj hd => ?_, ?_, fun v hv => ?_⟩⟩
  · refine ⟨_, (pinCommand_of_good hio).trans (congrArg Host.Outcome.next
      ((transfer_of_answering hp (.inl ha)).trans (transferData_write h))), rfl, ?_, ?_, fun k hk => ?_⟩
    · exact congrArg Mailbox.request (modMailbox_self (registerMailbox jtag) (fillRequest jtag count bytes s) s)
    · exact pointerOf_setPointer _ _ fun _ => ⟨rfl, rfl⟩
    · exact modMailbox_other (registerMailbox jtag) (fillRequest jtag count bytes s) k hk s
  · obtain ⟨hres, hreq⟩ := readResponse_buffers (registerMailbox jtag) ((pointerOf s jtag).toNat % 8192)
      (moved jtag false count s) s
    exact ⟨_, (pinCommand_of_good hio).trans (congrArg Host.Outcome.next
      ((transfer_of_answering hp (.inl ha)).trans (transferData_read h))), rfl,
      pointerOf_setPointer _ _ fun _ => ⟨rfl, rfl⟩, hres, hreq⟩
  · exact (pinCommand_of_good hio).trans (congrArg Host.Outcome.next
      ((transfer_of_answering hp (.inl ha)).trans (writeRegister_pointer lo hi)))
  · subst hj
    exact (pinCommand_of_good hio).trans (congrArg Host.Outcome.next
      ((transfer_of_answering hp (.inl ha)).trans (writeRegister_wspTarget bs hd)))
  · exact (pinCommand_of_good hio).trans (congrArg Host.Outcome.next (transfer_of_answering hp (.inl ha)))
  · refine (pinCommand_of_good hio).trans (congrArg Host.Outcome.next ((transfer_of_answering hp (.inl ha)).trans ?_))
    simp only [doorbellRegister, hv, if_false]

end Sys2Proof.Registers
end

section
/-! PROOFS. The common command codes (O50). -/

namespace Sys2Proof.CommonCodes

open Sys2Proof Sys2Proof.Machine Sys2Proof.Laws Sys2Proof.Safety Sys2Proof.Registers

section
variable {s : State} {f : State → State}

/-- A code that reaches the stack is acted on. -/
theorem cccCommand_of_running (hi : ioFaulted s = false) (hr : s.device.rstLow = false) :
    cccCommand f s = .next (f s) := by
  unfold cccCommand
  rw [pinCommand_of_good hi]
  exact congrArg Host.Outcome.next (if_neg (by rw [hr]; decide))

theorem inI3c_of_mode (h : s.sideband.i3c = true) : inI3c f s = f s := if_pos h

theorem enableIbi_of_none (h : s.log.ibiPending = []) :
    enableIbi s = modSideband (fun b => { b with ibiEnabled := true }) s := by
  have hn : (modSideband (fun b => { b with ibiEnabled := true }) s).log.ibiPending.isEmpty = true := by
    rw [modSideband_log, h]
    rfl
  exact if_pos hn

end

/-- Settles O50. -/
theorem commonCommandCodes : Obligations.CommonCommandCodes := by
  intro s hi hr
  have hrun : ∀ f : State → State, cccCommand f s = .next (f s) := fun _ => cccCommand_of_running hi hr
  refine ⟨?_, fun a ha => ⟨fun h => ?_, fun n h hn => ?_, fun h => ?_⟩, fun h => ?_⟩
  · show execRstdaa s = _
    unfold execRstdaa
    rw [hrun]
  · show execEntdaa a s = _
    unfold execEntdaa
    simp only [hrun, h, ha, Bool.false_eq_true, or_self, if_false]
    rfl
  · show execSetdasa n a s = _
    unfold execSetdasa
    simp only [hrun, h, ha, hn, staticAddress, ne_eq, not_true_eq_false, Bool.false_eq_true, or_self, if_false]
    rfl
  · show execSetnewda a s = _
    unfold execSetnewda
    simp only [hrun, h, ha, Bool.not_true, Bool.false_eq_true, or_self, if_false]
    simp [assignAddress, modSideband, h]
  · have hmode : ∀ f : State → State, cccCommand (inI3c f) s = .next (f s) := fun f => by
      rw [hrun, inI3c_of_mode h]
    refine ⟨fun hp => ?_, ?_, ?_, ?_, ?_, ?_, ?_, ?_, fun n hl hh => ?_⟩
    · show execEnec 1 s = _
      unfold execEnec
      rw [hmode]
      exact congrArg (fun t => Host.Outcome.next (sbAnswer [] t)) (enableIbi_of_none hp)
    · show execDisec 1 s = _
      unfold execDisec
      rw [hmode]
      rfl
    · show execGetpid s = _
      unfold execGetpid
      rw [hmode]
    · show execGetbcr s = _
      unfold execGetbcr
      rw [hmode]
    · show execGetdcr s = _
      unfold execGetdcr
      rw [hmode]
    · show execGetmwl s = _
      unfold execGetmwl
      rw [hmode]
    · show execGetmrl s = _
      unfold execGetmrl
      rw [hmode]
    · refine ⟨drawOne (sbAnswer (natToBytes 2 (Config.freeWord s.drawn).toNat) s), ?_, ?_, rfl, rfl, rfl⟩
      · show execGetstatus s = _
        unfold execGetstatus
        rw [hmode]
      · simp [sbAnswer, drawOne, natToBytes]
    · have hw : within 16 260 n.toNat = true := by simp [within, hl, hh]
      refine ⟨?_, ?_⟩
      · show execSetmwl n s = _
        unfold execSetmwl
        simp only [hmode, hw, if_true]
      · show execSetmrl n s = _
        unfold execSetmrl
        simp only [hmode, hw, if_true]

end Sys2Proof.CommonCodes
end

section
/-! PROOFS. The TAP instructions (O51). -/

namespace Sys2Proof.TapScans

open Sys2Proof Sys2Proof.Machine Sys2Proof.Laws Sys2Proof.Safety Sys2Proof.Registers

/-- The state with an instruction in the TAP's register. -/
def withIr (code : BitVec 8) (s : State) : State := modSideband (fun b => { b with ir := code }) s

section
variable {s : State} {code : BitVec 8} {f : State → BitVec 48 × State}

theorem tapCommand_of_running (hi : ioFaulted s = false) (ht : s.sideband.tapReset = false) :
    tapCommand code f s =
      .next (modSideband (fun b => { b with tdo := (f (withIr code s)).1 }) (f (withIr code s)).2) := by
  unfold tapCommand
  rw [pinCommand_of_good hi]
  exact congrArg Host.Outcome.next (if_neg (by rw [ht]; decide))

/-- A scan that changes nothing shows its instruction and what it shifts out. -/
theorem tapCommand_of_still {out : BitVec 48} (hi : ioFaulted s = false) (ht : s.sideband.tapReset = false)
    (hf : f (withIr code s) = (out, withIr code s)) :
    tapCommand code f s = .next (modSideband (fun b => { b with ir := code, tdo := out }) s) := by
  rw [tapCommand_of_running hi ht, hf]
  rfl

/-- The bypass register shifts its bit out. -/
theorem bypassBit_eq (b : Bool) : bypassBit b = if b then 1 else 0 := by cases b <;> rfl

end

/-! ### MBOX -/

/-- The register that a scan of MBOX names, and whether it is written, stand in its upper 16 bits. -/
theorem code_of_upper {n k : Nat} (hn : n < 2 ^ 48) (h : bitsOf n 47 32 = k) : n / 2 ^ 32 = k := by
  simp only [bitsOf, Nat.shiftRight_eq_div_pow] at h
  omega

theorem natAt_pointer (v : BitVec 16) : natAt (natToBytes 2 v.toNat) 0 4 = v.toNat := by
  have hv := v.isLt
  simp [natAt, bytesAt, bytesToNat, natToBytes, List.range_succ]
  omega

theorem natAt_two_of_nat (n : Nat) : natAt (natToBytes 2 n) 0 2 = bitsOf n 15 0 := by
  simp [natAt, bytesAt, bytesToNat, natToBytes, List.range_succ, bitsOf]
  omega

section
variable {s : State} {dr : BitVec 48}

theorem mboxScan_readPointer (ha : registersAnswer true s = true) (h : bitsOf dr.toNat 47 32 = 0x02) :
    mboxScan dr s = (BitVec.ofNat 48 (s.sideband.pointer5.toNat + 0x02 * 2 ^ 32),
      sbAnswer (natToBytes 2 s.sideband.pointer5.toNat) s) := by
  have hc := code_of_upper dr.isLt h
  have hw : bitAt dr.toNat 47 = false := by
    simp only [bitAt, Nat.testBit_eq_decide_div_mod_eq, decide_eq_false_iff_not]
    omega
  have hr : bitsOf dr.toNat 46 40 = 0 := by
    simp only [bitsOf, Nat.shiftRight_eq_div_pow]
    omega
  have hb : transfer true true 2#8 (.read 4) (accessRegister true 2#8 (.read 4)) s =
      sbAnswer (natToBytes 2 s.sideband.pointer5.toNat) s :=
    (transfer_of_answering (.inl rfl) (.inl ha)).trans
      (readRegister_of_bytes (jtag := true) (code := 0x02) (s := s) 4 (by decide) rfl)
  simp only [mboxScan, hw, hr, hc, Bool.false_eq_true, if_false, ne_eq, not_true_eq_false, hb, Bool.false_or]
  have hp : natAt (sbAnswer (natToBytes 2 s.sideband.pointer5.toNat) s).sideband.answer 0 4 =
      s.sideband.pointer5.toNat := natAt_pointer _
  rw [hp]
  rfl

theorem mboxScan_writePointer (ha : registersAnswer true s = true) (h : bitsOf dr.toNat 47 32 = 0x8002) :
    mboxScan dr s = (dr, sbAnswer []
      (setPointer true (BitVec.ofNat 16 (bitsOf dr.toNat 15 0) &&& 0x8FFF) s)) := by
  have hc := code_of_upper dr.isLt h
  have hw : bitAt dr.toNat 47 = true := by
    simp only [bitAt, Nat.testBit_eq_decide_div_mod_eq, decide_eq_true_eq]
    omega
  have hr : bitsOf dr.toNat 46 40 = 0 := by
    simp only [bitsOf, Nat.shiftRight_eq_div_pow]
    omega
  have hwr : writeRegister true 0x02 (natToBytes 2 dr.toNat) s = sbAnswer []
      (setPointer true (BitVec.ofNat 16 (bitsOf dr.toNat 15 0) &&& 0x8FFF) s) := by
    rw [← natAt_two_of_nat]
    rfl
  have hb : transfer true true 0x02 (.write (natToBytes 2 dr.toNat))
      (accessRegister true 0x02 (.write (natToBytes 2 dr.toNat))) s = sbAnswer []
      (setPointer true (BitVec.ofNat 16 (bitsOf dr.toNat 15 0) &&& 0x8FFF) s) :=
    (transfer_of_answering (.inl rfl) (.inl ha)).trans hwr
  have hcode : BitVec.ofNat 8 0x8002 = (0x02 : BitVec 8) := rfl
  simp only [mboxScan, hw, hr, hc, hcode, show ¬((2 : BitVec 8) = 0) by decide,
    show ¬((2 : BitVec 8) = 0x21) by decide, or_self, if_true, if_false, ne_eq, not_true_eq_false, hb, Bool.true_or]

end

/-! ### Wrappers -/

section
variable {s : State}

theorem wspBlock_of_closed (h : debugOpen s = false) : wspBlock s = none := by
  simp only [wspBlock, h, Bool.false_eq_true, if_false]

theorem dieLayer_of_closed (h : debugOpen s = false) : dieLayer s = none := by
  simp only [dieLayer, h, Bool.false_eq_true, false_and, if_false]

end

/-- The boundary register takes its cells, and what it captured shifts out. -/
def sampleScan (cells : BitVec 12) (s : State) : BitVec 48 × State :=
  (BitVec.ofNat 48 ((Config.freeWord s.drawn).toNat % 4096), drawOne (modSideband (fun b => { b with boundary := cells }) s))

/-- EXTEST, which acts on the pins while RST_L is low. -/
def extestScan (cells : BitVec 12) (s : State) : BitVec 48 × State :=
  if s.device.rstLow then sampleScan cells s else (lastBit cells, s)

/-- Settles O51. -/
theorem tapInstructions : Obligations.TapInstructions := by
  intro s hi
  refine ⟨fun asserted => ?_, fun ht => ⟨fun tdi => ⟨?_, ?_, ?_⟩, ?_, fun cells => ?_, fun cells => ⟨fun hr => ?_, fun hr => ?_⟩,
    fun tdi hd => ⟨?_, ?_⟩, fun tdi b hb hc => ?_, fun dr ha h => ?_, fun dr ha h => ?_⟩⟩
  · refine ⟨_, pinCommand_of_good hi, ?_, ?_, rfl, rfl⟩ <;> cases asserted
    · rfl
    · rfl
    · exact fun h => absurd h (by decide)
    · exact fun _ => rfl
  · show execBypass tdi s = _
    unfold execBypass
    exact tapCommand_of_still hi ht (congrArg (·, _) (bypassBit_eq tdi))
  · show execClamp tdi s = _
    unfold execClamp
    exact tapCommand_of_still hi ht (congrArg (·, _) (bypassBit_eq tdi))
  · show execHighz tdi s = _
    unfold execHighz
    exact tapCommand_of_still hi ht (congrArg (·, _) (bypassBit_eq tdi))
  · show execIdcode s = _
    unfold execIdcode
    exact tapCommand_of_still hi ht rfl
  · have hs := tapCommand_of_running (code := 0x02) (f := sampleScan cells) hi ht
    refine ⟨_, hs, rfl, rfl, ?_, rfl, rfl⟩
    show (BitVec.ofNat 48 ((Config.freeWord s.drawn).toNat % 4096)).toNat < 4096
    rw [BitVec.toNat_ofNat]
    omega
  · show execExtest cells s = _
    unfold execExtest
    refine tapCommand_of_still hi ht ?_
    have hr' : (withIr 0x03 s).device.rstLow = false := hr
    simp only [hr', Bool.false_eq_true, if_false, lastBit, bypassBit_eq]
  · have hs := tapCommand_of_running (code := 0x03) (f := extestScan cells) hi ht
    have hr' : (withIr 0x03 s).device.rstLow = true := hr
    simp only [extestScan, hr', if_true] at hs
    refine ⟨_, hs, ?_⟩
    simp [sampleScan, boundaryDrives, modSideband, drawOne, withIr, hr, ht]
  · show execWspSelect tdi s = _
    unfold execWspSelect
    refine tapCommand_of_still hi ht ?_
    rw [wspBlock_of_closed (s := withIr 0x30 s) hd]
    exact congrArg (·, _) (bypassBit_eq tdi)
  · show execDieSelect tdi s = _
    unfold execDieSelect
    refine tapCommand_of_still hi ht ?_
    rw [dieLayer_of_closed (s := withIr 0x38 s) hd]
    exact congrArg (·, _) (bypassBit_eq tdi)
  · show execWspSelect tdi s = _
    unfold execWspSelect
    refine tapCommand_of_still hi ht ?_
    rw [show wspBlock (withIr 0x30 s) = some b from hb]
    refine if_neg ?_
    have hw : wspConnects (withIr 0x30 s) b = wspConnects s b := rfl
    rw [hw]
    obtain hc | hc := hc <;> simp [hc]
  · show execMbox dr s = _
    unfold execMbox
    rw [tapCommand_of_running hi ht, mboxScan_readPointer (s := withIr 0x20 s) ha h]
    rfl
  · show execMbox dr s = _
    unfold execMbox
    rw [tapCommand_of_running hi ht, mboxScan_writePointer (s := withIr 0x20 s) ha h]
    rfl

end Sys2Proof.TapScans
end

section
/-! PROOFS. Terrier's checks (O30), and refills, rekeys and movers (O31). -/

namespace Sys2Proof.BackgroundWork

open Sys2Proof Sys2Proof.Machine Sys2Proof.Laws Sys2Proof.Safety

/-! ### Terrier -/

section
variable {c : Fin 32} {s : State}

/-- A good spot of a channel that is not retired waits for nothing. -/
theorem spotWaits_of_good {e : Spot} (h : e.bad = false) : spotWaits s c e = false := by
  simp only [spotWaits, h, Bool.false_and]

theorem spotCheck_of_spot {e : Spot} {rest : List Spot} (hs : s.channels[c].spots = e :: rest)
    (hr : s.channels[c].state ≠ .retired) (ht : terrierRuns s c = true) (hb : e.bad = false)
    (ha : channelAsleep (terrierWake c s) c = false)
    (hw : (wqEntry (endDrain c (modChannel c (fun y => { y with spots := y.spots.erase e }) (terrierWake c s)))
      { channel := c, bank := e.bank, row := e.row, line := e.line }).isNone = true) :
    spotCheck c s = (let pl : Place := { channel := c, bank := e.bank, row := e.row, line := e.line }
      let u := endDrain c (modChannel c (fun y => { y with spots := y.spots.erase e }) (terrierWake c s))
      (terrierLine .column 1 pl (fetchLine pl u)).2) := by
  simp only [Option.isNone_iff_eq_none] at hw
  simp only [spotCheck, hs, List.find?_cons, spotWaits_of_good hb, hr, ht, ha, hw, Bool.not_false, Bool.or_true,
    Bool.not_true, Bool.false_eq_true, Option.isSome_none, if_false]

theorem patrolRead_of_running (he : s.params.scrubEnable = true) (ht : terrierRuns s c = true)
    (ha : channelAsleep (terrierWake c s) c = false) :
    patrolRead c s =
      (let u := terrierWake c s
       let b : Fin 16 := Fin.ofNat 16 u.channels[c].patrolBank
       let row := spareRow u.channels[c].banks[b].remap 65 u.channels[c].patrolRow
       let r := (List.finRange 32).foldl (fun (acc : Bool × State) l =>
         let q := terrierLine .skein 0 { channel := c, bank := b, row := row, line := l } acc.2
         (acc.1 || q.1, q.2)) (false, closeBank c b row false (endDrain c u))
       advancePatrol c (modChannel c (fun y => { y with scrubRows := y.scrubRows + 1 }) (noteRow c b row r.1 r.2))) := by
  simp only [patrolRead, he, ht, ha, Bool.not_true, Bool.or_self, Bool.false_eq_true, if_false]

theorem scrubLate_of_serving (hr : s.channels[c].state ≠ .retired) (hl : s.channels[c].lateRaised = false)
    (hq : quarterOut s (Fin.ofNat 4 (c.val / 8)) = false) :
    scrubLate c s = raise 0x2027 3 c [] (modChannel c (fun y => { y with lateRaised := true })
      (passTo (s.channels[c].passStart + s.params.scrubPeriodH * hourNs * 11 / 10) s)) := by
  simp only [scrubLate, hr, hl, hq, Bool.false_eq_true, or_self, if_false]

end

/-- Settles O30. -/
theorem terrierChecksItsLines : Obligations.TerrierChecksItsLines := by
  intro c s
  refine ⟨fun e rest hs hr ht hb ha hw => ?_, fun he ht ha => ?_, fun hr hl hq => ?_, fun o => ⟨rfl, rfl, rfl⟩⟩
  · exact congrArg (fun t => Host.Outcome.next (serveReady t)) (spotCheck_of_spot hs hr ht hb ha hw)
  · exact congrArg (fun t => Host.Outcome.next (serveReady t)) (patrolRead_of_running he ht ha)
  · exact congrArg Host.Outcome.next (scrubLate_of_serving hr hl hq)

/-! ### Refills and rekeys -/

section
variable {s : State}

theorem refillNext_of_oldest {r : Refill} {rest : List Refill} (h : s.refills = r :: rest) (hr : refillRuns s r = true) :
    refillNext s = serveUnserved (r.slabs.foldl zeroSlab { s with refills := rest }) := by
  simp only [refillNext, h, hr, if_true]

theorem keyLockoutEnd_of_locked {t : Nat} (h : s.fuses.keyLockedUntil = some t) :
    keyLockoutEnd s = modFuses (fun f => { f with keyLockedUntil := none, unwrapRun := 0 }) (passTo t s) := by
  simp only [keyLockoutEnd, h]

/-- The state with the tasks of the rekey going on. -/
def resumed (pd : Fin 64) (s : State) : State :=
  { s with tasks := s.tasks.map fun t => if t.work = .rekey pd then { t with paused := false } else t }

/-- The line or the page at the pointer of a rekey moved to the new key, and the pointer past it. -/
def rekeyed (pd : Fin 64) (r : Rekey) (s : State) : State :=
  let x := s.partitions[pd]
  let oldKey := (s.keys[Fin.ofNat 64 x.keySlot]).key
  let newKey := (s.keys[Fin.ofNat 64 r.slot]).key
  if x.mode = .sealed then rekeyPage pd r.pointer oldKey newKey (resumed pd s)
  else modSeal pd (fun y => { y with rekey := y.rekey.map fun k => { k with pointer := k.pointer + 1 } })
    (rekeyLine pd r.pointer oldKey newKey (resumed pd s))

theorem rekeyStep_of_running {pd : Fin 64} {r k : Rekey} (hx : s.partitions[pd].sealing.rekey = some r)
    (hr : rekeyRuns s pd = true) (hs : rekeyServes s pd r.pointer = true)
    (hp : r.pointer < s.partitions[pd].granules * granuleLines)
    (hk : (rekeyed pd r s).partitions[pd].sealing.rekey = some k) :
    rekeyStep pd s = if s.partitions[pd].granules * granuleLines ≤ k.pointer then finishRekey pd k (rekeyed pd r s)
      else rekeyed pd r s := by
  unfold rekeyed resumed at hk ⊢
  dsimp only at hk ⊢
  simp only [rekeyStep, hx, hr, hs, Nat.not_le.2 hp, hk, Bool.not_true, Bool.or_self, Bool.false_eq_true, if_false]

/-! ### Movers -/

theorem channelRetiring_of_queued {c : Fin 32} {t : Task}
    (h : s.tasks.find? (fun t => decide (t.work = .retire c) && decide (t.state = .queued)) = some t)
    (hm : mayStart s (s.tasks.takeWhile fun x => !isTask t x) t = true) :
    channelRetiring c s = startRetire t c s := by
  simp only [channelRetiring, h, hm, if_true]

theorem migrationCopy_of_slab {c : Fin 32} {sl tc ts row : Nat} {rest : List (Nat × Nat × Nat)}
    (hb : s.firmware.rebooting = false) (hm : s.mover = some (.slabs c ((sl, tc, ts) :: rest) row)) (hr : row < 1024)
    (hp : s.channels[c].poisonFill = false) (ht : copyServes s (Fin.ofNat 32 tc) = true) (hc : copyServes s c = true)
    (he : row = 0 → thermalEmergency s = false)
    (hat : channelAsleep (leaveSelfRefresh c (leaveSelfRefresh (Fin.ofNat 32 tc) (resumeCopies s)))
      (Fin.ofNat 32 tc) = false)
    (hac : channelAsleep (leaveSelfRefresh c (leaveSelfRefresh (Fin.ofNat 32 tc) (resumeCopies s))) c = false) :
    migrationCopy s =
      (let t : Fin 32 := Fin.ofNat 32 tc
       let b : Fin 16 := Fin.ofNat 16 row
       let u := leaveSelfRefresh c (leaveSelfRefresh t (resumeCopies s))
       { copyRow { channel := c, bank := b, row := 64 * sl + row / 16, line := 0 }
           { channel := t, bank := b, row := 64 * ts + row / 16, line := 0 } u with
         mover := some (.slabs c ((sl, tc, ts) :: rest) (row + 1)) }) := by
  have hn : ¬(row = 0 ∧ thermalEmergency s = true) := fun ⟨h, h'⟩ => by
    rw [he h] at h'
    exact absurd h' (by decide)
  simp only [migrationCopy, hb, hm, hp, ht, hc, hn, hat, hac, Nat.not_le.2 hr, Bool.false_or, Bool.not_true,
    Bool.false_eq_true, Bool.not_false, and_false, or_self, if_false]

theorem slabSwitchover_of_copied {c : Fin 32} {sl tc ts : Nat} {next : Nat × Nat × Nat} {rest : List (Nat × Nat × Nat)}
    (hm : s.mover = some (.slabs c ((sl, tc, ts) :: next :: rest) 1024)) (hr : relocSource s c sl = none) :
    slabSwitchover s = { setReloc c sl tc ts s with mover := some (.slabs c (next :: rest) 0) } := by
  simp only [slabSwitchover, hm, hr, Nat.lt_irrefl, reduceCtorEq, if_false]

end

/-- Settles O31. -/
theorem refillsRekeysAndRetirements : Obligations.RefillsRekeysAndRetirements := by
  refine ⟨⟨fun r rest s h hr => ?_, fun t s h => ?_, fun pd r s hx hr hs hp k hk => ⟨fun hl => ?_, fun hl => ?_⟩⟩,
    fun c t s h hm => ?_, fun c sl tc ts row rest s hb hm hr hp ht hc he hat hac => ?_,
    fun c sl tc ts next rest s hm hr => ?_⟩
  · exact congrArg Host.Outcome.next (refillNext_of_oldest h hr)
  · exact congrArg Host.Outcome.next (keyLockoutEnd_of_locked h)
  · exact congrArg (fun t => Host.Outcome.next (serveReady t))
      ((rekeyStep_of_running hx hr hs hp hk).trans (if_pos hl))
  · exact congrArg (fun t => Host.Outcome.next (serveReady t))
      ((rekeyStep_of_running hx hr hs hp hk).trans (if_neg (Nat.not_le.2 hl)))
  · exact congrArg (fun t => Host.Outcome.next (serveReady t)) (channelRetiring_of_queued h hm)
  · exact congrArg (fun t => Host.Outcome.next (serveReady t))
      (migrationCopy_of_slab hb hm hr hp ht hc he hat hac)
  · exact congrArg Host.Outcome.next (slabSwitchover_of_copied hm hr)

end Sys2Proof.BackgroundWork
end

section
/-! PROOFS. Rows, keepers and bonds (O34). -/

namespace Sys2Proof.RowsAndBonds

open Sys2Proof Sys2Proof.Machine Sys2Proof.Laws Sys2Proof.Safety

section
variable {c : Fin 32} {s : State}

theorem postPackageRepair_of_suspect {b : Fin 16} {row : Nat} (ha : s.params.autoPpr = true)
    (hs : s.params.rowSuspectPasses ≤ sparseGet 0 s.channels[c].banks[b].badRows row)
    (hr : s.channels[c].retire ≠ .migrating)
    (hb : ((runningWork s).any fun w => decide (workChannel w = some c)) = false) (hc : channelIssues s c = true) :
    postPackageRepair c b row s = (repairRow c b row (passTo (s.hubTimer + 250) (refreshDown c s))).2 := by
  simp only [postPackageRepair, ha, hs, hr, hb, hc, decide_true, Bool.not_false, ne_eq, not_false_eq_true, and_self,
    if_true]

theorem layerKeeper_of_stopped (hr : s.channels[c].state ≠ .retired) (hk : s.channels[c].keeperActed = false)
    (hl : s.channels[c].state = .selfRefresh → s.channels[c].clockLost = true) :
    layerKeeper c s = keeperStop c (passTo (s.hubTimer + 10000) s) := by
  have hn : ¬(s.channels[c].state = .retired ∨ s.channels[c].keeperActed = true ∨
      s.channels[c].state = .selfRefresh ∧ (!s.channels[c].clockLost) = true) := by
    rintro (h | h | ⟨h, h'⟩)
    · exact hr h
    · rw [hk] at h
      exact absurd h (by decide)
    · rw [hl h] at h'
      exact absurd h' (by decide)
  exact if_neg hn

/-- The channel that its keeper holds in self-refresh, every bank refreshed. -/
def kept (x : Channel) : Channel :=
  { x with
    state := .selfRefresh, keeperActed := true
    banks := x.banks.map fun b => { b with openRow := none, hitStreak := 0, refRow := (b.refRow + 8) % 8200, debt := 0 } }

theorem kept_bank (x : Channel) (b : Fin 16) : (kept x).banks[b] =
    { x.banks[b] with openRow := none, hitStreak := 0, refRow := (x.banks[b].refRow + 8) % 8200, debt := 0 } := by
  simp [kept]

theorem keeperStop_eq (c : Fin 32) (s : State) : keeperStop c s = modChannel c kept s := rfl

end

/-- Settles O34. -/
theorem rowsKeepersAndBonds : Obligations.RowsKeepersAndBonds := by
  refine ⟨fun c b row s ha hs hr hb hc => ?_, fun c s hr hk hl => ?_, fun s => rfl, fun s => ?_⟩
  · exact congrArg Host.Outcome.next (postPackageRepair_of_suspect ha hs hr hb hc)
  · refine ⟨_, congrArg Host.Outcome.next (layerKeeper_of_stopped hr hk hl), ?_⟩
    have hc := modChannel_self c kept (passTo (s.hubTimer + 10000) s)
    rw [keeperStop_eq, hc]
    refine ⟨rfl, rfl, Nat.max_eq_right (Nat.le_add_right _ _), fun b => ?_, rfl, fun d hd => ?_⟩
    · rw [kept_bank]
      exact ⟨rfl, rfl, rfl⟩
    · exact modChannel_other c kept d hd _
  · refine ⟨bondStore s, rfl, fun i => ?_, rfl, rfl⟩
    simp [bondStore]

end Sys2Proof.RowsAndBonds
end

section
/-! PROOFS. What work on one channel leaves: the other channels, and of its own what no command word moves. -/

namespace Sys2Proof.ChannelWork

open Sys2Proof Sys2Proof.Machine Sys2Proof.Laws Sys2Proof.Safety

/-! ### Banks and channels that moved -/

/-- `y` is bank `x` but for its row, its debt, its refresh pointer and its times. -/
def BankMoved (x y : Bank) : Prop :=
  ∃ openRow debt refRow hitStreak actAt preAt refAt readAt writeEnd, y = { x with
    openRow := openRow, debt := debt, refRow := refRow, hitStreak := hitStreak, actAt := actAt, preAt := preAt
    refAt := refAt, readAt := readAt, writeEnd := writeEnd }

/-- `y` is channel `x` but for what its command words change. -/
def FieldsMoved (x y : Channel) : Prop :=
  ∃ state banks acts lastAct lastCol lastRef lastReadEnd lastWriteEnd wakeAt columnData lastLine writeQueue draining
    windowAt actBudget colBudget cleanRun cmdSeq execSeq retryBuffer alerts idleSince forced, y = { x with
      state := state, banks := banks, acts := acts, lastAct := lastAct, lastCol := lastCol, lastRef := lastRef
      lastReadEnd := lastReadEnd, lastWriteEnd := lastWriteEnd, wakeAt := wakeAt, columnData := columnData
      lastLine := lastLine, writeQueue := writeQueue, draining := draining, windowAt := windowAt
      actBudget := actBudget, colBudget := colBudget, cleanRun := cleanRun, cmdSeq := cmdSeq, execSeq := execSeq
      retryBuffer := retryBuffer, alerts := alerts, idleSince := idleSince, forcedRefreshCount := forced }

/-- A channel's state stays, or wakes from power-down. -/
def StateMoved (x y : ChState) : Prop := y = x ∨ x = .powerDown ∧ y = .active

/-- `y` is channel `x` moved on by command words. -/
def ChannelMoved (x y : Channel) : Prop :=
  FieldsMoved x y ∧ StateMoved x.state y.state ∧ ∀ b : Fin 16, BankMoved x.banks[b] y.banks[b]

/-- `t` is `s` with channel `c` moved on and time passed; every other channel is as it was. -/
def Worked (c : Fin 32) (s t : State) : Prop :=
  s.hubTimer ≤ t.hubTimer ∧ ChannelMoved s.channels[c] t.channels[c] ∧
    ∀ d : Fin 32, d ≠ c → t.channels[d] = s.channels[d]

theorem BankMoved.refl (x : Bank) : BankMoved x x := ⟨_, _, _, _, _, _, _, _, _, rfl⟩

theorem BankMoved.trans {x y z : Bank} : BankMoved x y → BankMoved y z → BankMoved x z := by
  rintro ⟨_, _, _, _, _, _, _, _, _, rfl⟩ ⟨_, _, _, _, _, _, _, _, _, rfl⟩
  exact ⟨_, _, _, _, _, _, _, _, _, rfl⟩

theorem BankMoved.remap {x y : Bank} (h : BankMoved x y) : y.remap = x.remap := by
  obtain ⟨_, _, _, _, _, _, _, _, _, rfl⟩ := h
  rfl

theorem FieldsMoved.refl (x : Channel) : FieldsMoved x x :=
  ⟨_, _, _, _, _, _, _, _, _, _, _, _, _, _, _, _, _, _, _, _, _, _, _, rfl⟩

theorem FieldsMoved.trans {x y z : Channel} : FieldsMoved x y → FieldsMoved y z → FieldsMoved x z := by
  rintro ⟨_, _, _, _, _, _, _, _, _, _, _, _, _, _, _, _, _, _, _, _, _, _, _, rfl⟩
    ⟨_, _, _, _, _, _, _, _, _, _, _, _, _, _, _, _, _, _, _, _, _, _, _, rfl⟩
  exact ⟨_, _, _, _, _, _, _, _, _, _, _, _, _, _, _, _, _, _, _, _, _, _, _, rfl⟩

theorem StateMoved.refl (x : ChState) : StateMoved x x := Or.inl rfl

theorem StateMoved.trans {x y z : ChState} : StateMoved x y → StateMoved y z → StateMoved x z := by
  rintro (rfl | ⟨rfl, rfl⟩) (rfl | ⟨h, rfl⟩)
  · exact .inl rfl
  · exact .inr ⟨h, rfl⟩
  · exact .inr ⟨rfl, rfl⟩
  · exact absurd h (by decide)

/-- No command word retires a channel, or brings one back. -/
theorem StateMoved.ne_retired {x y : ChState} (h : StateMoved x y) (hx : x ≠ .retired) : y ≠ .retired := by
  obtain rfl | ⟨-, rfl⟩ := h
  · exact hx
  · decide

theorem StateMoved.active {x y : ChState} (h : StateMoved x y) (hx : x = .active) : y = .active := by
  obtain rfl | ⟨-, rfl⟩ := h
  · exact hx
  · rfl

theorem ChannelMoved.refl (x : Channel) : ChannelMoved x x := ⟨.refl x, .refl _, fun _ => .refl _⟩

theorem ChannelMoved.trans {x y z : Channel} (h : ChannelMoved x y) (h' : ChannelMoved y z) : ChannelMoved x z :=
  ⟨h.1.trans h'.1, h.2.1.trans h'.2.1, fun b => (h.2.2 b).trans (h'.2.2 b)⟩

/-- A part that no command word changes is as it was. -/
theorem ChannelMoved.congr {α : Type} {x y : Channel} (h : ChannelMoved x y) (g : Channel → α)
    (hg : ∀ z w, FieldsMoved z w → g w = g z) : g y = g x := hg _ _ h.1

theorem ChannelMoved.vertical {x y : Channel} (h : ChannelMoved x y) : y.vertical = x.vertical := by
  obtain ⟨⟨_, _, _, _, _, _, _, _, _, _, _, _, _, _, _, _, _, _, _, _, _, _, _, rfl⟩, -⟩ := h
  rfl

theorem ChannelMoved.requests {x y : Channel} (h : ChannelMoved x y) : y.requests = x.requests := by
  obtain ⟨⟨_, _, _, _, _, _, _, _, _, _, _, _, _, _, _, _, _, _, _, _, _, _, _, rfl⟩, -⟩ := h
  rfl

theorem ChannelMoved.debtPeak {x y : Channel} (h : ChannelMoved x y) : y.debtPeak = x.debtPeak := by
  obtain ⟨⟨_, _, _, _, _, _, _, _, _, _, _, _, _, _, _, _, _, _, _, _, _, _, _, rfl⟩, -⟩ := h
  rfl

theorem ChannelMoved.skeinData {x y : Channel} (h : ChannelMoved x y) : y.skeinData = x.skeinData := by
  obtain ⟨⟨_, _, _, _, _, _, _, _, _, _, _, _, _, _, _, _, _, _, _, _, _, _, _, rfl⟩, -⟩ := h
  rfl

/-- What changes none of its banks moves a channel. -/
theorem ChannelMoved.of_fields {x y : Channel} (h : FieldsMoved x y) (hs : StateMoved x.state y.state)
    (hb : y.banks = x.banks) : ChannelMoved x y := ⟨h, hs, fun b => by rw [hb]; exact .refl _⟩

/-! ### Moves of the state -/

section
variable {c : Fin 32} {r s t : State}

theorem Worked.refl (c : Fin 32) (s : State) : Worked c s s := ⟨Nat.le_refl _, .refl _, fun _ _ => rfl⟩

theorem Worked.trans (h : Worked c r s) (h' : Worked c s t) : Worked c r t :=
  ⟨h.1.trans h'.1, h.2.1.trans h'.2.1, fun d hd => (h'.2.2 d hd).trans (h.2.2 d hd)⟩

theorem Worked.channel (h : Worked c s t) : ChannelMoved s.channels[c] t.channels[c] := h.2.1

theorem Worked.other (h : Worked c s t) {d : Fin 32} (hd : d ≠ c) : t.channels[d] = s.channels[d] := h.2.2 d hd

theorem modChannel_worked {f : Channel → Channel} (hf : ChannelMoved s.channels[c] (f s.channels[c])) :
    Worked c s (modChannel c f s) :=
  ⟨Nat.le_refl _, by rw [modChannel_self]; exact hf, fun d hd => modChannel_other c f d hd s⟩

theorem modBank_self (c : Fin 32) (b : Fin 16) (f : Bank → Bank) (s : State) :
    (modBank c b f s).channels[c].banks[b] = f s.channels[c].banks[b] := by
  unfold modBank
  rw [modChannel_self]
  exact Vector.getElem_set_self _

theorem modBank_ne {c : Fin 32} {b k : Fin 16} (h : k ≠ b) (f : Bank → Bank) (s : State) :
    (modBank c b f s).channels[c].banks[k] = s.channels[c].banks[k] := by
  unfold modBank
  rw [modChannel_self]
  exact Vector.getElem_set_ne b.isLt k.isLt fun e => h (Fin.ext e.symm)

theorem modBank_worked {b : Fin 16} {f : Bank → Bank} (hf : BankMoved s.channels[c].banks[b] (f s.channels[c].banks[b])) :
    Worked c s (modBank c b f s) := by
  refine ⟨Nat.le_refl _, ⟨?_, ?_, fun k => ?_⟩, fun d hd => modChannel_other c _ d hd s⟩
  · unfold modBank
    rw [modChannel_self]
    exact ⟨_, _, _, _, _, _, _, _, _, _, _, _, _, _, _, _, _, _, _, _, _, _, _, rfl⟩
  · unfold modBank
    rw [modChannel_self]
    exact .refl _
  · by_cases h : k = b
    · subst h
      rw [modBank_self]
      exact hf
    · rw [modBank_ne h]
      exact .refl _

theorem passTo_worked (c : Fin 32) (n : Nat) (s : State) : Worked c s (passTo n s) :=
  ⟨Nat.le_max_left _ _, .refl _, fun _ _ => rfl⟩

theorem events_worked (c : Fin 32) (h : Events s t) : Worked c s t := by
  obtain ⟨_, _, _, rfl⟩ := h
  exact ⟨Nat.le_refl _, .refl _, fun _ _ => rfl⟩

theorem worked_ite {p : Prop} [Decidable p] (hs : p → Worked c r s) (ht : ¬p → Worked c r t) :
    Worked c r (if p then s else t) := by
  split
  next h => exact hs h
  next h => exact ht h

theorem worked_foldl {α : Type} {f : State → α → State} (hf : ∀ s a, Worked c s (f s a)) (l : List α) (s : State) :
    Worked c s (l.foldl f s) := by
  induction l generalizing s with
  | nil => exact .refl c s
  | cons a l ih => exact (hf s a).trans (ih _)

end

/-! ### Command words -/

section
variable (c : Fin 32) (b : Fin 16) (s : State)

theorem wakePowerDown_worked : Worked c s (wakePowerDown c s) :=
  worked_ite (fun h => modChannel_worked (.of_fields ⟨_, _, _, _, _, _, _, _, _, _, _, _, _, _, _, _, _, _, _, _, _, _, _, rfl⟩
    (.inr ⟨h, rfl⟩) rfl)) fun _ => .refl c s

theorem issueWord_worked (w : CmdWord) : Worked c s (issueWord c w s) :=
  modChannel_worked (.of_fields ⟨_, _, _, _, _, _, _, _, _, _, _, _, _, _, _, _, _, _, _, _, _, _, _, rfl⟩ (.refl _) rfl)

theorem noteForced_worked : Worked c s (noteForced c b s) :=
  worked_ite (fun _ => (modChannel_worked (.of_fields
    ⟨_, _, _, _, _, _, _, _, _, _, _, _, _, _, _, _, _, _, _, _, _, _, _, rfl⟩ (.refl _) rfl)).trans
      (events_worked c (raiseLimited_events _ _ _ _ _))) fun _ => .refl c s

theorem closeRow_worked : Worked c s (closeRow c b s) :=
  worked_ite (fun _ => .refl c s) fun _ => (passTo_worked c _ s).trans ((modBank_worked
    ⟨_, _, _, _, _, _, _, _, _, rfl⟩).trans (issueWord_worked c _ _))

theorem refreshNow_worked : Worked c s (refreshNow c b s) := by
  unfold refreshNow
  refine (noteForced_worked c b s).trans ((wakePowerDown_worked c _).trans ((closeRow_worked c b _).trans ?_))
  generalize closeRow c b (wakePowerDown c (noteForced c b s)) = u
  exact (passTo_worked c _ u).trans ((modBank_worked ⟨_, _, _, _, _, _, _, _, _, rfl⟩).trans
    ((modChannel_worked (.of_fields ⟨_, _, _, _, _, _, _, _, _, _, _, _, _, _, _, _, _, _, _, _, _, _, _, rfl⟩
      (.refl _) rfl)).trans (issueWord_worked c _ _)))

theorem creditWindows_worked : Worked c s (creditWindows c s) :=
  modChannel_worked (.of_fields ⟨_, _, _, _, _, _, _, _, _, _, _, _, _, _, _, _, _, _, _, _, _, _, _, rfl⟩ (.refl _) rfl)

theorem spendAct_worked : Worked c s (spendAct c s) := by
  unfold spendAct
  exact (creditWindows_worked c s).trans ((passTo_worked c _ _).trans ((creditWindows_worked c _).trans
    (modChannel_worked (.of_fields ⟨_, _, _, _, _, _, _, _, _, _, _, _, _, _, _, _, _, _, _, _, _, _, _, rfl⟩
      (.refl _) rfl))))

theorem spendCol_worked : Worked c s (spendCol c s) := by
  unfold spendCol
  exact (creditWindows_worked c s).trans ((passTo_worked c _ _).trans ((creditWindows_worked c _).trans
    (modChannel_worked (.of_fields ⟨_, _, _, _, _, _, _, _, _, _, _, _, _, _, _, _, _, _, _, _, _, _, _, rfl⟩
      (.refl _) rfl))))

theorem actRow_worked (row : Nat) : Worked c s (actRow c b row s) := by
  unfold actRow
  refine (spendAct_worked c s).trans ?_
  generalize spendAct c s = u
  exact (passTo_worked c _ u).trans ((modBank_worked ⟨_, _, _, _, _, _, _, _, _, rfl⟩).trans
    ((modChannel_worked (.of_fields ⟨_, _, _, _, _, _, _, _, _, _, _, _, _, _, _, _, _, _, _, _, _, _, _, rfl⟩
      (.refl _) rfl)).trans (issueWord_worked c _ _)))

theorem openBank_worked (pl : Place) (s : State) : Worked pl.channel s (openBank pl s) := by
  unfold openBank
  dsimp only
  refine (wakePowerDown_worked _ s).trans ?_
  generalize wakePowerDown pl.channel s = u
  split
  · exact .refl _ u
  refine (closeRow_worked pl.channel pl.bank u).trans ?_
  generalize closeRow pl.channel pl.bank u = v
  exact (worked_ite (fun _ => refreshNow_worked _ _ v) fun _ => .refl _ v).trans (actRow_worked _ _ _ _)

theorem writeBurst_worked (pl : Place) (s : State) : Worked pl.channel s (writeBurst pl s) := by
  unfold writeBurst
  dsimp only
  refine (spendCol_worked _ s).trans ?_
  generalize spendCol pl.channel s = u
  exact (passTo_worked _ _ u).trans ((modBank_worked ⟨_, _, _, _, _, _, _, _, _, rfl⟩).trans
    ((modChannel_worked (.of_fields ⟨_, _, _, _, _, _, _, _, _, _, _, _, _, _, _, _, _, _, _, _, _, _, _, rfl⟩
      (.refl _) rfl)).trans (issueWord_worked _ _ _)))

theorem readBurst_worked (pl : Place) (s : State) : Worked pl.channel s (readBurst pl s) := by
  unfold readBurst
  dsimp only
  refine (spendCol_worked _ s).trans ?_
  generalize spendCol pl.channel s = u
  exact (passTo_worked _ _ u).trans ((modBank_worked ⟨_, _, _, _, _, _, _, _, _, rfl⟩).trans
    ((modChannel_worked (.of_fields ⟨_, _, _, _, _, _, _, _, _, _, _, _, _, _, _, _, _, _, _, _, _, _, _, rfl⟩
      (.refl _) rfl)).trans (issueWord_worked _ _ _)))

theorem dram_worked (m : Memory) : Worked c s { s with dram := m } := ⟨Nat.le_refl _, .refl _, fun _ _ => rfl⟩

theorem storeCoded_worked (pl : Place) (w : CodedLine) : Worked c s (storeCoded pl w s) := dram_worked c s _

theorem writeQueue_worked (q : Channel → List WqEntry) :
    Worked c s (modChannel c (fun x => { x with writeQueue := q x }) s) :=
  modChannel_worked (.of_fields ⟨_, _, _, _, _, _, _, _, _, _, _, _, _, _, _, _, _, _, _, _, _, _, _, rfl⟩ (.refl _) rfl)

theorem writeEntry_worked (e : WqEntry) : Worked c s (writeEntry c e s) := by
  unfold writeEntry layerWrite
  exact (writeQueue_worked c s _).trans ((openBank_worked { channel := c, bank := e.bank, row := e.row, line := e.line } _).trans
    ((writeBurst_worked { channel := c, bank := e.bank, row := e.row, line := e.line } _).trans
      ((writeQueue_worked c _ _).trans (storeCoded_worked c _ _ _))))

theorem drainOne_worked : Worked c s (drainOne c s) := by
  unfold drainOne
  split
  · exact writeEntry_worked c s _
  · exact (passTo_worked c _ s).trans (issueWord_worked c _ _)

theorem drainTo_worked (low n : Nat) : Worked c s (drainTo c low n s) := by
  induction n generalizing s with
  | zero => exact .refl c s
  | succ n ih => exact worked_ite (fun _ => .refl c s) fun _ => (drainOne_worked c s).trans (ih _)

theorem drainAll_worked : Worked c s (drainAll c s) := drainTo_worked c s 0 256

theorem drainRow_worked (row : Nat) : Worked c s (drainRow c b row s) :=
  worked_foldl (fun s e => writeEntry_worked c s e) _ s

theorem closeRows_worked : Worked c s (closeRows c s) := worked_foldl (fun s b => closeRow_worked c b s) _ s

theorem payBank_worked : Worked c s (payBank c s b) := worked_foldl (fun s _ => refreshNow_worked c b s) _ s

theorem payDebts_worked : Worked c s (payDebts c s) := worked_foldl (fun s b => payBank_worked c b s) _ s

theorem rerefresh_worked (w : CmdWord) : Worked c s (rerefresh w s c) := by
  unfold rerefresh
  split
  · exact (modBank_worked ⟨_, _, _, _, _, _, _, _, _, rfl⟩).trans (modChannel_worked (.of_fields
      ⟨_, _, _, _, _, _, _, _, _, _, _, _, _, _, _, _, _, _, _, _, _, _, _, rfl⟩ (.refl _) rfl))
  · exact .refl c s

theorem replayBuffer_worked : Worked c s (replayBuffer c s) := by
  unfold replayBuffer
  exact (passTo_worked c _ s).trans ((worked_foldl (fun s w => rerefresh_worked c s w) _ _).trans
    (modChannel_worked (.of_fields ⟨_, _, _, _, _, _, _, _, _, _, _, _, _, _, _, _, _, _, _, _, _, _, _, rfl⟩
      (.refl _) rfl)))

theorem refreshDown_worked : Worked c s (refreshDown c s) :=
  worked_foldl (fun s b => worked_foldl (fun s _ => refreshNow_worked c b s) _ s) _ s

end

end Sys2Proof.ChannelWork
end

section
/-! PROOFS. Trims and repairs (O32). -/

namespace Sys2Proof.TrimWork

open Sys2Proof Sys2Proof.Machine Sys2Proof.Laws Sys2Proof.Safety Sys2Proof.ChannelWork

/-! ### What a trim leaves of its channel -/

/-- The failed wires and the count of failed trims of `y` are those of `x`. -/
def SameFails (x y : Vertical) : Prop :=
  y.trimFails = x.trimFails ∧ y.colFailed = x.colFailed ∧ y.skFailed = x.skFailed ∧ y.caFailed = x.caFailed

/-- Channel `c` has in `t` the failures it has in `s`, and is not retired if it was not. -/
def Steady (c : Fin 32) (s t : State) : Prop :=
  SameFails s.channels[c].vertical t.channels[c].vertical ∧
    (s.channels[c].state ≠ .retired → t.channels[c].state ≠ .retired)

section
variable {c : Fin 32} {r s t : State}

theorem Steady.refl (c : Fin 32) (s : State) : Steady c s s := ⟨⟨rfl, rfl, rfl, rfl⟩, id⟩

theorem Steady.trans (h : Steady c r s) (h' : Steady c s t) : Steady c r t := by
  obtain ⟨⟨h1, h2, h3, h4⟩, hs⟩ := h
  obtain ⟨⟨h1', h2', h3', h4'⟩, hs'⟩ := h'
  exact ⟨⟨h1'.trans h1, h2'.trans h2, h3'.trans h3, h4'.trans h4⟩, hs' ∘ hs⟩

theorem Steady.positions (h : Steady c s t) :
    positionsFailed t.channels[c].vertical = positionsFailed s.channels[c].vertical := by
  obtain ⟨⟨-, h2, h3, h4⟩, -⟩ := h
  unfold positionsFailed
  rw [h2, h3, h4]

theorem steady_worked (h : Worked c s t) (hr : Steady c r s) : Steady c r t := by
  refine hr.trans ⟨?_, h.channel.2.1.ne_retired⟩
  rw [h.channel.vertical]
  exact ⟨rfl, rfl, rfl, rfl⟩

theorem steady_ite {p : Prop} [Decidable p] (hs : Steady c r s) (ht : Steady c r t) :
    Steady c r (if p then s else t) := by
  split
  · exact hs
  · exact ht

theorem modChannel_steady {f : Channel → Channel} (hv : ∀ x, SameFails x.vertical (f x).vertical)
    (hs : ∀ x, x.state ≠ .retired → (f x).state ≠ .retired) (hr : Steady c r s) : Steady c r (modChannel c f s) := by
  refine hr.trans ⟨?_, ?_⟩ <;> rw [modChannel_self]
  · exact hv _
  · exact hs _

/-- A change of the channel's other parts. -/
theorem modChannel_steady_still {f : Channel → Channel} (hf : ∀ x, (f x).vertical = x.vertical ∧ (f x).state = x.state)
    (hr : Steady c r s) : Steady c r (modChannel c f s) :=
  modChannel_steady (fun x => by rw [(hf x).1]; exact ⟨rfl, rfl, rfl, rfl⟩) (fun x h => by rw [(hf x).2]; exact h) hr

end

/-! ### The steps of a trim -/

section
variable (c : Fin 32) (probe : TrimProbe) (s : State)

theorem rewriteQueue_steady {r : State} (h : Steady c r s) : Steady c r (rewriteQueue c s) :=
  steady_ite (modChannel_steady_still (fun _ => ⟨rfl, rfl⟩) (steady_worked (drainAll_worked c s) h)) h

/-- Every bank at its limit refreshed. -/
def refreshFull (c : Fin 32) (s : State) : State :=
  (List.finRange 16).foldl (fun s b => if s.channels[c].banks[b].debt = 8 then refreshNow c b s else s) s

theorem refreshFull_worked : Worked c s (refreshFull c s) :=
  worked_foldl (fun s b => worked_ite (fun _ => refreshNow_worked c b s) fun _ => .refl c s) _ s

theorem leaveTrim_steady : Steady c s (leaveTrim c s) := by
  unfold leaveTrim
  dsimp only
  have h1 : Steady c s (if s.channels[c].state = .trim then
      modChannel c (fun x => { x with state := .active, idleSince := s.hubTimer }) s else s) :=
    steady_ite (modChannel_steady (fun _ => ⟨rfl, rfl, rfl, rfl⟩) (fun _ _ => ChState.noConfusion) (.refl c s)) (.refl c s)
  generalize (if s.channels[c].state = .trim then
    modChannel c (fun x => { x with state := .active, idleSince := s.hubTimer }) s else s) = u at h1 ⊢
  have h2 : Steady c s (if s.channels[c].alerts = 3 then
      replayBuffer c (modChannel c (fun x => { x with alerts := 0, alertTrimAt := some u.hubTimer }) u) else u) :=
    steady_ite (steady_worked (replayBuffer_worked c _) (modChannel_steady_still (fun _ => ⟨rfl, rfl⟩) h1)) h1
  generalize (if s.channels[c].alerts = 3 then
    replayBuffer c (modChannel c (fun x => { x with alerts := 0, alertTrimAt := some u.hubTimer }) u) else u) = v at h2 ⊢
  exact rewriteQueue_steady c _ (steady_worked (refreshFull_worked c v) h2)

theorem setTaps_steady (sweep : Bool) : Steady c s (setTaps sweep c probe s) := by
  unfold setTaps modVertical
  extract_lets _ _ _ _ _ _ _ u
  have hu : Steady c s u := modChannel_steady (fun _ => ⟨rfl, rfl, rfl, rfl⟩) (fun _ h => h) (.refl c s)
  exact steady_ite (steady_worked (events_worked c (raise_events _ _ _ _ _)) hu) hu

/-- The channel with its banks refreshed and its trim counted and timed. -/
def noted (c : Fin 32) (s : State) : State :=
  modChannel c (fun x => { x with trimDue := false }) (noteTrim c (passTo (s.hubTimer + 1600) (refreshDown c s)))

theorem noted_steady : Steady c s (noted c s) := by
  unfold noted noteTrim modVertical
  exact modChannel_steady_still (fun _ => ⟨rfl, rfl⟩) (modChannel_steady (fun _ => ⟨rfl, rfl, rfl, rfl⟩) (fun _ h => h)
    (steady_worked ((refreshDown_worked c s).trans (passTo_worked c _ _)) (.refl c s)))

/-- A trim that finds an eye below 90%. -/
def failing (c : Fin 32) (s : State) : State := modVertical c (fun v => { v with trimFails := v.trimFails + 1 }) (noted c s)

theorem failing_channel : (failing c s).channels[c].vertical.trimFails = s.channels[c].vertical.trimFails + 1 ∧
    positionsFailed (failing c s).channels[c].vertical = positionsFailed s.channels[c].vertical ∧
    (s.channels[c].state ≠ .retired → (failing c s).channels[c].state ≠ .retired) := by
  obtain ⟨⟨h1, h2, h3, h4⟩, h5⟩ := noted_steady c s
  unfold failing modVertical
  rw [modChannel_self]
  generalize noted c s = u at h1 h2 h3 h4 h5
  exact ⟨congrArg (· + 1) h1, by simp only [positionsFailed, h2, h3, h4], h5⟩

/-- A trim with every eye open. -/
def passing (c : Fin 32) (probe : TrimProbe) (s : State) : State :=
  setTaps false c probe (modVertical c (fun v => { v with trimFails := 0 }) (noted c s))

theorem passing_channel : (passing c probe s).channels[c].vertical.trimFails = 0 ∧
    positionsFailed (passing c probe s).channels[c].vertical = positionsFailed s.channels[c].vertical ∧
    (s.channels[c].state ≠ .retired → (passing c probe s).channels[c].state ≠ .retired) := by
  obtain ⟨⟨-, h2, h3, h4⟩, h5⟩ := noted_steady c s
  have h := setTaps_steady c probe (modVertical c (fun v => { v with trimFails := 0 }) (noted c s)) false
  have hp := h.positions
  obtain ⟨⟨hf, -⟩, hs⟩ := h
  unfold passing
  generalize noted c s = u at h2 h3 h4 h5 hp hf hs
  unfold modVertical at hp hf hs ⊢
  rw [modChannel_self] at hp hf hs
  exact ⟨hf, hp.trans (by simp only [positionsFailed, h2, h3, h4]), fun hr => hs (h5 hr)⟩

end

/-! ### A clock that fails -/

section
variable {c : Fin 32} {s : State}

/-- The state of channel `c` is the same in `t`. -/
def SameState (c : Fin 32) (s t : State) : Prop := t.channels[c].state = s.channels[c].state

theorem events_sameState {t : State} (h : Events s t) : SameState c s t := by
  obtain ⟨_, _, _, rfl⟩ := h
  rfl

theorem map_sameState {f : Channel → Channel} (hf : ∀ x, (f x).state = x.state) :
    SameState c s { s with channels := s.channels.map f } := by
  unfold SameState
  have h : (s.channels.map f)[c] = f s.channels[c] := by simp
  exact (congrArg Channel.state h).trans (hf _)

theorem trimEvent_events (pk : Fin 4 × Fin 8) (kind admitted remaining : Nat) (f : PortClass → PortClass) (s : State) :
    Events s (trimEvent pk kind admitted remaining f s) := (modClass_events _ _ _ _).trans (raise_events _ _ _ _ _)

theorem events_ite {r t : State} {p : Prop} [Decidable p] (hs : Events r s) (ht : Events r t) :
    Events r (if p then s else t) := by
  split
  · exact hs
  · exact ht

theorem trimClass_events (s : State) (pk : Fin 4 × Fin 8) : Events s (trimClass s pk) := by
  unfold trimClass
  dsimp only
  have h : Events s (if (classAt s pk).target ≠ 0 ∧ classCharge (classAt s pk) ≠ 0 ∧
      (!scopeFits s (classAt s pk).scope) = true then
        trimEvent pk 1 (classAt s pk).targetAdmitted 0 (fun c => { c with target := 0 }) s else s) :=
    events_ite (trimEvent_events _ _ _ _ _ _) (.refl s)
  exact events_ite (events_ite (h.trans (trimEvent_events _ _ _ _ _ _)) h) h

theorem trimShare_events (s : State) (pk : Fin 4 × Fin 8) : Events s (trimShare s pk) :=
  events_ite (.refl s) (trimEvent_events _ _ _ _ _ _)

theorem noteClass_events (dropped : Bool) (s : State) (pk : Fin 4 × Fin 8) : Events s (noteClass dropped s pk) := by
  unfold noteClass
  exact modClass_events _ _ _ _

theorem recomputeLedger_sameState (before s : State) : SameState c s (recomputeLedger before s) := by
  have h1 : Events s (if ledgerFits s then s else trimOrder.foldl trimClass s) :=
    events_ite (.refl s) (events_foldl _ trimClass_events _ s)
  unfold recomputeLedger
  dsimp only
  generalize (if ledgerFits s then s else trimOrder.foldl trimClass s) = u at h1 ⊢
  have h2 : Events u (if shareSum u ≤ kennelCapacity u then u else trimOrder.foldl trimShare u) :=
    events_ite (.refl u) (events_foldl _ trimShare_events _ u)
  generalize (if shareSum u ≤ kennelCapacity u then u else trimOrder.foldl trimShare u) = v at h2 ⊢
  have h3 : SameState c v { v with channels := v.channels.map fun x =>
      { creditChannel v.hubTimer x with scalePct := min x.thermalPct v.thermal.governorPct } } := map_sameState fun _ => rfl
  exact (events_sameState (events_foldl _ (noteClass_events _) _ _)).trans (h3.trans (events_sameState (h1.trans h2)))

theorem passCheck_sameState (s : State) : SameState c s (passCheck s) := by
  unfold passCheck
  split
  · exact (events_sameState (raise_events _ _ _ _ _)).trans (map_sameState fun _ => rfl)
  · rfl

/-- A channel whose clock fails is retired. -/
theorem clockFailure_state (c : Fin 32) (s : State) : (clockFailure c s).channels[c].state = .retired := by
  unfold clockFailure
  split
  · assumption
  extract_lets slabs own copying t u v
  have hu : u.channels[c].state = .retired := by
    show (modChannel c _ _).channels[c].state = .retired
    rw [modChannel_self]
  have hv : v.channels[c].state = .retired :=
    (events_sameState (raise_events _ _ _ _ _)).trans ((recomputeLedger_sameState s u).trans hu)
  clear_value v
  split
  · exact (passCheck_sameState _).trans hv
  · exact (passCheck_sameState _).trans hv

end

/-! ### Trims -/

section
variable {c : Fin 32} {probe : TrimProbe} {s : State}

/-- A trim runs on a channel that is not retired. -/
theorem ne_retired_of_trimServes (h : trimServes s c = true) : s.channels[c].state ≠ .retired := by
  intro hr
  simp only [trimServes, Bool.and_eq_true] at h
  obtain ⟨⟨-, h⟩, -⟩ := h
  simp only [channelIssues, modChannel_self, hr, Bool.and_eq_true, Bool.or_eq_true, decide_eq_true_eq] at h
  obtain ⟨-, h | h⟩ := h <;> exact absurd h (by decide)

theorem trimTaps_of_open (hb : probe.below90 = false) (hd : probe.dead = []) : trimTaps c probe s = passing c probe s := by
  simp only [trimTaps, hb, hd, Bool.false_eq_true, if_false, List.foldl_nil]
  rfl

theorem trimTaps_of_closed (hb : probe.below90 = true) : trimTaps c probe s =
    if 3 ≤ (failing c s).channels[c].vertical.trimFails then clockFailure c (failing c s) else failing c s := by
  unfold trimTaps
  rw [if_pos hb]
  extract_lets v
  have hv : v = failing c s := rfl
  clear_value v
  rw [hv]

theorem applyTrim_of_open (hr : s.channels[c].state ≠ .retired) (hb : probe.below90 = false) (hd : probe.dead = []) :
    applyTrim c probe s = leaveTrim c (passing c probe s) := by
  obtain ⟨-, hp, hs⟩ := passing_channel c probe s
  simp only [applyTrim, trimTaps_of_open hb hd, hs hr, hp, Nat.lt_irrefl, if_false]

theorem applyTrim_of_third (hf : s.channels[c].vertical.trimFails = 2) (hb : probe.below90 = true) :
    applyTrim c probe s = clockFailure c (failing c s) := by
  have h3 : 3 ≤ (failing c s).channels[c].vertical.trimFails := by
    rw [(failing_channel c s).1, hf]
  simp only [applyTrim, trimTaps_of_closed hb, h3, clockFailure_state, if_true]

theorem applyTrim_of_second (hr : s.channels[c].state ≠ .retired) (hf : s.channels[c].vertical.trimFails = 1)
    (hb : probe.below90 = true) : applyTrim c probe s = leaveTrim c (failing c s) := by
  obtain ⟨hc, hp, hs⟩ := failing_channel c s
  have h3 : ¬3 ≤ (failing c s).channels[c].vertical.trimFails := by
    rw [hc, hf]
    decide
  simp only [applyTrim, trimTaps_of_closed hb, h3, hs hr, hp, Nat.lt_irrefl, if_false]

theorem verticalTrim_of_open (h : trimServes s c = true) (hb : probe.below90 = false) (hd : probe.dead = []) :
    verticalTrim c probe s = mergeTrims c (leaveTrim c (passing c probe s)) := by
  have hf : (leaveTrim c (passing c probe s)).channels[c].vertical.trimFails = 0 := by
    obtain ⟨⟨hl, -⟩, -⟩ := leaveTrim_steady c (passing c probe s)
    rw [hl, (passing_channel c probe s).1]
  simp only [verticalTrim, h, applyTrim_of_open (ne_retired_of_trimServes h) hb hd, hf, true_or, if_true]

theorem verticalTrim_of_third (h : trimServes s c = true) (hf : s.channels[c].vertical.trimFails = 2)
    (hb : probe.below90 = true) : verticalTrim c probe s = mergeTrims c (clockFailure c (failing c s)) := by
  simp only [verticalTrim, h, applyTrim_of_third hf hb, clockFailure_state, or_true, if_true]

theorem trimRetry_of_second (h : trimServes s c = true) (hf : s.channels[c].vertical.trimFails = 1)
    (hb : probe.below90 = true) : trimRetry c probe s =
      leaveTrim c (failing c (passTo (s.channels[c].vertical.vtrimLast + 1000000) s)) := by
  have hr : (passTo (s.channels[c].vertical.vtrimLast + 1000000) s).channels[c].state ≠ .retired :=
    ne_retired_of_trimServes h
  have ha := applyTrim_of_second (s := passTo (s.channels[c].vertical.vtrimLast + 1000000) s) hr hf hb
  generalize hu : passTo (s.channels[c].vertical.vtrimLast + 1000000) s = u at ha hr ⊢
  have huf : u.channels[c].vertical.trimFails = 1 := by
    rw [← hu]
    exact hf
  obtain ⟨hc, -, hs⟩ := failing_channel c u
  obtain ⟨⟨hl, -⟩, hls⟩ := leaveTrim_steady c (failing c u)
  have hn : ¬((leaveTrim c (failing c u)).channels[c].vertical.trimFails = 0 ∨
      (leaveTrim c (failing c u)).channels[c].state = .retired) := by
    rw [hl, hc, huf]
    rintro (h0 | h0)
    · exact absurd h0 (by decide)
    · exact hls (hs hr) h0
  simp only [trimRetry, h, hf, hu, ha, hn, ne_eq, one_ne_zero, not_false_eq_true, and_self, if_true, if_false]

theorem shiftRepair_of_suspect {path : Path} {wire : Nat} (ha : s.params.autoRepair = true)
    (hw : s.channels[c].vertical.suspects.contains (path, wire) = true) (h : trimServes s c = true) :
    shiftRepair c path wire probe s = mergeTrims c (applyTrim c probe (repairWire c path wire s).2) := by
  simp only [shiftRepair, ha, hw, h, and_self, if_true]

/-- Only a channel has an echo test. -/
theorem echoTest_of_other {b : BlockId} (h : ∀ k, b ≠ .channel k) (echo : List Nat) : echoTest b echo s = s := by
  cases b with
  | channel k => exact absurd rfl (h k)
  | _ => rfl

theorem autoBlockReset_of_open {b : BlockId} (h : autoResetOpen s b = true) (echo : List Nat) :
    autoBlockReset b echo s = startBlockReset b (echoTest b echo s) := if_pos h

end

/-- Settles O32. -/
theorem trimsAndRepairs : Obligations.TrimsAndRepairs := by
  intro c probe s
  refine ⟨fun h hb hd => ?_, fun h hf hb => ?_, fun h hf hb => ?_, fun path wire ha hw h => ?_, fun b echo h hb => ?_,
    fun echo h => ⟨fun he => ?_, fun he => ?_⟩⟩
  · exact congrArg (fun t => Host.Outcome.next (serveReady t)) (verticalTrim_of_open h hb hd)
  · exact congrArg (fun t => Host.Outcome.next (serveReady t)) (verticalTrim_of_third h hf hb)
  · exact congrArg (fun t => Host.Outcome.next (serveReady t)) (trimRetry_of_second h hf hb)
  · exact congrArg (fun t => Host.Outcome.next (serveReady t)) (shiftRepair_of_suspect ha hw h)
  · exact congrArg Host.Outcome.next ((autoBlockReset_of_open h echo).trans
      (congrArg (startBlockReset b) (echoTest_of_other hb echo)))
  · exact congrArg Host.Outcome.next ((autoBlockReset_of_open h echo).trans
      (congrArg (startBlockReset _) (if_neg (by rw [he]; decide))))
  · exact congrArg Host.Outcome.next ((autoBlockReset_of_open h echo).trans
      (congrArg (startBlockReset _) (if_pos he)))

end Sys2Proof.TrimWork
end

section
/-! PROOFS. Activations, precharges, refreshes and NOP words (O25). -/

namespace Sys2Proof.RowCommands

open Sys2Proof Sys2Proof.Machine Sys2Proof.Laws Sys2Proof.Safety Sys2Proof.ChannelWork

/-! ### Times -/

theorem le_foldl_max (ts : List Nat) (a : Nat) : a ≤ ts.foldl max a ∧ ∀ t ∈ ts, t ≤ ts.foldl max a := by
  induction ts generalizing a with
  | nil => exact ⟨Nat.le_refl _, fun _ h => absurd h List.not_mem_nil⟩
  | cons x ts ih =>
    obtain ⟨h, hx⟩ := ih (max a x)
    refine ⟨(Nat.le_max_left a x).trans h, fun t ht => ?_⟩
    obtain rfl | ht := List.mem_cons.1 ht
    · exact (Nat.le_max_right a t).trans h
    · exact hx t ht

theorem le_maxOf {ts : List Nat} {t : Nat} (h : t ∈ ts) : t ≤ maxOf ts := (le_foldl_max ts 0).2 t h

theorem le_foldl_min (ts : List Nat) {a k : Nat} (ha : k ≤ a) (h : ∀ t ∈ ts, k ≤ t) : k ≤ ts.foldl min a := by
  induction ts generalizing a with
  | nil => exact ha
  | cons x ts ih =>
    exact ih (Nat.le_min.2 ⟨ha, h x List.mem_cons_self⟩) fun t ht => h t (List.mem_cons_of_mem _ ht)

/-- A refresh starts no earlier than its bank allows. -/
theorem le_refreshSlot (x : Channel) (b : Fin 16) (t : Nat) : t ≤ refreshSlot x b t := by
  unfold refreshSlot
  extract_lets ends
  have he : ∀ r ∈ ends, t ≤ r := by
    intro r hr
    obtain ⟨k, -, hk⟩ := List.mem_filterMap.1 hr
    split at hk
    · split_ifs at hk with hlt
      exact (Option.some.inj hk) ▸ hlt.le
    · exact absurd hk (by simp)
  split
  next hn =>
    cases hl : ends with
    | nil => simp [hl] at hn
    | cons r rs =>
      rw [hl] at he
      refine le_foldl_min _ ?_ he
      exact he r List.mem_cons_self
  next => exact Nat.le_refl t

section
variable {c : Fin 32} {b : Fin 16} {s : State}

/-! ### Waking -/

theorem passTo_hubTimer (t : Nat) (s : State) : (passTo t s).hubTimer = max s.hubTimer t := rfl

/-- A channel that issues is awake once it has left power-down. -/
theorem wakePowerDown_state (h : channelIssues s c = true) : (wakePowerDown c s).channels[c].state = .active := by
  have hs : s.channels[c].state = .active ∨ s.channels[c].state = .powerDown := by
    simp only [channelIssues, Bool.and_eq_true, Bool.or_eq_true, decide_eq_true_eq] at h
    exact h.2
  unfold wakePowerDown
  split
  · rw [modChannel_self]
  · next hn => exact hs.resolve_right hn

/-- The channel that a wake leaves: of its power-down only the state and the time from which it serves. -/
theorem wakePowerDown_channel (c : Fin 32) (s : State) : ∃ state wakeAt, (wakePowerDown c s).channels[c] =
    { s.channels[c] with state := state, wakeAt := wakeAt } := by
  unfold wakePowerDown
  split
  · exact ⟨_, _, modChannel_self _ _ _⟩
  · exact ⟨_, _, rfl⟩

theorem wakePowerDown_still (c : Fin 32) (s : State) : (wakePowerDown c s).dram = s.dram ∧
    (wakePowerDown c s).ports = s.ports ∧ (wakePowerDown c s).hubTimer = s.hubTimer := by
  unfold wakePowerDown
  split <;> exact ⟨rfl, rfl, rfl⟩

theorem wakePowerDown_banks (c : Fin 32) (s : State) :
    (wakePowerDown c s).channels[c].banks = s.channels[c].banks := by
  obtain ⟨_, _, h⟩ := wakePowerDown_channel c s
  rw [h]

theorem wakePowerDown_wakeAt (h : s.channels[c].state = .powerDown) :
    (wakePowerDown c s).channels[c].wakeAt = some (s.hubTimer + 10) := by
  unfold wakePowerDown
  rw [if_pos h, modChannel_self]

/-! ### Words -/

theorem issueWord_banks (w : CmdWord) (s : State) : (issueWord c w s).channels[c].banks = s.channels[c].banks := by
  unfold issueWord
  rw [modChannel_self]

theorem issueWord_state (w : CmdWord) (s : State) : (issueWord c w s).channels[c].state = s.channels[c].state := by
  unfold issueWord
  rw [modChannel_self]

theorem issueWord_cmdSeq (w : CmdWord) (s : State) : (issueWord c w s).channels[c].cmdSeq = s.channels[c].cmdSeq + 1 := by
  unfold issueWord
  rw [modChannel_self]

theorem issueWord_actBudget (w : CmdWord) (s : State) :
    (issueWord c w s).channels[c].actBudget = s.channels[c].actBudget := by
  unfold issueWord
  rw [modChannel_self]

theorem issueWord_still (c : Fin 32) (w : CmdWord) (s : State) : (issueWord c w s).dram = s.dram ∧
    (issueWord c w s).ports = s.ports ∧ (issueWord c w s).hubTimer = s.hubTimer := ⟨rfl, rfl, rfl⟩

theorem modBank_state (f : Bank → Bank) (s : State) : (modBank c b f s).channels[c].state = s.channels[c].state := by
  unfold modBank
  rw [modChannel_self]

theorem modBank_cmdSeq (f : Bank → Bank) (s : State) : (modBank c b f s).channels[c].cmdSeq = s.channels[c].cmdSeq := by
  unfold modBank
  rw [modChannel_self]

theorem modBank_actBudget (f : Bank → Bank) (s : State) :
    (modBank c b f s).channels[c].actBudget = s.channels[c].actBudget := by
  unfold modBank
  rw [modChannel_self]

/-! ### Precharges -/

theorem closeRow_of_closed (h : s.channels[c].banks[b].openRow = none) : closeRow c b s = s := if_pos h

/-- When a precharge may be issued, by the times of its bank and its channel (R157). -/
def closeTime (x : Channel) (b : Fin 16) : Nat :=
  maxOf [after x.banks[b].actAt 33, after x.banks[b].readAt 4, after x.banks[b].writeEnd 15, after x.wakeAt 0]

theorem closeRow_of_open (h : s.channels[c].banks[b].openRow ≠ none) : closeRow c b s = issueWord c (.pre b)
    (modBank c b (fun y => { y with openRow := none, preAt := some (max s.hubTimer (closeTime s.channels[c] b)) })
      (passTo (closeTime s.channels[c] b) s)) := if_neg h

theorem closeRow_still (c : Fin 32) (b : Fin 16) (s : State) :
    (closeRow c b s).dram = s.dram ∧ (closeRow c b s).ports = s.ports := by
  unfold closeRow
  dsimp only
  split <;> exact ⟨rfl, rfl⟩

/-- The bank that a precharge leaves: of an open row only the row and the time. -/
theorem closeRow_bank (c : Fin 32) (b : Fin 16) (s : State) : ∃ preAt, (closeRow c b s).channels[c].banks[b] =
    { s.channels[c].banks[b] with openRow := none, preAt := preAt } := by
  by_cases h : s.channels[c].banks[b].openRow = none
  · rw [closeRow_of_closed h]
    exact ⟨_, by rw [← h]⟩
  · rw [closeRow_of_open h, issueWord_banks, modBank_self]
    exact ⟨_, rfl⟩

theorem closeRow_other {k : Fin 16} (h : k ≠ b) (s : State) :
    (closeRow c b s).channels[c].banks[k] = s.channels[c].banks[k] := by
  by_cases ho : s.channels[c].banks[b].openRow = none
  · rw [closeRow_of_closed ho]
  · rw [closeRow_of_open ho, issueWord_banks, modBank_ne h]
    rfl

theorem closeRow_state (c : Fin 32) (b : Fin 16) (s : State) :
    (closeRow c b s).channels[c].state = s.channels[c].state := by
  by_cases ho : s.channels[c].banks[b].openRow = none
  · rw [closeRow_of_closed ho]
  · rw [closeRow_of_open ho, issueWord_state, modBank_state]
    rfl

/-- An open row closes no earlier than tRAS, tRTP and tWR allow. -/
theorem closeRow_times (h : s.channels[c].banks[b].openRow ≠ none) :
    (∀ a, s.channels[c].banks[b].actAt = some a → a + 33 ≤ (closeRow c b s).hubTimer) ∧
    (∀ a, s.channels[c].banks[b].readAt = some a → a + 4 ≤ (closeRow c b s).hubTimer) ∧
    (∀ a, s.channels[c].banks[b].writeEnd = some a → a + 15 ≤ (closeRow c b s).hubTimer) := by
  rw [closeRow_of_open h]
  have hle : closeTime s.channels[c] b ≤ (passTo (closeTime s.channels[c] b) s).hubTimer := Nat.le_max_right _ _
  refine ⟨fun a ha => le_trans (le_maxOf ?_) hle, fun a ha => le_trans (le_maxOf ?_) hle,
    fun a ha => le_trans (le_maxOf ?_) hle⟩ <;>
    simp only [ha, after, List.mem_cons, true_or, or_true]

/-! ### Refreshes -/

theorem noteForced_banks (c : Fin 32) (b : Fin 16) (s : State) :
    (noteForced c b s).channels[c].banks = s.channels[c].banks ∧
      (noteForced c b s).channels[c].state = s.channels[c].state := by
  unfold noteForced
  split
  · obtain ⟨_, _, _, h⟩ := raiseLimited_events 0x2010 3 c (fun n => [itCount n])
      (modChannel c (fun y => { y with forcedRefreshCount := sat32 y.forcedRefreshCount }) s)
    rw [h]
    dsimp only
    rw [modChannel_self]
    exact ⟨rfl, rfl⟩
  · exact ⟨rfl, rfl⟩

theorem noteForced_dram (c : Fin 32) (b : Fin 16) (s : State) : (noteForced c b s).dram = s.dram := by
  unfold noteForced
  split
  · obtain ⟨_, _, _, h⟩ := raiseLimited_events 0x2010 3 c (fun n => [itCount n])
      (modChannel c (fun y => { y with forcedRefreshCount := sat32 y.forcedRefreshCount }) s)
    rw [h]
    rfl
  · rfl

theorem noteForced_of_low (h : s.channels[c].banks[b].debt < 8) : noteForced c b s = s := if_neg (Nat.not_le.2 h)

/-- The channel ready for a refresh of its bank: awake, the bank's row closed. -/
def readied (c : Fin 32) (b : Fin 16) (s : State) : State := closeRow c b (wakePowerDown c (noteForced c b s))

/-- A refresh issued now. -/
def refreshed (c : Fin 32) (b : Fin 16) (s : State) : State :=
  let s := modBank c b (fun y => { y with
    debt := y.debt - 1, refRow := (y.refRow + 1) % 8200, refAt := some s.hubTimer }) s
  issueWord c (.refpb b) (modChannel c (fun y => { y with
    acts := (s.hubTimer :: y.acts).take 4, lastRef := some (s.hubTimer, b) }) s)

/-- A refresh readies its channel and is issued at a time that the bank's precharge allows. -/
theorem refreshNow_eq (c : Fin 32) (b : Fin 16) (s : State) : ∃ t,
    after (readied c b s).channels[c].banks[b].preAt 15 ≤ t ∧
    refreshNow c b s = refreshed c b (passTo (refreshSlot (readied c b s).channels[c] b t) (readied c b s)) := by
  unfold refreshNow readied
  generalize closeRow c b (wakePowerDown c (noteForced c b s)) = v
  exact ⟨_, le_maxOf (List.mem_cons_of_mem _ (List.mem_cons_of_mem _ List.mem_cons_self)), rfl⟩

theorem refreshed_bank (c : Fin 32) (b : Fin 16) (s : State) : (refreshed c b s).channels[c].banks[b] =
    { s.channels[c].banks[b] with
      debt := s.channels[c].banks[b].debt - 1
      refRow := (s.channels[c].banks[b].refRow + 1) % 8200, refAt := some s.hubTimer } := by
  unfold refreshed
  dsimp only
  rw [issueWord_banks, modChannel_self]
  dsimp only
  rw [modBank_self]

theorem refreshed_other {k : Fin 16} (h : k ≠ b) (s : State) :
    (refreshed c b s).channels[c].banks[k] = s.channels[c].banks[k] := by
  unfold refreshed
  dsimp only
  rw [issueWord_banks, modChannel_self]
  dsimp only
  rw [modBank_ne h]

theorem refreshed_state (c : Fin 32) (b : Fin 16) (s : State) :
    (refreshed c b s).channels[c].state = s.channels[c].state := by
  unfold refreshed
  dsimp only
  rw [issueWord_state, modChannel_self]
  dsimp only
  rw [modBank_state]

theorem refreshed_still (c : Fin 32) (b : Fin 16) (s : State) : (refreshed c b s).dram = s.dram ∧
    (refreshed c b s).ports = s.ports ∧ (refreshed c b s).hubTimer = s.hubTimer := ⟨rfl, rfl, rfl⟩

theorem readied_bank (c : Fin 32) (b : Fin 16) (s : State) : ∃ preAt, (readied c b s).channels[c].banks[b] =
    { s.channels[c].banks[b] with openRow := none, preAt := preAt } := by
  unfold readied
  obtain ⟨preAt, h⟩ := closeRow_bank c b (wakePowerDown c (noteForced c b s))
  rw [wakePowerDown_banks, (noteForced_banks c b s).1] at h
  exact ⟨preAt, h⟩

theorem readied_other {k : Fin 16} (h : k ≠ b) (s : State) :
    (readied c b s).channels[c].banks[k] = s.channels[c].banks[k] := by
  unfold readied
  rw [closeRow_other h, wakePowerDown_banks, (noteForced_banks c b s).1]

/-- What a refresh leaves of its bank: its row closed, its debt paid by one, its pointer moved on, its time noted. -/
theorem refreshNow_bank (c : Fin 32) (b : Fin 16) (s : State) : ∃ preAt, (refreshNow c b s).channels[c].banks[b] =
    { s.channels[c].banks[b] with
      openRow := none, preAt := preAt, debt := s.channels[c].banks[b].debt - 1
      refRow := (s.channels[c].banks[b].refRow + 1) % 8200, refAt := some (refreshNow c b s).hubTimer } := by
  obtain ⟨preAt, h⟩ := readied_bank c b s
  obtain ⟨t, -, ht⟩ := refreshNow_eq c b s
  rw [ht, refreshed_bank, (refreshed_still c b _).2.2]
  generalize readied c b s = v at h
  refine ⟨preAt, ?_⟩
  rw [passTo_channels, h]

theorem refreshNow_other {k : Fin 16} (h : k ≠ b) (s : State) :
    (refreshNow c b s).channels[c].banks[k] = s.channels[c].banks[k] := by
  obtain ⟨t, -, ht⟩ := refreshNow_eq c b s
  rw [ht, refreshed_other h, passTo_channels, readied_other h]

theorem refreshNow_state (c : Fin 32) (b : Fin 16) (s : State) : (refreshNow c b s).channels[c].state =
    (wakePowerDown c (noteForced c b s)).channels[c].state := by
  obtain ⟨t, -, ht⟩ := refreshNow_eq c b s
  rw [ht, refreshed_state, passTo_channels, readied, closeRow_state]

theorem readied_dram (c : Fin 32) (b : Fin 16) (s : State) : (readied c b s).dram = s.dram := by
  rw [readied, (closeRow_still c b _).1, (wakePowerDown_still c _).1, noteForced_dram]

theorem readied_ports (h : s.channels[c].banks[b].debt < 8) : (readied c b s).ports = s.ports := by
  rw [readied, (closeRow_still c b _).2, (wakePowerDown_still c _).2.1, noteForced_of_low h]

theorem refreshNow_dram (c : Fin 32) (b : Fin 16) (s : State) : (refreshNow c b s).dram = s.dram := by
  obtain ⟨t, -, ht⟩ := refreshNow_eq c b s
  rw [ht, (refreshed_still c b _).1, passTo_dram, readied_dram]

theorem refreshNow_ports (h : s.channels[c].banks[b].debt < 8) : (refreshNow c b s).ports = s.ports := by
  obtain ⟨t, -, ht⟩ := refreshNow_eq c b s
  rw [ht, (refreshed_still c b _).2.1, passTo_ports, readied_ports h]

/-- A refresh of a bank precharged before it comes tRP after that. -/
theorem refreshNow_after_precharge {a : Nat} (ho : s.channels[c].banks[b].openRow = none)
    (ha : s.channels[c].banks[b].preAt = some a) : a + 15 ≤ (refreshNow c b s).hubTimer := by
  have hv : (readied c b s).channels[c].banks[b].preAt = some a := by
    have ho' : (wakePowerDown c (noteForced c b s)).channels[c].banks[b].openRow = none := by
      rw [wakePowerDown_banks, (noteForced_banks c b s).1]
      exact ho
    unfold readied
    rw [closeRow_of_closed ho', wakePowerDown_banks, (noteForced_banks c b s).1]
    exact ha
  obtain ⟨t, hle, ht⟩ := refreshNow_eq c b s
  rw [hv] at hle
  rw [ht, (refreshed_still c b _).2.2, passTo_hubTimer]
  exact hle.trans ((le_refreshSlot _ b t).trans (Nat.le_max_right _ _))

/-! ### Activations -/

/-- A second count in the same window adds nothing. -/
theorem creditChannel_idem (now : Nat) (x : Channel) : creditChannel now (creditChannel now x) = creditChannel now x := by
  have hn : now / 64 - (creditChannel now x).windowAt = 0 := by
    unfold creditChannel
    dsimp only
    omega
  generalize creditChannel now x = y at hn
  simp only [creditChannel, hn, if_true, Nat.add_zero]

theorem creditChannel_keeps_budget {now : Nat} {x : Channel} (h : 100 ≤ x.actBudget) :
    100 ≤ (creditChannel now x).actBudget := by
  simp only [creditChannel]
  split <;> omega

/-- The moment from which the budget allows an activation. -/
def spendTime (s : State) (c : Fin 32) : Nat :=
  let x := creditChannel s.hubTimer s.channels[c]
  budgetTime s x x.actBudget (16 * x.scalePct)

/-- The windows counted, and the time passed to when the budget allows an activation. -/
def credited (c : Fin 32) (s : State) : State := passTo (spendTime s c) (creditWindows c s)

theorem credited_channel (c : Fin 32) (s : State) :
    (credited c s).channels[c] = creditChannel s.hubTimer s.channels[c] := by
  unfold credited creditWindows
  rw [passTo_channels, modChannel_self]

theorem spendAct_eq (c : Fin 32) (s : State) : spendAct c s =
    modChannel c (fun y => { y with actBudget := y.actBudget - 100 }) (creditWindows c (credited c s)) := by
  unfold spendAct credited spendTime creditWindows
  dsimp only
  rw [modChannel_self]
  rfl

theorem spendAct_channel (c : Fin 32) (s : State) : (spendAct c s).channels[c] =
    (let y := creditChannel (max s.hubTimer (spendTime s c)) (creditChannel s.hubTimer s.channels[c])
     { y with actBudget := y.actBudget - 100 }) := by
  have ht : (credited c s).hubTimer = max s.hubTimer (spendTime s c) := rfl
  rw [spendAct_eq, modChannel_self]
  unfold creditWindows
  rw [modChannel_self, credited_channel, ht]

/-- What a charge on the budget leaves of the rest of the channel. -/
theorem spendAct_rest (c : Fin 32) (s : State) : ∃ windowAt actBudget colBudget, (spendAct c s).channels[c] =
    { s.channels[c] with windowAt := windowAt, actBudget := actBudget, colBudget := colBudget } := by
  rw [spendAct_channel]
  generalize s.channels[c] = x
  exact ⟨_, _, _, rfl⟩

theorem spendAct_budget (h : 100 ≤ s.channels[c].actBudget) :
    (spendAct c s).channels[c].actBudget = (creditChannel s.hubTimer s.channels[c]).actBudget - 100 := by
  have ht : spendTime s c = s.hubTimer := if_pos (Or.inl (creditChannel_keeps_budget h))
  rw [spendAct_channel, ht, Nat.max_self, creditChannel_idem]

/-- When an activation may be issued, by the times of its bank and its channel (R157). -/
def actTime (x : Channel) (b : Fin 16) : Nat :=
  maxOf [after x.banks[b].actAt 48, after x.banks[b].preAt 15, after x.banks[b].refAt 120, afterGroup x.lastAct b 4 2,
    afterFour x.acts, after x.wakeAt 0]

/-- An activation issued now. -/
def activated (c : Fin 32) (b : Fin 16) (row : Nat) (s : State) : State :=
  let s := modBank c b (fun y => { y with openRow := some row, hitStreak := 0, actAt := some s.hubTimer }) s
  issueWord c (.act b row) (modChannel c (fun y => { y with
    acts := (s.hubTimer :: y.acts).take 4, lastAct := some (s.hubTimer, b), idleSince := s.hubTimer }) s)

theorem actRow_eq (c : Fin 32) (b : Fin 16) (row : Nat) (s : State) : actRow c b row s =
    activated c b row (passTo (actTime (spendAct c s).channels[c] b) (spendAct c s)) := by
  unfold actRow
  generalize spendAct c s = v
  rfl

theorem activated_bank (row : Nat) (s : State) : (activated c b row s).channels[c].banks[b] =
    { s.channels[c].banks[b] with openRow := some row, hitStreak := 0, actAt := some s.hubTimer } := by
  unfold activated
  dsimp only
  rw [issueWord_banks, modChannel_self]
  dsimp only
  rw [modBank_self]

theorem activated_other {k : Fin 16} (h : k ≠ b) (row : Nat) (s : State) :
    (activated c b row s).channels[c].banks[k] = s.channels[c].banks[k] := by
  unfold activated
  dsimp only
  rw [issueWord_banks, modChannel_self]
  dsimp only
  rw [modBank_ne h]

theorem activated_rest (c : Fin 32) (b : Fin 16) (row : Nat) (s : State) :
    (activated c b row s).channels[c].state = s.channels[c].state ∧
      (activated c b row s).channels[c].cmdSeq = s.channels[c].cmdSeq + 1 ∧
      (activated c b row s).channels[c].actBudget = s.channels[c].actBudget := by
  unfold activated
  dsimp only
  rw [issueWord_state, issueWord_cmdSeq, issueWord_actBudget, modChannel_self]
  dsimp only
  rw [modBank_state, modBank_cmdSeq, modBank_actBudget]
  exact ⟨rfl, rfl, rfl⟩

theorem actRow_bank (row : Nat) (s : State) : ∃ actAt, (actRow c b row s).channels[c].banks[b] =
    { s.channels[c].banks[b] with openRow := some row, hitStreak := 0, actAt := actAt } := by
  obtain ⟨_, _, _, h⟩ := spendAct_rest c s
  rw [actRow_eq, activated_bank]
  have hb : (spendAct c s).channels[c].banks = s.channels[c].banks := by rw [h]
  exact ⟨_, by rw [passTo_channels, hb]⟩

theorem actRow_other {k : Fin 16} (h : k ≠ b) (row : Nat) (s : State) :
    (actRow c b row s).channels[c].banks[k] = s.channels[c].banks[k] := by
  obtain ⟨_, _, _, hv⟩ := spendAct_rest c s
  have hb : (spendAct c s).channels[c].banks = s.channels[c].banks := by rw [hv]
  rw [actRow_eq, activated_other h, passTo_channels, hb]

theorem actRow_rest (c : Fin 32) (b : Fin 16) (row : Nat) (s : State) :
    (actRow c b row s).channels[c].state = s.channels[c].state ∧
      (actRow c b row s).channels[c].cmdSeq = s.channels[c].cmdSeq + 1 ∧
      (actRow c b row s).channels[c].actBudget = (spendAct c s).channels[c].actBudget := by
  obtain ⟨_, _, _, hv⟩ := spendAct_rest c s
  obtain ⟨h1, h2, h3⟩ := activated_rest c b row (passTo (actTime (spendAct c s).channels[c] b) (spendAct c s))
  have hs : (spendAct c s).channels[c].state = s.channels[c].state := by rw [hv]
  have hq : (spendAct c s).channels[c].cmdSeq = s.channels[c].cmdSeq := by rw [hv]
  rw [passTo_channels] at h1 h2 h3
  rw [actRow_eq, h1, h2, h3, hs, hq]
  exact ⟨rfl, rfl, rfl⟩

theorem actRow_still (c : Fin 32) (b : Fin 16) (row : Nat) (s : State) :
    (actRow c b row s).dram = s.dram ∧ (actRow c b row s).ports = s.ports := ⟨rfl, rfl⟩

theorem actTime_le (c : Fin 32) (b : Fin 16) (row : Nat) (s : State) :
    actTime s.channels[c] b ≤ (actRow c b row s).hubTimer := by
  obtain ⟨_, _, _, hv⟩ := spendAct_rest c s
  have ht : actTime (spendAct c s).channels[c] b = actTime s.channels[c] b := by
    rw [hv]
    rfl
  rw [actRow_eq, ← ht]
  exact Nat.le_max_right _ _

end

/-! ### ACT -/

section
variable {c : Fin 32} {b : Fin 16} {row : Nat} {s : State}

/-- The channel of an activation before it: its trigger noted, awake, and its bank refreshed where that comes first. -/
def woken (c : Fin 32) (s : State) : State := wakePowerDown c (noteTrigger c s)

theorem noteTrigger_channel (c : Fin 32) (s : State) : ∃ fallbackAt, (noteTrigger c s).channels[c] =
    { s.channels[c] with fallbackAt := fallbackAt } := by
  unfold noteTrigger
  split
  · exact ⟨_, modChannel_self _ _ _⟩
  · exact ⟨_, rfl⟩

theorem noteTrigger_still (c : Fin 32) (s : State) : (noteTrigger c s).dram = s.dram ∧
    (noteTrigger c s).ports = s.ports ∧ (noteTrigger c s).hubTimer = s.hubTimer ∧
    ∀ d : Fin 32, d ≠ c → (noteTrigger c s).channels[d] = s.channels[d] := by
  unfold noteTrigger
  split
  · exact ⟨rfl, rfl, rfl, fun d hd => modChannel_other c _ d hd s⟩
  · exact ⟨rfl, rfl, rfl, fun _ _ => rfl⟩

theorem woken_channel (c : Fin 32) (s : State) : ∃ state wakeAt fallbackAt, (woken c s).channels[c] =
    { s.channels[c] with state := state, wakeAt := wakeAt, fallbackAt := fallbackAt } := by
  obtain ⟨state, wakeAt, h⟩ := wakePowerDown_channel c (noteTrigger c s)
  obtain ⟨fallbackAt, h'⟩ := noteTrigger_channel c s
  refine ⟨state, wakeAt, fallbackAt, ?_⟩
  unfold woken
  rw [h, h']

theorem channelIssues_noteTrigger (c : Fin 32) (s : State) : channelIssues (noteTrigger c s) c = channelIssues s c := by
  obtain ⟨_, h⟩ := noteTrigger_channel c s
  have hs : (noteTrigger c s).channels[c].state = s.channels[c].state := by rw [h]
  unfold channelIssues
  dsimp only
  rw [hs]
  generalize s.channels[c].state = x
  unfold noteTrigger
  split <;> rfl

theorem woken_state (h : channelIssues s c = true) : (woken c s).channels[c].state = .active :=
  wakePowerDown_state ((channelIssues_noteTrigger c s).trans h)

theorem woken_still (c : Fin 32) (s : State) : (woken c s).dram = s.dram ∧ (woken c s).ports = s.ports ∧
    (woken c s).hubTimer = s.hubTimer ∧ ∀ d : Fin 32, d ≠ c → (woken c s).channels[d] = s.channels[d] := by
  obtain ⟨h1, h2, h3⟩ := wakePowerDown_still c (noteTrigger c s)
  obtain ⟨n1, n2, n3, n4⟩ := noteTrigger_still c s
  exact ⟨h1.trans n1, h2.trans n2, h3.trans n3, fun d hd =>
    ((wakePowerDown_worked c _).other hd).trans (n4 d hd)⟩

theorem woken_wakeAt (h : s.channels[c].state = .powerDown) :
    (woken c s).channels[c].wakeAt = some (s.hubTimer + 10) := by
  obtain ⟨_, hc⟩ := noteTrigger_channel c s
  have hs : (noteTrigger c s).channels[c].state = .powerDown := by
    rw [hc]
    exact h
  unfold woken
  rw [wakePowerDown_wakeAt hs, (noteTrigger_still c s).2.2.1]

/-- The state that an activation finds. -/
def due (c : Fin 32) (b : Fin 16) (s : State) : State :=
  if refreshFirst s.channels[c] b then refreshNow c b (woken c s) else woken c s

theorem activate_of_fits (hc : channelIssues s c = true) (ho : s.channels[c].banks[b].openRow = none)
    (ha : actFits s c = true) : activate c b row s = actRow c b row (due c b s) := by
  obtain ⟨_, _, _, hw⟩ := woken_channel c s
  have hb : (woken c s).channels[c].banks[b].openRow = none := by
    rw [hw]
    exact ho
  have hr : refreshFirst (woken c s).channels[c] b = refreshFirst s.channels[c] b := by
    rw [hw]
    rfl
  have hwk : wakePowerDown c (noteTrigger c s) = woken c s := rfl
  simp only [activate, hc, ho, ha, and_self, if_true, openBank, hwk, hb, closeRow_of_closed hb, hr, reduceCtorEq, if_false,
    due]

theorem due_of_refresh (h : refreshFirst s.channels[c] b = true) : due c b s = refreshNow c b (woken c s) := if_pos h

theorem due_of_no_refresh (h : ¬ refreshFirst s.channels[c] b = true) : due c b s = woken c s := if_neg h

theorem woken_banks (c : Fin 32) (s : State) : (woken c s).channels[c].banks = s.channels[c].banks := by
  obtain ⟨_, _, _, hw⟩ := woken_channel c s
  rw [hw]

theorem due_other {k : Fin 16} (h : k ≠ b) (s : State) : (due c b s).channels[c].banks[k] = s.channels[c].banks[k] := by
  by_cases hr : refreshFirst s.channels[c] b = true
  · rw [due_of_refresh hr, refreshNow_other h, woken_banks]
  · rw [due_of_no_refresh hr, woken_banks]

theorem due_debt (h : refreshFirst s.channels[c] b = true) :
    (due c b s).channels[c].banks[b].debt = s.channels[c].banks[b].debt - 1 := by
  obtain ⟨_, hk⟩ := refreshNow_bank c b (woken c s)
  rw [due_of_refresh h, hk, woken_banks]

theorem due_state (h : channelIssues s c = true) : (due c b s).channels[c].state = .active := by
  have hw := woken_state h
  unfold due
  split
  · rw [refreshNow_state]
    exact ((noteForced_worked c b (woken c s)).trans (wakePowerDown_worked c _)).channel.2.1.active hw
  · exact hw

theorem due_still (c : Fin 32) (b : Fin 16) (s : State) : (due c b s).dram = s.dram ∧
    (s.channels[c].banks[b].debt < 8 → (due c b s).ports = s.ports) ∧ s.hubTimer ≤ (due c b s).hubTimer ∧
    ∀ d : Fin 32, d ≠ c → (due c b s).channels[d] = s.channels[d] := by
  obtain ⟨h1, h2, h3, h4⟩ := woken_still c s
  by_cases hr : refreshFirst s.channels[c] b = true
  · rw [due_of_refresh hr]
    have hd := refreshNow_worked c b (woken c s)
    refine ⟨(refreshNow_dram c b _).trans h1, fun hlow => ?_, ?_, fun d hd' => (hd.other hd').trans (h4 d hd')⟩
    · rw [← woken_banks c s] at hlow
      exact (refreshNow_ports hlow).trans h2
    · rw [← h3]
      exact hd.1
  · rw [due_of_no_refresh hr]
    exact ⟨h1, fun _ => h2, h3.ge, h4⟩

theorem exec_act {row : Fin 65600} (hc : channelIssues s c = true) (ho : s.channels[c].banks[b].openRow = none)
    (ha : actFits s c = true) : exec (.act c b row) s = .next (actRow c b row (due c b s)) :=
  congrArg Host.Outcome.next (activate_of_fits hc ho ha)

theorem woken_times (c : Fin 32) (b : Fin 16) (s : State) :
    (∀ a, s.channels[c].banks[b].actAt = some a → a + 48 ≤ actTime (woken c s).channels[c] b) ∧
    (∀ a, s.channels[c].banks[b].preAt = some a → a + 15 ≤ actTime (woken c s).channels[c] b) ∧
    (∀ a, s.channels[c].banks[b].refAt = some a → a + 120 ≤ actTime (woken c s).channels[c] b) ∧
    (∀ a k, s.channels[c].lastAct = some (a, k) →
      a + (if k.val % 4 = b.val % 4 then 4 else 2) ≤ actTime (woken c s).channels[c] b) ∧
    (∀ a, s.channels[c].acts[3]? = some a → a + 16 ≤ actTime (woken c s).channels[c] b) ∧
    (s.channels[c].state = .powerDown → s.hubTimer + 10 ≤ actTime (woken c s).channels[c] b) := by
  obtain ⟨_, _, _, hw⟩ := woken_channel c s
  have hb := woken_banks c s
  have hl : (woken c s).channels[c].lastAct = s.channels[c].lastAct := by rw [hw]
  have hf : (woken c s).channels[c].acts = s.channels[c].acts := by rw [hw]
  refine ⟨fun a h => le_maxOf ?_, fun a h => le_maxOf ?_, fun a h => le_maxOf ?_, fun a k h => le_maxOf ?_,
    fun a h => le_maxOf ?_, fun h => le_maxOf ?_⟩
  · simp only [hb, h, after, List.mem_cons, true_or, or_true]
  · simp only [hb, h, after, List.mem_cons, true_or, or_true]
  · simp only [hb, h, after, List.mem_cons, true_or, or_true]
  · simp only [hl, h, afterGroup, List.mem_cons, true_or, or_true]
  · simp only [hf, h, afterFour, List.mem_cons, true_or, or_true]
  · simp only [woken_wakeAt h, after, List.mem_cons, true_or, or_true, Nat.add_zero]

theorem act_moves {row : Fin 65600} (hc : channelIssues s c = true) (ho : s.channels[c].banks[b].openRow = none)
    (ha : actFits s c = true) : ∃ t, exec (.act c b row) s = .next t ∧
      t.channels[c].banks[b].openRow = some row.val ∧ t.channels[c].state = .active ∧ s.hubTimer ≤ t.hubTimer ∧
      t.dram = s.dram ∧ (s.channels[c].banks[b].debt < 8 → t.ports = s.ports) ∧
      (∀ k : Fin 16, k ≠ b → t.channels[c].banks[k] = s.channels[c].banks[k]) ∧
      (refreshFirst s.channels[c] b = true → t.channels[c].banks[b].debt = s.channels[c].banks[b].debt - 1) ∧
      ∀ d : Fin 32, d ≠ c → t.channels[d] = s.channels[d] := by
  have hs := due_state (b := b) hc
  have hd : refreshFirst s.channels[c] b = true → _ := due_debt
  have hk : ∀ k, k ≠ b → _ := fun k h => due_other (c := c) (s := s) h
  obtain ⟨hdram, hports, htime, hothers⟩ := due_still c b s
  refine ⟨_, exec_act hc ho ha, ?_⟩
  generalize due c b s = u at *
  obtain ⟨_, hbank⟩ := actRow_bank (c := c) (b := b) row u
  obtain ⟨hdram', hports'⟩ := actRow_still c b row u
  have hw := actRow_worked c b u row
  refine ⟨by rw [hbank], (actRow_rest c b row u).1.trans hs, htime.trans hw.1, hdram'.trans hdram,
    fun h => hports'.trans (hports h), fun k h => (actRow_other h row u).trans (hk k h), fun h => ?_,
    fun d h => (hw.other h).trans (hothers d h)⟩
  rw [hbank]
  exact hd h

theorem act_timed {row : Fin 65600} (hc : channelIssues s c = true) (ho : s.channels[c].banks[b].openRow = none)
    (hb : 100 ≤ s.channels[c].actBudget) (hr : refreshFirst s.channels[c] b = false) :
    ∃ t, exec (.act c b row) s = .next t ∧ actTime (woken c s).channels[c] b ≤ t.hubTimer ∧
      t.channels[c].actBudget = (creditChannel s.hubTimer s.channels[c]).actBudget - 100 ∧
      t.channels[c].cmdSeq = s.channels[c].cmdSeq + 1 := by
  have ha : actFits s c = true := by simp only [actFits, hb, decide_true, Bool.true_or]
  obtain ⟨_, _, _, hw⟩ := woken_channel c s
  have hq : (woken c s).channels[c].cmdSeq = s.channels[c].cmdSeq := by rw [hw]
  have hbud : (woken c s).channels[c].actBudget = s.channels[c].actBudget := by rw [hw]
  have hcr : (creditChannel s.hubTimer (woken c s).channels[c]).actBudget =
      (creditChannel s.hubTimer s.channels[c]).actBudget := by
    rw [hw]
    rfl
  obtain ⟨-, hseq, hact⟩ := actRow_rest c b row (woken c s)
  have hx := exec_act (row := row) hc ho ha
  rw [due_of_no_refresh (by rw [hr]; decide)] at hx
  refine ⟨_, hx, actTime_le c b row _, ?_, hseq.trans (by rw [hq])⟩
  rw [hact, spendAct_budget (by rw [hbud]; exact hb), (woken_still c s).2.2.1, hcr]

/-! ### NOP words -/

/-- A NOP word issued once the channel is awake. -/
def nopIssued (c : Fin 32) (s : State) : State :=
  issueWord c .nop (passTo (max ((wakePowerDown c s).hubTimer + 1) (after (wakePowerDown c s).channels[c].wakeAt 0))
    (wakePowerDown c s))

theorem nopIssued_moves (c : Fin 32) (s : State) :
    (nopIssued c s).channels[c].cmdSeq = s.channels[c].cmdSeq + 1 ∧
    (nopIssued c s).hubTimer = max (s.hubTimer + 1) (after (wakePowerDown c s).channels[c].wakeAt 0) ∧
    (nopIssued c s).channels[c].banks = s.channels[c].banks ∧ (nopIssued c s).dram = s.dram := by
  obtain ⟨hd, -, ht⟩ := wakePowerDown_still c s
  obtain ⟨_, _, hw⟩ := wakePowerDown_channel c s
  have hq : (wakePowerDown c s).channels[c].cmdSeq = s.channels[c].cmdSeq := by rw [hw]
  unfold nopIssued
  rw [issueWord_cmdSeq, issueWord_banks, (issueWord_still c _ _).1, (issueWord_still c _ _).2.2, passTo_channels,
    passTo_hubTimer, passTo_dram, wakePowerDown_banks, hq, ht, hd]
  exact ⟨rfl, by omega, rfl, rfl⟩

end

/-- Settles O25. -/
theorem banksOpenCloseAndRefresh : Obligations.BanksOpenCloseAndRefresh := by
  refine ⟨fun c b row s hc ho => ⟨act_moves hc ho, fun hb hr => ?_⟩, fun c b s hc => ⟨fun h => ?_, fun h => ?_, fun h => ?_,
    fun h => ?_⟩⟩
  · obtain ⟨t, hx, ht, hbud, hseq⟩ := act_timed hc ho hb hr
    obtain ⟨h1, h2, h3, h4, h5, h6⟩ := woken_times c b s
    exact ⟨t, hx, hbud, fun a h => (h1 a h).trans ht, fun a h => (h2 a h).trans ht, fun a h => (h3 a h).trans ht,
      fun a k h => (h4 a k h).trans ht, fun a h => (h5 a h).trans ht, fun h => (h6 h).trans ht, hseq⟩
  · have ho : s.channels[c].banks[b].openRow ≠ none := by
      intro hn
      simp only [closeDue, hn] at h
      exact absurd h (by decide)
    obtain ⟨h1, h2, h3⟩ := closeRow_times ho
    obtain ⟨_, hk⟩ := closeRow_bank c b s
    exact ⟨_, congrArg Host.Outcome.next (if_pos ⟨hc, h⟩), by rw [hk], h1, h2, h3, (closeRow_still c b s).1,
      fun d hd => (closeRow_worked c b s).other hd⟩
  · obtain ⟨_, hk⟩ := refreshNow_bank c b s
    exact ⟨_, congrArg Host.Outcome.next (if_pos ⟨hc, h⟩), by rw [hk], by rw [hk], by rw [hk], by rw [hk],
      fun ho a ha => refreshNow_after_precharge ho ha, refreshNow_dram c b s,
      fun d hd => (refreshNow_worked c b s).other hd⟩
  · exact ⟨nopIssued c s, congrArg (fun t => Host.Outcome.next (serveReady t)) (if_pos ⟨hc, h⟩), nopIssued_moves c s⟩
  · refine congrArg (fun t => Host.Outcome.next (serveReady t)) (if_neg fun hn => ?_)
    rw [h] at hn
    exact absurd hn.2 (by decide)

end Sys2Proof.RowCommands
end

section
/-! PROOFS. Refresh debts, budgets, fallback, retries and the sleep of a channel (O29). -/

namespace Sys2Proof.ChannelSchedule

open Sys2Proof Sys2Proof.Machine Sys2Proof.Laws Sys2Proof.Safety Sys2Proof.ChannelWork Sys2Proof.RowCommands

section
variable {c : Fin 32} {b : Fin 16} {s t : State}

/-! ### Memory and the lines of a channel that worked -/

theorem openBank_dram (pl : Place) (s : State) : (openBank pl s).dram = s.dram := by
  have hw := (wakePowerDown_still pl.channel s).1
  unfold openBank
  dsimp only
  generalize wakePowerDown pl.channel s = u at *
  split
  · exact hw
  rw [(actRow_still _ _ _ _).1, ← hw, ← (closeRow_still pl.channel pl.bank u).1]
  generalize closeRow pl.channel pl.bank u = v
  split
  · exact refreshNow_dram _ _ v
  · rfl

theorem readBurst_dram (pl : Place) (s : State) : (readBurst pl s).dram = s.dram := rfl

theorem touchBank_dram (pl : Place) (s : State) : (touchBank pl s).dram = s.dram :=
  (readBurst_dram pl _).trans (openBank_dram pl s)

theorem touchBank_worked (pl : Place) (s : State) : Worked pl.channel s (touchBank pl s) :=
  (openBank_worked pl s).trans (readBurst_worked pl _)

/-- Work that leaves memory leaves the stored line of a place. -/
theorem storedLine_of_worked {pl : Place} (h : Worked pl.channel s t) (hd : t.dram = s.dram) :
    storedLine t pl = storedLine s pl := by
  have hr : t.channels[pl.channel].banks[pl.bank].remap = s.channels[pl.channel].banks[pl.bank].remap :=
    (h.channel.2.2 pl.bank).remap
  unfold storedLine codedAddr layerRow
  rw [hr, hd]

theorem erasureSet_of_worked {pl : Place} (h : Worked pl.channel s t) : erasureSet t pl = erasureSet s pl := by
  unfold erasureSet
  rw [h.channel.vertical]

/-! ### Refresh debts -/

theorem refreshed_forced (c : Fin 32) (b : Fin 16) (s : State) :
    (refreshed c b s).channels[c].forcedRefreshCount = s.channels[c].forcedRefreshCount := by
  unfold refreshed issueWord modBank
  dsimp only
  rw [modChannel_self, modChannel_self, modChannel_self]

theorem closeRow_forced (c : Fin 32) (b : Fin 16) (s : State) :
    (closeRow c b s).channels[c].forcedRefreshCount = s.channels[c].forcedRefreshCount := by
  by_cases h : s.channels[c].banks[b].openRow = none
  · rw [closeRow_of_closed h]
  · rw [closeRow_of_open h]
    unfold issueWord modBank
    rw [modChannel_self, modChannel_self, passTo_channels]

theorem noteForced_of_due (h : 8 ≤ s.channels[c].banks[b].debt) :
    (noteForced c b s).channels[c].forcedRefreshCount = sat32 s.channels[c].forcedRefreshCount := by
  unfold noteForced
  rw [if_pos h]
  obtain ⟨_, _, _, hr⟩ := raiseLimited_events 0x2010 3 c (fun n => [itCount n])
    (modChannel c (fun y => { y with forcedRefreshCount := sat32 y.forcedRefreshCount }) s)
  rw [hr]
  dsimp only
  rw [modChannel_self]

theorem refreshNow_forced (h : 8 ≤ s.channels[c].banks[b].debt) :
    (refreshNow c b s).channels[c].forcedRefreshCount = sat32 s.channels[c].forcedRefreshCount := by
  have hw : (wakePowerDown c (noteForced c b s)).channels[c].forcedRefreshCount =
      (noteForced c b s).channels[c].forcedRefreshCount := by
    obtain ⟨_, _, hc⟩ := wakePowerDown_channel c (noteForced c b s)
    rw [hc]
  obtain ⟨t, -, ht⟩ := refreshNow_eq c b s
  rw [ht, refreshed_forced, passTo_channels, readied, closeRow_forced, hw, noteForced_of_due h]

/-- The bank's debt one higher, and the peak with it. -/
def owed (c : Fin 32) (b : Fin 16) (d : Nat) (s : State) : State :=
  modChannel c (fun y => { y with debtPeak := max y.debtPeak d }) (modBank c b (fun y => { y with debt := d }) s)

theorem owed_moves (c : Fin 32) (b : Fin 16) (d : Nat) (s : State) :
    (owed c b d s).channels[c].banks[b].debt = d ∧
    (owed c b d s).channels[c].debtPeak = max s.channels[c].debtPeak d ∧
    (owed c b d s).channels[c].forcedRefreshCount = s.channels[c].forcedRefreshCount := by
  have hb := modBank_self c b (fun y => { y with debt := d }) s
  have hp : (modBank c b (fun y => { y with debt := d }) s).channels[c].debtPeak = s.channels[c].debtPeak ∧
      (modBank c b (fun y => { y with debt := d }) s).channels[c].forcedRefreshCount =
        s.channels[c].forcedRefreshCount := by
    unfold modBank
    rw [modChannel_self]
    exact ⟨rfl, rfl⟩
  unfold owed
  rw [modChannel_self]
  dsimp only
  rw [hb, hp.1, hp.2]
  exact ⟨rfl, rfl, rfl⟩

theorem owed_issues (c : Fin 32) (b : Fin 16) (d : Nat) (s : State) :
    channelIssues (owed c b d s) c = channelIssues s c := by
  have hs : (owed c b d s).channels[c].state = s.channels[c].state := by
    unfold owed
    rw [modChannel_self]
    dsimp only
    rw [modBank_state]
  unfold channelIssues
  dsimp only
  rw [hs]
  rfl

theorem state_of_issues (h : channelIssues s c = true) :
    quarterOut s (Fin.ofNat 4 (c.val / 8)) = false ∧
      (s.channels[c].state = .active ∨ s.channels[c].state = .powerDown) := by
  unfold channelIssues at h
  simp only [Bool.and_eq_true, Bool.or_eq_true, decide_eq_true_eq, Bool.not_eq_true'] at h
  obtain ⟨⟨⟨⟨-, hq⟩, -⟩, -⟩, hs⟩ := h
  exact ⟨hq, hs⟩

/-- A channel that serves its banks counts a debt; it refreshes where it may issue and the debt is full or it sleeps. -/
theorem refreshTimer_eq (hq : quarterOut s (Fin.ofNat 4 (c.val / 8)) = false)
    (hs : s.channels[c].state = .active ∨ s.channels[c].state = .powerDown) : refreshTimer c b s =
    (let d := min 8 (s.channels[c].banks[b].debt + 1)
     if !channelIssues s c then owed c b d s
     else if s.channels[c].state = .powerDown then
       modChannel c (fun y => { y with state := .powerDown }) (refreshNow c b (owed c b d s))
     else if d = 8 then refreshNow c b (owed c b d s)
     else owed c b d s) := by
  have hn : ¬ (s.channels[c].state = .selfRefresh ∨ s.channels[c].state = .retired ∨
      quarterOut s (Fin.ofNat 4 (c.val / 8)) = true) := by
    rw [hq]
    obtain h | h := hs <;> rw [h] <;> decide
  unfold refreshTimer
  dsimp only
  rw [if_neg hn]
  have hi := owed_issues c b (min 8 (s.channels[c].banks[b].debt + 1)) s
  unfold owed at hi ⊢
  rw [hi]

theorem refreshTimer_low (hq : quarterOut s (Fin.ofNat 4 (c.val / 8)) = false) (hs : s.channels[c].state = .active)
    (hd : s.channels[c].banks[b].debt < 7) :
    refreshTimer c b s = owed c b (s.channels[c].banks[b].debt + 1) s := by
  have hm : min 8 (s.channels[c].banks[b].debt + 1) = s.channels[c].banks[b].debt + 1 := by omega
  have h8 : ¬ s.channels[c].banks[b].debt + 1 = 8 := by omega
  have hp : ¬ s.channels[c].state = .powerDown := by
    rw [hs]
    decide
  rw [refreshTimer_eq hq (.inl hs)]
  dsimp only
  rw [hm, if_neg hp, if_neg h8, ite_self]

/-- The refresh of a full debt: its bank closed, seven left to pay, the peak and the forced refresh counted. -/
theorem refreshNow_owed (c : Fin 32) (b : Fin 16) (s : State) :
    let t := refreshNow c b (owed c b 8 s)
    t.channels[c].banks[b].debt = 7 ∧ t.channels[c].banks[b].openRow = none ∧
      t.channels[c].debtPeak = max s.channels[c].debtPeak 8 ∧
      t.channels[c].forcedRefreshCount = sat32 s.channels[c].forcedRefreshCount ∧ t.dram = s.dram := by
  obtain ⟨hd, hp, hf⟩ := owed_moves c b 8 s
  have hdr : (owed c b 8 s).dram = s.dram := rfl
  generalize owed c b 8 s = u at *
  obtain ⟨_, hk⟩ := refreshNow_bank c b u
  refine ⟨?_, ?_, ?_, ?_, (refreshNow_dram c b u).trans hdr⟩
  · rw [hk, hd]
  · rw [hk]
  · rw [(refreshNow_worked c b u).channel.debtPeak, hp]
  · rw [refreshNow_forced hd.ge, hf]

theorem refreshTimer_full (hc : channelIssues s c = true) (hd : 7 ≤ s.channels[c].banks[b].debt) :
    (refreshTimer c b s).channels[c].banks[b].debt = 7 ∧ (refreshTimer c b s).channels[c].banks[b].openRow = none ∧
      (refreshTimer c b s).channels[c].debtPeak = max s.channels[c].debtPeak 8 ∧
      (refreshTimer c b s).channels[c].forcedRefreshCount = sat32 s.channels[c].forcedRefreshCount ∧
      (refreshTimer c b s).dram = s.dram := by
  obtain ⟨hq, hs⟩ := state_of_issues hc
  have hm : min 8 (s.channels[c].banks[b].debt + 1) = 8 := by omega
  have hr := refreshNow_owed c b s
  have he := refreshTimer_eq (b := b) hq hs
  dsimp only at hr he
  rw [hc, hm] at he
  by_cases hp : s.channels[c].state = .powerDown
  · rw [if_neg (by decide), if_pos hp] at he
    generalize refreshNow c b (owed c b 8 s) = u at *
    obtain ⟨h1, h2, h3, h4, h5⟩ := hr
    rw [he]
    refine ⟨?_, ?_, ?_, ?_, h5⟩ <;> rw [modChannel_self] <;> assumption
  · rw [if_neg (by decide), if_neg hp, if_pos rfl] at he
    rw [he]
    exact hr

/-! ### Paying every debt -/

/-- Refreshes of one bank pay its debt down, and touch no other bank. -/
theorem refreshes_bank (c : Fin 32) (b : Fin 16) (l : List Nat) (s : State) :
    (l.foldl (fun s _ => refreshNow c b s) s).channels[c].banks[b].debt = s.channels[c].banks[b].debt - l.length ∧
    (∀ k : Fin 16, k ≠ b →
      (l.foldl (fun s _ => refreshNow c b s) s).channels[c].banks[k] = s.channels[c].banks[k]) ∧
    (l.foldl (fun s _ => refreshNow c b s) s).dram = s.dram := by
  induction l generalizing s with
  | nil => exact ⟨rfl, fun _ _ => rfl, rfl⟩
  | cons a l ih =>
    obtain ⟨hd, hk, hm⟩ := ih (refreshNow c b s)
    obtain ⟨_, hb⟩ := refreshNow_bank c b s
    rw [List.foldl_cons]
    refine ⟨?_, fun k h => (hk k h).trans (refreshNow_other h s), hm.trans (refreshNow_dram c b s)⟩
    rw [hd, hb, List.length_cons]
    dsimp only
    omega

theorem payBank_pays (c : Fin 32) (b : Fin 16) (s : State) : (payBank c s b).channels[c].banks[b].debt = 0 ∧
    (∀ k : Fin 16, k ≠ b → (payBank c s b).channels[c].banks[k] = s.channels[c].banks[k]) ∧
    (payBank c s b).dram = s.dram := by
  obtain ⟨hd, hk, hm⟩ := refreshes_bank c b (List.range s.channels[c].banks[b].debt) s
  rw [List.length_range, Nat.sub_self] at hd
  exact ⟨hd, hk, hm⟩

theorem payBanks_pay (c : Fin 32) (l : List (Fin 16)) (s : State) : (l.foldl (payBank c) s).dram = s.dram ∧
    ∀ b, b ∈ l ∨ s.channels[c].banks[b].debt = 0 → (l.foldl (payBank c) s).channels[c].banks[b].debt = 0 := by
  induction l generalizing s with
  | nil => exact ⟨rfl, fun b h => h.resolve_left List.not_mem_nil⟩
  | cons a l ih =>
    obtain ⟨hm, hb⟩ := ih (payBank c s a)
    obtain ⟨hd, hk, hm'⟩ := payBank_pays c a s
    rw [List.foldl_cons]
    refine ⟨hm.trans hm', fun b h => hb b ?_⟩
    by_cases e : b = a
    · rw [e]
      exact .inr hd
    · rw [hk b e]
      exact h.imp_left fun h => (List.mem_cons.1 h).resolve_left e

theorem payDebts_pays (c : Fin 32) (s : State) : (payDebts c s).dram = s.dram ∧
    ∀ b : Fin 16, (payDebts c s).channels[c].banks[b].debt = 0 := by
  obtain ⟨hm, hb⟩ := payBanks_pay c (List.finRange 16) s
  exact ⟨hm, fun b => hb b (.inl (List.mem_finRange b))⟩

theorem payDebts_of_paid (h : ∀ b : Fin 16, s.channels[c].banks[b].debt = 0) : payDebts c s = s := by
  have hp : ∀ b, payBank c s b = s := by
    intro b
    unfold payBank
    rw [h b]
    rfl
  unfold payDebts
  generalize List.finRange 16 = l
  induction l with
  | nil => rfl
  | cons a l ih => rw [List.foldl_cons, hp a, ih]

/-! ### Closing every row -/

theorem closeRows_close (c : Fin 32) (l : List (Fin 16)) (s : State) :
    (l.foldl (fun s b => closeRow c b s) s).dram = s.dram ∧
    ∀ b, b ∈ l ∨ s.channels[c].banks[b].openRow = none →
      (l.foldl (fun s b => closeRow c b s) s).channels[c].banks[b].openRow = none := by
  induction l generalizing s with
  | nil => exact ⟨rfl, fun b h => h.resolve_left List.not_mem_nil⟩
  | cons a l ih =>
    obtain ⟨hm, hb⟩ := ih (closeRow c a s)
    obtain ⟨_, hd⟩ := closeRow_bank c a s
    rw [List.foldl_cons]
    refine ⟨hm.trans (closeRow_still c a s).1, fun b h => hb b ?_⟩
    by_cases e : b = a
    · rw [e, hd]
      exact .inr rfl
    · rw [closeRow_other e]
      exact h.imp_left fun h => (List.mem_cons.1 h).resolve_left e

theorem closeRows_moves (c : Fin 32) (s : State) : (closeRows c s).dram = s.dram ∧
    ∀ b : Fin 16, (closeRows c s).channels[c].banks[b].openRow = none := by
  obtain ⟨hm, hb⟩ := closeRows_close c (List.finRange 16) s
  exact ⟨hm, fun b => hb b (.inl (List.mem_finRange b))⟩

/-! ### Budgets and fallback -/

theorem budgetWindow_moves (h : s.hubTimer < 64 * (s.channels[c].windowAt + 2)) :
    (budgetWindow c s).hubTimer = max s.hubTimer (64 * (s.channels[c].windowAt + 1)) ∧
    (budgetWindow c s).channels[c].windowAt = s.channels[c].windowAt + 1 ∧
    (budgetWindow c s).channels[c].actBudget = min 1600 (s.channels[c].actBudget + 16 * s.channels[c].scalePct) ∧
    (budgetWindow c s).channels[c].colBudget = min 6400 (s.channels[c].colBudget + 64 * s.channels[c].scalePct) ∧
    (budgetWindow c s).channels[c].banks = s.channels[c].banks := by
  refine ⟨rfl, ?_⟩
  unfold budgetWindow creditWindows
  rw [modChannel_self, passTo_hubTimer, passTo_channels]
  generalize s.channels[c] = x at h
  have hn : max s.hubTimer (64 * (x.windowAt + 1)) / 64 - x.windowAt = 1 := by omega
  simp only [creditChannel, hn, Nat.one_ne_zero, if_false, Nat.mul_one, and_self]

/-- A channel taken into fallback mode, or held there. -/
def fallen (c : Fin 32) (s : State) : State :=
  modChannel c (fun x => { x with
    fallbackEntries := if x.fallback then x.fallbackEntries else sat32 x.fallbackEntries
    fallback := true, fallbackAt := s.hubTimer, draining := x.draining || waitingLow s c }) s

theorem fallen_moves (c : Fin 32) (s : State) : (fallen c s).channels[c].fallback = true ∧
    (fallen c s).channels[c].fallbackAt = s.hubTimer ∧ (fallen c s).channels[c].fallbackEntries =
      (if s.channels[c].fallback then s.channels[c].fallbackEntries else sat32 s.channels[c].fallbackEntries) ∧
    (fallen c s).hubTimer = s.hubTimer := by
  unfold fallen
  rw [modChannel_self]
  exact ⟨rfl, rfl, rfl, rfl⟩

theorem fallbackEntry_of_panic (h : panicTrigger s c = true) : fallbackEntry c s = fallen c s := by
  unfold fallbackEntry fallen
  simp only [h, Bool.true_or, if_true]

theorem fallbackEntry_of_slack {m : Nat} {ms : List Nat} (hp : panicTrigger s c = false)
    (hm : slackMoments s c = m :: ms) : fallbackEntry c s = fallen c (passTo ((m :: ms).foldl min m) s) := by
  unfold fallbackEntry fallen
  simp only [hp, hm, List.isEmpty_cons, Bool.not_false, Bool.or_true, if_true, Bool.false_eq_true, if_false,
    List.getD_cons_zero]

/-- The slacks that fall below the threshold before the fallback could end. -/
def soonMoments (s : State) (c : Fin 32) : List Nat :=
  (slackMoments s c).filter fun t => decide (t ≤ max (s.channels[c].fallbackAt + 64) s.hubTimer)

theorem fallbackExit_of_none (hf : s.channels[c].fallback = true) (ht : fallbackTrigger s c = false)
    (hm : soonMoments s c = []) : fallbackExit c s =
    modChannel c (fun x => { x with fallback := false }) (passTo (s.channels[c].fallbackAt + 64) s) := by
  unfold soonMoments at hm
  unfold fallbackExit
  simp only [hf, ht, hm, if_true, Bool.false_eq_true, if_false]

theorem fallbackExit_of_soon {m : Nat} {ms : List Nat} (hf : s.channels[c].fallback = true)
    (ht : fallbackTrigger s c = false) (hm : soonMoments s c = m :: ms) : fallbackExit c s =
    modChannel c (fun x => { x with
      fallbackAt := (passTo (ms.foldl min m) s).hubTimer
      draining := x.draining || waitingLow (passTo (ms.foldl min m) s) c }) (passTo (ms.foldl min m) s) := by
  unfold soonMoments at hm
  unfold fallbackExit
  simp only [hf, ht, hm, if_true, Bool.false_eq_true, if_false]

/-! ### Write queue entries -/

theorem writeQueueEntry_stored {w : WaitingWrite} {ws : List WaitingWrite} (hw : s.channels[c].waiting = w :: ws)
    (hq : wqFull s c = false)
    (h : hostWrite (.port w.job.port) w.pd w.address
      (policerImage (modChannel c (fun y => { y with waiting := ws }) (noteTrigger c s))
        (modChannel c (fun y => { y with waiting := ws }) (noteTrigger c s)).partitions[w.pd] w.address w.data)
      (modChannel c (fun y => { y with waiting := ws }) (noteTrigger c s)) = (none, t)) :
    writeQueueEntry c s = settleLine w.job .ok false t := by
  unfold writeQueueEntry
  simp only [hw, hq, Bool.false_and, Bool.false_eq_true, if_false, h]

/-! ### Parity -/

theorem unrefreshes_hubTimer (c : Fin 32) (ws : List CmdWord) (s : State) :
    (ws.foldl (fun s w => unrefresh w s c) s).hubTimer = s.hubTimer := by
  induction ws generalizing s with
  | nil => rfl
  | cons w ws ih =>
    rw [List.foldl_cons, ih]
    unfold unrefresh
    split <;> rfl

/-- A parity alert counted and reported, the words it voids taken back. -/
def alerted (c : Fin 32) (s : State) : State :=
  discardWords c (discardedWords s c)
    (raise 0x2013 3 c [] (modChannel c (fun y => { y with caParityCount := sat32 y.caParityCount }) s))

theorem alerted_hubTimer (c : Fin 32) (s : State) : (alerted c s).hubTimer = s.hubTimer := by
  have hd : ∀ ws u, (discardWords c ws u).hubTimer = u.hubTimer := fun ws u => unrefreshes_hubTimer c ws u
  unfold alerted
  rw [hd]
  obtain ⟨_, _, _, h⟩ := raise_events 0x2013 3 c []
    (modChannel c (fun y => { y with caParityCount := sat32 y.caParityCount }) s)
  rw [h]
  rfl

/-- An alert within a millisecond of the trim that alerts brought. -/
def afterTrim (c : Fin 32) (s : State) : Prop :=
  ∃ t, s.channels[c].alertTrimAt = some t ∧ s.hubTimer ≤ t + 1000000

theorem caParity_of_soon (hc : channelIssues s c = true) (h : afterTrim c s) : caParity c s =
    fenceBlock (.channel c) true false (raise 0x2014 3 c [] (modChannel c (fun y => { y with
      alerts := 0, alertTrimAt := none, echoDue := true }) (alerted c s))) := by
  obtain ⟨a, ha, hle⟩ := h
  have ht := alerted_hubTimer c s
  unfold alerted at ht
  unfold caParity
  simp only [hc, ha, ht, hle, Bool.not_true, Bool.false_eq_true, if_false, decide_true, if_true]
  rfl

theorem caParity_of_not_soon (hc : channelIssues s c = true) (h : ¬ afterTrim c s) : caParity c s =
    if 2 ≤ s.channels[c].alerts then holdTrim c (modChannel c (fun y => { y with alerts := 3 }) (alerted c s))
    else replayBuffer c (modChannel c (fun y => { y with alerts := y.alerts + 1 }) (alerted c s)) := by
  have ht := alerted_hubTimer c s
  unfold alerted at ht
  unfold caParity
  simp only [hc, ht, Bool.not_true, Bool.false_eq_true, if_false]
  cases ha : s.channels[c].alertTrimAt with
  | none => rfl
  | some a =>
    have hn : ¬ s.hubTimer ≤ a + 1000000 := fun hle => h ⟨a, ha, hle⟩
    simp only [hn, decide_false, Bool.false_eq_true, if_false]
    rfl

/-! ### Retries -/

/-- A line read and, with its burst bad, opened and read again. -/
def reread (pl : Place) (first : CodedLine) (s : State) : State :=
  touchBank pl (closeRow pl.channel pl.bank (modChannel pl.channel (fun y => { y with columnData := first }) (touchBank pl s)))

theorem reread_worked (pl : Place) (first : CodedLine) (s : State) : Worked pl.channel s (reread pl first s) :=
  (touchBank_worked pl s).trans ((modChannel_worked (.of_fields
    ⟨_, _, _, _, _, _, _, _, _, _, _, _, _, _, _, _, _, _, _, _, _, _, _, rfl⟩ (.refl _) rfl)).trans
      ((closeRow_worked _ _ _).trans (touchBank_worked pl _)))

theorem reread_dram (pl : Place) (first : CodedLine) (s : State) : (reread pl first s).dram = s.dram := by
  unfold reread
  rw [touchBank_dram, (closeRow_still _ _ _).1]
  exact touchBank_dram pl s

theorem readRetry_gives {row : Nat} {burst : BadBurst} {d : Line} (hc : channelIssues s c = true)
    (hf : columnFits s c = true) (pl : Place) (hpl : pl = { channel := c, bank := b, row := row, line := burst.line })
    (hq : wqEntry s pl = none)
    (hb : classifyLine (storedLine s pl ^^^ burst.turned) (erasureSet s pl) = .uncorrectable)
    (hg : classifyLine (storedLine s pl) (erasureSet s pl) = .clean d) : readRetry c b row burst s =
    raiseBank 0x2015 c b [] (modChannel c (fun y => { y with readRetryCount := sat32 y.readRetryCount })
      (reread pl (storedLine s pl ^^^ burst.turned) s)) := by
  have hs := storedLine_of_worked (reread_worked pl (storedLine s pl ^^^ burst.turned) s) (reread_dram pl _ s)
  have he := erasureSet_of_worked (reread_worked pl (storedLine s pl ^^^ burst.turned) s)
  have hr : reread pl (storedLine s pl ^^^ burst.turned) s = touchBank pl (closeRow c b
      (modChannel c (fun y => { y with columnData := storedLine s pl ^^^ burst.turned }) (touchBank pl s))) := by
    rw [hpl]
    rfl
  unfold readRetry
  dsimp only
  rw [← hpl, hb, ← hr]
  generalize reread pl (storedLine s pl ^^^ burst.turned) s = u at *
  rw [← hs, ← he] at hg
  rw [if_pos ⟨hc, hf, by rw [hq]; rfl, rfl⟩]
  simp only [decodeRead, hg]

/-! ### Sleep -/

theorem idle_queues (h : channelIdle s c = true) : s.channels[c].requests.isEmpty = true ∧
    s.channels[c].writeQueue.isEmpty = true ∧ s.channels[c].waiting.isEmpty = true := by
  unfold channelIdle at h
  simp only [Bool.and_eq_true] at h
  obtain ⟨⟨⟨hr, hq⟩, hw⟩, -⟩ := h
  exact ⟨hr, hq, hw⟩

theorem powerDownEntry_of_idle (hc : channelIssues s c = true) (ha : s.channels[c].state = .active)
    (hp : s.channels[c].pdIdleUs ≠ 0) (hi : channelIdle s c = true) : powerDownEntry c s =
    (let t := closeRows c (passTo (s.channels[c].idleSince + 1000 * s.channels[c].pdIdleUs) s)
     modChannel c (fun y => { y with state := .powerDown, idleSince := t.hubTimer }) t) := by
  obtain ⟨hr, hq, hw⟩ := idle_queues hi
  have hd : drainTo c 0 128 s = s := if_pos (List.isEmpty_iff_length_eq_zero.1 hq).le
  unfold powerDownEntry
  simp only [hc, ha, hp, hr, hw, hd, hi, ne_eq, not_false_eq_true, and_self, if_true]

theorem selfRefreshEntry_of_idle (hc : channelIssues s c = true) (ha : s.channels[c].state = .powerDown)
    (hp : s.channels[c].srIdleMs ≠ 0) (hi : channelIdle s c = true) (ht : targetAdmitted s = false) :
    selfRefreshEntry c s = modChannel c (fun y => { y with state := .selfRefresh })
      (payDebts c (passTo (s.channels[c].idleSince + 1000000 * s.channels[c].srIdleMs) s)) := by
  unfold selfRefreshEntry
  simp only [hc, ha, hp, hi, ht, ne_eq, not_false_eq_true, Bool.not_false, and_self, if_true]

/-- A channel out of self-refresh: it serves again after tXS, every debt paid. -/
def awoken (c : Fin 32) (s : State) : State :=
  let u := passTo (s.hubTimer + 1200) (modChannel c (fun y => { y with
    keeperActed := false, rewriteDue := s.channels[c].rewriteDue || s.channels[c].keeperActed }) s)
  modChannel c (fun y => { y with
    state := .active, idleSince := u.hubTimer, banks := y.banks.map fun b => { b with debt := 0 } }) u

theorem awoken_channel (c : Fin 32) (s : State) : (awoken c s).channels[c] = { s.channels[c] with
    state := .active, idleSince := (awoken c s).hubTimer
    banks := s.channels[c].banks.map fun b => { b with debt := 0 }
    keeperActed := false, rewriteDue := s.channels[c].rewriteDue || s.channels[c].keeperActed } := by
  unfold awoken
  dsimp only
  rw [modChannel_self, passTo_channels, modChannel_self]
  rfl

theorem awoken_hubTimer (c : Fin 32) (s : State) : (awoken c s).hubTimer = s.hubTimer + 1200 :=
  Nat.max_eq_right (Nat.le_add_right _ _)

theorem awoken_still (c : Fin 32) (s : State) : (awoken c s).sensors = s.sensors ∧ (awoken c s).params = s.params ∧
    (awoken c s).dram = s.dram := ⟨rfl, rfl, rfl⟩

theorem awoken_drifted (c : Fin 32) (s : State) : trimDrifted (awoken c s) c = trimDrifted s c := by
  obtain ⟨h1, h2, -⟩ := awoken_still c s
  unfold trimDrifted
  rw [awoken_channel, h1, h2]

/-- The requests of a channel wake it from self-refresh, where nothing bars it and it has nothing to trim. -/
theorem selfRefreshExit_of_waiting (hr : s.channels[c].requests ≠ []) (hs : s.channels[c].state = .selfRefresh)
    (hh : s.channels[c].heldByCommand = false) (hk : s.channels[c].keeperActed = false)
    (hq : quarterOut s (Fin.ofNat 4 (c.val / 8)) = false) (hf : s.device.fatal = false)
    (hd : trimDrifted s c = false) (ht : s.channels[c].trimDue = false) :
    selfRefreshExit c s = rewriteQueue c (awoken c s) := by
  have hn : ¬ s.channels[c].requests.isEmpty = true := fun h => hr (List.isEmpty_iff.1 h)
  have hx : exitRefreshAt s.hubTimer false c (modChannel c (fun y => { y with
      keeperActed := false, rewriteDue := s.channels[c].rewriteDue || s.channels[c].keeperActed }) s) = awoken c s := by
    have hd' := (awoken_drifted c s).trans hd
    have ht' : (awoken c s).channels[c].trimDue = false := by
      rw [awoken_channel]
      exact ht
    refine if_neg ?_
    show ¬ (false || (awoken c s).channels[c].trimDue || trimDrifted (awoken c s) c) = true
    rw [ht', hd']
    decide
  unfold selfRefreshExit
  rw [if_neg hn]
  unfold leaveSelfRefresh leaveRefreshAt
  dsimp only
  rw [if_pos ⟨hs, by rw [hh]; rfl, by rw [hq]; rfl, by rw [hf]; rfl⟩]
  rw [hk] at hx ⊢
  rw [if_neg (by decide), hx]

theorem rewriteQueue_worked (c : Fin 32) (s : State) : Worked c s (rewriteQueue c s) ∨
    ∃ u, Worked c s u ∧ rewriteQueue c s = modChannel c (fun x => { x with rewriteDue := false }) u := by
  unfold rewriteQueue
  split
  · exact .inr ⟨_, drainAll_worked c s, rfl⟩
  · exact .inl (.refl c s)

theorem rewriteQueue_of_clean (h : s.channels[c].rewriteDue = false) : rewriteQueue c s = s := by
  unfold rewriteQueue
  rw [h, Bool.false_and, if_neg (by decide)]

theorem rewriteQueue_moves (ha : s.channels[c].state = .active) : s.hubTimer ≤ (rewriteQueue c s).hubTimer ∧
    (rewriteQueue c s).channels[c].state = .active ∧
    (rewriteQueue c s).channels[c].requests = s.channels[c].requests := by
  obtain hw | ⟨u, hw, hu⟩ := rewriteQueue_worked c s
  · exact ⟨hw.1, hw.channel.2.1.active ha, hw.channel.requests⟩
  · rw [hu]
    refine ⟨hw.1, ?_, ?_⟩ <;> rw [modChannel_self]
    · exact hw.channel.2.1.active ha
    · exact hw.channel.requests

/-- An idle channel powers down with every row closed. -/
theorem powerDownEntry_moves (hc : channelIssues s c = true) (ha : s.channels[c].state = .active)
    (hp : s.channels[c].pdIdleUs ≠ 0) (hi : channelIdle s c = true) :
    (powerDownEntry c s).channels[c].state = .powerDown ∧
    max s.hubTimer (s.channels[c].idleSince + 1000 * s.channels[c].pdIdleUs) ≤ (powerDownEntry c s).hubTimer ∧
    (∀ b : Fin 16, (powerDownEntry c s).channels[c].banks[b].openRow = none) ∧
    (powerDownEntry c s).dram = s.dram := by
  rw [powerDownEntry_of_idle hc ha hp hi]
  dsimp only
  obtain ⟨hm, hb⟩ := closeRows_moves c (passTo (s.channels[c].idleSince + 1000 * s.channels[c].pdIdleUs) s)
  have hw := closeRows_worked c (passTo (s.channels[c].idleSince + 1000 * s.channels[c].pdIdleUs) s)
  have ht := hw.1
  rw [passTo_hubTimer] at ht
  rw [passTo_dram] at hm
  generalize closeRows c (passTo (s.channels[c].idleSince + 1000 * s.channels[c].pdIdleUs) s) = u at *
  refine ⟨?_, ht, fun b => ?_, hm⟩ <;> rw [modChannel_self]
  exact hb b

theorem selfRefreshEntry_moves (hc : channelIssues s c = true) (ha : s.channels[c].state = .powerDown)
    (hp : s.channels[c].srIdleMs ≠ 0) (hi : channelIdle s c = true) (hn : targetAdmitted s = false) :
    (selfRefreshEntry c s).channels[c].state = .selfRefresh ∧
    max s.hubTimer (s.channels[c].idleSince + 1000000 * s.channels[c].srIdleMs) ≤ (selfRefreshEntry c s).hubTimer ∧
    ((∀ b : Fin 16, s.channels[c].banks[b].debt = 0) → (selfRefreshEntry c s).hubTimer =
      max s.hubTimer (s.channels[c].idleSince + 1000000 * s.channels[c].srIdleMs)) ∧
    (∀ b : Fin 16, (selfRefreshEntry c s).channels[c].banks[b].debt = 0) ∧
    (selfRefreshEntry c s).dram = s.dram := by
  rw [selfRefreshEntry_of_idle hc ha hp hi hn]
  have hpaid : (∀ b : Fin 16, s.channels[c].banks[b].debt = 0) → _ := payDebts_of_paid (c := c)
    (s := passTo (s.channels[c].idleSince + 1000000 * s.channels[c].srIdleMs) s)
  obtain ⟨hm, hb⟩ := payDebts_pays c (passTo (s.channels[c].idleSince + 1000000 * s.channels[c].srIdleMs) s)
  have ht := (payDebts_worked c (passTo (s.channels[c].idleSince + 1000000 * s.channels[c].srIdleMs) s)).1
  rw [passTo_hubTimer] at ht
  rw [passTo_dram] at hm
  have he : (∀ b : Fin 16, s.channels[c].banks[b].debt = 0) →
      (payDebts c (passTo (s.channels[c].idleSince + 1000000 * s.channels[c].srIdleMs) s)).hubTimer =
        max s.hubTimer (s.channels[c].idleSince + 1000000 * s.channels[c].srIdleMs) := fun h => by
    rw [hpaid h, passTo_hubTimer]
  generalize payDebts c (passTo (s.channels[c].idleSince + 1000000 * s.channels[c].srIdleMs) s) = u at *
  refine ⟨?_, ht, he, fun b => ?_, hm⟩ <;> rw [modChannel_self]
  exact hb b

theorem selfRefreshExit_moves (hr : s.channels[c].requests ≠ []) (hs : s.channels[c].state = .selfRefresh)
    (hh : s.channels[c].heldByCommand = false) (hk : s.channels[c].keeperActed = false)
    (hq : quarterOut s (Fin.ofNat 4 (c.val / 8)) = false) (hf : s.device.fatal = false)
    (hd : trimDrifted s c = false) (ht : s.channels[c].trimDue = false) :
    (selfRefreshExit c s).channels[c].state = .active ∧ s.hubTimer + 1200 ≤ (selfRefreshExit c s).hubTimer ∧
    (selfRefreshExit c s).channels[c].requests = s.channels[c].requests ∧
    (s.channels[c].rewriteDue = false →
      (selfRefreshExit c s).hubTimer = s.hubTimer + 1200 ∧ (selfRefreshExit c s).dram = s.dram) := by
  rw [selfRefreshExit_of_waiting hr hs hh hk hq hf hd ht]
  have ha : (awoken c s).channels[c].state = .active := by rw [awoken_channel]
  have hreq : (awoken c s).channels[c].requests = s.channels[c].requests := by rw [awoken_channel]
  obtain ⟨h1, h2, h3⟩ := rewriteQueue_moves ha
  rw [awoken_hubTimer] at h1
  refine ⟨h2, h1, h3.trans hreq, fun hw => ?_⟩
  have hc : (awoken c s).channels[c].rewriteDue = false := by
    rw [awoken_channel]
    dsimp only
    rw [hw, hk, Bool.or_self]
  rw [rewriteQueue_of_clean hc]
  exact ⟨awoken_hubTimer c s, (awoken_still c s).2.2⟩

end

/-- Settles O29. -/
theorem channelsScheduleRetryAndSleep : Obligations.ChannelsScheduleRetryAndSleep := by
  refine ⟨fun c s => ⟨fun b ha hq hd => ?_, fun b hc hd => ⟨_, rfl, refreshTimer_full hc hd⟩,
    fun h => ⟨_, rfl, budgetWindow_moves h⟩, fun h => ?_, fun m ms hp hm => ?_, fun hf ht => ⟨fun hm => ?_, fun m ms hm => ?_⟩,
    fun o ho => ?_, fun w ws t hw hq h => ?_⟩, fun c s => ⟨fun hc => ⟨fun hn ha => ?_, fun hn ha => ?_, fun h => ?_⟩,
    fun b row burst d hc hf hq hb hg => ?_, fun hc ha hp hi => ⟨_, rfl, powerDownEntry_moves hc ha hp hi⟩,
    fun hc ha hp hi ht => ⟨_, rfl, selfRefreshEntry_moves hc ha hp hi ht⟩,
    fun hr hs hh hk hq hf hd ht => ⟨_, rfl, selfRefreshExit_moves hr hs hh hk hq hf hd ht⟩⟩⟩
  · obtain ⟨h1, h2, -⟩ := owed_moves c b (s.channels[c].banks[b].debt + 1) s
    exact ⟨_, congrArg Host.Outcome.next (refreshTimer_low hq ha hd), h1, h2, rfl, rfl⟩
  · obtain ⟨h1, h2, h3, -⟩ := fallen_moves c s
    exact ⟨_, congrArg Host.Outcome.next (fallbackEntry_of_panic h), h1, h2, h3⟩
  · obtain ⟨h1, h2, -, h4⟩ := fallen_moves c (passTo ((m :: ms).foldl min m) s)
    exact ⟨_, congrArg Host.Outcome.next (fallbackEntry_of_slack hp hm), h1, h4, h2.trans h4.symm⟩
  · refine ⟨_, congrArg Host.Outcome.next (fallbackExit_of_none hf ht hm), ?_, rfl⟩
    rw [modChannel_self]
  · refine ⟨_, congrArg Host.Outcome.next (fallbackExit_of_soon hf ht hm), ?_, rfl, ?_⟩ <;> rw [modChannel_self]
    · exact hf
    · rfl
  · show execAgePromotion c s = _
    simp only [execAgePromotion, agePromotion, ho]
  · exact congrArg (fun t => Host.Outcome.next (serveReady t)) (writeQueueEntry_stored hw hq h)
  · refine congrArg (fun t => Host.Outcome.next (serveReady t)) ((caParity_of_not_soon hc hn).trans ?_)
    exact if_neg (Nat.not_le.2 ha)
  · exact congrArg (fun t => Host.Outcome.next (serveReady t)) ((caParity_of_not_soon hc hn).trans (if_pos ha))
  · exact congrArg (fun t => Host.Outcome.next (serveReady t)) (caParity_of_soon hc h)
  · exact congrArg Host.Outcome.next (readRetry_gives hc hf _ rfl hq hb hg)

end Sys2Proof.ChannelSchedule
end

section
/-! PROOFS. Column reads and writes, and rows read and written through the Skein (O26). -/

namespace Sys2Proof.ColumnsAndSkeins

open Sys2Proof Sys2Proof.Machine Sys2Proof.Laws Sys2Proof.Safety Sys2Proof.LinePlaces Sys2Proof.ChannelWork
  Sys2Proof.RowCommands Sys2Proof.ChannelSchedule

section
variable {c : Fin 32} {b : Fin 16} {s t u : State}

/-! ### What decoding a line leaves of its channel -/

/-- `y` is channel `x` but for the counts, the spots and the suspect wires that a decoded line leaves. -/
def CountsMoved (x y : Channel) : Prop :=
  ∃ ce fixed poison ue spots dropped hits suspects, y = { x with
    ceCount := ce, erasureFixCount := fixed, poisonReadCount := poison, ueCount := ue, spots := spots
    spotDropped := dropped, vertical := { x.vertical with hits := hits, suspects := suspects } }

theorem CountsMoved.trans {x y z : Channel} : CountsMoved x y → CountsMoved y z → CountsMoved x z := by
  rintro ⟨_, _, _, _, _, _, _, _, rfl⟩ ⟨_, _, _, _, _, _, _, _, rfl⟩
  exact ⟨_, _, _, _, _, _, _, _, rfl⟩

/-- What neither counts nor spots nor suspects are part of is as it was. -/
theorem CountsMoved.kept {x y : Channel} (h : CountsMoved x y) : y.banks = x.banks ∧
    y.vertical.colErased = x.vertical.colErased ∧ y.vertical.skErased = x.vertical.skErased ∧
    y.columnData = x.columnData ∧ y.lastLine = x.lastLine ∧ y.colBudget = x.colBudget := by
  obtain ⟨_, _, _, _, _, _, _, _, rfl⟩ := h
  exact ⟨rfl, rfl, rfl, rfl, rfl, rfl⟩

/-- `t` is `s`, on channel `c`, but for what a decoded line leaves. -/
def Decoded (c : Fin 32) (s t : State) : Prop := t.dram = s.dram ∧ CountsMoved s.channels[c] t.channels[c]

theorem Decoded.refl (c : Fin 32) (s : State) : Decoded c s s := ⟨rfl, _, _, _, _, _, _, _, _, rfl⟩

theorem Decoded.trans (h : Decoded c s t) (h' : Decoded c t u) : Decoded c s u := ⟨h'.1.trans h.1, h.2.trans h'.2⟩

theorem decoded_of_channel {f : Channel → Channel} (hf : CountsMoved s.channels[c] (f s.channels[c])) :
    Decoded c s (modChannel c f s) := by
  refine ⟨rfl, ?_⟩
  rw [modChannel_self]
  exact hf

theorem Decoded.events (h : Events s t) : Decoded c s t := by
  obtain ⟨_, _, _, rfl⟩ := h
  exact Decoded.refl c s

theorem countWire_decoded (path : Path) (row : Nat) (s : State) (w : Nat × Nat) :
    Decoded c s (countWire c path row s w) := by
  unfold countWire modVertical
  dsimp only
  split
  · refine .trans ?_ (.events (raise_events _ _ _ _ _))
    exact .trans (decoded_of_channel ⟨_, _, _, _, _, _, _, _, rfl⟩) (decoded_of_channel ⟨_, _, _, _, _, _, _, _, rfl⟩)
  · exact decoded_of_channel ⟨_, _, _, _, _, _, _, _, rfl⟩

theorem countWires_decoded (pl : Place) (path : Path) (errs : List (Nat × Nat)) (s : State) :
    Decoded pl.channel s (countWires pl path errs s) := by
  unfold countWires
  generalize errorWires path pl.line errs = ws
  induction ws generalizing s with
  | nil => exact .refl _ s
  | cons w ws ih => exact (countWire_decoded path _ s w).trans (ih _)

theorem queueSpot_decoded (pl : Place) (bad : Bool) (s : State) : Decoded pl.channel s (queueSpot pl bad s) := by
  unfold queueSpot
  dsimp only
  split
  · exact decoded_of_channel ⟨_, _, _, _, _, _, _, _, rfl⟩
  · exact .trans (decoded_of_channel ⟨_, _, _, _, _, _, _, _, rfl⟩) (.events (raiseLimited_events _ _ _ _ _))

theorem decodeRead_decoded (f : ReadFor) (path : Path) (pl : Place) (s : State) :
    Decoded pl.channel s (decodeRead f path pl s).2 := by
  unfold decodeRead
  dsimp only
  split
  · exact .refl _ s
  · exact decoded_of_channel ⟨_, _, _, _, _, _, _, _, rfl⟩
  · exact .trans (decoded_of_channel ⟨_, _, _, _, _, _, _, _, rfl⟩)
      (.trans (queueSpot_decoded _ _ _) (countWires_decoded _ _ _ _))
  · exact decoded_of_channel ⟨_, _, _, _, _, _, _, _, rfl⟩
  · exact .trans (decoded_of_channel ⟨_, _, _, _, _, _, _, _, rfl⟩)
      (.trans (queueSpot_decoded _ _ _) (.events (raise_events _ _ _ _ _)))

theorem observeLine_decoded (path : Path) (pl : Place) (s : State) : Decoded pl.channel s (observeLine path pl s) := by
  unfold observeLine
  split
  · exact .refl _ s
  · exact decodeRead_decoded _ _ _ s

/-- The data that a decoded line gives. -/
def decodedData : LineClass → Option Line
  | .clean d => some d
  | .erasureCorrected d => some d
  | .corrected d _ => some d
  | _ => none

theorem decodeRead_data (f : ReadFor) (path : Path) (pl : Place) (s : State) :
    (decodeRead f path pl s).1 = decodedData (classifyLine (storedLine s pl) (erasureSet s pl)) := by
  unfold decodeRead
  cases classifyLine (storedLine s pl) (erasureSet s pl) <;> rfl

/-! ### What keeps the lines of a channel -/

/-- Memory, the repaired rows of channel `c` and its erased wires are as they were: its lines read as they did. -/
def SameLines (c : Fin 32) (s t : State) : Prop :=
  t.dram = s.dram ∧ (∀ b : Fin 16, t.channels[c].banks[b].remap = s.channels[c].banks[b].remap) ∧
    t.channels[c].vertical.colErased = s.channels[c].vertical.colErased ∧
    t.channels[c].vertical.skErased = s.channels[c].vertical.skErased

theorem SameLines.refl (c : Fin 32) (s : State) : SameLines c s s := ⟨rfl, fun _ => rfl, rfl, rfl⟩

theorem SameLines.trans (h : SameLines c s t) (h' : SameLines c t u) : SameLines c s u := by
  obtain ⟨hd, hr, hc, hk⟩ := h
  obtain ⟨hd', hr', hc', hk'⟩ := h'
  exact ⟨hd'.trans hd, fun b => (hr' b).trans (hr b), hc'.trans hc, hk'.trans hk⟩

theorem sameLines_of_worked (h : Worked c s t) (hd : t.dram = s.dram) : SameLines c s t :=
  ⟨hd, fun b => (h.channel.2.2 b).remap, by rw [h.channel.vertical], by rw [h.channel.vertical]⟩

theorem sameLines_of_decoded (h : Decoded c s t) : SameLines c s t := by
  obtain ⟨hb, hc, hk, -⟩ := h.2.kept
  exact ⟨h.1, fun b => by rw [hb], hc, hk⟩

theorem SameLines.storedLine {pl : Place} (h : SameLines pl.channel s t) : storedLine t pl = storedLine s pl := by
  obtain ⟨hd, hr, -⟩ := h
  unfold Sys2Proof.Machine.storedLine codedAddr layerRow
  rw [hd, hr pl.bank]

theorem SameLines.erasureSet {pl : Place} (h : SameLines pl.channel s t) : erasureSet t pl = erasureSet s pl := by
  obtain ⟨-, -, hc, hk⟩ := h
  unfold Sys2Proof.Machine.erasureSet
  dsimp only
  rw [hc, hk]

theorem skeinBurst_same (c : Fin 32) (b : Fin 16) (write : Bool) (s : State) : SameLines c s (skeinBurst c b write s) := by
  unfold skeinBurst
  extract_lets x k n u done v
  have hv : SameLines c s v := .refl c s
  clear_value v
  refine hv.trans ⟨rfl, fun k => ?_, ?_, ?_⟩
  · rw [issueWord_banks]
    by_cases h : k = b
    · subst h
      rw [modBank_self, modChannel_self]
    · rw [modBank_ne h, modChannel_self]
  · unfold issueWord modBank
    rw [modChannel_self, modChannel_self, modChannel_self]
  · unfold issueWord modBank
    rw [modChannel_self, modChannel_self, modChannel_self]

theorem skeinBurst_closes (c : Fin 32) (b : Fin 16) (write : Bool) (s : State) :
    (skeinBurst c b write s).channels[c].banks[b].openRow = none := by
  unfold skeinBurst
  dsimp only
  rw [issueWord_banks, modBank_self]

theorem rowLine_same (f : ReadFor) (pl : Place) (s : State) : SameLines pl.channel s (rowLine f pl s).2 := by
  unfold rowLine
  split
  · exact (sameLines_of_worked (touchBank_worked pl s) (touchBank_dram pl s)).trans
      (sameLines_of_decoded (decodeRead_decoded _ _ _ _))
  · exact sameLines_of_decoded (decodeRead_decoded _ _ _ s)

theorem rowLine_data (f : ReadFor) (pl : Place) (s : State) :
    (rowLine f pl s).1 = decodedData (classifyLine (storedLine s pl) (erasureSet s pl)) := by
  have ht := sameLines_of_worked (touchBank_worked pl s) (touchBank_dram pl s)
  unfold rowLine
  split
  · rw [decodeRead_data, ht.storedLine, ht.erasureSet]
  · exact decodeRead_data _ _ _ s

theorem rowLine_banks {f : ReadFor} {pl : Place}
    (h : classifyLine (storedLine s pl) (erasureSet s pl) ≠ .uncorrectable) :
    (rowLine f pl s).2.channels[pl.channel].banks = s.channels[pl.channel].banks := by
  unfold rowLine
  split
  · next hu => exact absurd hu h
  · exact (decodeRead_decoded f .skein pl s).2.kept.1

/-! ### Rows read -/

/-- The place of a line of a row. -/
def linePlace (c : Fin 32) (b : Fin 16) (row : Nat) (l : Fin 32) : Place :=
  { channel := c, bank := b, row := row, line := l }

/-- What a line of a row reads as. -/
def lineRead (c : Fin 32) (b : Fin 16) (row : Nat) (s : State) (l : Fin 32) : LineClass :=
  classifyLine (storedLine s (linePlace c b row l)) (erasureSet s (linePlace c b row l))

theorem SameLines.lineRead (h : SameLines c s t) (b : Fin 16) (row : Nat) (l : Fin 32) :
    lineRead c b row t l = lineRead c b row s l := by
  unfold ColumnsAndSkeins.lineRead
  rw [SameLines.storedLine (pl := linePlace c b row l) h, SameLines.erasureSet (pl := linePlace c b row l) h]

/-- The lines of a row taken one by one. -/
def takeLine (f : ReadFor) (c : Fin 32) (b : Fin 16) (row : Nat) (acc : List (Option Line) × State) (i : Fin 32) :
    List (Option Line) × State :=
  let r := rowLine { f with address := f.address + 64 * i.val } (linePlace c b row i) acc.2
  (acc.1 ++ [r.1], r.2)

theorem rowRead_eq (f : ReadFor) (c : Fin 32) (b : Fin 16) (row : Nat) (s : State) : rowRead f c b row s =
    (List.finRange 32).foldl (takeLine f c b row) ([], closeBank c b row false s) := rfl

/-- Lines taken leave every line as it was, add what each reads as, and where none is uncorrectable leave the banks. -/
theorem takeLines (f : ReadFor) (c : Fin 32) (b : Fin 16) (row : Nat) (ls : List (Fin 32))
    (acc : List (Option Line) × State) :
    SameLines c acc.2 (ls.foldl (takeLine f c b row) acc).2 ∧
    (ls.foldl (takeLine f c b row) acc).1 = acc.1 ++ ls.map (fun l => decodedData (lineRead c b row acc.2 l)) ∧
    ((∀ l, lineRead c b row acc.2 l ≠ .uncorrectable) →
      (ls.foldl (takeLine f c b row) acc).2.channels[c].banks = acc.2.channels[c].banks) := by
  induction ls generalizing acc with
  | nil => exact ⟨.refl _ _, (List.append_nil _).symm, fun _ => rfl⟩
  | cons a ls ih =>
    obtain ⟨hs, hd, hb⟩ := ih (takeLine f c b row acc a)
    have hsame : SameLines c acc.2 (takeLine f c b row acc a).2 := rowLine_same _ (linePlace c b row a) acc.2
    refine ⟨hsame.trans hs, ?_, fun h => ?_⟩
    · rw [List.foldl_cons, hd]
      simp only [hsame.lineRead]
      unfold takeLine
      dsimp only
      rw [rowLine_data, List.map_cons, List.append_assoc]
      rfl
    · have hl : ∀ l, lineRead c b row (takeLine f c b row acc a).2 l ≠ .uncorrectable := by
        intro l
        rw [hsame.lineRead]
        exact h l
      exact (hb hl).trans (rowLine_banks (pl := linePlace c b row a) (h a))

theorem closeBank_read (c : Fin 32) (b : Fin 16) (row : Nat) (s : State) :
    SameLines c (drainRow c b row s) (closeBank c b row false s) ∧
    (closeBank c b row false s).channels[c].banks[b].openRow = none := by
  unfold closeBank
  dsimp only
  generalize drainRow c b row s = u
  rw [if_neg (by decide)]
  exact ⟨(sameLines_of_worked (openBank_worked (linePlace c b row 0) u) (openBank_dram _ u)).trans
    (skeinBurst_same c b false _), skeinBurst_closes c b false _⟩

theorem rowRead_moves (f : ReadFor) (c : Fin 32) (b : Fin 16) (row : Nat) (s : State) :
    (rowRead f c b row s).2.dram = (drainRow c b row s).dram ∧
    (rowRead f c b row s).1 = (List.finRange 32).map (fun l => decodedData (lineRead c b row (drainRow c b row s) l)) ∧
    ((∀ l, lineRead c b row (drainRow c b row s) l ≠ .uncorrectable) →
      (rowRead f c b row s).2.channels[c].banks[b].openRow = none) := by
  obtain ⟨hs, hopen⟩ := closeBank_read c b row s
  rw [rowRead_eq]
  obtain ⟨ht, hd, hb⟩ := takeLines f c b row (List.finRange 32) ([], closeBank c b row false s)
  refine ⟨ht.1.trans hs.1, ?_, fun h => ?_⟩
  · rw [hd]
    simp only [hs.lineRead, List.nil_append]
  · rw [hb fun l => by rw [hs.lineRead]; exact h l]
    exact hopen

theorem skeinRead_of_open {row : Nat} (hc : channelIssues s c = true) (ho : s.channels[c].banks[b].openRow = some row) :
    ∃ f, skeinRead c b s =
      modChannel c (fun y => { y with skeinData := (rowRead f c b row s).1 }) (rowRead f c b row s).2 := by
  unfold skeinRead
  simp only [ho, hc, if_true]
  exact ⟨_, rfl⟩

/-! ### Rows written -/

/-- The coded line that an image gives for a line of its row: poison where it holds none. -/
def imageCode (image : List (Option Line)) (i : Fin 32) : CodedLine :=
  match image.getD i none with | some l => encodeLine l | none => poisonCode

/-- The lines of an image stored one by one. -/
def putLine (c : Fin 32) (b : Fin 16) (row : Nat) (image : List (Option Line)) (s : State) (i : Fin 32) : State :=
  storeCoded (linePlace c b row i) (imageCode image i) s

theorem rowWrite_eq (c : Fin 32) (b : Fin 16) (row : Nat) (image : List (Option Line)) (s : State) :
    rowWrite c b row image s = (List.finRange 32).foldl (putLine c b row image) (closeBank c b row true s) := rfl

theorem putLine_wf (image : List (Option Line)) (row : Nat) (i : Fin 32) (h : memWf s.dram = true) :
    memWf (putLine c b row image s i).dram = true := storeCoded_wf _ _ _ h

/-- Two lines of a row have two addresses. -/
theorem codedAddr_line_ne {row : Nat} {l i : Fin 32} (h : l ≠ i) :
    codedAddr s (linePlace c b row l) ≠ codedAddr s (linePlace c b row i) := by
  have hv : l.val ≠ i.val := fun e => h (Fin.ext e)
  unfold codedAddr linePlace
  dsimp only
  omega

theorem putLine_same (image : List (Option Line)) (row : Nat) (i : Fin 32) (h : memWf s.dram = true) :
    storedLine (putLine c b row image s i) (linePlace c b row i) = imageCode image i :=
  (storedLineReadsBack (linePlace c b row i) (linePlace c b row i) (imageCode image i) s h).1

theorem putLine_other (image : List (Option Line)) (row : Nat) {i l : Fin 32} (hl : l ≠ i) (h : memWf s.dram = true) :
    storedLine (putLine c b row image s i) (linePlace c b row l) = storedLine s (linePlace c b row l) :=
  (storedLineReadsBack (linePlace c b row i) (linePlace c b row l) (imageCode image i) s h).2.1 (codedAddr_line_ne hl)

theorem putLines_storedLine (c : Fin 32) (b : Fin 16) (row : Nat) (image : List (Option Line)) (ls : List (Fin 32))
    (s : State) (hs : memWf s.dram = true) (hn : ls.Nodup) :
    (∀ l ∉ ls, storedLine (ls.foldl (putLine c b row image) s) (linePlace c b row l) =
      storedLine s (linePlace c b row l)) ∧
    ∀ l ∈ ls, storedLine (ls.foldl (putLine c b row image) s) (linePlace c b row l) = imageCode image l := by
  induction ls generalizing s with
  | nil => exact ⟨fun _ _ => rfl, fun _ h => absurd h List.not_mem_nil⟩
  | cons a ls ih =>
    obtain ⟨ha, hls⟩ := List.nodup_cons.1 hn
    have hsame := putLine_same (c := c) (b := b) image row a hs
    have hother := fun l hl => putLine_other (c := c) (b := b) (l := l) image row (i := a) hl hs
    have hwf := putLine_wf (c := c) (b := b) image row a hs
    rw [List.foldl_cons]
    generalize putLine c b row image s a = u at *
    obtain ⟨hout, hin⟩ := ih u hwf hls
    refine ⟨fun l hl => ?_, fun l hl => ?_⟩
    · obtain ⟨hla, hl⟩ := not_or.1 (fun h => hl (List.mem_cons.2 h))
      exact (hout l hl).trans (hother l hla)
    · obtain rfl | hl := List.mem_cons.1 hl
      · exact (hout l ha).trans hsame
      · exact hin l hl

theorem skeinWrite_of_open {row : Nat} (image : List Line) (hc : channelIssues s c = true)
    (ho : s.channels[c].banks[b].openRow = some row) : skeinWrite c b image s =
    (let w := rowWriteBoth (linePlace c b row 0) (image.map some) s
     match lineOwner w (linePlace c b row 0) with
     | some (pd, i) => kennelDropBlock pd (i / 32) w
     | none => w) := by
  unfold skeinWrite
  simp only [ho, hc, if_true]
  rfl

theorem rowWriteBoth_alone (pl : Place) (image : List (Option Line)) (h : s.mover = none) :
    rowWriteBoth pl image s = rowWrite pl.channel pl.bank pl.row image s := by
  unfold rowWriteBoth moverTwin
  rw [h]

theorem rowWrite_storedLine (c : Fin 32) (b : Fin 16) (row : Nat) (image : List (Option Line)) (hs : memWf s.dram = true)
    (l : Fin 32) : storedLine (rowWrite c b row image s) (linePlace c b row l) = imageCode image l := by
  have hw : memWf (closeBank c b row true s).dram = true := by
    obtain ⟨_, _, _, _, _, _, _, h, hwf⟩ := closeBank_layers c b row true s
    rw [h]
    exact hwf hs
  rw [rowWrite_eq]
  exact (putLines_storedLine c b row image _ _ hw (List.nodup_finRange 32)).2 l (List.mem_finRange l)

theorem imageCode_of_lines (image : List Line) (l : Fin 32) : imageCode (image.map some) l =
    match image[l.val]? with | some x => encodeLine x | none => poisonCode := by
  unfold imageCode
  rw [List.getD_eq_getElem?_getD, List.getElem?_map]
  cases image[l.val]? <;> rfl

/-! ### Columns -/

theorem spendCol_of_room (h : 100 ≤ s.channels[c].colBudget) :
    (spendCol c s).channels[c].colBudget = (creditChannel s.hubTimer s.channels[c]).colBudget - 100 := by
  have hroom : 100 ≤ (creditChannel s.hubTimer s.channels[c]).colBudget := by
    simp only [creditChannel]
    split <;> omega
  unfold spendCol
  dsimp only
  rw [modChannel_self]
  unfold creditWindows
  dsimp only
  rw [modChannel_self, passTo_channels, modChannel_self, passTo_hubTimer]
  rw [budgetTime, if_pos (.inl hroom)]
  have ht : (modChannel c (creditChannel s.hubTimer) s).hubTimer = s.hubTimer := rfl
  rw [ht, Nat.max_self, creditChannel_idem]

/-- A read of a line of the open row issued now. -/
def readIssued (pl : Place) (s : State) : State :=
  let c := pl.channel
  let b := pl.bank
  let s := modBank c b (fun y => { y with readAt := some s.hubTimer, hitStreak := y.hitStreak + 1 }) s
  issueWord c (.read b pl.line) (modChannel c (fun y => { y with
    lastCol := some (s.hubTimer, b), lastReadEnd := some (s.hubTimer + 44), idleSince := s.hubTimer
    columnData := storedLine s pl, lastLine := some (b, pl.row, pl.line) }) s)

theorem readBurst_eq (pl : Place) (s : State) :
    ∃ t, readBurst pl s = readIssued pl (passTo t (spendCol pl.channel s)) := by
  unfold readBurst
  dsimp only
  generalize spendCol pl.channel s = u
  exact ⟨_, rfl⟩

theorem readIssued_moves (pl : Place) (s : State) :
    (readIssued pl s).channels[pl.channel].columnData = storedLine s pl ∧
    (readIssued pl s).channels[pl.channel].lastLine = some (pl.bank, pl.row, pl.line) ∧
    (readIssued pl s).channels[pl.channel].colBudget = s.channels[pl.channel].colBudget := by
  have hb : ∀ f, (∀ x, BankMoved x (f x)) → Worked pl.channel s (modBank pl.channel pl.bank f s) :=
    fun f h => modBank_worked (h _)
  have hs := storedLine_of_worked (pl := pl) (hb (fun y => { y with readAt := some s.hubTimer, hitStreak := y.hitStreak + 1 })
    fun _ => ⟨_, _, _, _, _, _, _, _, _, rfl⟩) rfl
  unfold readIssued issueWord
  dsimp only
  rw [modChannel_self, modChannel_self, hs]
  unfold modBank
  rw [modChannel_self]
  exact ⟨rfl, rfl, rfl⟩

theorem readBurst_moves (pl : Place) (h : 100 ≤ s.channels[pl.channel].colBudget) :
    (readBurst pl s).channels[pl.channel].columnData = storedLine s pl ∧
    (readBurst pl s).channels[pl.channel].lastLine = some (pl.bank, pl.row, pl.line) ∧
    (readBurst pl s).channels[pl.channel].colBudget =
      (creditChannel s.hubTimer s.channels[pl.channel]).colBudget - 100 := by
  obtain ⟨t, ht⟩ := readBurst_eq pl s
  have hw : SameLines pl.channel s (passTo t (spendCol pl.channel s)) :=
    sameLines_of_worked ((spendCol_worked _ s).trans (passTo_worked _ t _)) rfl
  obtain ⟨h1, h2, h3⟩ := readIssued_moves pl (passTo t (spendCol pl.channel s))
  rw [ht]
  exact ⟨h1.trans hw.storedLine, h2, h3.trans (spendCol_of_room h)⟩

/-- The state in which a read of a draining channel finds its requests. -/
def aged (c : Fin 32) (s : State) : State := if s.channels[c].draining then markAged c s else s

theorem aged_moves (c : Fin 32) (s : State) : (aged c s).dram = s.dram ∧ (aged c s).hubTimer = s.hubTimer ∧
    ∃ requests count, (aged c s).channels[c] =
      { s.channels[c] with requests := requests, promotedCount := count } := by
  unfold aged
  split
  · exact ⟨rfl, rfl, _, _, modChannel_self _ _ _⟩
  · exact ⟨rfl, rfl, _, _, rfl⟩

theorem columnRead_of_open {row : Nat} {line : Fin 32} (hc : channelIssues s c = true)
    (ho : s.channels[c].banks[b].openRow = some row) (hb : 100 ≤ s.channels[c].colBudget)
    (hr : readServes s (linePlace c b row line) = true) :
    columnRead c b line s = observeLine .column (linePlace c b row line) (readBurst (linePlace c b row line) (aged c s)) := by
  have hf : columnFits s c = true := by simp only [columnFits, hb, decide_true, Bool.true_or]
  unfold linePlace at hr
  unfold columnRead
  simp only [ho, hc, hf, hr, and_self, if_true]
  rfl

theorem columnRead_moves {row : Nat} {line : Fin 32} (hc : channelIssues s c = true)
    (ho : s.channels[c].banks[b].openRow = some row) (hb : 100 ≤ s.channels[c].colBudget)
    (hr : readServes s (linePlace c b row line) = true) :
    (columnRead c b line s).channels[c].columnData = storedLine s (linePlace c b row line) ∧
    (columnRead c b line s).channels[c].lastLine = some (b, row, line) ∧
    (columnRead c b line s).channels[c].colBudget = (creditChannel s.hubTimer s.channels[c]).colBudget - 100 ∧
    (columnRead c b line s).dram = s.dram := by
  obtain ⟨hd, ht, requests, count, ha⟩ := aged_moves c s
  have hsame : SameLines c s (aged c s) := ⟨hd, fun k => by rw [ha], by rw [ha], by rw [ha]⟩
  have hroom : 100 ≤ (aged c s).channels[c].colBudget := by
    rw [ha]
    exact hb
  have hcred : (creditChannel (aged c s).hubTimer (aged c s).channels[c]).colBudget =
      (creditChannel s.hubTimer s.channels[c]).colBudget := by
    rw [ht, ha]
    rfl
  have hst := SameLines.storedLine (pl := linePlace c b row line) hsame
  rw [columnRead_of_open hc ho hb hr]
  generalize aged c s = u at *
  obtain ⟨h1, h2, h3⟩ := readBurst_moves (linePlace c b row line) (s := u) hroom
  obtain ⟨hod, hoc⟩ := observeLine_decoded .column (linePlace c b row line) (readBurst (linePlace c b row line) u)
  obtain ⟨-, -, -, k1, k2, k3⟩ := hoc.kept
  exact ⟨k1.trans (h1.trans hst), k2.trans h2, k3.trans (h3.trans (congrArg (· - 100) hcred)), hod.trans hd⟩

/-- The place of a write-queue entry. -/
def entryPlace (c : Fin 32) (e : WqEntry) : Place := linePlace c e.bank e.row e.line

theorem queue_same (c : Fin 32) (s : State) (q : Channel → List WqEntry) :
    SameLines c s (modChannel c (fun x => { x with writeQueue := q x }) s) :=
  sameLines_of_worked (writeQueue_worked c s q) rfl

theorem openBank_same (pl : Place) (s : State) : SameLines pl.channel s (openBank pl s) :=
  sameLines_of_worked (openBank_worked pl s) (openBank_dram pl s)

theorem writeBurst_same (pl : Place) (s : State) : SameLines pl.channel s (writeBurst pl s) :=
  sameLines_of_worked (writeBurst_worked pl s) rfl

theorem writeEntry_stores (c : Fin 32) (e : WqEntry) (s : State) : ∃ u, SameLines c s u ∧
    writeEntry c e s = storeCoded (entryPlace c e) (wqCoded e) u := by
  unfold writeEntry layerWrite
  dsimp only
  exact ⟨_, (queue_same c s _).trans ((openBank_same (entryPlace c e) _).trans
    ((writeBurst_same (entryPlace c e) _).trans (queue_same c _ _))), rfl⟩

theorem wqEntry_place {pl : Place} {e : WqEntry} (h : wqEntry s pl = some e) : entryPlace pl.channel e = pl := by
  have hm := List.find?_some h
  simp only [wqMatches, Bool.and_eq_true, decide_eq_true_eq] at hm
  obtain ⟨⟨hb, hr⟩, hl⟩ := hm
  unfold entryPlace linePlace
  rw [hb, hr, hl]

theorem codedAddr_of_same {pl : Place} (h : SameLines pl.channel s t) : codedAddr t pl = codedAddr s pl := by
  obtain ⟨-, hr, -⟩ := h
  unfold codedAddr layerRow
  rw [hr pl.bank]

theorem writeEntry_memory (c : Fin 32) (e : WqEntry) (hm : memWf s.dram = true) :
    memBytes (writeEntry c e s).dram (codedAddr s (entryPlace c e)) 72 = natToBytes 72 (wqCoded e).toNat ∧
    (∀ a, a < codedAddr s (entryPlace c e) ∨ codedAddr s (entryPlace c e) + 72 ≤ a →
      memByte (writeEntry c e s).dram a = memByte s.dram a) ∧
    memWf (writeEntry c e s).dram = true := by
  obtain ⟨u, hs, hu⟩ := writeEntry_stores c e s
  have hd := hs.1
  have ha : codedAddr u (entryPlace c e) = codedAddr s (entryPlace c e) := codedAddr_of_same hs
  rw [hu, ← ha, ← hd]
  rw [← hd] at hm
  exact ⟨memBytes_storeCoded_same _ _ u hm, fun a ha => storeCoded_outside _ _ u a hm ha, storeCoded_wf _ _ u hm⟩

theorem columnWrite_of_entry {row : Nat} {line : Fin 32} {e : WqEntry} (hc : channelIssues s c = true)
    (ho : s.channels[c].banks[b].openRow = some row) (hb : 100 ≤ s.channels[c].colBudget)
    (he : wqEntry s (linePlace c b row line) = some e) (hi : e.issued = none) :
    columnWrite c b line s = writeEntry c e s := by
  have hf : columnFits s c = true := by simp only [columnFits, hb, decide_true, Bool.true_or]
  unfold linePlace at he
  unfold columnWrite
  simp only [ho, he, hc, hf, hi, and_self, if_true]

theorem exec_columnWrite {row : Nat} {line : Fin 32} {e : WqEntry} (hc : channelIssues s c = true)
    (ho : s.channels[c].banks[b].openRow = some row) (hb : 100 ≤ s.channels[c].colBudget)
    (he : wqEntry s (linePlace c b row line) = some e) (hi : e.issued = none) :
    exec (.columnWrite c b line) s = .next (serveReady (writeEntry c e s)) := by
  have hx : exec (.columnWrite c b line) s = .next (serveReady (columnWrite c b line s)) := rfl
  rw [hx, columnWrite_of_entry hc ho hb he hi]

end

/-- Settles O26. -/
theorem columnsAndSkeinsMoveLines : Obligations.ColumnsAndSkeinsMoveLines := by
  refine ⟨fun c b row line s hc ho hb => ⟨fun hr => ⟨_, rfl, columnRead_moves hc ho hb hr⟩, fun e he hi hm => ?_⟩,
    fun c b row s hc ho => ⟨?_, fun image => ⟨?_, fun hm hs l => ?_⟩⟩⟩
  · have he' : wqEntry s (linePlace c b row line) = some e := he
    have hp : entryPlace c e = linePlace c b row line := wqEntry_place he'
    have hw := writeEntry_memory c e hm
    rw [hp] at hw
    unfold linePlace at hw
    refine ⟨writeEntry c e s, exec_columnWrite hc ho hb he' hi, ?_⟩
    exact hw
  · obtain ⟨f, hf⟩ := skeinRead_of_open hc ho
    obtain ⟨hd, hdata, hopen⟩ := rowRead_moves f c b row s
    generalize rowRead f c b row s = r at *
    refine ⟨_, congrArg Host.Outcome.next hf, hd, fun h => ?_, fun l => ?_⟩
    · rw [modChannel_self]
      exact hopen h
    · rw [modChannel_self]
      dsimp only
      rw [hdata, List.getD_eq_getElem?_getD, List.getElem?_map]
      have hl : (List.finRange 32)[l.val]? = some l := by simp
      rw [hl]
      rfl
  · exact congrArg Host.Outcome.next (skeinWrite_of_open image hc ho)
  · have hw := rowWrite_storedLine c b row (image.map some) hs l
    rw [imageCode_of_lines] at hw
    have hboth : rowWriteBoth (linePlace c b row 0) (image.map some) s = rowWrite c b row (image.map some) s :=
      rowWriteBoth_alone _ _ hm
    rw [← hboth] at hw
    exact hw

end Sys2Proof.ColumnsAndSkeins
end

section
/-! PROOFS. What reads and writes of lines leave of the ports: the requests outstanding and held, the count of those
cancelled, and the partner. The proofs go the way of the lemmas of the shared operations (Laws): a step changes no port,
or raises an event, or counts in a port-class. -/

namespace Sys2Proof.PortBooks

open Sys2Proof Sys2Proof.Machine Sys2Proof.Laws Sys2Proof.PortRecords

/-- A port's books are as they were: its requests, those cancelled, and its partner. -/
def Booked (x y : Port) : Prop :=
  y.outstanding = x.outstanding ∧ y.held = x.held ∧ y.aborted = x.aborted ∧ y.partner = x.partner ∧
    y.partnerState = x.partnerState

/-- Every port of `t` has the books that it has in `s`. -/
def BooksKept (s t : State) : Prop := ∀ q : Fin 4, Booked s.ports[q] t.ports[q]

theorem Booked.refl (x : Port) : Booked x x := ⟨rfl, rfl, rfl, rfl, rfl⟩

theorem Booked.trans {x y z : Port} (h : Booked x y) (h' : Booked y z) : Booked x z := by
  obtain ⟨h1, h2, h3, h4, h5⟩ := h
  obtain ⟨k1, k2, k3, k4, k5⟩ := h'
  exact ⟨k1.trans h1, k2.trans h2, k3.trans h3, k4.trans h4, k5.trans h5⟩

theorem BooksKept.of_ports {s t : State} (h : t.ports = s.ports) : BooksKept s t := fun q => by
  rw [h]
  exact .refl _

theorem BooksKept.refl (s : State) : BooksKept s s := .of_ports rfl

theorem BooksKept.trans {s t u : State} (h : BooksKept s t) (h' : BooksKept t u) : BooksKept s u :=
  fun q => (h q).trans (h' q)

theorem BooksKept.noted {s t : State} (h : PortsNoted s t) : BooksKept s t := fun q => by
  obtain ⟨_, _, hq⟩ := h q
  rw [hq]
  exact .refl _

theorem books_foldl {α : Type} (f : State → α → State) (h : ∀ s a, BooksKept s (f s a)) (l : List α) (s : State) :
    BooksKept s (l.foldl f s) := by
  induction l generalizing s with
  | nil => exact .refl s
  | cons a l ih => exact (h s a).trans (ih _)

/-- A change of one port that leaves its books. -/
theorem modPort_books {p : Fin 4} {f : Port → Port} (s : State) (h : ∀ x, Booked x (f x)) :
    BooksKept s (modPort p f s) := by
  intro q
  by_cases e : q = p
  · subst e
    rw [modPort_self]
    exact h _
  · rw [modPort_other p f q e]
    exact .refl _

theorem modClass_books (p : Fin 4) (k : Fin 8) (f : PortClass → PortClass) (s : State) : BooksKept s (modClass p k f s) :=
  modPort_books s fun _ => ⟨rfl, rfl, rfl, rfl, rfl⟩

theorem modLog_books (f : LogState → LogState) (s : State) : BooksKept s (modLog f s) := .of_ports rfl

theorem raise_books (code kind num : Nat) (items : List (Nat × Nat)) (s : State) :
    BooksKept s (raise code kind num items s) := .noted (raise_noted _ _ _ _ _)

theorem raiseBank_books (code : Nat) (c : Fin 32) (b : Nat) (items : List (Nat × Nat)) (s : State) :
    BooksKept s (raiseBank code c b items s) := raise_books _ _ _ _ s

theorem raiseLimited_books (code kind num : Nat) (items : Nat → List (Nat × Nat)) (s : State) :
    BooksKept s (raiseLimited code kind num items s) := .noted (raiseLimited_noted _ _ _ _ _)

theorem missReport_books (p : Fin 4) (k : Fin 8) (s : State) : BooksKept s (missReport p k s) := by
  unfold missReport
  dsimp only
  split
  · exact (modLog_books _ s).trans ((modClass_books _ _ _ _).trans (raise_books _ _ _ _ _))
  · exact .refl s

/-- One of two changes. -/
theorem books_ite {s t u : State} {b : Prop} [Decidable b] (h : BooksKept s u) (ht : BooksKept s t) :
    BooksKept s (if b then t else u) := by
  split
  · exact ht
  · exact h

/-! ### Channels and banks -/

theorem modChannel_books (c : Fin 32) (f : Channel → Channel) (s : State) : BooksKept s (modChannel c f s) :=
  .of_ports rfl

theorem modBank_books (c : Fin 32) (b : Fin 16) (f : Bank → Bank) (s : State) : BooksKept s (modBank c b f s) :=
  modChannel_books _ _ _

theorem modQuarter_books (q : Fin 4) (f : Quarter → Quarter) (s : State) : BooksKept s (modQuarter q f s) :=
  .of_ports rfl

theorem passTo_books (t : Nat) (s : State) : BooksKept s (passTo t s) :=
  .of_ports rfl

theorem storeCoded_books (pl : Place) (c : CodedLine) (s : State) : BooksKept s (storeCoded pl c s) := by
  unfold storeCoded
  exact .of_ports rfl

theorem countWire_books (c : Fin 32) (path : Path) (row : Nat) (s : State) (ws : Nat × Nat) :
    BooksKept s (countWire c path row s ws) := by
  unfold countWire
  exact books_ite (modChannel_books _ _ s)
    ((modChannel_books _ _ s).trans ((modChannel_books _ _ _).trans (raise_books _ _ _ _ _)))

theorem countWires_books (pl : Place) (path : Path) (errs : List (Nat × Nat)) (s : State) :
    BooksKept s (countWires pl path errs s) := books_foldl _ (fun s w => countWire_books _ _ _ s w) _ s

theorem queueSpot_books (pl : Place) (bad : Bool) (s : State) : BooksKept s (queueSpot pl bad s) := by
  unfold queueSpot
  dsimp only
  split
  · exact modChannel_books _ _ s
  · exact (modChannel_books _ _ s).trans (raiseLimited_books _ _ _ _ _)

/-! ### Command words

Each word changes its channel and lets time pass to its first legal CCLK; a WRITE or a skein stores too. -/

theorem issueWord_books (c : Fin 32) (w : CmdWord) (s : State) : BooksKept s (issueWord c w s) := modChannel_books _ _ _

theorem wakePowerDown_books (c : Fin 32) (s : State) : BooksKept s (wakePowerDown c s) :=
  books_ite (BooksKept.refl s) (modChannel_books _ _ _)

theorem creditWindows_books (c : Fin 32) (s : State) : BooksKept s (creditWindows c s) := modChannel_books _ _ _

/-- What a budget spent changes. -/
theorem spend_books (c : Fin 32) (t : State → Nat) (f : Channel → Channel) (s : State) :
    BooksKept s (modChannel c f (creditWindows c (passTo (t (creditWindows c s)) (creditWindows c s)))) :=
  (creditWindows_books c s).trans ((passTo_books _ _).trans ((creditWindows_books c _).trans (modChannel_books _ _ _)))

theorem spendAct_books (c : Fin 32) (s : State) : BooksKept s (spendAct c s) :=
  spend_books c (fun s => budgetTime s s.channels[c] s.channels[c].actBudget (16 * s.channels[c].scalePct))
    (fun y => { y with actBudget := y.actBudget - 100 }) s

theorem spendCol_books (c : Fin 32) (s : State) : BooksKept s (spendCol c s) :=
  spend_books c (fun s => budgetTime s s.channels[c] s.channels[c].colBudget (64 * s.channels[c].scalePct))
    (fun y => { y with colBudget := y.colBudget - 100 }) s

theorem closeRow_books (c : Fin 32) (b : Fin 16) (s : State) : BooksKept s (closeRow c b s) :=
  books_ite ((passTo_books _ s).trans ((modBank_books _ _ _ _).trans (issueWord_books _ _ _))) (BooksKept.refl s)

theorem noteForced_books (c : Fin 32) (b : Fin 16) (s : State) : BooksKept s (noteForced c b s) :=
  books_ite (BooksKept.refl s) ((modChannel_books _ _ s).trans (raiseLimited_books _ _ _ _ _))

theorem refreshNow_books (c : Fin 32) (b : Fin 16) (s : State) : BooksKept s (refreshNow c b s) := by
  refine (noteForced_books c b s).trans ((wakePowerDown_books c _).trans ((closeRow_books c b _).trans ?_))
  unfold refreshNow
  generalize closeRow c b (wakePowerDown c (noteForced c b s)) = t
  exact (passTo_books _ t).trans ((modBank_books _ _ _ _).trans ((modChannel_books _ _ _).trans (issueWord_books _ _ _)))

theorem actRow_books (c : Fin 32) (b : Fin 16) (row : Nat) (s : State) : BooksKept s (actRow c b row s) :=
  (spendAct_books c s).trans ((passTo_books _ _).trans ((modBank_books _ _ _ _).trans
    ((modChannel_books _ _ _).trans (issueWord_books _ _ _))))

/-- A row made the open row of its bank. -/
theorem openBank_books (pl : Place) (s : State) : BooksKept s (openBank pl s) :=
  (wakePowerDown_books pl.channel s).trans (books_ite
    ((closeRow_books _ _ _).trans ((books_ite (BooksKept.refl _) (refreshNow_books _ _ _)).trans (actRow_books _ _ _ _)))
    (BooksKept.refl _))

theorem readBurst_books (pl : Place) (s : State) : BooksKept s (readBurst pl s) :=
  (spendCol_books pl.channel s).trans ((passTo_books _ _).trans ((modBank_books _ _ _ _).trans
    ((modChannel_books _ _ _).trans (issueWord_books _ _ _))))

theorem writeBurst_books (pl : Place) (s : State) : BooksKept s (writeBurst pl s) :=
  (spendCol_books pl.channel s).trans ((passTo_books _ _).trans ((modBank_books _ _ _ _).trans
    ((modChannel_books _ _ _).trans (issueWord_books _ _ _))))

/-! ### The write queue -/

theorem layerWrite_books (c : Fin 32) (e : WqEntry) (s : State) : BooksKept s (layerWrite c e s) :=
  storeCoded_books _ _ s

theorem writeEntry_books (c : Fin 32) (e : WqEntry) (s : State) : BooksKept s (writeEntry c e s) :=
  (modChannel_books _ _ s).trans ((openBank_books _ _).trans ((writeBurst_books _ _).trans
    ((modChannel_books _ _ _).trans (layerWrite_books _ _ _))))

theorem drainOne_books (c : Fin 32) (s : State) : BooksKept s (drainOne c s) := by
  unfold drainOne
  split
  · exact writeEntry_books _ _ s
  · exact (passTo_books _ s).trans (issueWord_books _ _ _)

theorem drainTo_books (c : Fin 32) (low n : Nat) (s : State) : BooksKept s (drainTo c low n s) := by
  induction n generalizing s with
  | zero => exact BooksKept.refl s
  | succ n ih => exact books_ite ((drainOne_books c s).trans (ih _)) (BooksKept.refl s)

theorem pushWrite_books (pl : Place) (data : Line) (poison : Bool) (s : State) :
    BooksKept s (pushWrite pl data poison s) := by
  have put (pl : Place) (s : State) (f : State → Channel → Channel) (b : Prop) [Decidable b] (low : Nat) :
      BooksKept s (modChannel pl.channel (f (wakePowerDown pl.channel (if b then drainTo pl.channel low 128 s else s)))
        (wakePowerDown pl.channel (if b then drainTo pl.channel low 128 s else s))) :=
    (books_ite (BooksKept.refl s) (drainTo_books _ _ _ s)).trans
      ((wakePowerDown_books _ _).trans (modChannel_books _ _ _))
  unfold pushWrite
  split
  · exact (put pl s (fun s c => { c with
      writeQueue := wqPut ⟨pl.bank, pl.row, pl.line, data, none, poison⟩ c.writeQueue
      draining := c.draining || decide (c.wqHigh ≤ (wqPut ⟨pl.bank, pl.row, pl.line, data, none, poison⟩ c.writeQueue).length)
      idleSince := s.hubTimer }) _ _).trans (put _ _ (fun s c => { c with
      writeQueue := wqPut ⟨_, _, _, data, none, poison⟩ c.writeQueue
      draining := c.draining || decide (c.wqHigh ≤ (wqPut ⟨_, _, _, data, none, poison⟩ c.writeQueue).length)
      idleSince := s.hubTimer }) _ _)
  · exact put pl s (fun s c => { c with
      writeQueue := wqPut ⟨pl.bank, pl.row, pl.line, data, none, poison⟩ c.writeQueue
      draining := c.draining || decide (c.wqHigh ≤ (wqPut ⟨pl.bank, pl.row, pl.line, data, none, poison⟩ c.writeQueue).length)
      idleSince := s.hubTimer }) _ _

/-! ### Reads and rows -/

theorem touchBank_books (pl : Place) (s : State) : BooksKept s (touchBank pl s) :=
  (openBank_books pl s).trans (readBurst_books _ _)

theorem fetchLine_books (pl : Place) (s : State) : BooksKept s (fetchLine pl s) := by
  refine (touchBank_books pl s).trans ?_
  unfold fetchLine
  generalize touchBank pl s = t
  dsimp only
  split
  · exact (closeRow_books _ _ t).trans (touchBank_books _ _)
  · exact BooksKept.refl t

theorem decodeRead_books (f : ReadFor) (path : Path) (pl : Place) (s : State) :
    BooksKept s (decodeRead f path pl s).2 := by
  unfold decodeRead
  dsimp only
  split <;> dsimp only
  · exact BooksKept.refl s
  · exact modChannel_books _ _ s
  · exact (modChannel_books _ _ s).trans ((queueSpot_books _ _ _).trans (countWires_books _ _ _ _))
  · exact modChannel_books _ _ s
  · exact (modChannel_books _ _ s).trans ((queueSpot_books _ _ _).trans (raiseBank_books _ _ _ _ _))

/-- A read of a line, from the write queue or from the layer. -/
theorem lineRead_books (f : ReadFor) (pl : Place) (s : State) : BooksKept s (lineRead f pl s).2 := by
  unfold lineRead
  split
  · dsimp only
    split <;> dsimp only
    · exact (modChannel_books _ _ s).trans (modChannel_books _ _ _)
    · exact modChannel_books _ _ s
  · exact (fetchLine_books _ s).trans (decodeRead_books _ _ _ _)

/-! ### BooksKept of partitions -/

/-- One of two outcomes. -/
theorem books_pick {α : Type} (g : α → State) {s : State} {c : Prop} [Decidable c] {x y : α} (hx : BooksKept s (g x))
    (hy : BooksKept s (g y)) : BooksKept s (g (if c then x else y)) := by
  split
  · exact hx
  · exact hy

/-- A fold that carries a value beside the state. -/
theorem books_foldl_with {α β : Type} (f : β × State → α → β × State) (h : ∀ a x, BooksKept a.2 (f a x).2) (l : List α)
    (a : β × State) : BooksKept a.2 (l.foldl f a).2 := by
  induction l generalizing a with
  | nil => exact BooksKept.refl _
  | cons x l ih => exact (h a x).trans (ih _)

theorem modPartition_books (pd : Fin 64) (f : Partition → Partition) (s : State) : BooksKept s (modPartition pd f s) :=
  .of_ports rfl

theorem modSeal_books (pd : Fin 64) (f : SealState → SealState) (s : State) : BooksKept s (modSeal pd f s) :=
  modPartition_books _ _ s

theorem modParams_books (f : DeviceParams → DeviceParams) (s : State) : BooksKept s (modParams f s) :=
  .of_ports rfl

theorem sealCache_books (c : List MetaLine) (s : State) : BooksKept s { s with sealCache := c } :=
  .of_ports rfl

theorem kennel_books (k : List KennelLine) (s : State) : BooksKept s { s with kennel := k } :=
  .of_ports rfl

theorem sealPut_books (m : MetaLine) (s : State) : BooksKept s (sealPut m s) := sealCache_books _ s

theorem countKennelMiss_books (s : State) (pd : Fin 64) (owner : Option Nat) : BooksKept s (countKennelMiss s pd owner) := by
  unfold countKennelMiss
  split
  · exact BooksKept.refl s
  · split
    · exact (modClass_books _ _ _ s).trans (missReport_books _ _ _)
    · exact BooksKept.refl s

theorem kennelDrop_books (pd : Fin 64) (index : Nat) (s : State) : BooksKept s (kennelDrop pd index s) := kennel_books _ s

theorem noteCrypto_books (pl : Place) (s : State) : BooksKept s (noteCrypto pl s) := modQuarter_books _ _ s

/-- A line passed through the crypto slice of its place, where it has one. -/
theorem noteCryptoAt_books (o : Option Place) (s : State) :
    BooksKept s (match o with | some pl => noteCrypto pl s | none => s) := by
  cases o with
  | some pl => exact (noteCrypto_books pl s)
  | none => exact BooksKept.refl s

/-- A line written to a partition that is not SEALED. -/
theorem openWrite_books (pd : Fin 64) (index : Nat) (data : Line) (s : State) :
    BooksKept s (openWrite pd index data s).2 := by
  unfold openWrite
  split
  · exact BooksKept.refl s
  · split
    · exact BooksKept.refl s
    · split
      · exact BooksKept.refl s
      · split
        · exact ((noteCrypto_books _ s).trans (pushWrite_books _ _ _ _))
        · exact (pushWrite_books _ _ _ s)

/-- A metadata line put in the reserve. -/
theorem sealStore_books (m : MetaLine) (s : State) : BooksKept s (sealStore m s) := by
  unfold sealStore
  split
  · exact sealPut_books _ s
  · split
    · exact sealPut_books _ s
    · exact BooksKept.refl s

theorem setAnchor_books (pd : Fin 64) (d n : Nat) (w : Word) (s : State) : BooksKept s (setAnchor pd d n w s) :=
  modSeal_books _ _ s

/-- A write where there is a place for it. -/
theorem pushWhere_books (o : Option Place) (l : Line) (s : State) :
    BooksKept s (match o with | some pl => pushWrite pl l false s | none => s) := by
  cases o with
  | some pl => exact pushWrite_books pl l false s
  | none => exact .refl s

theorem pushMeta_books (pd : Fin 64) (d level index : Nat) (l : Line) (s : State) :
    BooksKept s (pushMeta pd d level index l s) :=
  (pushWhere_books (metaPlace s pd d level index) l s).trans (pushWhere_books _ l _)

theorem readMetaRaw_books (who : Requester) (pd : Fin 64) (d level index : Nat) (s : State) :
    BooksKept s (readMetaRaw who pd d level index s).2 := by
  unfold readMetaRaw
  split
  · exact BooksKept.refl s
  · rename_i pl _
    split
    · exact BooksKept.refl s
    · split
      · exact BooksKept.refl s
      · have h := lineRead_books { who := who, address := 64 * (metaGranuleAt s pd (d / 7) * granuleLines + d % 7 * slotLines + metaOffset level index) } pl s
        split
        all_goals
          rename_i e
          rw [e] at h
          exact h

theorem pathRaw_books (who : Requester) (pd : Fin 64) (d fuel level index : Nat) (s : State) :
    BooksKept s (pathRaw who pd d fuel level index s).2.2 := by
  induction fuel generalizing level index s with
  | zero => exact BooksKept.refl s
  | succ n ih =>
    unfold pathRaw
    split
    · exact BooksKept.refl s
    · have h := readMetaRaw_books who pd d level index s
      split
      all_goals
        rename_i e
        rw [e] at h
      · exact h
      · exact h.trans (ih _ _ _)

/-- One more change that is made only where a condition holds. -/
theorem books_if {s t u : State} {b : Prop} [Decidable b] (h : BooksKept s u) (ht : BooksKept u t) :
    BooksKept s (if b then t else u) := by
  split
  · exact h.trans ht
  · exact h

theorem failTree_books (pd : Fin 64) (d level anchor : Nat) (s : State) : BooksKept s (failTree pd d level anchor s) :=
  (modSeal_books _ _ s).trans
    ((books_if (BooksKept.refl _) (raise_books _ _ _ _ _)).trans (raise_books _ _ _ _ _))

theorem sealWriteBack_books (pd : Fin 64) (d : Nat) (fuel level index : Nat) (l : Line) (s : State) :
    BooksKept s (sealWriteBack pd d fuel level index l s) := by
  induction fuel generalizing level index l s with
  | zero => exact BooksKept.refl s
  | succ n ih =>
    refine (pushMeta_books pd d level index l s).trans ?_
    unfold sealWriteBack
    dsimp only
    split
    · exact BooksKept.refl _
    · split
      · exact setAnchor_books _ _ _ _ _
      · split
        · exact sealPut_books _ _
        · have h (n a : Nat) (u : State) := pathRaw_books .int pd d 4 n a u
          generalize pathRaw .int pd d 4 = path at h ⊢
          generalize pushMeta pd d level index l s = u
          refine (h (level + 1) (index / 8) u).trans ?_
          split
          · exact BooksKept.refl _
          · exact failTree_books _ _ _ _ _
          · split
            · exact sealStore_books _ _
            · exact ih _ _ _ _

theorem sealEvict_books (m : MetaLine) (s : State) : BooksKept s (sealEvict m s) := by
  unfold sealEvict
  dsimp only
  split
  · exact (sealCache_books _ s).trans (sealWriteBack_books _ _ _ _ _ _ _)
  · exact sealCache_books _ s

theorem sealTrim_books (n : Nat) (s : State) : BooksKept s (sealTrim n s) := by
  induction n generalizing s with
  | zero => exact BooksKept.refl s
  | succ n ih =>
    unfold sealTrim
    split
    · exact BooksKept.refl s
    · split
      · exact (sealEvict_books _ s).trans (ih _)
      · exact BooksKept.refl s

theorem sealFit_books (s : State) : BooksKept s (sealFit s) := sealTrim_books _ s

theorem counterLine_books (who : Requester) (pd : Fin 64) (d page : Nat) (s : State) :
    BooksKept s (counterLine who pd d page s).2 := by
  unfold counterLine
  split <;> dsimp only
  · exact (modParams_books _ s).trans (sealPut_books _ _)
  · refine (modParams_books (fun p => { p with sealMetaMisses := p.sealMetaMisses + 1 }) s).trans ?_
    have h := pathRaw_books who pd d 4 1 page
    split
    · exact h _
    · refine (h _).trans ?_
      split <;> dsimp only
      · exact failTree_books _ _ _ _ _
      · exact books_foldl _ (fun s _ => books_if (BooksKept.refl s) (sealStore_books _ s)) _ _

theorem putCounter_books (pd : Fin 64) (d page : Nat) (l : Line) (s : State) : BooksKept s (putCounter pd d page l s) := by
  unfold putCounter
  split
  · exact sealWriteBack_books _ _ _ _ _ _ s
  · exact sealStore_books _ s

theorem tagLine_books (who : Requester) (pd : Fin 64) (d index : Nat) (s : State) :
    BooksKept s (tagLine who pd d index s).2 := by
  unfold tagLine
  split <;> dsimp only
  · exact modParams_books _ s
  · refine (modParams_books (fun p => { p with sealMetaMisses := p.sealMetaMisses + 1 }) s).trans ?_
    have h := readMetaRaw_books who pd d 0 index (modParams (fun p => { p with sealMetaMisses := p.sealMetaMisses + 1 }) s)
    split
    · rename_i e
      rw [e] at h
      refine h.trans ?_
      dsimp only
      split
      · exact sealStore_books _ _
      · exact BooksKept.refl _
    · exact h

theorem putTag_books (pd : Fin 64) (d index : Nat) (l : Line) (s : State) : BooksKept s (putTag pd d index l s) := by
  refine (pushMeta_books pd d 0 index l s).trans ?_
  unfold putTag
  dsimp only
  split
  · exact sealPut_books _ _
  · exact BooksKept.refl _

theorem noteQuarantine_books (pd : Fin 64) (index : Nat) (s : State) : BooksKept s (noteQuarantine pd index s) :=
  (modSeal_books _ _ s).trans (kennelDrop_books _ _ _)

theorem raiseQuarantined_books (who : Requester) (pd : Fin 64) (index : Nat) (s : State) :
    BooksKept s (raiseQuarantined who pd index s) := (noteQuarantine_books pd index s).trans (raise_books _ _ _ _ _)

theorem storedRead_books (who : Requester) (pd : Fin 64) (index : Nat) (s : State) :
    BooksKept s (storedRead who pd index s).2 := by
  unfold storedRead
  split
  · exact BooksKept.refl s
  · rename_i pl _
    split
    · exact BooksKept.refl s
    · split
      · exact BooksKept.refl s
      · have h := lineRead_books { who := who, address := 64 * stackLine s pd index } pl s
        split
        all_goals
          rename_i e
          rw [e] at h
          exact h

theorem recryptLine_books (who : Requester) (pd : Fin 64) (index : Nat) (oldKey newKey : BitVec 512) (c : Line)
    (tag : Option Word) (major : Nat) (s : State) :
    BooksKept s (recryptLine who pd index oldKey newKey c tag major s).2.2.2 := by
  unfold recryptLine
  dsimp only
  have h := storedRead_books who pd index s
  refine books_pick (fun a : Option Line × Word × Nat × State => a.2.2.2) (BooksKept.refl s) ?_
  refine books_pick (fun a : Option Line × Word × Nat × State => a.2.2.2) (BooksKept.refl s) ?_
  refine books_pick (fun a : Option Line × Word × Nat × State => a.2.2.2) h ?_
  · · · split
        · rename_i e
          rw [e] at h
          refine h.trans ?_
          split
          · dsimp only
            split
            · exact ((noteCrypto_books _ _).trans (noteCrypto_books _ _))
            · exact BooksKept.refl _
          · exact raiseQuarantined_books _ _ _ _
        · rename_i e
          rw [e] at h
          exact h.trans (raiseQuarantined_books _ _ _ _)

/-- A write into the queue of a line's place, where it has one. -/
theorem pushAt_books (o : Option Place) (data : Line) (s : State) :
    BooksKept s (match o with | some pl => pushWrite pl data false s | none => s) := by
  cases o with
  | some pl => exact (pushWrite_books _ _ _ s)
  | none => exact BooksKept.refl s

/-- A third component alone. -/
theorem books_third {α β : Type} {s z : State} {x : α} {y : β} (h : BooksKept s z) : BooksKept s (x, y, z).2.2 := h

theorem recryptPage_books (who : Requester) (pd : Fin 64) (d page : Nat) (oldKey newKey : BitVec 512) (c : Line)
    (major : Nat) (fresh : Option (Nat × Line)) (s : State) :
    BooksKept s (recryptPage who pd d page oldKey newKey c major fresh s).2 := by
  have inner {α : Type} (g : Line × Line × State → α → Line × Line × State)
      (hg : ∀ a x, BooksKept a.2.2 (g a x).2.2) (l : List α) (a : Line × Line × State) :
      BooksKept a.2.2 (l.foldl g a).2.2 := by
    induction l generalizing a with
    | nil => exact BooksKept.refl _
    | cons x l ih => exact (hg a x).trans (ih _)
  have hr := recryptLine_books who pd
  have ht := tagLine_books who pd
  unfold recryptPage
  dsimp only
  generalize recryptLine who pd = recrypt at hr ⊢
  generalize tagLine who pd = tag at ht ⊢
  refine books_foldl_with _ (fun acc t => ?_) _ (setMajor 0 major, s)
  refine (ht d (8 * page + t) acc.2).trans ?_
  refine BooksKept.trans ?_ (putTag_books _ _ _ _ _)
  refine inner _ (fun a j => ?_) _ (acc.1, _, _)
  refine books_pick (fun a : Line × Line × State => a.2.2) ?_ ?_
  · exact pushAt_books _ _ _
  · refine books_third ?_
    split
    · exact (hr _ _ _ _ _ _ _).trans (pushWrite_books _ _ _ _)
    · exact hr _ _ _ _ _ _ _

theorem reencrypt_books (who : Requester) (pd : Fin 64) (index : Nat) (data c : Line) (s : State) :
    BooksKept s (reencrypt who pd index data c s).2 := by
  unfold reencrypt
  dsimp only
  split
  · exact BooksKept.refl s
  · dsimp only
    exact (recryptPage_books _ _ _ _ _ _ _ _ _ s).trans ((putCounter_books _ _ _ _ _).trans
      ((modSeal_books _ _ _).trans (raiseLimited_books _ _ _ _ _)))

/-- A SEALED line written, with no room made for it. -/
theorem sealedPut_books (who : Requester) (pd : Fin 64) (index : Nat) (data : Line) (s : State) :
    BooksKept s (sealedPut who pd index data s).2 := by
  unfold sealedPut
  dsimp only
  split
  · exact BooksKept.refl s
  · split
    · exact BooksKept.refl s
    · have h := counterLine_books who pd (index / granuleLines) (index % granuleLines / 64) s
      split
      · rename_i e
        rw [e] at h
        exact h
      · rename_i c s1 e
        rw [e] at h
        refine h.trans ?_
        split
        · exact (raise_books _ _ _ _ _)
        · split
          · exact BooksKept.refl _
          · split
            · exact reencrypt_books _ _ _ _ _ _
            · refine (tagLine_books who pd (index / granuleLines) (index % granuleLines / 8) s1).trans ?_
              dsimp only
              exact ((noteCrypto_books _ _).trans (pushWrite_books _ _ _ _)).trans
                ((putTag_books _ _ _ _ _).trans ((putCounter_books _ _ _ _ _).trans
                  (books_foldl _ (fun s _ => noteQuarantine_books _ _ s) _ _)))

/-! ### Room in the reserve -/

theorem openEvict_books (k : KennelLine) (s : State) : BooksKept s (openEvict k s) := by
  refine (countKennelMiss_books s k.pd k.owner).trans ((kennelDrop_books k.pd k.index _).trans ?_)
  unfold openEvict
  generalize kennelDrop k.pd k.index (countKennelMiss s k.pd k.owner) = t
  dsimp only
  split
  · exact BooksKept.refl t
  · split
    · exact sealedPut_books _ _ _ _ t
    · exact openWrite_books _ _ _ t

/-- A way's Kennel line out of it, where it is still held. -/
theorem wayFreed_books (ch : Nat ⊕ KennelLine ⊕ MetaLine) (s : State) :
    BooksKept s (match ch with
      | .inr (.inl k) => if (kennelHeld s k.pd k.index).isSome then openEvict k s else s
      | _ => s) := by
  split
  · exact books_if (BooksKept.refl s) (openEvict_books _ s)
  · exact BooksKept.refl s

theorem makeRoomFor_books (pd : Fin 64) (d level index : Nat) (s : State) : BooksKept s (makeRoomFor pd d level index s) := by
  unfold makeRoomFor
  split
  · exact BooksKept.refl s
  · split
    · exact BooksKept.refl s
    · exact sealEvict_books _ s
    · have room : BooksKept s (if s.params.sealReserve ≤ s.sealCache.length then
          (match s.sealCache.reverse.find? fun m => !sealPinned s m with | some m => sealEvict m s | none => s) else s) := by
        split
        · split
          · exact sealEvict_books _ s
          · exact BooksKept.refl s
        · exact BooksKept.refl s
      exact room.trans (wayFreed_books _ _)

theorem sealMakeRoom_books (pd : Fin 64) (d i : Nat) (s : State) : BooksKept s (sealMakeRoom pd d i s) :=
  (books_foldl _ (fun s _ => makeRoomFor_books _ _ _ _ s) _ s).trans (makeRoomFor_books _ _ _ _ _)

theorem sealedWrite_books (who : Requester) (pd : Fin 64) (index : Nat) (data : Line) (s : State) :
    BooksKept s (sealedWrite who pd index data s).2 :=
  (sealMakeRoom_books _ _ _ s).trans (sealedPut_books _ _ _ _ _)

theorem sealedRead_books (who : Requester) (pd : Fin 64) (index : Nat) (s : State) :
    BooksKept s (sealedRead who pd index s).2 := by
  unfold sealedRead
  dsimp only
  have h0 := sealMakeRoom_books pd (index / granuleLines) (index % granuleLines) s
  generalize sealMakeRoom pd (index / granuleLines) (index % granuleLines) s = s0 at h0 ⊢
  refine h0.trans ?_
  have h := storedRead_books who pd index s0
  split
  · rename_i e
    rw [e] at h
    exact h
  · rename_i stored s1 e
    rw [e] at h
    refine h.trans ?_
    have h1 := tagLine_books who pd (index / granuleLines) (index % granuleLines / 8) s1
    split
    · rename_i e
      rw [e] at h1
      exact h1
    · rename_i tags s2 e
      rw [e] at h1
      refine h1.trans ?_
      have h2 := counterLine_books who pd (index / granuleLines) (index % granuleLines / 64) s2
      split
      · rename_i e
        rw [e] at h2
        exact h2
      · rename_i c s3 e
        rw [e] at h2
        refine h2.trans ?_
        split <;> dsimp only
        · exact modSeal_books _ _ _
        · split
          · exact BooksKept.refl _
          · split
            · exact noteCryptoAt_books _ _
            · have h3 := storedRead_books who pd index s3
              split
              · rename_i e
                rw [e] at h3
                exact h3
              · rename_i s4 e
                rw [e] at h3
                refine h3.trans ?_
                have h4 := readMetaRaw_books who pd (index / granuleLines) 0 (index % granuleLines / 8) s4
                split
                · rename_i e
                  rw [e] at h4
                  exact h4
                · rename_i e
                  rw [e] at h4
                  refine h4.trans ?_
                  split
                  · exact noteCryptoAt_books _ _
                  · exact (putCounter_books _ _ _ _ _).trans ((modSeal_books _ _ _).trans (raiseQuarantined_books _ _ _ _))

/-- A read of a partition's line, whatever its mode and its outcome. -/
theorem partitionRead_books (who : Requester) (pd : Fin 64) (index : Nat) (s : State) :
    BooksKept s (partitionRead who pd index s).2 := by
  unfold partitionRead
  have h := storedRead_books who pd index s
  split
  · exact h
  · split
    · rename_i e
      rw [e] at h
      exact h.trans (noteCryptoAt_books _ _)
    · exact h
  · exact sealedRead_books _ _ _ s

/-- A write of a partition's line, whatever its mode and its outcome. -/
theorem partitionWrite_books (who : Requester) (pd : Fin 64) (index : Nat) (data : Line) (s : State) :
    BooksKept s (partitionWrite who pd index data s).2 := by
  unfold partitionWrite
  split
  · exact sealedWrite_books _ _ _ _ s
  · exact openWrite_books _ _ _ s


end Sys2Proof.PortBooks
end

section
/-! PROOFS. Attachments and detachments (O24). -/

namespace Sys2Proof.Attachments

open Sys2Proof Sys2Proof.Machine Sys2Proof.Laws Sys2Proof.Safety Sys2Proof.PortRecords Sys2Proof.PortBooks

/-! ### Cells given back -/

section
variable (pd : Fin 64) (s : State)

theorem modBuffer_books (f : BufferState → BufferState) : BooksKept s (modBuffer pd f s) := .of_ports rfl

theorem modQueue_books (q : Nat) (f : Queue → Queue) : BooksKept s (modQueue q f s) := .of_ports rfl

theorem setFreeCache_books (slice pd : Nat) (cells : List Nat) : BooksKept s (setFreeCache slice pd cells s) := .of_ports rfl

theorem bufferWatch_books : BooksKept s (bufferWatch pd s) :=
  books_ite (books_ite (.refl s) (modBuffer_books _ _ _))
    ((modBuffer_books pd s (fun b => { b with lowRaised := true })).trans (raise_books _ _ _ _ _))

theorem writeCell_books (cell : Nat) (bytes : List Byte) : BooksKept s (writeCell pd cell bytes s).2 := by
  unfold writeCell
  exact books_foldl_with (β := Bool) _ (fun a i => partitionWrite_books .int pd (4 * cell + i)
    (lineOf (bytesAt bytes (64 * i) 64)) a.2) (List.range 4) (true, s)

theorem spillCache_books (slice : Fin 4) : BooksKept s (spillCache slice pd s) := by
  unfold spillCache
  dsimp only
  split
  · exact .refl s
  · split
    · exact .refl s
    · next p _ =>
      have h := writeCell_books pd s p (natToBytes 4 s.partitions[pd].buffer.listHead ::
        ((freeCache s slice pd).take 63).map (natToBytes 4)).flatten
      split <;> next e => 
        rw [e] at h
        exact h

theorem giveCell_books (slice : Fin 4) (cell : Nat) : BooksKept s (giveCell slice pd s cell) :=
  (modBuffer_books pd s _).trans ((setFreeCache_books _ _ _ _).trans ((spillCache_books _ _ _).trans (bufferWatch_books _ _)))

theorem giveCells_books (slice : Fin 4) (cells : List Nat) : BooksKept s (giveCells slice pd cells s) :=
  books_foldl _ (fun s cell => giveCell_books pd s slice cell) _ s

end

theorem skimVoids_books (q n : Nat) (s : State) : BooksKept s (skimVoids q n s) := by
  induction n generalizing s with
  | zero => exact .refl s
  | succ n ih =>
    unfold skimVoids
    dsimp only
    refine books_ite (.refl s) ?_
    have h := partitionRead_books .int (queuePd s q) (4 * (queueAt s q).head) s
    split <;> rename_i e <;> rw [e] at h
    · refine h.trans (books_ite (.refl _) ?_)
      exact (modQueue_books _ _ _).trans ((giveCell_books _ _ _ _).trans (ih _))
    · exact h

theorem skim_after {q : Nat} {s t : State} (h : BooksKept s t) : BooksKept s (skim q t) := h.trans (skimVoids_books q _ t)

theorem giveCells_after {slice : Fin 4} {pd : Fin 64} {cells : List Nat} {f : BufferState → BufferState} {s t : State}
    (h : BooksKept s t) : BooksKept s (giveCells slice pd cells (modBuffer pd f t)) :=
  (h.trans (modBuffer_books pd t f)).trans (giveCells_books pd _ slice cells)

theorem voidPacket_books (q : Nat) (a : Admission) (s : State) : BooksKept s (voidPacket q a s) := by
  unfold voidPacket
  dsimp only
  refine books_ite (t := modQueue q _ s) ?_ (modQueue_books s q _)
  have h := partitionWrite_books .int (queuePd s q) (4 * a.cells.getD 0 0)
    (BitVec.ofNat 512 (cellHeader a.spare 0 0 true q (a.admitted / 16))) s
  generalize (partitionWrite .int (queuePd s q) (4 * a.cells.getD 0 0)
    (BitVec.ofNat 512 (cellHeader a.spare 0 0 true q (a.admitted / 16))) s).2 = u at h
  exact skim_after (giveCells_after (h.trans (modQueue_books u q _)))

/-! ### Settlement -/

theorem voidPackets_books (q : Nat) (l : List Admission) (s : State) :
    BooksKept s (l.foldl (fun s a => voidPacket q a s) s) := books_foldl _ (fun s a => voidPacket_books q a s) l s

theorem settleBobbin_books (p : Fin 4) (s : State) : BooksKept s (settleBobbin p s) := by
  unfold settleBobbin
  refine books_foldl _ (fun u e => ?_) s.queues s
  exact (voidPackets_books e.1 ((queueAt u e.1).admissions.filter fun a => a.job.port = p) u).trans (modQueue_books _ e.1 _)

theorem noteTrigger_books (c : Fin 32) (s : State) : BooksKept s (noteTrigger c s) :=
  books_ite (.refl s) (modChannel_books _ _ _)

theorem watchGates_books (s : State) : BooksKept s (watchGates s) := by
  unfold watchGates
  exact books_foldl _ (fun u q => modQuarter_books q _ u) _ s

theorem setRequests_books (c : Fin 32) (l : List QueuedReq) (s : State) : BooksKept s (setRequests c l s) :=
  ((noteTrigger_books c s).trans (modChannel_books c _ _)).trans (watchGates_books _)

theorem settleChannels_books (p : Fin 4) (s : State) : BooksKept s (settleChannels p s) :=
  books_foldl _ (fun u c => ((noteTrigger_books c u).trans (modChannel_books c _ _)).trans (setRequests_books c _ _))
    (List.finRange 32) s

theorem raiseLimited_after {code kind num : Nat} {items : Nat → List (Nat × Nat)} {s t : State} (h : BooksKept s t) :
    BooksKept s (raiseLimited code kind num items t) := h.trans (raiseLimited_books code kind num items t)

theorem devicePanic_books (p : Fin 4) (b : Bool) (s : State) :
    BooksKept s (modPort p (fun x => { x with devicePanic := b }) s) := modPort_books s fun _ => ⟨rfl, rfl, rfl, rfl, rfl⟩

theorem noteTriggers_books (s : State) : BooksKept s (noteTriggers s) := by
  unfold noteTriggers
  exact books_foldl _ (fun u c => noteTrigger_books c u) _ s

theorem panicCheck_books (p : Fin 4) (s : State) : BooksKept s (panicCheck p s) := by
  unfold panicCheck
  dsimp only
  split
  · exact raiseLimited_after (devicePanic_books p true s)
  · split
    · exact raiseLimited_after ((noteTriggers_books s).trans (devicePanic_books p false _))
    · exact .refl s

theorem raiseOrphans_books (p : Fin 4) (before s : State) : BooksKept s (raiseOrphans p before s) := by
  have h := books_foldl (fun s (pd : Fin 64) => raise 0x1034 15 pd [] s) (fun s pd => raise_books _ _ _ _ s)
    (newOrphans before s) s
  unfold raiseOrphans
  exact books_ite (h.trans (raise_books _ _ _ _ _)) h

/-- What a settlement leaves of its port: no request, those that were outstanding counted as cancelled. -/
def Settled (x y : Port) : Prop :=
  y.outstanding = [] ∧ y.held = [] ∧ y.aborted = x.aborted + x.outstanding.length ∧ y.partner = x.partner ∧
    y.partnerState = x.partnerState

theorem Settled.booked {x y z : Port} (h : Settled x y) (h' : Booked y z) : Settled x z := by
  obtain ⟨h1, h2, h3, h4, h5⟩ := h
  obtain ⟨k1, k2, k3, k4, k5⟩ := h'
  exact ⟨k1.trans h1, k2.trans h2, k3.trans h3, k4.trans h4, k5.trans h5⟩

theorem Settled.of_booked {x y z : Port} (h : Booked x y) (h' : Settled y z) : Settled x z := by
  obtain ⟨h1, -, h3, h4, h5⟩ := h
  obtain ⟨k1, k2, k3, k4, k5⟩ := h'
  exact ⟨k1, k2, by rw [k3, h3, h1], k4.trans h4, k5.trans h5⟩

/-- A settlement settles its port, and no other port's partner is changed by it. -/
theorem settlePort_settles (p : Fin 4) (s : State) : Settled s.ports[p] (settlePort p s).ports[p] ∧
    ∀ q : Fin 4, q ≠ p → Booked s.ports[q] (settlePort p s).ports[q] := by
  have hb := (settleBobbin_books p s).trans (settleChannels_books p _)
  unfold settlePort
  dsimp only
  generalize settleChannels p (settleBobbin p s) = u at hb
  refine ⟨.of_booked (hb p) (.booked ?_ (panicCheck_books p _ p)), fun q hq =>
    (hb q).trans (.trans ?_ (panicCheck_books p _ q))⟩
  · rw [modPort_self]
    exact ⟨rfl, rfl, rfl, rfl, rfl⟩
  · rw [modPort_other p _ q hq]
    exact .refl _

/-- The port of a partner that leaves. -/
def leaving (x : Port) : Port := { x with partnerState := .detaching, partner := {}, draining := false }

theorem detachPort_of_attached {p : Fin 4} {s : State} (reason : Nat) (h : s.ports[p].partnerState = .attached) :
    detachPort p reason s = raiseOrphans p s (raise 0x1031 1 p [itReason reason] (settlePort p (modPort p leaving s))) := by
  unfold detachPort
  rw [if_neg (fun hn => hn h)]
  rfl

theorem detachPort_settles {p : Fin 4} {s : State} (reason : Nat) (h : s.ports[p].partnerState = .attached) :
    Settled (leaving s.ports[p]) (detachPort p reason s).ports[p] ∧
    ∀ q : Fin 4, q ≠ p → Booked s.ports[q] (detachPort p reason s).ports[q] := by
  obtain ⟨hp, ho⟩ := settlePort_settles p (modPort p leaving s)
  have hr := (raise_books 0x1031 1 p [itReason reason] (settlePort p (modPort p leaving s))).trans
    (raiseOrphans_books p s _)
  rw [modPort_self] at hp
  rw [detachPort_of_attached reason h]
  refine ⟨hp.booked (hr p), fun q hq => ?_⟩
  have hq' := ho q hq
  rw [modPort_other p _ q hq] at hq'
  exact hq'.trans (hr q)

/-! ### Attachments -/

/-- The binding that an attachment writes. -/
def offered (msg : BitVec 512) : Binding :=
  { identity := BitVec.ofNat 64 (bitsOf msg.toNat 127 64), key := BitVec.ofNat 128 (bitsOf msg.toNat 255 128) }

/-- A partition bound by its port's new partner, where it is valid, the port's and without a binding. -/
def boundBy (p : Fin 4) (b : Binding) (x : Partition) : Partition :=
  if x.valid ∧ x.owner.getLsbD p ∧ x.binding.isNone then { x with binding := some b } else x

/-- The state of an attachment before its events. -/
def attached (p : Fin 4) (msg : BitVec 512) (s : State) : State :=
  let s := modPort p (fun x => { x with
    partnerState := .attached
    partner := { identity := (offered msg).identity, key := (offered msg).key, role := bitsOf msg.toNat 23 16
                 grouped := bitAt msg.toNat 24, events := bitAt msg.toNat 25, credits := bitsOf msg.toNat 271 256 }
    link := { x.link with partnerGranted := bitsOf msg.toNat 271 256 } }) s
  { s with partitions := s.partitions.map (boundBy p (offered msg)) }

/-- The events of an attachment. -/
def welcomed (p : Fin 4) (back : List (Fin 64)) (queues : Nat) (s : State) : State :=
  let t := back.foldl (fun s (pd : Fin 64) => raise 0x1035 15 pd [] s) s
  if queues = 0 then t else raise 0x4015 1 p [itCount queues] t

theorem attachPartner_eq (p : Fin 4) (msg : BitVec 512) (s : State) :
    ∃ rs back queues, (attachPartner p msg s).2 = welcomed p back queues (noteCommit rs (attached p msg s)) :=
  ⟨_, _, _, rfl⟩

theorem welcomed_noted (p : Fin 4) (back : List (Fin 64)) (queues : Nat) (s : State) :
    PortsNoted s (welcomed p back queues s) := by
  have h := portsNoted_foldl (fun s (pd : Fin 64) => raise 0x1035 15 pd [] s) (fun s _ => raise_noted _ _ _ _ s) back s
  unfold welcomed
  dsimp only
  split
  · exact h
  · exact h.trans (raise_noted _ _ _ _ _)

theorem welcomed_events (p : Fin 4) (back : List (Fin 64)) (queues : Nat) (s : State) :
    Events s (welcomed p back queues s) := by
  have h := events_foldl (fun s (pd : Fin 64) => raise 0x1035 15 pd [] s) (fun s _ => raise_events _ _ _ _ s) back s
  unfold welcomed
  dsimp only
  split
  · exact h
  · exact h.trans (raise_events _ _ _ _ _)

theorem attached_port (p : Fin 4) (msg : BitVec 512) (s : State) :
    (attached p msg s).ports[p].partnerState = .attached ∧
    (attached p msg s).ports[p].partner.identity = (offered msg).identity := by
  unfold attached
  dsimp only
  rw [modPort_self]
  exact ⟨rfl, rfl⟩

theorem attached_binding (p : Fin 4) (msg : BitVec 512) (s : State) (pd : Fin 64) :
    (attached p msg s).partitions[pd].binding =
      if s.partitions[pd].valid = true ∧ s.partitions[pd].owner.getLsbD p = true ∧ s.partitions[pd].binding = none then
        some (offered msg)
      else s.partitions[pd].binding := by
  have h : (attached p msg s).partitions[pd] = boundBy p (offered msg) s.partitions[pd] := by
    unfold attached
    exact Vector.getElem_map _ _
  rw [h]
  unfold boundBy
  simp only [Option.isNone_iff_eq_none]
  split <;> rfl

/-- Settles O24. -/
theorem attachAndDetachSettleTheirPort : Obligations.AttachAndDetachSettleTheirPort := by
  refine ⟨fun p msg s => ?_, fun p reason s h => ?_⟩
  · obtain ⟨rs, back, queues, ht⟩ := attachPartner_eq p msg s
    have hn := welcomed_noted p back queues (noteCommit rs (attached p msg s)) p
    obtain ⟨_, _, _, he⟩ := welcomed_events p back queues (noteCommit rs (attached p msg s))
    obtain ⟨h1, h2⟩ := attached_port p msg s
    dsimp only
    rw [ht]
    refine ⟨by rw [he]; rfl, (hn.congr (·.partnerState) fun _ _ _ => rfl).trans h1,
      (hn.congr (·.partner.identity) fun _ _ _ => rfl).trans h2, fun pd => ?_⟩
    rw [he]
    exact attached_binding p msg s pd
  · obtain ⟨⟨h1, h2, h3, -, h5⟩, ho⟩ := detachPort_settles reason h
    exact ⟨h1, h2, h5, h3, fun q hq => ⟨(ho q hq).2.2.2.1, (ho q hq).2.2.2.2⟩⟩

end Sys2Proof.Attachments
end

section
/-! PROOFS. O6 fails for a table whose keys reach the bit that an inserted entry's valid mark takes: the statement
hashes the key of the image as it came, the model that of the marked entry. -/

namespace Sys2Proof.LongKeys

open Sys2Proof Sys2Proof.Machine Sys2Proof.Laws Sys2Proof.Safety Sys2Proof.Tests Sys2Proof.Requests

/-! ### The row of the last committed write -/

/-- The target of a table's last committed write. -/
def lastTarget (td : Fin 16) (s : State) : Option Target := s.tables[td].ring.head?

theorem lastTarget_commitWrite (td : Fin 16) (block slot : Nat) (e : Line) (s : State) :
    lastTarget td (commitWrite td (.row block slot e) s) = some (.row block) := by
  unfold lastTarget commitWrite commitRow commitCount
  dsimp only
  rw [modTable_self]
  rfl

theorem lastTarget_setEntryCount (td : Fin 16) (n : Nat) (s : State) :
    lastTarget td (setEntryCount td n s) = lastTarget td s := by
  unfold lastTarget setEntryCount
  rw [modTable_self]

theorem lastTarget_of_layers {td : Fin 16} {s t : State} (h : Layers s t) : lastTarget td t = lastTarget td s := by
  obtain ⟨_, _, _, _, _, _, _, rfl, -⟩ := h
  rfl

/-- The end of a request that committed a row: the row is the table's last target. -/
def inserted (p : Fin 4) (j : Job) (td : Fin 16) (n block slot : Nat) (e : Line) (s : State) : State :=
  panicCheck p (complete j .ok 1 [] (setEntryCount td n (commitWrite td (.row block slot e) s)))

theorem lastTarget_inserted (p : Fin 4) (j : Job) (td : Fin 16) (n block slot : Nat) (e : Line) (s : State) :
    lastTarget td (inserted p j td n block slot e s) = some (.row block) := by
  unfold inserted
  rw [lastTarget_of_layers (panicCheck_layers _ _), lastTarget_of_layers (complete_events _ _ _ _ _).layers,
    lastTarget_setEntryCount, lastTarget_commitWrite]

/-! ### What the model and the statement say of an insertion -/

/-- The row blocks where the key of the image as the request brought it hashes. -/
def plainBlocks (r : Req) (u : State) : List Nat :=
  let x := u.tables[tdOf r.hdr]
  let h := keyHash x (entryKey x.keyLen (lineOf r.payload))
  [x.baseBlock + h.b1, x.baseBlock + h.b2]

/-- The state of an insertion once the rows of the plain key are read. -/
def rowsRead (p : Fin 4) (r : Req) (u : State) : State := readRows (.port p) (tdOf r.hdr) (plainBlocks r u) u

/-- The first row block of an entry's key. -/
def rowOf (t : Table) (e : Line) : Nat := t.baseBlock + (keyHash t (entryKey t.keyLen e)).b1

/-- The slot of a row that takes an entry where slot i is its lowest free one. -/
def slotOf (s : State) (t : Table) (e : Line) (i : Nat) : Nat :=
  if (match (blockPeek s t.partition (rowOf t e)).getD (keyHash t (entryKey t.keyLen e)).slot none with
    | some l => !entryValid l
    | none => false) then (keyHash t (entryKey t.keyLen e)).slot else i

/-- Nothing stands in the way of an insertion admitted in state u, whose rows are then read. -/
def NoObstacle (p : Fin 4) (r : Req) (u : State) : Prop :=
  let x := u.tables[tdOf r.hdr]
  let v := rowsRead p r u
  let t := v.tables[tdOf r.hdr]
  quarterOut u x.home = false ∧ x.prefixKind = false ∧ firstLost u x.partition (plainBlocks r u) = none ∧
    t.prefixKind = false ∧ findEntry v t (entryKey t.keyLen (lineOf r.payload)) = none

/-- The request inserts into a table with room: slot i is free for the key as it came, slot k for the marked entry. -/
def HasRoom (r : Req) (v : State) (i k : Nat) : Prop :=
  let t := v.tables[tdOf r.hdr]
  auxF r.hdr 5 4 = 0 ∧ t.entryCount ≠ 2 ^ (t.bucketLog2 + 5) ∧ t.entryCount ≠ 268435456 ∧
    freeSlot (blockPeek v t.partition (rowOf t (lineOf r.payload))) = some i ∧
    freeSlot (blockPeek v t.partition (rowOf t (imageEntry (lineOf r.payload) 0))) = some k

section
variable {p : Fin 4} {r : Req} {c : PortClass} {s u v : State} {i k : Nat}

/-- The statement puts the entry in the row of the key as the request brought it. -/
theorem stated_insertion (h : Obligations.LookupsAndTableUpdates) (hp : passes p opTableUpdate r c s = true)
    (ho : NoObstacle p r (admitted p opTableUpdate r c s))
    (hr : HasRoom r (rowsRead p r (admitted p opTableUpdate r c s)) i k) :
    ∃ j n slot v, exec (.tableUpdate p r) s = .next (inserted p j (tdOf r.hdr) n
      (rowOf (rowsRead p r (admitted p opTableUpdate r c s)).tables[tdOf r.hdr] (lineOf r.payload)) slot
      (imageEntry (lineOf r.payload) 0) v) := by
  obtain ⟨hquarter, hkind, hlost, hkind', hfind⟩ := ho
  obtain ⟨hinsert, hcount, hlimit, hfree, -⟩ := hr
  exact ⟨_, _, _, _, ((h.2 p r c s hp hquarter).1 hkind hlost hkind' hfind).1 hinsert hcount hlimit i hfree⟩

theorem insertPlan_of_free (t : Table) (e : Line) (depth : Nat) (h : freeSlot (blockPeek v t.partition (rowOf t e)) = some k) :
    insertPlan v t e depth = (some ([.row (rowOf t e) (slotOf v t e k) e], 0), []) := by
  unfold rowOf at h
  unfold insertPlan
  simp only [h]
  rfl

theorem exactInsert_of_room {j : Job} {td : Fin 16} {img : Line} (noOverwrite : Bool)
    (hfind : findEntry v v.tables[td] (entryKey v.tables[td].keyLen img) = none)
    (hcount : v.tables[td].entryCount ≠ 2 ^ (v.tables[td].bucketLog2 + 5)) (hlimit : v.tables[td].entryCount ≠ 268435456)
    (hfree : freeSlot (blockPeek v v.tables[td].partition (rowOf v.tables[td] (imageEntry img 0))) = some k) :
    ∃ n slot, exactInsert j td img noOverwrite v = complete j .ok 1 [] (setEntryCount td n
      (commitWrite td (.row (rowOf v.tables[td] (imageEntry img 0)) slot (imageEntry img 0)) v)) := by
  refine ⟨v.tables[td].entryCount + 1, slotOf v v.tables[td] (imageEntry img 0) k, ?_⟩
  unfold exactInsert
  simp only [hfind, hcount, hlimit, or_self, if_false, insertPlan_of_free _ _ _ hfree]
  rfl

/-- The model puts the entry in the row of the marked entry's key. -/
theorem model_insertion (hp : passes p opTableUpdate r c s = true) (ho : NoObstacle p r (admitted p opTableUpdate r c s))
    (hr : HasRoom r (rowsRead p r (admitted p opTableUpdate r c s)) i k) :
    ∃ j n slot v, exec (.tableUpdate p r) s = .next (inserted p j (tdOf r.hdr) n
      (rowOf (rowsRead p r (admitted p opTableUpdate r c s)).tables[tdOf r.hdr] (imageEntry (lineOf r.payload) 0)) slot
      (imageEntry (lineOf r.payload) 0) v) := by
  obtain ⟨hquarter, hkind, hlost, hkind', hfind⟩ := ho
  obtain ⟨hinsert, hcount, hlimit, -, hfree⟩ := hr
  have hx : exec (.tableUpdate p r) s = .next (receive performTableUpdate p opTableUpdate r s) := rfl
  have hport : (admittedJob p opTableUpdate r s).port = p := rfl
  generalize hu : admitted p opTableUpdate r c s = u at *
  obtain ⟨n, slot, hi⟩ := exactInsert_of_room (j := admittedJob p opTableUpdate r s) (decide (auxF r.hdr 23 23 = 1))
    hfind hcount hlimit hfree
  refine ⟨admittedJob p opTableUpdate r s, n, slot, rowsRead p r u, exec_of_passes hx hp ?_⟩
  rw [hu, ← hi]
  unfold rowsRead plainBlocks at hkind' ⊢
  unfold plainBlocks at hlost
  unfold performTableUpdate
  simp only [hquarter, hkind, hport, hlost, hkind', hinsert, Bool.false_eq_true, if_false, if_true]

end

/-! ### Keys of 64 bytes -/

/-- The tests' READY stack with a table whose keys are 64 bytes long: they hold bit 448 of an entry. -/
def longKeyed : State := modTable 0 (fun t => { t with keyLen := 64 }) ready

/-- What Collie leaves of the request's class. -/
def insertClass : PortClass := classIn longKeyed opTableUpdate insertReq

/-- The state with the request admitted. -/
def insertState : State := admitted 0 opTableUpdate insertReq insertClass longKeyed

theorem insert_passes : passes 0 opTableUpdate insertReq insertClass longKeyed = true := by decide +kernel

theorem insert_has_no_obstacle : NoObstacle 0 insertReq insertState := by
  unfold NoObstacle
  decide +kernel

theorem insert_has_room : HasRoom insertReq (rowsRead 0 insertReq insertState) 0 0 := by
  unfold HasRoom
  decide +kernel

theorem insert_rows_differ :
    rowOf (rowsRead 0 insertReq insertState).tables[tdOf insertReq.hdr] (lineOf insertReq.payload) ≠
    rowOf (rowsRead 0 insertReq insertState).tables[tdOf insertReq.hdr] (imageEntry (lineOf insertReq.payload) 0) := by
  decide +kernel

/-- Refutes O6: with keys of 64 bytes the valid mark of an entry is a bit of its key, so TABLE_UPDATE inserts the entry
in another row block than the one that the statement names. -/
theorem not_lookupsAndTableUpdates : ¬ Obligations.LookupsAndTableUpdates := by
  intro h
  obtain ⟨_, _, _, _, hstated⟩ := stated_insertion h insert_passes insert_has_no_obstacle insert_has_room
  obtain ⟨_, _, _, _, hmodel⟩ := model_insertion insert_passes insert_has_no_obstacle insert_has_room
  have heq := congrArg (lastTarget (tdOf insertReq.hdr)) (Host.Outcome.next.inj (hstated.symm.trans hmodel))
  rw [lastTarget_inserted, lastTarget_inserted] at heq
  exact insert_rows_differ (Target.row.inj (Option.some.inj heq))

end Sys2Proof.LongKeys
end
